-- ==== Sys2Proof/Word.lean ====
section
/-! DEFINITION. The word types of the Drimus D8 and nothing else: register and memory words are bit vectors (R167), counts and addresses used as keys are natural numbers. -/
namespace Sys2Proof

/-- One byte of memory. -/
abbrev Byte := BitVec 8
/-- A machine word of 32 bits: an instruction word, an extension word, a kernel parameter. -/
abbrev Word32 := BitVec 32
/-- A scalar register, the program counter, a system register (R167, R169). -/
abbrev Word64 := BitVec 64
/-- An access register (R299). -/
abbrev Word48 := BitVec 48
/-- A vector register row or a bypass latch, 512 bytes (R167), byte 0 lowest. -/
abbrev Row := BitVec 4096
/-- A vector mask, one bit a lane (R271). -/
abbrev Mask := BitVec 256
/-- A run of bytes, lowest address first (R4). -/
abbrev ByteList := List Byte
/-- A list of numbers. -/
abbrev NatList := List Nat
/-- Signed immediates as the encodings hold them (R157, R163). -/
abbrev Imm6 := BitVec 6
abbrev Imm12 := BitVec 12
abbrev Imm17 := BitVec 17
abbrev Imm18 := BitVec 18

end Sys2Proof
end

