-- ==== Sys2Proof/Config.lean ====
section
/-! DEFINITION. What the spec leaves open: free values without a body (R8, R469), and what is fixed in a module (fuses). The argument n of a free value is State.steps, a counter that every step advances. -/
namespace Sys2Proof

/-- Cycles that a step takes beyond one (R469, log 1). -/
opaque Config.elapsed (n : Nat) : Nat
/-- Fabric ticks that pass in a step (R22, R367, log 1). -/
opaque Config.ticks (n : Nat) : Nat
/-- How a source die spreads requests over its ports: by the destination module identifier and the 4 KiB block (R364). -/
opaque Config.route (dest block : Nat) : Nat
/-- The path delay of a port in ticks, as its training measures it (R367, log 103). -/
opaque Config.pathDelay (n port : Nat) : Nat
/-- Cycles by which a core's own counter runs ahead of State.cycle in a step (R22, R171, R377, log 1). -/
opaque Config.lead (n core : Nat) : Nat
/-- The entry a full TLB gives up (R82, log 15). -/
opaque Config.tlbVictim (n : Nat) : Nat
/-- The AES data key and the MAC key of a key pair, of 32 bytes each, which never leave Keel and the dies (R370, log 105): tag numbers the pair. -/
opaque Config.dataKey (tag : Nat) : ByteList
opaque Config.macKey (tag : Nat) : ByteList
/-- The seed of the device identity, fused (R368, log 12). -/
opaque Config.fusedSeed : ByteList
/-- The fused minimum security version number of a firmware image (R368, log 12). -/
opaque Config.minSvn : Nat
/-- Contents of a bypass latch that no word has loaded since the kernel switch (R274, log 9). -/
opaque Config.latchFree (n : Nat) (i : Nat) : Row
/-- Results of the special-function unit within the bounds of R290 (log 8): the function by its opcode, the operand's FP32 encoding. -/
opaque Config.special (fn : Nat) (x : Word32) : Word32
/-- What TRN makes of a T3P5 byte (R254, log 92). -/
opaque Config.openTrits (byte : Nat) : Word32
/-- Bytes of a checkpoint image whose save failed (R433, log 20). -/
opaque Config.savedByte (n : Nat) (addr : Nat) : Byte
/-- The fused security policy (R456, log 12). -/
opaque Config.fusedPolicy : BitVec 6
/-- Digests that Keel and the complexes report of images that are outside the model (R369, log 12). -/
opaque Config.digest (what : Nat) : Nat
/-- The certificate chain of slot 0 for the key pair derived from some bytes (R369, log 12). -/
opaque Config.certificate (key : ByteList) : Nat
/-- Matrix issue slots of a ramp interval, within the limits of R147 (R469, log 1). -/
opaque Config.issueSlots (n : Nat) : Nat
/-- The configuration-space offset of a frozen item (R459, log 41). -/
opaque Config.configOffset (item : Nat) : Nat
/-- Which of the cores that the rules allow the front end takes when several do (R31, log 19). -/
opaque Config.choice (n : Nat) : Nat

end Sys2Proof
end

