-- ==== Sys2Proof/Syntax.lean ====
section
/-! DEFINITION. The instructions of the Drimus D8: one constructor of Instr for each row of the opcode table, the words first, the events after them (the compiler can build constructors up to number 244 only, and the decoders and the scheduler of Step.lean build words and a few engine events). The rows are the machine's steps: outside events, front-end packets, engine and fabric events, Cox words, vector kernel words, access words, task operations. Cox words carry their guard (R157); register and object numbers are natural numbers that WellFormed bounds. -/
namespace Sys2Proof

/-- The guard of a Cox word (R157): predicate number G and the negation bit N. -/
structure Guard where
  p : Nat
  neg : Bool
  deriving DecidableEq, Repr

/-- Access size (R166). -/
inductive Size where
  | b | h | w | d
  deriving DecidableEq, Repr

/-- Size of an atomic: only .W and .D are assigned (R206). -/
inductive AmoSize where
  | w | d
  deriving DecidableEq, Repr

/-- Space of a Cox access (R78, R166). -/
inductive Space where
  | l | c | g
  deriving DecidableEq, Repr

/-- Memory scopes in their order strand < core < crew < die < package < gang (R30, R166). -/
inductive Scope where
  | strand | core | crew | die | package | gang
  deriving DecidableEq, Repr

/-- Conditions of CMP (R184). -/
inductive CmpCond where
  | eq | ne | lt | le | gt | ge | ltu | leu | gtu | geu
  deriving DecidableEq, Repr

/-- Conditions of FCMP (R188). -/
inductive FcmpCond where
  | eq | ne | lt | le | gt | ge | un
  deriving DecidableEq, Repr

/-- How a comparison combines with the old predicate (R184). -/
inductive Comb where
  | write | and | or
  deriving DecidableEq, Repr

/-- Second operand of CMP: a register, or a signed 16-bit immediate (R184). -/
inductive CmpSecond where
  | reg (b : Nat)
  | imm (v : BitVec 16)
  deriving DecidableEq, Repr

/-- Kinds of FCVT, 0 to 7 in order (R189). -/
inductive FcvtKind where
  | i64F32 | f32I64 | i32F32 | f32I32 | bf16F32 | f32Bf16 | f16F32 | f32F16
  deriving DecidableEq, Repr

/-- Rounding modes 0 to 3 (R61), the ones FCVT takes (R189). -/
inductive FMode where
  | rne | rtz | rpi | rni
  deriving DecidableEq, Repr

/-- Where DSPT's bucket table lies (R195). -/
inductive DsptTable where
  | rel (e : Word32)
  | loc (off : BitVec 21)
  deriving DecidableEq, Repr

/-- Operations of AMO, codes 0 to 8 (R207). -/
inductive AmoOp where
  | add | and | or | xor | min | max | minu | maxu | swap
  deriving DecidableEq, Repr

/-- A range of FENCE.R, TRACK or PUB: a handle, or a register pair with a space (R211). -/
inductive RangeRef where
  | handle (h : Nat)
  | regs (n : Nat) (sp : Space)
  deriving DecidableEq, Repr

/-- The ranges a FENCE.R names (R212). -/
abbrev RangeList := List RangeRef

/-- What TID reads (R218). -/
inductive TidSel where
  | x (level : Nat)
  | f (level : Nat)
  | n
  | t
  deriving DecidableEq, Repr

/-- Services of SYS (R235). -/
inductive Service where
  | echo | notify
  deriving DecidableEq, Repr

/-- Vector lane types, codes 0 to 3 (R161). -/
inductive VTy where
  | f32 | bf16 | i32 | i16
  deriving DecidableEq, Repr

/-- Integer lane types (R280). -/
inductive ITy where
  | i32 | i16
  deriving DecidableEq, Repr

/-- Floating-point lane types (R288). -/
inductive FTy where
  | f32 | bf16
  deriving DecidableEq, Repr

/-- Conditions of VCMP, codes 0 to 7 (R281). -/
inductive VCond where
  | eq | ne | lt | le | gt | ge | un | ltu
  deriving DecidableEq, Repr

/-- Second operand of an access word: a 17-bit immediate or a register (R301). -/
inductive Src where
  | imm (v : Imm17)
  | reg (n : Nat)
  deriving DecidableEq, Repr

/-- Conditions of ABR, codes 0 to 5 (R303). -/
inductive ACond where
  | eqz | nez | ltz | gez | gtz | lez
  deriving DecidableEq, Repr

/-- What the check of a signed firmware image found (R368): accepted, or refused with the reason of FWIMAGE (1 signature, 2 SVN, 3 read error) and the image's SVN (R435). -/
inductive ImageCheck where
  | accepted
  | refused (reason svn : Nat)
  deriving DecidableEq, Repr

/-- A firmware image for the complexes (R358, R359, R368, R369): its version, the major version of its state table, the major versions it can import, its digest, its SVN, its length in bytes. -/
structure FwImage where
  ver : Nat
  major : Nat
  imports : NatList
  digest : Nat
  svn : Nat
  len : Nat
  deriving DecidableEq, Repr

/-- What Keel finds at module reset (R368): its own firmware's check, the check of the complexes' image, and that image. -/
structure BootOutcome where
  keelOk : Bool
  check : ImageCheck
  img : FwImage
  deriving DecidableEq, Repr

/-- How the import of a state table ends (R359, R448). -/
inductive SwitchOutcome where
  | imported
  | failed
  deriving DecidableEq, Repr

/-- Whence a register access comes (R338, R339): PF0's BAR0, a VF's BAR0, with the IDE stream it comes on (R374), a device unit with or without the privileged view. -/
inductive RegOrigin where
  | pf
  | vf (n : Nat) (ide : Option Nat)
  | device (priv : Bool)
  deriving DecidableEq, Repr

/-- What a PCIe configuration write names (R366, R375, R452). -/
inductive ConfigItem where
  | modid | tsync | rtmo
  | pctl (port : Nat)
  | pcnt (port : Nat) (second : Bool)
  | numVfs | vfEnable | vfBar0
  | vfCommand (vf : Nat)
  | vfMsix (vf : Nat)
  | vfMsixTable (vf word : Nat)
  | other (off : Nat)
  deriving DecidableEq, Repr

/-- An SPDM request other than those with rows of their own (R369). -/
inductive SpdmReq where
  | measurement (idx : Nat)
  | certificate (slot : Nat)
  | openSession (id : Nat)
  | negotiate
  | streamKeys (session stream : Nat)
  deriving DecidableEq, Repr

/-- A block that can lower its own clock (R377). -/
inductive Block where
  | core (n : Nat)
  | mse (n : Nat)
  | stack (n : Nat)
  | other (n : Nat)
  deriving DecidableEq, Repr

/-- A request that arrives from a peer module (R365), with the key identifier it carries. -/
inductive PeerReq where
  | read (tag addr len key : Nat)
  | write (tag addr key : Nat) (data : ByteList)
  | amo (tag addr key : Nat) (op : AmoOp) (sz : AmoSize) (v : Word64)
  | cas (tag addr key : Nat) (sz : AmoSize) (exp new : Word64)
  | postr (tag core : Nat) (rec : ByteList)
  deriving DecidableEq, Repr

/-- What comes back for a tier-1 or tier-2 request (R114, R453). -/
inductive RemoteResult where
  | ok (data : ByteList)
  | error (cause : Nat)
  deriving DecidableEq, Repr

/-- A message of a flit's payload (R362): a request, the completion of one, a collective contribution and an abandon message with the group, round and key identifier they belong to, an arrival at a team barrier. -/
inductive FlitMsg where
  | request (r : PeerReq)
  | completion (req : Nat) (r : RemoteResult)
  | collective (group round rank key : Nat) (data : ByteList)
  | abandon (group round key cause : Nat)
  | barrier (part level team gen member : Nat)
  deriving DecidableEq, Repr

/-- What a flit is, by the type of its header (R362, R451): messages with their destination and class, an acknowledgement of every flit below a sequence number, the request to send the flits from a sequence number on again. -/
inductive FlitType where
  | data (dest cls : Nat) (msgs : List FlitMsg)
  | ack (below : Nat)
  | replay (from_ : Nat)
  deriving DecidableEq, Repr

/-- A flit that arrives (R362, R366): how many beats FEC has corrected in it, its sequence number, what it is. -/
structure FlitIn where
  fec : Nat
  seq : Nat
  what : FlitType
  deriving DecidableEq, Repr

/-- Where an SRAM error lies (R419, R420): owning unit, array code, word index. -/
inductive SramLoc where
  | core (n arr word : Nat)
  | mse (n arr word : Nat)
  | firmware (word : Nat)
  deriving DecidableEq, Repr

/-- How an ATS translation request ends (R347, R416): a translation, a page that is not present, a refusal. -/
inductive AtsResult where
  | present | absent | refused
  deriving DecidableEq, Repr

/-- What freezes for 32 cycles (R422). -/
inductive FreezeLoc where
  | core (n : Nat)
  | mse (n : Nat)
  deriving DecidableEq, Repr

/-- What the checks of a tier-0 line read find (R423, R426). -/
inductive LineOutcome where
  | clean
  | corrected
  | uncorrectable
  | macBad
  | treeBad (level : Nat)
  | cacheError (level : Nat)
  deriving DecidableEq, Repr

/-- The front end's choice of cores and access contexts (R31, R43 step 2): cores in the order of their logical numbers, and for each program entry the contexts reserved. -/
structure Placement where
  cores : NatList
  ctxs : List (Nat × Nat)
  deriving DecidableEq, Repr

/-- The instructions: one constructor a row of the opcode table. -/
inductive Instr where
  /-- NOP (R234): Does nothing. -/
  | nop (g : Guard)
  /-- ADD (R176): Wrapping 64-bit add of two registers. -/
  | add (g : Guard) (d : Nat) (a : Nat) (b : Nat)
  /-- ADD_LONG (R176): Add of a register and a sign-extended 32-bit immediate. -/
  | addLong (g : Guard) (d : Nat) (a : Nat) (e : Word32)
  /-- SUB (R176): Wrapping 64-bit subtract. -/
  | sub (g : Guard) (d : Nat) (a : Nat) (b : Nat)
  /-- SUB_LONG (R176): Subtract of an immediate. -/
  | subLong (g : Guard) (d : Nat) (a : Nat) (e : Word32)
  /-- MUL (R176): Low 64 bits of the product. -/
  | mul (g : Guard) (d : Nat) (a : Nat) (b : Nat)
  /-- MUL_LONG (R176): Multiply by an immediate. -/
  | mulLong (g : Guard) (d : Nat) (a : Nat) (e : Word32)
  /-- MULH (R176): High half of the signed 128-bit product. -/
  | mulh (g : Guard) (d : Nat) (a : Nat) (b : Nat)
  /-- MULH_LONG (R176): High half of the product with an immediate. -/
  | mulhLong (g : Guard) (d : Nat) (a : Nat) (e : Word32)
  /-- DIV (R177): Signed quotient truncated toward zero, with defined corner cases. -/
  | div (g : Guard) (d : Nat) (a : Nat) (b : Nat)
  /-- DIV_LONG (R177): Signed division by an immediate. -/
  | divLong (g : Guard) (d : Nat) (a : Nat) (e : Word32)
  /-- REM (R177): Signed remainder with the sign of the dividend. -/
  | rem (g : Guard) (d : Nat) (a : Nat) (b : Nat)
  /-- REM_LONG (R177): Signed remainder by an immediate. -/
  | remLong (g : Guard) (d : Nat) (a : Nat) (e : Word32)
  /-- AND (R176): Bitwise AND. -/
  | and (g : Guard) (d : Nat) (a : Nat) (b : Nat)
  /-- AND_LONG (R176): Bitwise AND with an immediate. -/
  | andLong (g : Guard) (d : Nat) (a : Nat) (e : Word32)
  /-- OR (R176): Bitwise OR. -/
  | or (g : Guard) (d : Nat) (a : Nat) (b : Nat)
  /-- OR_LONG (R176): Bitwise OR with an immediate. -/
  | orLong (g : Guard) (d : Nat) (a : Nat) (e : Word32)
  /-- XOR (R176): Bitwise XOR. -/
  | xor (g : Guard) (d : Nat) (a : Nat) (b : Nat)
  /-- XOR_LONG (R176): Bitwise XOR with an immediate. -/
  | xorLong (g : Guard) (d : Nat) (a : Nat) (e : Word32)
  /-- ANDN (R176): a AND NOT b. -/
  | andn (g : Guard) (d : Nat) (a : Nat) (b : Nat)
  /-- ANDN_LONG (R176): a AND NOT an immediate. -/
  | andnLong (g : Guard) (d : Nat) (a : Nat) (e : Word32)
  /-- SHL (R176): Shift left by b[5:0]. -/
  | shl (g : Guard) (d : Nat) (a : Nat) (b : Nat)
  /-- SHL_LONG (R176): Shift left by an immediate amount. -/
  | shlLong (g : Guard) (d : Nat) (a : Nat) (e : Word32)
  /-- SHR (R176): Logical shift right by b[5:0]. -/
  | shr (g : Guard) (d : Nat) (a : Nat) (b : Nat)
  /-- SHR_LONG (R176): Logical shift right by an immediate amount. -/
  | shrLong (g : Guard) (d : Nat) (a : Nat) (e : Word32)
  /-- SRA (R176): Arithmetic shift right by b[5:0]. -/
  | sra (g : Guard) (d : Nat) (a : Nat) (b : Nat)
  /-- SRA_LONG (R176): Arithmetic shift right by an immediate amount. -/
  | sraLong (g : Guard) (d : Nat) (a : Nat) (e : Word32)
  /-- ROL (R176): Rotate left within 64 bits. -/
  | rol (g : Guard) (d : Nat) (a : Nat) (b : Nat)
  /-- ROL_LONG (R176): Rotate left by an immediate amount. -/
  | rolLong (g : Guard) (d : Nat) (a : Nat) (e : Word32)
  /-- MIN (R176): Signed minimum. -/
  | min (g : Guard) (d : Nat) (a : Nat) (b : Nat)
  /-- MIN_LONG (R176): Signed minimum with an immediate. -/
  | minLong (g : Guard) (d : Nat) (a : Nat) (e : Word32)
  /-- MAX (R176): Signed maximum. -/
  | max (g : Guard) (d : Nat) (a : Nat) (b : Nat)
  /-- MAX_LONG (R176): Signed maximum with an immediate. -/
  | maxLong (g : Guard) (d : Nat) (a : Nat) (e : Word32)
  /-- CLZ (R178): Count leading zeros. -/
  | clz (g : Guard) (d : Nat) (a : Nat)
  /-- CTZ (R178): Count trailing zeros. -/
  | ctz (g : Guard) (d : Nat) (a : Nat)
  /-- POPC (R178): Population count. -/
  | popc (g : Guard) (d : Nat) (a : Nat)
  /-- BFX (R179): Extracts a bit field, optionally sign-extended. -/
  | bfx (g : Guard) (d : Nat) (a : Nat) (pos : Nat) (wm1 : Nat) (sgn : Bool)
  /-- BFI (R179): Inserts a bit field into sD. -/
  | bfi (g : Guard) (d : Nat) (a : Nat) (pos : Nat) (wm1 : Nat)
  /-- SEXT (R178): Sign-extends from width w. -/
  | sext (g : Guard) (d : Nat) (a : Nat) (wm1 : Nat)
  /-- ZEXT (R178): Zero-extends from width w. -/
  | zext (g : Guard) (d : Nat) (a : Nat) (wm1 : Nat)
  /-- LI (R180): Loads a sign-extended 12-bit constant. -/
  | li (g : Guard) (d : Nat) (i : Imm12)
  /-- LI_LONG (R180): Loads a sign-extended 32-bit constant. -/
  | liLong (g : Guard) (d : Nat) (e : Word32)
  /-- LI_H (R180): Loads the upper 32 bits of sD, keeping the lower half. -/
  | liH (g : Guard) (d : Nat) (e : Word32)
  /-- MOV (R178): Copies a register. -/
  | mov (g : Guard) (d : Nat) (a : Nat)
  /-- SEL (R181): Selects between two registers under a predicate. -/
  | sel (g : Guard) (d : Nat) (a : Nat) (b : Nat) (p : Nat) (neg : Bool)
  /-- LEA (R182): Forms an address PC + a 12-bit offset. -/
  | lea (g : Guard) (d : Nat) (i : Imm12)
  /-- LEA_LONG (R182): Forms an address PC + a 32-bit offset. -/
  | leaLong (g : Guard) (d : Nat) (e : Word32)
  /-- HOFF (R183): Computes the address of a tensor handle element. -/
  | hoff (g : Guard) (d : Nat) (a : Nat) (h : Nat)
  /-- CMP (R184): Compares integers and writes or combines a predicate. -/
  | cmp (g : Guard) (d : Nat) (a : Nat) (cc : CmpCond) (second : CmpSecond) (comb : Comb)
  /-- PAND (R185): Predicate AND. -/
  | pand (g : Guard) (d : Nat) (a : Nat) (b : Nat)
  /-- POR (R185): Predicate OR. -/
  | por (g : Guard) (d : Nat) (a : Nat) (b : Nat)
  /-- PXOR (R185): Predicate XOR. -/
  | pxor (g : Guard) (d : Nat) (a : Nat) (b : Nat)
  /-- PNOT (R185): Predicate NOT. -/
  | pnot (g : Guard) (d : Nat) (a : Nat)
  /-- PGET (R185): Packs all predicates into sD. -/
  | pget (g : Guard) (d : Nat)
  /-- PSET (R185): Sets the predicates selected by a mask. -/
  | pset (g : Guard) (a : Nat) (b : Nat)
  /-- FADD (R186): FP32 add with RNE. -/
  | fadd (g : Guard) (d : Nat) (a : Nat) (b : Nat)
  /-- FADD_LONG (R186): FP32 add of an immediate encoding. -/
  | faddLong (g : Guard) (d : Nat) (a : Nat) (e : Word32)
  /-- FSUB (R186): FP32 subtract. -/
  | fsub (g : Guard) (d : Nat) (a : Nat) (b : Nat)
  /-- FSUB_LONG (R186): FP32 subtract of an immediate. -/
  | fsubLong (g : Guard) (d : Nat) (a : Nat) (e : Word32)
  /-- FMUL (R186): FP32 multiply. -/
  | fmul (g : Guard) (d : Nat) (a : Nat) (b : Nat)
  /-- FMUL_LONG (R186): FP32 multiply by an immediate. -/
  | fmulLong (g : Guard) (d : Nat) (a : Nat) (e : Word32)
  /-- FFMA (R186): FP32 fused multiply-add into sD, rounded once. -/
  | ffma (g : Guard) (d : Nat) (a : Nat) (b : Nat)
  /-- FDIV (R186): FP32 divide. -/
  | fdiv (g : Guard) (d : Nat) (a : Nat) (b : Nat)
  /-- FDIV_LONG (R186): FP32 divide by an immediate. -/
  | fdivLong (g : Guard) (d : Nat) (a : Nat) (e : Word32)
  /-- FMIN (R187): FP32 minimum. -/
  | fmin (g : Guard) (d : Nat) (a : Nat) (b : Nat)
  /-- FMIN_LONG (R187): FP32 minimum with an immediate. -/
  | fminLong (g : Guard) (d : Nat) (a : Nat) (e : Word32)
  /-- FMAX (R187): FP32 maximum. -/
  | fmax (g : Guard) (d : Nat) (a : Nat) (b : Nat)
  /-- FMAX_LONG (R187): FP32 maximum with an immediate. -/
  | fmaxLong (g : Guard) (d : Nat) (a : Nat) (e : Word32)
  /-- FCMP (R188): Compares FP32 values into a predicate. -/
  | fcmp (g : Guard) (d : Nat) (a : Nat) (b : Nat) (cc : FcmpCond) (comb : Comb)
  /-- FCVT (R189): Converts between FP32 and integers, BF16 or FP16. -/
  | fcvt (g : Guard) (d : Nat) (a : Nat) (kind : FcvtKind) (mode : FMode)
  /-- FSGN (R186): Copies the sign of b onto a. -/
  | fsgn (g : Guard) (d : Nat) (a : Nat) (b : Nat)
  /-- FSGN_LONG (R186): Copies the sign of an immediate. -/
  | fsgnLong (g : Guard) (d : Nat) (a : Nat) (e : Word32)
  /-- BR (R191): Branches by an 18-bit word offset. -/
  | br (g : Guard) (off : Imm18)
  /-- BR_LONG (R191): Branches by a 32-bit word offset. -/
  | brLong (g : Guard) (e : Word32)
  /-- CALL (R192): Branches and writes the return address. -/
  | call (g : Guard) (d : Nat) (i : Imm12)
  /-- CALL_LONG (R192): Long-offset call. -/
  | callLong (g : Guard) (d : Nat) (e : Word32)
  /-- RET (R193): Jumps to the address in sA. -/
  | ret (g : Guard) (a : Nat)
  /-- JR (R193): Jumps to sA, writing the link to sD. -/
  | jr (g : Guard) (d : Nat) (a : Nat)
  /-- LOOP (R194): Decrements sD and branches while it is nonzero. -/
  | loop (g : Guard) (d : Nat) (i : Imm12)
  /-- LOOP_LONG (R194): Long-offset counted loop. -/
  | loopLong (g : Guard) (d : Nat) (e : Word32)
  /-- DSPT (R196): Reads a bucket table, writes the capacity and jumps to the first bucket that holds the count. -/
  | dspt (g : Guard) (d : Nat) (a : Nat) (nbm1 : Nat) (tab : DsptTable)
  /-- LD (R202): Loads 1 to 8 bytes from the .L, .C or .G space. -/
  | ld (g : Guard) (d : Nat) (a : Nat) (sz : Size) (sp : Space) (cz : Bool) (sgn : Bool)
  /-- LD_LONG (R202): Load with a 32-bit offset. -/
  | ldLong (g : Guard) (d : Nat) (a : Nat) (sz : Size) (sp : Space) (cz : Bool) (sgn : Bool) (e : Word32)
  /-- ST (R202): Stores 1 to 8 bytes. -/
  | st (g : Guard) (d : Nat) (a : Nat) (sz : Size) (sp : Space) (cz : Bool)
  /-- ST_LONG (R202): Store with a 32-bit offset. -/
  | stLong (g : Guard) (d : Nat) (a : Nat) (sz : Size) (sp : Space) (cz : Bool) (e : Word32)
  /-- PROBE (R204): Looks up a block in the scratch tag table, pinning it or starting a fill, and branches on a miss. -/
  | probe (g : Guard) (d : Nat) (a : Nat) (off : Imm6)
  /-- PROBE_LONG (R204): PROBE with a 32-bit branch offset. -/
  | probeLong (g : Guard) (d : Nat) (a : Nat) (e : Word32)
  /-- UNPIN (R205): Lowers the pin count of a cached block. -/
  | unpin (g : Guard) (a : Nat)
  /-- AMO (R207): Atomic read-modify-write at a scope. -/
  | amo (g : Guard) (d : Nat) (a : Nat) (b : Nat) (op : AmoOp) (sp : Space) (sz : AmoSize) (sc : Scope)
  /-- CAS (R208): Atomic compare-and-swap. -/
  | cas (g : Guard) (d : Nat) (a : Nat) (b : Nat) (sp : Space) (sz : AmoSize) (sc : Scope) (pd : Nat)
  /-- FENCE (R210): Waits until the catch-all items and the strand's reads are performed at a scope. -/
  | fence (g : Guard) (sc : Scope)
  /-- FENCE_R (R212): Range fence over up to four ranges. -/
  | fenceR (g : Guard) (sc : Scope) (rs : RangeList)
  /-- TRACK (R213): Binds a tracking slot to a range with a pre-bind residue. -/
  | track (g : Guard) (slot : Nat) (r : RangeRef)
  /-- UNTRACK (R214): Unbinds a tracking slot. -/
  | untrack (g : Guard) (slot : Nat)
  /-- PUB (R215): Publishes the shadow pages or regions of a range and holds until the publish takes effect. -/
  | pub (g : Guard) (r : RangeRef)
  /-- TBAR (R216): Arrives at a team barrier and holds until the generation changes. -/
  | tbar (g : Guard) (lvl : Nat)
  /-- TID (R218): Reads a team index, fan-out, NLEV or the team number. -/
  | tid (g : Guard) (d : Nat) (ts : TidSel)
  /-- CINIT (R219): Gives a catch barrier a window and an expected count. -/
  | cinit (g : Guard) (cb : Nat) (wm1 : Nat) (cnt : Nat)
  /-- CEXP (R220): Sets a slot's expected count from a register, now or held as pending. -/
  | cexp (g : Guard) (cb : Nat) (slot : Nat) (a : Nat)
  /-- CEXP_LONG (R220): Sets a slot's expected count from an immediate. -/
  | cexpLong (g : Guard) (cb : Nat) (slot : Nat) (cnt : Nat)
  /-- CWAIT (R221): Holds until a catch slot's phase changes, or until it is full. -/
  | cwait (g : Guard) (cb : Nat) (slot : Nat) (p : Nat)
  /-- CREL (R223): Releases a full catch slot for its next fill. -/
  | crel (g : Guard) (cb : Nat) (slot : Nat)
  /-- CTRY (R222): Tests without holding whether a slot is full. -/
  | ctry (g : Guard) (p : Nat) (cb : Nat) (slot : Nat)
  /-- POST (R224): Posts a task record into the Joinery window, holding while it is full. -/
  | post (g : Guard) (a : Nat)
  /-- POST_NB (R224): Posts a record, or returns false at once when the window is full. -/
  | postNb (g : Guard) (p : Nat) (a : Nat)
  /-- POSTR (R225): Delivers a record to a core of another module of the gang, with an optional gang-scope release. -/
  | postr (g : Guard) (p : Nat) (a : Nat) (b : Nat) (core : Nat) (creg : Bool) (rel : Bool)
  /-- POSTT (R225): Delivers a record to another core's ingress queue. -/
  | postt (g : Guard) (p : Nat) (a : Nat) (b : Nat) (core : Nat) (creg : Bool)
  /-- DCSET (R226): Sets a dependence counter from a register. -/
  | dcset (g : Guard) (n : Nat) (a : Nat)
  /-- DCSET_LONG (R226): Sets a dependence counter from an immediate. -/
  | dcsetLong (g : Guard) (n : Nat) (v : Nat)
  /-- DCADD (R226): Adds a register value to a dependence counter. -/
  | dcadd (g : Guard) (n : Nat) (a : Nat)
  /-- DCADD_LONG (R226): Adds an immediate to a dependence counter. -/
  | dcaddLong (g : Guard) (n : Nat) (e : Word32)
  /-- DCWAIT (R226): Holds until the counter is zero. -/
  | dcwait (g : Guard) (n : Nat)
  /-- STA (R228): Stores to the copy aperture, starting a channel copy or writing a template word. -/
  | sta (g : Guard) (p : Nat) (a : Nat) (b : Nat)
  /-- STA_LONG (R228): STA with an added 16-bit offset. -/
  | staLong (g : Guard) (p : Nat) (a : Nat) (b : Nat) (off : Nat)
  /-- SBIND (R229): Binds an access context to a program, barrier and stream number and starts it. -/
  | sbind (g : Guard) (d : Nat) (a : Nat) (b : Nat) (prog : Nat) (cb : Nat) (entry : Nat)
  /-- CQPUSH (R230): Appends an entry to a stream's control queue. -/
  | cqpush (g : Guard) (p : Nat) (a : Nat) (stream : Nat)
  /-- SSTOP (R231): Stops the context of a stream after its current word. -/
  | sstop (g : Guard) (stream : Nat)
  /-- YIELD (R232): Stops the strand at a save point when a yield request is pending. -/
  | yield (g : Guard) (p : Nat)
  /-- LIVE (R233): Sets the live-tile mask from a register. -/
  | live (g : Guard) (a : Nat)
  /-- LIVE_LONG (R233): Sets the live-tile mask from an immediate. -/
  | liveLong (g : Guard) (e : Word32)
  /-- TRAP (R234): Takes the software trap with a code. -/
  | trap (g : Guard) (code : Nat)
  /-- SYS (R235): Sends a service request to the active firmware complex and holds for the reply. -/
  | sys (g : Guard) (d : Nat) (a : Nat) (svc : Service)
  /-- RETT (R319): Restores state from the trap frame and re-injects the replay queue. -/
  | rett (g : Guard)
  /-- MFS (R234): Reads a system register. -/
  | mfs (g : Guard) (d : Nat) (n : Nat)
  /-- MTS (R234): Writes a system register. -/
  | mts (g : Guard) (n : Nat) (a : Nat)
  /-- HALT (R236): Stops the launch part as a self-requested pre-emption, writing an image. -/
  | halt (g : Guard)
  /-- EXIT (R237): Ends the strand once its earlier instructions finish. -/
  | exit (g : Guard)
  /-- VNOP (R277): Vector no-op. -/
  | vnop
  /-- VADD (R278): Lane-wise add. -/
  | vadd (w : Bool) (d : Nat) (a : Nat) (b : Nat) (m : Nat) (t : VTy)
  /-- VSUB (R278): Lane-wise subtract. -/
  | vsub (w : Bool) (d : Nat) (a : Nat) (b : Nat) (m : Nat) (t : VTy)
  /-- VMUL (R278): Lane-wise multiply. -/
  | vmul (w : Bool) (d : Nat) (a : Nat) (b : Nat) (m : Nat) (t : VTy)
  /-- VFMA (R278): Lane-wise fused multiply-add into D. -/
  | vfma (w : Bool) (d : Nat) (a : Nat) (b : Nat) (m : Nat) (t : VTy)
  /-- VMIN (R279): Lane-wise minimum. -/
  | vmin (w : Bool) (d : Nat) (a : Nat) (b : Nat) (m : Nat) (t : VTy)
  /-- VMAX (R279): Lane-wise maximum. -/
  | vmax (w : Bool) (d : Nat) (a : Nat) (b : Nat) (m : Nat) (t : VTy)
  /-- VABS (R279): Lane-wise absolute value. -/
  | vabs (w : Bool) (d : Nat) (a : Nat) (m : Nat) (t : VTy)
  /-- VNEG (R279): Lane-wise negation. -/
  | vneg (w : Bool) (d : Nat) (a : Nat) (m : Nat) (t : VTy)
  /-- VAND (R280): Lane-wise AND. -/
  | vand (w : Bool) (d : Nat) (a : Nat) (b : Nat) (m : Nat) (t : VTy)
  /-- VOR (R280): Lane-wise OR. -/
  | vor (w : Bool) (d : Nat) (a : Nat) (b : Nat) (m : Nat) (t : VTy)
  /-- VXOR (R280): Lane-wise XOR. -/
  | vxor (w : Bool) (d : Nat) (a : Nat) (b : Nat) (m : Nat) (t : VTy)
  /-- VSHL (R280): Integer lane shift left. -/
  | vshl (w : Bool) (d : Nat) (a : Nat) (b : Nat) (m : Nat) (t : ITy)
  /-- VSHR (R280): Integer lane logical shift right. -/
  | vshr (w : Bool) (d : Nat) (a : Nat) (b : Nat) (m : Nat) (t : ITy)
  /-- VSRA (R280): Integer lane arithmetic shift right. -/
  | vsra (w : Bool) (d : Nat) (a : Nat) (b : Nat) (m : Nat) (t : ITy)
  /-- VCMP (R281): Compares lanes into a mask. -/
  | vcmp (cc : VCond) (d : Nat) (a : Nat) (b : Nat) (m : Nat) (t : VTy)
  /-- VSEL (R282): Selects lanes of A or B by a mask. -/
  | vsel (w : Bool) (d : Nat) (a : Nat) (b : Nat) (m : Nat) (t : VTy)
  /-- VMOV (R282): Moves A to D under the mask. -/
  | vmov (w : Bool) (d : Nat) (a : Nat) (m : Nat) (t : VTy)
  /-- VBCST (R282): Broadcasts one lane of A. -/
  | vbcst (w : Bool) (d : Nat) (a : Nat) (b : Nat) (m : Nat) (t : VTy)
  /-- VCVT (R284): Converts 128 elements between formats, as one converted vector. -/
  | vcvt (w : Bool) (d : Nat) (a : Nat) (kind : Nat) (mode : Nat) (m : Nat)
  /-- VSCL (R286): Decodes or encodes four BFPm blocks. -/
  | vscl (w : Bool) (d : Nat) (a : Nat) (mw : Nat) (enc : Bool) (mode : Nat) (m : Nat)
  /-- VREDS (R287): Tree-sums the participating lanes. -/
  | vreds (w : Bool) (d : Nat) (a : Nat) (m : Nat) (t : VTy)
  /-- VREDM (R287): Maximum over the participating lanes. -/
  | vredm (w : Bool) (d : Nat) (a : Nat) (m : Nat) (t : VTy)
  /-- VREDN (R287): Minimum over the participating lanes. -/
  | vredn (w : Bool) (d : Nat) (a : Nat) (m : Nat) (t : VTy)
  /-- VEXP2 (R288): Special function 2^x. -/
  | vexp2 (w : Bool) (d : Nat) (a : Nat) (m : Nat) (t : FTy)
  /-- VLOG2 (R288): Special function log2 x. -/
  | vlog2 (w : Bool) (d : Nat) (a : Nat) (m : Nat) (t : FTy)
  /-- VRCP (R288): Special function 1/x. -/
  | vrcp (w : Bool) (d : Nat) (a : Nat) (m : Nat) (t : FTy)
  /-- VRSQ (R288): Special function 1/sqrt x. -/
  | vrsq (w : Bool) (d : Nat) (a : Nat) (m : Nat) (t : FTy)
  /-- VSQRT (R288): Special function sqrt x. -/
  | vsqrt (w : Bool) (d : Nat) (a : Nat) (m : Nat) (t : FTy)
  /-- VSIG (R288): Special function sigmoid. -/
  | vsig (w : Bool) (d : Nat) (a : Nat) (m : Nat) (t : FTy)
  /-- VTANH (R288): Special function tanh. -/
  | vtanh (w : Bool) (d : Nat) (a : Nat) (m : Nat) (t : FTy)
  /-- VLD (R291): Vector load of up to 512 bytes. -/
  | vld (w : Bool) (d : Nat) (pair : Nat) (g : Bool) (sz : Nat) (b : Nat) (m : Nat) (t : VTy)
  /-- VST (R291): Vector store of up to 512 bytes. -/
  | vst (d : Nat) (pair : Nat) (g : Bool) (sz : Nat) (b : Nat) (m : Nat) (t : VTy)
  /-- VGTH (R292): Gathers one element per lane through an index vector. -/
  | vgth (w : Bool) (d : Nat) (pair : Nat) (g : Bool) (b : Nat) (m : Nat) (t : VTy)
  /-- VPRM (R283): Permutes the lanes of A by the indices in B. -/
  | vprm (w : Bool) (d : Nat) (a : Nat) (b : Nat) (m : Nat) (t : VTy)
  /-- VUNP3 (R294): Decodes T3P5 bytes into lanes of −1, 0 and +1. -/
  | vunp3 (w : Bool) (d : Nat) (a : Nat) (off : Nat) (m : Nat) (t : VTy)
  /-- MAND (R295): Mask AND. -/
  | mand (d : Nat) (a : Nat) (b : Nat)
  /-- MOR (R295): Mask OR. -/
  | mor (d : Nat) (a : Nat) (b : Nat)
  /-- MNOT (R295): Mask NOT. -/
  | mnot (d : Nat) (a : Nat)
  /-- VLOOP (R296): Opens a counted kernel loop. -/
  | vloop (a : Nat)
  /-- VEND (R297): Closes a loop iteration, or with an empty stack ends the kernel. -/
  | vend
  /-- ANOP (R301): Access no-op. -/
  | anop
  /-- AMOV (R302): aD receives src. -/
  | amov (d : Nat) (x : Src)
  /-- AADD (R302): 48-bit add. -/
  | aadd (d : Nat) (a : Nat) (x : Src)
  /-- ASUB (R302): 48-bit subtract. -/
  | asub (d : Nat) (a : Nat) (x : Src)
  /-- AMUL (R302): Low 48 bits of the product. -/
  | amul (d : Nat) (a : Nat) (x : Src)
  /-- ASHL (R302): Shift left. -/
  | ashl (d : Nat) (a : Nat) (x : Src)
  /-- ASHR (R302): Logical shift right. -/
  | ashr (d : Nat) (a : Nat) (x : Src)
  /-- AAND (R302): Bitwise AND. -/
  | aand (d : Nat) (a : Nat) (x : Src)
  /-- AMIN (R302): Signed minimum. -/
  | amin (d : Nat) (a : Nat) (x : Src)
  /-- ACMP (R302): Signed three-way compare. -/
  | acmp (d : Nat) (a : Nat) (x : Src)
  /-- ABR (R303): Branches when aA meets the condition against zero. -/
  | abr (cc : ACond) (a : Nat) (off : Imm17)
  /-- AJMP (R303): Relative or computed jump. -/
  | ajmp (x : Src)
  /-- ALOOP (R304): Opens a counted loop on a counter. -/
  | aloop (n : Nat) (x : Src)
  /-- AEND (R304): Closes a loop iteration. -/
  | aend (n : Nat)
  /-- AHALT (R305): Ends the access context. -/
  | ahalt
  /-- SPUSH (R307): Pushes a two-dimensional box into the scratchpad, counted against the catch window. -/
  | spush (d : Nat) (a : Nat) (b : Nat)
  /-- SPUSHI (R308): Gathers rows through an index list into the scratchpad. -/
  | spushi (d : Nat) (a : Nat) (b : Nat)
  /-- SWIN (R310): Holds until the current slot is free. -/
  | swin
  /-- CQPOP (R311): Takes the oldest control-queue entry, holding while the queue is empty. -/
  | cqpop (d : Nat)
  /-- AFENCE (R312): Holds until the context's earlier pushes have landed and been counted. -/
  | afence
  /-- WLD (R246): Latches one weight tile from the W-store into the array. -/
  | wld (core : Nat) (entry : Nat)
  /-- MM (R248): Streams activation rows past the latched weights over K passes into accumulator rows. -/
  | mm (core : Nat) (entry : Nat)
  /-- MMZ (R248): MM that skips all-zero activation rows. -/
  | mmz (core : Nat) (entry : Nat)
  /-- MMC (R250): Ranks the scores of each row. -/
  | mmc (core : Nat) (entry : Nat)
  /-- TOPK (R251): Ranks each row and writes its top K values and indices. -/
  | topk (core : Nat) (entry : Nat)
  /-- PERM (R252): Reorders activation elements through an index row. -/
  | perm (core : Nat) (entry : Nat)
  /-- RSUM (R253): Sums groups of consecutive activation elements. -/
  | rsum (core : Nat) (entry : Nat)
  /-- TRN (R254): Transposes a tile into accumulator rows. -/
  | trn (core : Nat) (entry : Nat)
  /-- VK (R255): Creates a vector kernel strand from a kernel block. -/
  | vk (core : Nat) (entry : Nat)
  /-- XP (R257): Transposes a local box in 32 × 32 tiles. -/
  | xp (core : Nat) (entry : Nat)
  /-- CPY (R259): Copies a region element for element. -/
  | cpy (core : Nat) (entry : Nat)
  /-- CPY_T8 (R259): Copies with a transpose of 1-byte elements. -/
  | cpyT8 (core : Nat) (entry : Nat)
  /-- CPY_T16 (R259): Copies with a transpose of 2-byte elements. -/
  | cpyT16 (core : Nat) (entry : Nat)
  /-- GATH (R263): Gathers table rows through an index list. -/
  | gath (core : Nat) (entry : Nat)
  /-- SCAT (R264): Scatters rows into a table through an index list. -/
  | scat (core : Nat) (entry : Nat)
  /-- CVT (R260): Converts elements between formats. -/
  | cvt (core : Nat) (entry : Nat)
  /-- FILL (R261): Fills a region with a pattern. -/
  | fill (core : Nat) (entry : Nat)
  /-- PSUM (R266): Computes running offsets or per-entry slots. -/
  | psum (core : Nat) (entry : Nat)
  /-- HIST (R265): Resolves a route list and counts tokens per physical expert. -/
  | hist (core : Nat) (entry : Nat)
  /-- ARED (R268): Collective sum of contributions, with an optional running. -/
  | ared (core : Nat) (entry : Nat)
  /-- BCST (R268): Collective broadcast of the root's data. -/
  | bcst (core : Nat) (entry : Nat)
  /-- WST (R262): Writes bytes into the W-store. -/
  | wst (core : Nat) (entry : Nat)
  /-- ILLEGAL_COX_WORD (R160): A fetched Cox word that is an illegal encoding is not executed, and the strand takes the ILLEGALC trap whatever its guard. -/
  | illegalCoxWord (w : Word32) (e : Word32)
  /-- ILLEGAL_VECTOR_WORD (R162): A vector kernel word that is an illegal encoding traps the kernel strand with ILLEGALV at the boundary before it. -/
  | illegalVectorWord (w : Word32)
  /-- ILLEGAL_ACCESS_WORD (R164): An access word that is an illegal encoding stops its context at the word with ILLEGALA. -/
  | illegalAccessWord (w : Word32)
  /-- INSTRUCTION_FETCH_FAULT (R190): A Cox or kernel word fetch that meets a translation fault, X = 0 or poison faults the strand at the fetch. -/
  | instructionFetchFault (cause : Nat) (info : Word64)
  /-- MODULE_RESET (R368): Module reset: Keel verifies its firmware, derives the identity key, verifies and boots both firmware complexes, records measurements and opens the DOE mailbox. -/
  | moduleReset (o : BootOutcome)
  /-- TLBINV_COMPLETE (R348): Once every TLB has dropped the matching entries and their accesses have completed, BUSY clears and queued invalidations run. -/
  | tlbinvComplete
  /-- FETCHER_TURN (R346): A fetcher reads and starts at most one packet from one of its queues whose next packet may start. -/
  | fetcherTurn (f : Nat)
  /-- NOP_PACKET (R351): The NOP packet completes when it starts. -/
  | nopPacket (q : Nat) (pid : Nat)
  /-- LAUNCH (R355): The LAUNCH packet checks the launch record and its tables and asks for cores, choosing victims in hardware mode. -/
  | launch (q : Nat) (pid : Nat)
  /-- LAUNCH_START (R43): Cox strands start on every core, for a gang launch at the agreed tick, or the gang module does not start with LATETICK or NOLOCK. -/
  | launchStart (part : Nat)
  /-- LAUNCH_COMPLETE (R46): When every strand, task, copy, kernel and context of the part has finished, the front end frees the cores and completes the packet. -/
  | launchComplete (part : Nat)
  /-- WAIT (R351): The WAIT packet reads its listed signals and completes when every one satisfies CMP against REF. -/
  | wait (q : Nat) (pid : Nat)
  /-- SIGNAL (R351): The SIGNAL packet sets or adds to a signal word and may send an MSI-X. -/
  | signal (q : Nat) (pid : Nat)
  /-- COND (R353): The COND packet reads a word and continues, or passes over the next SKIP packets. -/
  | cond (q : Nat) (pid : Nat)
  /-- LOOP_PACKET (R353): The LOOP packet reads a word and branches back BACK packets within its buffer, up to MAXIT times. -/
  | loopPacket (q : Nat) (pid : Nat)
  /-- INDIRECT (R353): The INDIRECT packet opens a level and runs NPKT packets from its buffer, or is refused under R442. -/
  | indirect (q : Nat) (pid : Nat)
  /-- COPY (R351): The COPY packet copies LEN bytes from SRC to DST. -/
  | copy (q : Nat) (pid : Nat)
  /-- FENCE_PACKET (R351): The FENCE packet completes once every earlier packet has completed and its writes are performed at SCOPE. -/
  | fencePacket (q : Nat) (pid : Nat)
  /-- END_PACKET (R353): The END packet returns to the parent level, or in the ring stops the queue and clears EN. -/
  | endPacket (q : Nat) (pid : Nat)
  /-- PACKET_COMPLETION (R352): A packet's completion updates CSIG, advances CPIDX, writes a notification and sends MSI-X, aborted under R438 where applicable. -/
  | packetCompletion (q : Nat) (pid : Nat)
  /-- STTCFG_APPLY (R93): Once no fill is in flight, STTCFG takes its new value, invalidating every tag and zeroing every pin count. -/
  | sttcfgApply (core : Nat)
  /-- INGRESS_ADMISSION (R131): A queued ingress record is admitted into the Joinery window in arrival order, or dropped when it fails R410. -/
  | ingressAdmission (core : Nat)
  /-- TASK_RELEASE (R134): Each engine class releases its highest-priority, oldest ready record to its engine or copy channel. -/
  | taskRelease (core : Nat) (cls : Nat)
  /-- TASK_COMPLETION (R136): When a task's last write is performed, it publishes, writes its status, decrements its counter, frees its entry and resolves its edges. -/
  | taskCompletion (core : Nat) (entry : Nat)
  /-- SCRATCHPAD_PUBLISH (R116): A pending scratchpad publish takes effect in the first cycle no task or copy touching its pages runs, swapping frames for the whole set. -/
  | scratchpadPublish (core : Nat)
  /-- HBM_PUBLISH (R89): An HBM publish holds the regions' accesses, sets PRI to SPRI, frees the old region and releases the holds. -/
  | hbmPublish (die : Nat)
  /-- FRAME_RETURN (R127): An old frame returns to the spare pool once every access translated to it before the publish has completed. -/
  | frameReturn (core : Nat) (frame : Nat)
  /-- VECTOR_KERNEL_START (R37): A released VK task's kernel strand starts when the running kernel ends, reading the kernel block's ENTRY and parameters. -/
  | vectorKernelStart (core : Nat)
  /-- COPY_BOX_ROW (R141): In its round-robin turn, a copy channel reads and writes one box row of its oldest entry. -/
  | copyBoxRow (core : Nat) (ch : Nat)
  /-- COPY_COMPLETION (R109): A copy's writes are performed at package scope, its counter is decremented, and a PROBE fill makes its tag valid. -/
  | copyCompletion (core : Nat) (ch : Nat)
  /-- PUSH_LAND (R309): A push's bytes land in the scratchpad, add to the slot's arrived count and may fill the slot and toggle its phase. -/
  | pushLand (mse : Nat) (ctx : Nat)
  /-- CONTEXT_END (R146): After AHALT or SSTOP, once its issued pushes have landed and been counted, the context frees its stream number, barrier and control queue. -/
  | contextEnd (mse : Nat) (ctx : Nat)
  /-- ACCESS_PERFORMED (R100): A memory access becomes performed at a scope, leaving catch-all and tracking counts and ending the waits of fences on it. -/
  | accessPerformed (core : Nat) (item : Nat) (scope : Scope)
  /-- LOAD_RETURN (R203): A load's value returns into its destination register. -/
  | loadReturn (core : Nat) (slot : Nat)
  /-- NOTIFICATION_WRITE (R354): A notification waiting on a full notification ring is written once the host consumes entries. -/
  | notificationWrite (q : Nat)
  /-- BAR2_READ (R338): A host read through BAR2 reaches HBM at the device physical address through the die's RIT, with the error completions of R446. -/
  | bar2Read (tag : Nat) (addr : Nat) (len : Nat)
  /-- BAR2_WRITE (R338): A host write through BAR2 writes HBM at the device physical address under key identifier 0. -/
  | bar2Write (addr : Nat) (data : ByteList)
  /-- REGISTER_WRITE (R339): An 8-byte aperture, BAR0 or configuration write to a register that has no row of its own stores the fields its map allows. -/
  | registerWrite (org : RegOrigin) (off : Nat) (size : Nat) (v : Word64)
  /-- CONFIGURATION_WRITE (R375): A PCIe configuration write is applied unless it writes an item frozen by TDISP, which moves the TDI to ERROR. -/
  | configurationWrite (item : ConfigItem) (v : Word64)
  /-- DOORBELL (R345): A WRIDX write moves the queue's write index, unless R445 refuses it, and wakes the queue's fetch. -/
  | doorbell (org : RegOrigin) (q : Nat) (v : Word32)
  /-- QUEUE_ENABLE (R342): Setting QCTL.EN latches QBASE and QSZ, sets RDIDX and CPIDX to WRIDX, and clears ERR and QERR. -/
  | queueEnable (q : Nat)
  /-- QUEUE_DISABLE (R342): Clearing QCTL.EN stops new packet starts while started packets run to completion. -/
  | queueDisable (q : Nat)
  /-- QCKREL (R341): Writing 1 to bit n of QCKREL frees checkpoint slot n of the queue. -/
  | qckrel (q : Nat) (mask : Nat)
  /-- QERR_RETRY (R439): QERR ACT = 1 clears the queue error state, and fetch resumes at RDIDX with the packet read anew. -/
  | qerrRetry (q : Nat)
  /-- QERR_SKIP (R439): QERR ACT = 2 completes the ring packet at RDIDX aborted without starting it, clears the error state and resumes fetch after it. -/
  | qerrSkip (q : Nat)
  /-- TLB_INVALIDATE_ALL (R348): TLBINV GO with KIND 0 or 3 starts dropping every device translation and sets BUSY. -/
  | tlbInvalidateAll (kind : Nat)
  /-- TLB_INVALIDATE_ROOT (R348): TLBINV GO with KIND 1 starts dropping the translations tagged with root TLBINVR. -/
  | tlbInvalidateRoot
  /-- TLB_INVALIDATE_PAGE (R348): TLBINV GO with KIND 2 starts dropping the translation of page TLBINVA under root TLBINVR. -/
  | tlbInvalidatePage
  /-- PREEMPT (R356): PREEMPT GO in host-assisted mode takes a save decision for every resident launch part of the named queue. -/
  | preempt (q : Nat)
  /-- MODESEL_WRITE (R357): A MODESEL write takes effect at the end of its cycle, with decisions already begun finishing under the old mode. -/
  | modeselWrite (v : Word64)
  /-- RAMPCTL_WRITE (R378): A RAMPCTL write clamps its limits and takes effect at the start of the next ramp interval. -/
  | rampctlWrite (die : Nat) (v : Word64)
  /-- RIT_WRITE (R340): An aperture write to a RIT entry is held while QS = 1, and otherwise applies to accesses translated after it. -/
  | ritWrite (die : Nat) (lri : Nat) (v : Word64)
  /-- REMAP_REQUEST (R91): REMAPREQ GO is refused or starts a host-assisted swap of regions LRIA and LRIB. -/
  | remapRequest (die : Nat) (v : Word64)
  /-- REMAP_EPOCH_END (R91): At the end of each remap epoch, the hardware-mode engine chooses a hot and a cold region to swap, or drops the choice while BUSY. -/
  | remapEpochEnd (die : Nat)
  /-- REGION_SWAP (R92): Once a spare region is free, the swap quiesces both regions, drains and copies them, remaps them in one step and releases the held accesses. -/
  | regionSwap (die : Nat)
  /-- SWAP_ABANDON (R425): A move that cannot finish within 100 µs is abandoned, the old mapping is kept and SWAPFAIL is recorded. -/
  | swapAbandon (die : Nat)
  /-- CHANNEL_RETIRE (R424): CHRET GO waits for any swap, counts the channel's regions into LEFT and starts moving them to spare regions. -/
  | channelRetire (v : Word64)
  /-- RETIREMENT_MOVE (R424): One region of a retiring channel moves to the lowest spare region outside the channel, and RETIRE is recorded when LEFT reaches 0 or spares run out. -/
  | retirementMove (die : Nat)
  /-- FW_LOAD (R359): FWCTL LOAD copies FWIMG into the standby complex, has Keel verify it and boots it. -/
  | fwLoad (o : ImageCheck) (img : FwImage)
  /-- FW_SWITCH (R359): FWCTL SWITCH stops packet starts and holds firmware requests until a quiescent packet boundary. -/
  | fwSwitch
  /-- FW_SWITCH_HANDOVER (R359): At the quiescent boundary the state table is imported, ACT toggles, and held requests and starts resume, or the switch is refused under R448. -/
  | fwSwitchHandover (o : SwitchOutcome)
  /-- UNIT_RETRY (R417): UNITRES GO with END = 0 re-issues the unperformed accesses of the held unit with new walks. -/
  | unitRetry (seq : Nat)
  /-- UNIT_END (R417): UNITRES GO with END = 1 ends the held unit under R421. -/
  | unitEnd (seq : Nat)
  /-- PORT_ENABLE (R366): Setting PCTL.EN makes the port train and carry traffic. -/
  | portEnable (port : Nat)
  /-- COUNTER_CLEAR (R366): A configuration write of all ones to PCNT or PCNT2 clears the port counters in it. -/
  | counterClear (port : Nat) (second : Bool)
  /-- KEY_ALLOC (R370): The SPDM KEY_ALLOC message allocates a tenant key identifier, for which Keel generates a new key pair. -/
  | keyAlloc (k : Nat)
  /-- KEY_RETIRE (R370): The SPDM KEY_RETIRE message retires an identifier once every W-store slice last written under it is zeroed. -/
  | keyRetire (k : Nat)
  /-- LOCK_INTERFACE_REQUEST (R374): The TDISP message freezes the items of R375 and moves the TDI to CONFIG_LOCKED, or is refused. -/
  | lockInterfaceRequest (vf : Nat)
  /-- START_INTERFACE_REQUEST (R374): The TDISP message moves the TDI to RUN and accepts its MMIO and DMA on its IDE stream. -/
  | startInterfaceRequest (vf : Nat) (stream : Nat)
  /-- STOP_INTERFACE_REQUEST (R374): The TDISP message clears EN of every owned queue and waits for them to become idle. -/
  | stopInterfaceRequest (vf : Nat)
  /-- INTERFACE_UNLOCK (R374): Once every owned queue is idle, the stopping TDI moves to CONFIG_UNLOCKED and its items unfreeze. -/
  | interfaceUnlock (vf : Nat)
  /-- GET_DEVICE_INTERFACE_REPORT (R376): The TDISP request returns the interface report with the key identifier, the owned queues and the frozen-value digest. -/
  | getDeviceInterfaceReport (vf : Nat)
  /-- GET_DEVICE_INTERFACE_STATE (R374): The TDISP request returns the TDI's current state. -/
  | getDeviceInterfaceState (vf : Nat)
  /-- SPDM_REQUEST (R369): Keel answers other SPDM 1.3 requests on the DOE mailbox, including measurements, certificates and secured sessions. -/
  | spdmRequest (r : SpdmReq)
  /-- ATS_COMPLETION (R347): An ATS translation completion fills the host translation cache, or refuses the page with HOSTXLAT. -/
  | atsCompletion (iova : Nat) (r : AtsResult)
  /-- PRI_RESPONSE (R416): A PRI response releases the access held on a non-present tier-2 page, or refuses it with HOSTXLAT. -/
  | priResponse (iova : Nat) (ok : Bool)
  /-- ATS_INVALIDATION_REQUEST (R347): An ATS Invalidation Request starts dropping the matching host translations. -/
  | atsInvalidationRequest (iova : Nat) (len : Nat)
  /-- ATS_INVALIDATION_COMPLETE (R347): Once the matching entries are dropped and their accesses have completed, the invalidation is completed to the host. -/
  | atsInvalidationComplete
  /-- IDE_FAILURE (R458): A received TLP that fails its IDE check moves its stream to Insecure and its TDIs to ERROR. -/
  | ideFailure (stream : Nat)
  /-- TAMPER (R456): A Keel tamper sensor fires and the fused policy is applied. -/
  | tamper (sensor : Nat)
  /-- GLITCH (R456): A voltage or clock glitch detector fires and the fused policy is applied. -/
  | glitch (detector : Nat)
  /-- THERMAL_THROTTLE (R377): A block whose junction reaches 105 °C lowers its own clock until it falls below 100 °C. -/
  | thermalThrottle (block : Block)
  /-- RAMP_INTERVAL_END (R147): At the end of each 1 µs interval, the die's ramp limiter sets the allowed issue-slot count and the filler slots for the next interval. -/
  | rampIntervalEnd (die : Nat)
  /-- FLIT_RECEIVE (R362): A 256-byte flit is received on a port and delivered in sequence, or replayed when its CRC fails. -/
  | flitReceive (port : Nat) (good : Bool) (flit : FlitIn)
  /-- LINK_DOWN (R451): A port loses training or reaches the replay limit, drops UP, and resends its unacknowledged flits on the die's other ports. -/
  | linkDown (port : Nat) (reason : Nat)
  /-- ROOT_ANNOUNCEMENT_SEND (R367): Every 1 µs, a time-root module sends a root announcement on every up port. -/
  | rootAnnouncementSend
  /-- ROOT_ANNOUNCEMENT_RECEIVE (R367): A received root announcement is followed, forwarded and locked to, or sets CONFLICT at a root. -/
  | rootAnnouncementReceive (port : Nat) (id : Nat) (rootTick : Word64)
  /-- ROOT_LOST (R367): After 1 ms without an announcement of the followed root, LOCK clears and the tick counter runs freely. -/
  | rootLost
  /-- PEER_REQUEST (R365): A request from a peer module is served as an access to this module's tier 0 under the key identifier it carries. -/
  | peerRequest (r : PeerReq)
  /-- INGRESS_ARRIVAL (R131): A POSTT or POSTR record arrives at a core's remote ingress queue and is queued, or refused when the queue is full or the launch is being saved. -/
  | ingressArrival (core : Nat) (rec : ByteList)
  /-- REMOTE_COMPLETION (R114): A completion returns from a peer or the host for a tier-1 or tier-2 request, possibly an error completion handled under R453. -/
  | remoteCompletion (req : Nat) (r : RemoteResult)
  /-- COMPLETION_TIMEOUT (R453): A tier-1 or tier-2 request with no completion within RTMO fails with REMTIMEOUT. -/
  | completionTimeout (req : Nat)
  /-- COLLECTIVE_MESSAGE (R267): A collective exchange contribution arrives at a participant. -/
  | collectiveMessage (core : Nat) (entry : Nat) (rank : Nat) (data : ByteList)
  /-- COLLECTIVE_ABANDON (R455): An abandon message ends the receiving participant's task of the round with the cause it carries. -/
  | collectiveAbandon (core : Nat) (entry : Nat) (cause : Nat)
  /-- SRAM_CORRECTED_ERROR (R422): A corrected SRAM error freezes the owning core or MSE for 32 cycles and writes SRAMCE. -/
  | sramCorrectedError (loc : SramLoc)
  /-- FREEZE_END (R422): The 32-cycle freeze expires, and the events recorded during it take effect. -/
  | freezeEnd (loc : FreezeLoc)
  /-- SRAM_UNCORRECTABLE_ERROR (R420): An uncorrectable SRAM error poisons the word, drops the entry or ends the launch part, as the array decides. -/
  | sramUncorrectableError (loc : SramLoc)
  /-- TIER0_LINE_READ (R426): A tier-0 line returns from HBM, and its line code, MAC and counter tree are checked before delivery. -/
  | tier0LineRead (dpa : Nat) (key : Nat) (o : LineOutcome)
  /-- HEARTBEAT (R449): Every 100 µs the front end sends a heartbeat that the active complex must answer. -/
  | heartbeat
  /-- STATE_TABLE_COMMIT (R449): The active complex commits its state table into the standby's SRAM at a quiescent packet boundary. -/
  | stateTableCommit
  /-- HEARTBEAT_TIMEOUT (R449): After 1 ms without a heartbeat answer, the active complex is declared failed and the front end fails over or loses firmware. -/
  | heartbeatTimeout (ctrlue : Bool)
  /-- LAUNCH_SETUP (R43): Once the chosen cores and MSE contexts are free, set-up steps 3 to 5 apply the partition, tables, programs and counters. -/
  | launchSetup (part : Nat) (place : Placement)
  /-- RESUME (R335): The RESUME packet checks the checkpoint image and the launch record, and asks for cores. -/
  | resume (q : Nat) (pid : Nat)
  /-- RESUME_RESTORE (R335): Once cores and contexts are free, the image is restored, and every unit starts at its recorded point. -/
  | resumeRestore (part : Nat) (place : Placement)
  /-- HARDWARE_RESUME (R356): In hardware mode, the front end itself resumes saved parts once cores are free, highest priority and oldest save first. -/
  | hardwareResume
  /-- WAIT_POLL (R351): Every WAITPOLL interval, or on a front-end signal update, an unsatisfied WAIT is evaluated again and may complete or abort. -/
  | waitPoll (q : Nat) (pid : Nat)
  /-- SYS_REPLY (R235): The firmware's reply to a SYS request returns, and the holding strand writes sD and continues. -/
  | sysReply (core : Nat) (slot : Nat)
  /-- UNIT_TRAP_RESOLUTION (R321): The active firmware complex resolves a trap of a unit without a handler, which then continues, or ends its task or context. -/
  | unitTrapResolution (seq : Nat)
  /-- HBM_SHADOW_BIND (R89): An S write to an HBM region takes a spare region, copies the visible region into it, sets SPRI and SHV, and lands in the shadow. -/
  | hbmShadowBind (die : Nat) (lri : Nat)
  /-- CAUSAL_STORE_APPLY (R107): A die applies a delivered causal store once its applied clock satisfies the store's clock. -/
  | causalStoreApply (die : Nat) (src : Nat)
  /-- CAUSAL_LOAD_SERVE (R107): The home die serves a causal load once its applied clock covers the load's seen clock, and returns that clock. -/
  | causalLoadServe (core : Nat) (slot : Nat)
  /-- YIELD_DEADLINE (R323): The tick reaches DLTICK with strands not yet yielded, so the save decision is forced and they stop at their next boundary. -/
  | yieldDeadline (part : Nat)
  /-- SAVE_STOPPED (R324): Once the collector holds every unit's acknowledgement, the front end writes the checkpoint image and frees the cores. -/
  | saveStopped (part : Nat)
  /-- PREEMPTION_COMPLETE (R324): The image write is performed at package scope and the part's pre-emption completes, or SAVEFAIL ends the part. -/
  | preemptionComplete (part : Nat)
  /-- ACTIVITY_TIMEOUT (R428): A core quiet for WAITCFG.THR microseconds clears its activity bit. -/
  | activityTimeout (core : Nat)
  /-- WAIT_PROBE_ORIGINATE (R429): Logical core 0, quiet for THR with a held strand or record, sends a wait-cycle probe around the part. -/
  | waitProbeOriginate (part : Nat)
  /-- WAIT_PROBE_RETURN (R429): A returning probe sends a second probe, ends the attempt, or declares a wait cycle with WAITCYCLE. -/
  | waitProbeReturn (part : Nat)
  /-- STTCFG_WRITE (R93): An MTS to STTCFG is refused, or waits for fills in flight with new fills held. -/
  | sttcfgWrite (core : Nat) (slot : Nat) (v : Word64)
  /-- LINK_UP (R366): A Nerior Link port finishes training, sets PSTAT.UP, LANES and PEER, and begins to carry traffic. -/
  | linkUp (port : Nat) (lanes : Nat) (peer : Nat)
  /-- THERMAL_RECOVERY (R377): A throttled block whose junction falls below 100 °C restores its own clock. -/
  | thermalRecovery (block : Block)
  /-- GANG_BARRIER_ARRIVAL (R329): A gang-level team-barrier arrival announced by another module is counted once, and may end the barrier's round. -/
  | gangBarrierArrival (part : Nat) (level : Nat) (team : Nat) (gen : Nat) (member : Nat)
  deriving DecidableEq, Repr

end Sys2Proof
end

