-- ==== Sys2Proof/WellFormed.lean ====
section
/-! DEFINITION. Which terms of Instr are instructions: every register, predicate, mask, selector and object number inside its file (R6, R167), every second-level value assigned (R160, R162, R164, R198, R277, R301). The steps that are no encoded words carry no bounds here; their numbers are checked where they are used. -/
namespace Sys2Proof

/-- A guard names one of the 24 predicates (R160). -/
def Guard.wf (g : Guard) : Bool := g.p < 24

/-- Handle 1 to 255, or a register pair 0 to 62 (R211). -/
def RangeRef.wf : RangeRef → Bool
  | .handle h => 1 ≤ h && h < 256
  | .regs n _ => n < 63

/-- The register form names s0 to s63 (R184). -/
def CmpSecond.wf : CmpSecond → Bool
  | .reg b => b < 64
  | .imm _ => true

/-- TID's levels are 0 to 7 (R218). -/
def TidSel.wf : TidSel → Bool
  | .x l => l < 8
  | .f l => l < 8
  | .n => true
  | .t => true

/-- .UN is for floating-point lanes, .LTU for integer lanes (R281). -/
def VCond.allows : VCond → VTy → Bool
  | .un, .f32 => true
  | .un, .bf16 => true
  | .un, _ => false
  | .ltu, .i32 => true
  | .ltu, .i16 => true
  | .ltu, _ => false
  | _, _ => true

/-- The rounding modes each kind of VCVT takes (R284). -/
def vcvtModeOk (kind mode : Nat) : Bool :=
  if kind < 8 || kind == 15 then mode == 0 else mode < 5

/-- A register operand of an access word is a0 to a15 (R163). -/
def Src.wf : Src → Bool
  | .imm _ => true
  | .reg n => n < 16

/-- Well-formed instructions. -/
def Instr.wf : Instr → Bool
  | .moduleReset _ => true
  | .bar2Read _ _ _ => true
  | .bar2Write _ _ => true
  | .registerWrite _ _ _ _ => true
  | .configurationWrite _ _ => true
  | .doorbell _ _ _ => true
  | .queueEnable _ => true
  | .queueDisable _ => true
  | .qckrel _ _ => true
  | .qerrRetry _ => true
  | .qerrSkip _ => true
  | .tlbInvalidateAll _ => true
  | .tlbInvalidateRoot => true
  | .tlbInvalidatePage => true
  | .tlbinvComplete => true
  | .preempt _ => true
  | .modeselWrite _ => true
  | .rampctlWrite _ _ => true
  | .ritWrite _ _ _ => true
  | .remapRequest _ _ => true
  | .remapEpochEnd _ => true
  | .regionSwap _ => true
  | .swapAbandon _ => true
  | .channelRetire _ => true
  | .retirementMove _ => true
  | .fwLoad _ _ => true
  | .fwSwitch => true
  | .fwSwitchHandover _ => true
  | .unitRetry _ => true
  | .unitEnd _ => true
  | .portEnable _ => true
  | .counterClear _ _ => true
  | .keyAlloc _ => true
  | .keyRetire _ => true
  | .lockInterfaceRequest _ => true
  | .startInterfaceRequest _ _ => true
  | .stopInterfaceRequest _ => true
  | .interfaceUnlock _ => true
  | .getDeviceInterfaceReport _ => true
  | .getDeviceInterfaceState _ => true
  | .spdmRequest _ => true
  | .atsCompletion _ _ => true
  | .priResponse _ _ => true
  | .atsInvalidationRequest _ _ => true
  | .atsInvalidationComplete => true
  | .ideFailure _ => true
  | .tamper _ => true
  | .glitch _ => true
  | .thermalThrottle _ => true
  | .rampIntervalEnd _ => true
  | .flitReceive _ _ _ => true
  | .linkDown _ _ => true
  | .rootAnnouncementSend => true
  | .rootAnnouncementReceive _ _ _ => true
  | .rootLost => true
  | .peerRequest _ => true
  | .ingressArrival _ _ => true
  | .remoteCompletion _ _ => true
  | .completionTimeout _ => true
  | .collectiveMessage _ _ _ _ => true
  | .collectiveAbandon _ _ _ => true
  | .sramCorrectedError _ => true
  | .freezeEnd _ => true
  | .sramUncorrectableError _ => true
  | .tier0LineRead _ _ _ => true
  | .heartbeat => true
  | .stateTableCommit => true
  | .heartbeatTimeout _ => true
  | .fetcherTurn _ => true
  | .nopPacket _ _ => true
  | .launch _ _ => true
  | .launchSetup _ _ => true
  | .launchStart _ => true
  | .launchComplete _ => true
  | .resume _ _ => true
  | .resumeRestore _ _ => true
  | .hardwareResume => true
  | .wait _ _ => true
  | .waitPoll _ _ => true
  | .signal _ _ => true
  | .cond _ _ => true
  | .loopPacket _ _ => true
  | .indirect _ _ => true
  | .copy _ _ => true
  | .fencePacket _ _ => true
  | .endPacket _ _ => true
  | .packetCompletion _ _ => true
  | .notificationWrite _ => true
  | .sysReply _ _ => true
  | .unitTrapResolution _ => true
  | .ingressAdmission _ => true
  | .taskRelease _ _ => true
  | .taskCompletion _ _ => true
  | .scratchpadPublish _ => true
  | .hbmShadowBind _ _ => true
  | .hbmPublish _ => true
  | .frameReturn _ _ => true
  | .vectorKernelStart _ => true
  | .copyBoxRow _ _ => true
  | .copyCompletion _ _ => true
  | .pushLand _ _ => true
  | .contextEnd _ _ => true
  | .accessPerformed _ _ _ => true
  | .loadReturn _ _ => true
  | .causalStoreApply _ _ => true
  | .causalLoadServe _ _ => true
  | .yieldDeadline _ => true
  | .saveStopped _ => true
  | .preemptionComplete _ => true
  | .activityTimeout _ => true
  | .waitProbeOriginate _ => true
  | .waitProbeReturn _ => true
  | .nop g => g.wf
  | .add g d a b => g.wf && d < 64 && a < 64 && b < 64
  | .addLong g d a _ => g.wf && d < 64 && a < 64
  | .sub g d a b => g.wf && d < 64 && a < 64 && b < 64
  | .subLong g d a _ => g.wf && d < 64 && a < 64
  | .mul g d a b => g.wf && d < 64 && a < 64 && b < 64
  | .mulLong g d a _ => g.wf && d < 64 && a < 64
  | .mulh g d a b => g.wf && d < 64 && a < 64 && b < 64
  | .mulhLong g d a _ => g.wf && d < 64 && a < 64
  | .div g d a b => g.wf && d < 64 && a < 64 && b < 64
  | .divLong g d a _ => g.wf && d < 64 && a < 64
  | .rem g d a b => g.wf && d < 64 && a < 64 && b < 64
  | .remLong g d a _ => g.wf && d < 64 && a < 64
  | .and g d a b => g.wf && d < 64 && a < 64 && b < 64
  | .andLong g d a _ => g.wf && d < 64 && a < 64
  | .or g d a b => g.wf && d < 64 && a < 64 && b < 64
  | .orLong g d a _ => g.wf && d < 64 && a < 64
  | .xor g d a b => g.wf && d < 64 && a < 64 && b < 64
  | .xorLong g d a _ => g.wf && d < 64 && a < 64
  | .andn g d a b => g.wf && d < 64 && a < 64 && b < 64
  | .andnLong g d a _ => g.wf && d < 64 && a < 64
  | .shl g d a b => g.wf && d < 64 && a < 64 && b < 64
  | .shlLong g d a _ => g.wf && d < 64 && a < 64
  | .shr g d a b => g.wf && d < 64 && a < 64 && b < 64
  | .shrLong g d a _ => g.wf && d < 64 && a < 64
  | .sra g d a b => g.wf && d < 64 && a < 64 && b < 64
  | .sraLong g d a _ => g.wf && d < 64 && a < 64
  | .rol g d a b => g.wf && d < 64 && a < 64 && b < 64
  | .rolLong g d a _ => g.wf && d < 64 && a < 64
  | .min g d a b => g.wf && d < 64 && a < 64 && b < 64
  | .minLong g d a _ => g.wf && d < 64 && a < 64
  | .max g d a b => g.wf && d < 64 && a < 64 && b < 64
  | .maxLong g d a _ => g.wf && d < 64 && a < 64
  | .clz g d a => g.wf && d < 64 && a < 64
  | .ctz g d a => g.wf && d < 64 && a < 64
  | .popc g d a => g.wf && d < 64 && a < 64
  | .bfx g d a pos wm1 _ => g.wf && d < 64 && a < 64 && pos < 64 && wm1 < 64
  | .bfi g d a pos wm1 => g.wf && d < 64 && a < 64 && pos < 64 && wm1 < 64
  | .sext g d a wm1 => g.wf && d < 64 && a < 64 && wm1 < 64
  | .zext g d a wm1 => g.wf && d < 64 && a < 64 && wm1 < 64
  | .li g d _ => g.wf && d < 64
  | .liLong g d _ => g.wf && d < 64
  | .liH g d _ => g.wf && d < 64
  | .mov g d a => g.wf && d < 64 && a < 64
  | .sel g d a b p _ => g.wf && d < 64 && a < 64 && b < 64 && p < 24
  | .lea g d _ => g.wf && d < 64
  | .leaLong g d _ => g.wf && d < 64
  | .hoff g d a h => g.wf && d < 64 && a < 64 && h < 256
  | .cmp g d a _ second _ => g.wf && a < 64 && d < 24 && second.wf
  | .pand g d a b => g.wf && d < 24 && a < 24 && b < 24
  | .por g d a b => g.wf && d < 24 && a < 24 && b < 24
  | .pxor g d a b => g.wf && d < 24 && a < 24 && b < 24
  | .pnot g d a => g.wf && d < 24 && a < 24
  | .pget g d => g.wf && d < 64
  | .pset g a b => g.wf && a < 64 && b < 64
  | .fadd g d a b => g.wf && d < 64 && a < 64 && b < 64
  | .faddLong g d a _ => g.wf && d < 64 && a < 64
  | .fsub g d a b => g.wf && d < 64 && a < 64 && b < 64
  | .fsubLong g d a _ => g.wf && d < 64 && a < 64
  | .fmul g d a b => g.wf && d < 64 && a < 64 && b < 64
  | .fmulLong g d a _ => g.wf && d < 64 && a < 64
  | .ffma g d a b => g.wf && d < 64 && a < 64 && b < 64
  | .fdiv g d a b => g.wf && d < 64 && a < 64 && b < 64
  | .fdivLong g d a _ => g.wf && d < 64 && a < 64
  | .fmin g d a b => g.wf && d < 64 && a < 64 && b < 64
  | .fminLong g d a _ => g.wf && d < 64 && a < 64
  | .fmax g d a b => g.wf && d < 64 && a < 64 && b < 64
  | .fmaxLong g d a _ => g.wf && d < 64 && a < 64
  | .fcmp g d a b _ _ => g.wf && a < 64 && b < 64 && d < 24
  | .fcvt g d a _ _ => g.wf && d < 64 && a < 64
  | .fsgn g d a b => g.wf && d < 64 && a < 64 && b < 64
  | .fsgnLong g d a _ => g.wf && d < 64 && a < 64
  | .br g _ => g.wf
  | .brLong g _ => g.wf
  | .call g d _ => g.wf && d < 64
  | .callLong g d _ => g.wf && d < 64
  | .ret g a => g.wf && a < 64
  | .jr g d a => g.wf && d < 64 && a < 64
  | .loop g d _ => g.wf && d < 64
  | .loopLong g d _ => g.wf && d < 64
  | .dspt g d a nbm1 _ => g.wf && d < 64 && a < 64 && nbm1 < 16
  | .ld g d a sz _ _ sgn => g.wf && d < 64 && a < 64 && (sz != .d || !sgn)
  | .ldLong g d a sz _ _ sgn _ => g.wf && d < 64 && a < 64 && (sz != .d || !sgn)
  | .st g d a _ _ _ => g.wf && d < 64 && a < 64
  | .stLong g d a _ _ _ _ => g.wf && d < 64 && a < 64
  | .probe g d a _ => g.wf && d < 64 && a < 64
  | .probeLong g d a _ => g.wf && d < 64 && a < 64
  | .unpin g a => g.wf && a < 64
  | .amo g d a b _ _ _ _ => g.wf && d < 64 && a < 64 && b < 64
  | .cas g d a b _ _ _ pd => g.wf && d < 64 && a < 64 && b < 64 && pd < 24
  | .fence g _ => g.wf
  | .fenceR g _ rs => g.wf && (1 ≤ rs.length && rs.length ≤ 4 && rs.all RangeRef.wf)
  | .track g slot r => g.wf && slot < 32 && r.wf
  | .untrack g slot => g.wf && slot < 32
  | .pub g r => g.wf && r.wf
  | .tbar g lvl => g.wf && lvl < 8
  | .tid g d ts => g.wf && d < 64 && ts.wf
  | .cinit g cb wm1 cnt => g.wf && cb < 64 && wm1 < 16 && 1 ≤ cnt && cnt < 16777216
  | .cexp g cb slot a => g.wf && a < 64 && cb < 64 && slot < 16
  | .cexpLong g cb slot cnt => g.wf && cb < 64 && slot < 16 && 1 ≤ cnt && cnt < 16777216
  | .cwait g cb slot p => g.wf && cb < 64 && slot < 16 && p < 24
  | .crel g cb slot => g.wf && cb < 64 && slot < 16
  | .ctry g p cb slot => g.wf && p < 24 && cb < 64 && slot < 16
  | .post g a => g.wf && a < 64
  | .postNb g p a => g.wf && a < 64 && p < 24
  | .postr g p a b core _ _ => g.wf && a < 64 && b < 64 && p < 24 && core < 1024
  | .postt g p a b core creg => g.wf && a < 64 && b < 64 && p < 24 && core < 1024 && (creg || b == 0)
  | .dcset g n a => g.wf && a < 64 && n < 512
  | .dcsetLong g n v => g.wf && n < 512 && v < 1048576
  | .dcadd g n a => g.wf && a < 64 && n < 512
  | .dcaddLong g n _ => g.wf && n < 512
  | .dcwait g n => g.wf && n < 512
  | .sta g p a b => g.wf && a < 64 && b < 64 && p < 24
  | .staLong g p a b off => g.wf && a < 64 && b < 64 && p < 24 && off < 65536
  | .sbind g d a b prog cb entry => g.wf && d < 64 && a < 64 && b < 64 && prog < 128 && cb < 64 && entry < 4096
  | .cqpush g p a stream => g.wf && a < 64 && p < 24 && stream < 8
  | .sstop g stream => g.wf && stream < 8
  | .yield g p => g.wf && p < 24
  | .live g a => g.wf && a < 64
  | .liveLong g _ => g.wf
  | .trap g code => g.wf && code < 4096
  | .sys g d a _ => g.wf && d < 64 && a < 64
  | .rett g => g.wf
  | .mfs g d n => g.wf && d < 64 && n < 4096
  | .mts g n a => g.wf && a < 64 && n < 4096
  | .sttcfgWrite _ _ _ => true
  | .sttcfgApply _ => true
  | .halt g => g.wf
  | .exit g => g.wf
  | .vnop => true
  | .vadd _ d a b m _ => d < 64 && a < 84 && b < 84 && m < 8
  | .vsub _ d a b m _ => d < 64 && a < 84 && b < 84 && m < 8
  | .vmul _ d a b m _ => d < 64 && a < 84 && b < 84 && m < 8
  | .vfma _ d a b m _ => d < 64 && a < 84 && b < 84 && m < 8
  | .vmin _ d a b m _ => d < 64 && a < 84 && b < 84 && m < 8
  | .vmax _ d a b m _ => d < 64 && a < 84 && b < 84 && m < 8
  | .vabs _ d a m _ => d < 64 && a < 84 && m < 8
  | .vneg _ d a m _ => d < 64 && a < 84 && m < 8
  | .vand _ d a b m _ => d < 64 && a < 84 && b < 84 && m < 8
  | .vor _ d a b m _ => d < 64 && a < 84 && b < 84 && m < 8
  | .vxor _ d a b m _ => d < 64 && a < 84 && b < 84 && m < 8
  | .vshl _ d a b m _ => d < 64 && a < 84 && b < 84 && m < 8
  | .vshr _ d a b m _ => d < 64 && a < 84 && b < 84 && m < 8
  | .vsra _ d a b m _ => d < 64 && a < 84 && b < 84 && m < 8
  | .vcmp cc d a b m t => a < 84 && b < 84 && m < 8 && d < 8 && cc.allows t
  | .vsel _ d a b m _ => d < 64 && a < 84 && b < 84 && m < 8
  | .vmov _ d a m _ => d < 64 && a < 84 && m < 8
  | .vbcst _ d a b m _ => d < 64 && a < 84 && b < 84 && m < 8
  | .vcvt _ d a kind mode m => d < 64 && a < 84 && m < 8 && kind < 16 && vcvtModeOk kind mode
  | .vscl _ d a mw enc mode m => d < 64 && a < 84 && m < 8 && mw < 7 && mode < 5 && (enc || mode == 0)
  | .vreds _ d a m _ => d < 64 && a < 84 && m < 8
  | .vredm _ d a m _ => d < 64 && a < 84 && m < 8
  | .vredn _ d a m _ => d < 64 && a < 84 && m < 8
  | .vexp2 _ d a m _ => d < 64 && a < 84 && m < 8
  | .vlog2 _ d a m _ => d < 64 && a < 84 && m < 8
  | .vrcp _ d a m _ => d < 64 && a < 84 && m < 8
  | .vrsq _ d a m _ => d < 64 && a < 84 && m < 8
  | .vsqrt _ d a m _ => d < 64 && a < 84 && m < 8
  | .vsig _ d a m _ => d < 64 && a < 84 && m < 8
  | .vtanh _ d a m _ => d < 64 && a < 84 && m < 8
  | .vld _ d pair _ sz b m _ => d < 64 && b < 84 && m < 8 && pair < 8 && sz < 5
  | .vst d pair _ sz b m _ => d < 64 && b < 84 && m < 8 && pair < 8 && sz < 5
  | .vgth _ d pair _ b m _ => d < 64 && b < 84 && m < 8 && pair < 8
  | .vprm _ d a b m _ => d < 64 && a < 84 && b < 84 && m < 8
  | .vunp3 _ d a off m _ => d < 64 && a < 84 && m < 8 && off < 128
  | .mand d a b => d < 8 && a < 8 && b < 8
  | .mor d a b => d < 8 && a < 8 && b < 8
  | .mnot d a => d < 8 && a < 8
  | .vloop a => a < 84
  | .vend => true
  | .anop => true
  | .amov d x => d < 16 && x.wf
  | .aadd d a x => d < 16 && a < 16 && x.wf
  | .asub d a x => d < 16 && a < 16 && x.wf
  | .amul d a x => d < 16 && a < 16 && x.wf
  | .ashl d a x => d < 16 && a < 16 && x.wf
  | .ashr d a x => d < 16 && a < 16 && x.wf
  | .aand d a x => d < 16 && a < 16 && x.wf
  | .amin d a x => d < 16 && a < 16 && x.wf
  | .acmp d a x => d < 16 && a < 16 && x.wf
  | .abr _ a _ => a < 16
  | .ajmp x => x.wf
  | .aloop n x => x.wf && n < 4
  | .aend n => n < 4
  | .ahalt => true
  | .spush d a b => d < 16 && a < 16 && b < 16
  | .spushi d a b => d < 16 && a < 16 && b < 15
  | .swin => true
  | .cqpop d => d < 16
  | .afence => true
  | .wld _ _ => true
  | .mm _ _ => true
  | .mmz _ _ => true
  | .mmc _ _ => true
  | .topk _ _ => true
  | .perm _ _ => true
  | .rsum _ _ => true
  | .trn _ _ => true
  | .vk _ _ => true
  | .xp _ _ => true
  | .cpy _ _ => true
  | .cpyT8 _ _ => true
  | .cpyT16 _ _ => true
  | .gath _ _ => true
  | .scat _ _ => true
  | .cvt _ _ => true
  | .fill _ _ => true
  | .psum _ _ => true
  | .hist _ _ => true
  | .ared _ _ => true
  | .bcst _ _ => true
  | .wst _ _ => true
  | .illegalCoxWord _ _ => true
  | .illegalVectorWord _ => true
  | .illegalAccessWord _ => true
  | .instructionFetchFault _ _ => true
  | .linkUp _ _ _ => true
  | .thermalRecovery _ => true
  | .gangBarrierArrival _ _ _ _ _ => true

end Sys2Proof
end

