-- ==== Sys2Proof/Decode.lean ====
section
/-! DEFINITION. Decoders of the three kinds of instruction word, total on every number, and after them the encoder, both written from the encoding tables (R157 to R164, R198, R277, R301). -/
namespace Sys2Proof

/-- Bits hi down to lo of a number (R3). -/
def fld (w hi lo : Nat) : Nat := w / 2 ^ lo % 2 ^ (hi + 1 - lo)

/-! ## The Cox word (R157) -/

/-- What the first word of a Cox instruction says: an illegal encoding, a whole instruction, or one whose extension word is still to be read (R160, R406). -/
inductive CoxDec where
  | illegal
  | one (i : Instr)
  | two (k : Nat → Option Instr)

/-- Answers an instruction when its check holds, and an illegal encoding otherwise. -/
def CoxDec.when (b : Bool) (i : Instr) : CoxDec := if b then .one i else .illegal

/-- As CoxDec.when, for an instruction that goes on in its extension word. -/
def CoxDec.extWhen (b : Bool) (k : Nat → Option Instr) : CoxDec := if b then .two k else .illegal

/-- An instruction when its check holds. -/
def someWhen (b : Bool) (i : Instr) : Option Instr := if b then some i else none

/-- Size codes (R166). -/
def decSize (n : Nat) : Size :=
  if n = 0 then .b else if n = 1 then .h else if n = 2 then .w else .d

/-- Space codes; 3 is unassigned (R166). -/
def decSpace (n : Nat) : Option Space :=
  if n = 0 then some .l else if n = 1 then some .c else if n = 2 then some .g else none

/-- Scope codes; 6 and 7 are unassigned (R166). -/
def decScope (n : Nat) : Option Scope :=
  if n = 0 then some .strand else if n = 1 then some .core else if n = 2 then some .crew
  else if n = 3 then some .die else if n = 4 then some .package else if n = 5 then some .gang else none

/-- CMP's conditions (R184). -/
def decCmpCond (n : Nat) : Option CmpCond :=
  if n = 0 then some .eq else if n = 1 then some .ne else if n = 2 then some .lt else if n = 3 then some .le
  else if n = 4 then some .gt else if n = 5 then some .ge else if n = 6 then some .ltu
  else if n = 7 then some .leu else if n = 8 then some .gtu else if n = 9 then some .geu else none

/-- FCMP's conditions (R188). -/
def decFcmpCond (n : Nat) : Option FcmpCond :=
  if n = 0 then some .eq else if n = 1 then some .ne else if n = 2 then some .lt else if n = 3 then some .le
  else if n = 4 then some .gt else if n = 5 then some .ge else if n = 6 then some .un else none

/-- COMB; 3 is unassigned (R184). -/
def decComb (n : Nat) : Option Comb :=
  if n = 0 then some .write else if n = 1 then some .and else if n = 2 then some .or else none

/-- FCVT's kinds (R189). -/
def decFcvtKind (n : Nat) : FcvtKind :=
  if n = 0 then .i64F32 else if n = 1 then .f32I64 else if n = 2 then .i32F32 else if n = 3 then .f32I32
  else if n = 4 then .bf16F32 else if n = 5 then .f32Bf16 else if n = 6 then .f16F32 else .f32F16

/-- Rounding modes 0 to 3 (R61). -/
def decFMode (n : Nat) : FMode :=
  if n = 0 then .rne else if n = 1 then .rtz else if n = 2 then .rpi else .rni

/-- AMO's operations; 9 to 15 are unassigned (R207). -/
def decAmoOp (n : Nat) : Option AmoOp :=
  if n = 0 then some .add else if n = 1 then some .and else if n = 2 then some .or else if n = 3 then some .xor
  else if n = 4 then some .min else if n = 5 then some .max else if n = 6 then some .minu
  else if n = 7 then some .maxu else if n = 8 then some .swap else none

/-- Sizes of atomics; 0 and 1 are unassigned (R206). -/
def decAmoSize (n : Nat) : Option AmoSize :=
  if n = 2 then some .w else if n = 3 then some .d else none

/-- A range byte under its kind bit (R211). -/
def decRange (kind byte : Nat) : Option RangeRef :=
  if kind = 0 then (if byte = 0 then none else some (.handle byte))
  else if byte % 64 = 63 then none
  else (decSpace (byte / 64)).map (RangeRef.regs (byte % 64))

/-- The ranges of a FENCE.R from kind bits and range bytes; what lies beyond the count must be zero (R212). -/
def decRanges : Nat → Nat → Nat → Option RangeList
  | 0, kinds, bytes => if kinds = 0 ∧ bytes = 0 then some [] else none
  | n + 1, kinds, bytes =>
    match decRange (kinds % 2) (bytes % 256), decRanges n (kinds / 2) (bytes / 256) with
    | some r, some rs => some (r :: rs)
    | _, _ => none

/-- TID's selectors; 18 to 63 are unassigned (R218). -/
def decTidSel (b : Nat) : Option TidSel :=
  if b < 8 then some (.x b) else if b < 16 then some (.f (b - 8))
  else if b = 16 then some .n else if b = 17 then some .t else none

/-- The body of CMP's extension word (R184). -/
def decCmp (g : Guard) (d a b e : Nat) : Option Instr :=
  match decCmpCond (fld e 3 0), decComb (fld e 6 5) with
  | some c, some m =>
    if fld e 15 7 ≠ 0 then none
    else if fld e 4 4 = 1 then someWhen (b == 0) (.cmp g d a c (.imm (BitVec.ofNat 16 (fld e 31 16))) m)
    else someWhen (fld e 31 16 == 0) (.cmp g d a c (.reg b) m)
  | _, _ => none

/-- The body of an atomic's extension word (R206 to R208). -/
def decAtomic (isCas : Bool) (g : Guard) (d a b e : Nat) : Option Instr :=
  match decSpace (fld e 5 4), decAmoSize (fld e 7 6), decScope (fld e 10 8) with
  | some sp, some sz, some sc =>
    if fld e 31 16 ≠ 0 then none
    else if isCas then someWhen (fld e 3 0 == 0 && decide (fld e 15 11 < 24)) (.cas g d a b sp sz sc (fld e 15 11))
    else
      match decAmoOp (fld e 3 0) with
      | some o => someWhen (fld e 15 11 == 0) (.amo g d a b o sp sz sc)
      | none => none
  | _, _, _ => none

/-- LD and ST from their B field (R202). -/
def decLd (b : Nat) (k : Size → Space → Bool → Bool → CoxDec) : CoxDec :=
  match decSpace (fld b 3 2) with
  | some sp => if fld b 5 5 = 1 ∧ fld b 1 0 = 3 then .illegal
      else k (decSize (fld b 1 0)) sp (fld b 4 4 == 1) (fld b 5 5 == 1)
  | none => .illegal

def w32 (e : Nat) : Word32 := BitVec.ofNat 32 e
def i12 (a b : Nat) : Imm12 := BitVec.ofNat 12 (a * 64 + b)

/-- Instructions with X = 0 (R158, R159). -/
def decodeShort (g : Guard) (op d a b : Nat) : CoxDec :=
  match op with
  | 0x00 => .when (d == 0 && a == 0 && b == 0) (.nop g)
  | 0x01 => .one (.add g d a b)
  | 0x02 => .one (.sub g d a b)
  | 0x03 => .one (.mul g d a b)
  | 0x04 => .one (.mulh g d a b)
  | 0x05 => .one (.div g d a b)
  | 0x06 => .one (.rem g d a b)
  | 0x08 => .one (.and g d a b)
  | 0x09 => .one (.or g d a b)
  | 0x0A => .one (.xor g d a b)
  | 0x0B => .one (.andn g d a b)
  | 0x0C => .one (.shl g d a b)
  | 0x0D => .one (.shr g d a b)
  | 0x0E => .one (.sra g d a b)
  | 0x0F => .one (.rol g d a b)
  | 0x10 => .one (.min g d a b)
  | 0x11 => .one (.max g d a b)
  | 0x12 => .when (b == 0) (.clz g d a)
  | 0x13 => .when (b == 0) (.ctz g d a)
  | 0x14 => .when (b == 0) (.popc g d a)
  | 0x17 => .one (.sext g d a b)
  | 0x18 => .one (.zext g d a b)
  | 0x19 => .one (.li g d (i12 a b))
  | 0x1A => .when (b == 0) (.mov g d a)
  | 0x1C => .one (.lea g d (i12 a b))
  | 0x21 => .when (decide (d < 24) && decide (a < 24) && decide (b < 24)) (.pand g d a b)
  | 0x22 => .when (decide (d < 24) && decide (a < 24) && decide (b < 24)) (.por g d a b)
  | 0x23 => .when (decide (d < 24) && decide (a < 24) && decide (b < 24)) (.pxor g d a b)
  | 0x24 => .when (decide (d < 24) && decide (a < 24) && b == 0) (.pnot g d a)
  | 0x25 => .when (a == 0 && b == 0) (.pget g d)
  | 0x26 => .when (d == 0) (.pset g a b)
  | 0x28 => .one (.fadd g d a b)
  | 0x29 => .one (.fsub g d a b)
  | 0x2A => .one (.fmul g d a b)
  | 0x2B => .one (.ffma g d a b)
  | 0x2C => .one (.fdiv g d a b)
  | 0x2D => .one (.fmin g d a b)
  | 0x2E => .one (.fmax g d a b)
  | 0x30 => .when (fld b 5 5 == 0) (.fcvt g d a (decFcvtKind (fld b 4 2)) (decFMode (fld b 1 0)))
  | 0x31 => .one (.fsgn g d a b)
  | 0x38 => .one (.br g (BitVec.ofNat 18 ((d * 64 + a) * 64 + b)))
  | 0x39 => .one (.call g d (i12 a b))
  | 0x3A => .when (d == 0 && b == 0) (.ret g a)
  | 0x3B => .when (b == 0) (.jr g d a)
  | 0x3C => .one (.loop g d (i12 a b))
  | 0x40 => decLd b fun sz sp cz sg => .one (.ld g d a sz sp cz sg)
  | 0x41 => decLd b fun sz sp cz sg => .when (!sg) (.st g d a sz sp cz)
  | 0x42 => .one (.probe g d a (BitVec.ofNat 6 b))
  | 0x43 => .when (d == 0 && b == 0) (.unpin g a)
  | 0x48 =>
    match decScope (fld b 2 0) with
    | some sc => .when (d == 0 && a == 0 && fld b 5 3 == 0) (.fence g sc)
    | none => .illegal
  | 0x4B => .when (decide (d < 32) && a == 0 && b == 0) (.untrack g d)
  | 0x50 => .when (d == 0 && a == 0 && decide (b < 8)) (.tbar g b)
  | 0x51 =>
    match decTidSel b with
    | some ts => .when (a == 0) (.tid g d ts)
    | none => .illegal
  | 0x53 => .when (decide (b < 16)) (.cexp g d b a)
  | 0x54 => .when (decide (b < 16) && decide (a < 24)) (.cwait g d b a)
  | 0x55 => .when (decide (b < 16) && a == 0) (.crel g d b)
  | 0x56 => .when (decide (b < 16) && decide (d < 24)) (.ctry g d a b)
  | 0x58 =>
    if b = 0 then .when (d == 0) (.post g a)
    else .when (b == 1 && decide (d < 24)) (.postNb g d a)
  | 0x5B => .when (decide (b < 8)) (.dcset g (b * 64 + d) a)
  | 0x5C => .when (decide (b < 8)) (.dcadd g (b * 64 + d) a)
  | 0x5D => .when (decide (b < 8) && a == 0) (.dcwait g (b * 64 + d))
  | 0x5E => .when (decide (d < 24)) (.sta g d a b)
  | 0x61 => .when (decide (b < 8) && decide (d < 24)) (.cqpush g d a b)
  | 0x62 => .when (d == 0 && a == 0 && decide (b < 8)) (.sstop g b)
  | 0x63 => .when (decide (d < 24) && a == 0 && b == 0) (.yield g d)
  | 0x64 => .when (d == 0 && b == 0) (.live g a)
  | 0x70 => .when (d == 0) (.trap g (a * 64 + b))
  | 0x71 => if b = 0 then .one (.sys g d a .echo) else .when (b == 1) (.sys g d a .notify)
  | 0x72 => .when (d == 0 && a == 0 && b == 0) (.rett g)
  | 0x73 => .one (.mfs g d (a * 64 + b))
  | 0x74 => .one (.mts g (d * 64 + b) a)
  | 0x75 => .when (d == 0 && a == 0 && b == 0) (.halt g)
  | 0x76 => .when (d == 0 && a == 0 && b == 0) (.exit g)
  | _ => .illegal

/-- Instructions with X = 1: the first word's checks, then the extension word's (R158, R198). -/
def decodeLong (g : Guard) (op d a b : Nat) : CoxDec :=
  match op with
  | 0x01 => .extWhen (b == 0) fun e => some (.addLong g d a (w32 e))
  | 0x02 => .extWhen (b == 0) fun e => some (.subLong g d a (w32 e))
  | 0x03 => .extWhen (b == 0) fun e => some (.mulLong g d a (w32 e))
  | 0x04 => .extWhen (b == 0) fun e => some (.mulhLong g d a (w32 e))
  | 0x05 => .extWhen (b == 0) fun e => some (.divLong g d a (w32 e))
  | 0x06 => .extWhen (b == 0) fun e => some (.remLong g d a (w32 e))
  | 0x08 => .extWhen (b == 0) fun e => some (.andLong g d a (w32 e))
  | 0x09 => .extWhen (b == 0) fun e => some (.orLong g d a (w32 e))
  | 0x0A => .extWhen (b == 0) fun e => some (.xorLong g d a (w32 e))
  | 0x0B => .extWhen (b == 0) fun e => some (.andnLong g d a (w32 e))
  | 0x0C => .extWhen (b == 0) fun e => some (.shlLong g d a (w32 e))
  | 0x0D => .extWhen (b == 0) fun e => some (.shrLong g d a (w32 e))
  | 0x0E => .extWhen (b == 0) fun e => some (.sraLong g d a (w32 e))
  | 0x0F => .extWhen (b == 0) fun e => some (.rolLong g d a (w32 e))
  | 0x10 => .extWhen (b == 0) fun e => some (.minLong g d a (w32 e))
  | 0x11 => .extWhen (b == 0) fun e => some (.maxLong g d a (w32 e))
  | 0x15 => .extWhen (b == 0) fun e =>
      someWhen (fld e 31 13 == 0) (.bfx g d a (fld e 5 0) (fld e 11 6) (fld e 12 12 == 1))
  | 0x16 => .extWhen (b == 0) fun e => someWhen (fld e 31 12 == 0) (.bfi g d a (fld e 5 0) (fld e 11 6))
  | 0x19 => .extWhen (decide (a < 2) && b == 0) fun e =>
      some (if a = 0 then .liLong g d (w32 e) else .liH g d (w32 e))
  | 0x1B => .two fun e =>
      someWhen (decide (fld e 4 0 < 24) && fld e 31 6 == 0) (.sel g d a b (fld e 4 0) (fld e 5 5 == 1))
  | 0x1C => .extWhen (a == 0 && b == 0) fun e => some (.leaLong g d (w32 e))
  | 0x1D => .extWhen (b == 0) fun e => someWhen (fld e 31 8 == 0) (.hoff g d a (fld e 7 0))
  | 0x20 => .extWhen (decide (d < 24)) fun e => decCmp g d a b e
  | 0x28 => .extWhen (b == 0) fun e => some (.faddLong g d a (w32 e))
  | 0x29 => .extWhen (b == 0) fun e => some (.fsubLong g d a (w32 e))
  | 0x2A => .extWhen (b == 0) fun e => some (.fmulLong g d a (w32 e))
  | 0x2C => .extWhen (b == 0) fun e => some (.fdivLong g d a (w32 e))
  | 0x2D => .extWhen (b == 0) fun e => some (.fminLong g d a (w32 e))
  | 0x2E => .extWhen (b == 0) fun e => some (.fmaxLong g d a (w32 e))
  | 0x2F => .extWhen (decide (d < 24)) fun e =>
      match decFcmpCond (fld e 3 0), decComb (fld e 6 5) with
      | some c, some m => someWhen (fld e 4 4 == 0 && fld e 31 7 == 0) (.fcmp g d a b c m)
      | _, _ => none
  | 0x31 => .extWhen (b == 0) fun e => some (.fsgnLong g d a (w32 e))
  | 0x38 => .extWhen (d == 0 && a == 0 && b == 0) fun e => some (.brLong g (w32 e))
  | 0x39 => .extWhen (a == 0 && b == 0) fun e => some (.callLong g d (w32 e))
  | 0x3C => .extWhen (a == 0 && b == 0) fun e => some (.loopLong g d (w32 e))
  | 0x3D => .extWhen (decide (b < 32)) fun e =>
      if b < 16 then some (.dspt g d a b (.rel (w32 e)))
      else someWhen (fld e 31 21 == 0) (.dspt g d a (b - 16) (.loc (BitVec.ofNat 21 (fld e 20 0))))
  | 0x40 => decLd b fun sz sp cz sg => .two fun e => some (.ldLong g d a sz sp cz sg (w32 e))
  | 0x41 => decLd b fun sz sp cz sg => .extWhen (!sg) fun e => some (.stLong g d a sz sp cz (w32 e))
  | 0x42 => .extWhen (b == 0) fun e => some (.probeLong g d a (w32 e))
  | 0x44 => .two fun e => decAtomic false g d a b e
  | 0x45 => .two fun e => decAtomic true g d a b e
  | 0x49 =>
    match decScope (fld d 2 0) with
    | some sc => .extWhen (fld d 5 3 == 0 && a == 0 && decide (fld b 5 2 < 2 ^ (fld b 1 0 + 1))) fun e =>
        (decRanges (fld b 1 0 + 1) (fld b 5 2) e).map (Instr.fenceR g sc)
    | none => .illegal
  | 0x4A => .extWhen (a == 0 && b == 0) fun e =>
      if fld e 31 8 ≠ 0 then none else (decRange (fld d 5 5) (fld e 7 0)).map (Instr.track g (fld d 4 0))
  | 0x4C => .extWhen (fld d 4 0 == 0 && a == 0 && b == 0) fun e =>
      if fld e 31 8 ≠ 0 then none else (decRange (fld d 5 5) (fld e 7 0)).map (Instr.pub g)
  | 0x52 => .extWhen (a == 0 && b == 0) fun e =>
      someWhen (fld e 7 4 == 0 && decide (1 ≤ fld e 31 8)) (.cinit g d (fld e 3 0) (fld e 31 8))
  | 0x53 => .extWhen (decide (b < 16) && a == 0) fun e =>
      someWhen (fld e 31 24 == 0 && decide (1 ≤ fld e 23 0)) (.cexpLong g d b (fld e 23 0))
  | 0x59 => .extWhen (decide (d < 24)) fun e =>
      someWhen (fld e 31 12 == 0) (.postr g d a b (fld e 9 0) (fld e 10 10 == 1) (fld e 11 11 == 1))
  | 0x5A => .extWhen (decide (d < 24)) fun e =>
      someWhen (fld e 31 11 == 0 && (fld e 10 10 == 1 || b == 0)) (.postt g d a b (fld e 9 0) (fld e 10 10 == 1))
  | 0x5B => .extWhen (decide (b < 8) && a == 0) fun e =>
      someWhen (fld e 31 20 == 0) (.dcsetLong g (b * 64 + d) (fld e 19 0))
  | 0x5C => .extWhen (decide (b < 8) && a == 0) fun e => some (.dcaddLong g (b * 64 + d) (w32 e))
  | 0x5E => .extWhen (decide (d < 24)) fun e => someWhen (fld e 31 16 == 0) (.staLong g d a b (fld e 15 0))
  | 0x60 => .two fun e =>
      someWhen (fld e 7 7 == 0 && fld e 15 14 == 0 && fld e 31 28 == 0)
        (.sbind g d a b (fld e 6 0) (fld e 13 8) (fld e 27 16))
  | 0x64 => .extWhen (d == 0 && a == 0 && b == 0) fun e => some (.liveLong g (w32 e))
  | _ => .illegal

/-- The first word of a Cox instruction (R157, R160). -/
def decodeCox (w : Nat) : CoxDec :=
  if fld w 31 27 < 24 then
    (if fld w 0 0 = 0 then decodeShort else decodeLong)
      ⟨fld w 31 27, fld w 26 26 == 1⟩ (fld w 25 19) (fld w 18 13) (fld w 12 7) (fld w 6 1)
  else .illegal

/-- A Cox instruction from its first word and the word after it. -/
def decodeCoxPair (w e : Nat) : Option Instr :=
  match decodeCox w with
  | .illegal => none
  | .one i => some i
  | .two k => k e

/-! ## The vector kernel word (R161, R162, R277) -/

def decVTy (n : Nat) : VTy := if n = 0 then .f32 else if n = 1 then .bf16 else if n = 2 then .i32 else .i16

/-- A source selector is v0 to v63, L0 to L3 or k0 to k15; 84 to 127 are reserved (R161). -/
def selOk (n : Nat) : Bool := n < 84

def decVCond (n : Nat) : VCond :=
  if n = 0 then .eq else if n = 1 then .ne else if n = 2 then .lt else if n = 3 then .le
  else if n = 4 then .gt else if n = 5 then .ge else if n = 6 then .un else .ltu

/-- The type each kind of VCVT stands under (R284). -/
def vcvtTy (kind : Nat) : Nat :=
  if (4 ≤ kind ∧ kind ≤ 7) ∨ kind = 14 ∨ kind = 15 then 2 else 0

/-- Two-source words over all types. -/
def decV2 (a b : Nat) (i : Instr) : Option Instr := someWhen (selOk a && selOk b) i
/-- One-source words: B is 0. -/
def decV1 (a b : Nat) (i : Instr) : Option Instr := someWhen (selOk a && b == 0) i
/-- Shifts take the integer types only (R280). -/
def decVI (a b t : Nat) (i : ITy → Instr) : Option Instr :=
  if t < 2 then none else someWhen (selOk a && selOk b) (i (if t = 2 then .i32 else .i16))
/-- Special functions take the floating-point types only (R288). -/
def decVF (a b t : Nat) (i : FTy → Instr) : Option Instr :=
  if t < 2 then someWhen (selOk a && b == 0) (i (if t = 0 then .f32 else .bf16)) else none

/-- A vector kernel word. -/
def decodeVector (x : Nat) : Option Instr :=
  let op := fld x 31 26
  let w := fld x 25 25 == 1
  let d := fld x 24 19
  let a := fld x 18 12
  let b := fld x 11 5
  let m := fld x 4 2
  let t := fld x 1 0
  let ty := decVTy t
  match op with
  | 0x00 => someWhen (fld x 25 0 == 0) .vnop
  | 0x01 => decV2 a b (.vadd w d a b m ty)
  | 0x02 => decV2 a b (.vsub w d a b m ty)
  | 0x03 => decV2 a b (.vmul w d a b m ty)
  | 0x04 => decV2 a b (.vfma w d a b m ty)
  | 0x05 => decV2 a b (.vmin w d a b m ty)
  | 0x06 => decV2 a b (.vmax w d a b m ty)
  | 0x07 => decV1 a b (.vabs w d a m ty)
  | 0x08 => decV1 a b (.vneg w d a m ty)
  | 0x09 => decV2 a b (.vand w d a b m ty)
  | 0x0A => decV2 a b (.vor w d a b m ty)
  | 0x0B => decV2 a b (.vxor w d a b m ty)
  | 0x0C => decVI a b t (Instr.vshl w d a b m)
  | 0x0D => decVI a b t (Instr.vshr w d a b m)
  | 0x0E => decVI a b t (Instr.vsra w d a b m)
  | 0x10 => someWhen (selOk a && selOk b && !w && (decVCond (fld d 5 3)).allows ty) (.vcmp (decVCond (fld d 5 3)) (fld d 2 0) a b m ty)
  | 0x11 => decV2 a b (.vsel w d a b m ty)
  | 0x12 => decV1 a b (.vmov w d a m ty)
  | 0x13 => decV2 a b (.vbcst w d a b m ty)
  | 0x14 => someWhen (selOk a && t == vcvtTy (fld b 6 3) && vcvtModeOk (fld b 6 3) (fld b 2 0))
      (.vcvt w d a (fld b 6 3) (fld b 2 0) m)
  | 0x15 => someWhen (selOk a && t == 0 && decide (fld b 6 4 < 7) && decide (fld b 2 0 < 5) && (fld b 3 3 == 1 || fld b 2 0 == 0))
      (.vscl w d a (fld b 6 4) (fld b 3 3 == 1) (fld b 2 0) m)
  | 0x18 => decV1 a b (.vreds w d a m ty)
  | 0x19 => decV1 a b (.vredm w d a m ty)
  | 0x1A => decV1 a b (.vredn w d a m ty)
  | 0x1C => decVF a b t (Instr.vexp2 w d a m)
  | 0x1D => decVF a b t (Instr.vlog2 w d a m)
  | 0x1E => decVF a b t (Instr.vrcp w d a m)
  | 0x1F => decVF a b t (Instr.vrsq w d a m)
  | 0x20 => decVF a b t (Instr.vsqrt w d a m)
  | 0x21 => decVF a b t (Instr.vsig w d a m)
  | 0x22 => decVF a b t (Instr.vtanh w d a m)
  | 0x28 => someWhen (selOk b && decide (fld a 2 0 < 5)) (.vld w d (fld a 6 4) (fld a 3 3 == 1) (fld a 2 0) b m ty)
  | 0x29 => someWhen (selOk b && decide (fld a 2 0 < 5) && !w) (.vst d (fld a 6 4) (fld a 3 3 == 1) (fld a 2 0) b m ty)
  | 0x2A => someWhen (selOk b && fld a 2 0 == 0) (.vgth w d (fld a 6 4) (fld a 3 3 == 1) b m ty)
  | 0x2B => decV2 a b (.vprm w d a b m ty)
  | 0x2C => someWhen (selOk a) (.vunp3 w d a b m ty)
  | 0x30 => someWhen (!w && decide (d < 8) && decide (a < 8) && decide (b < 8) && m == 0 && t == 0) (.mand d a b)
  | 0x31 => someWhen (!w && decide (d < 8) && decide (a < 8) && decide (b < 8) && m == 0 && t == 0) (.mor d a b)
  | 0x32 => someWhen (!w && decide (d < 8) && decide (a < 8) && b == 0 && m == 0 && t == 0) (.mnot d a)
  | 0x38 => someWhen (!w && d == 0 && selOk a && b == 0 && m == 0 && t == 0) (.vloop a)
  | 0x39 => someWhen (fld x 25 0 == 0) .vend
  | _ => none

/-! ## The access word (R163, R164, R301) -/

/-- The second operand: an immediate, or a register with B[16:4] zero. -/
def decSrc (i b : Nat) : Option Src :=
  if i = 1 then some (.imm (BitVec.ofNat 17 b)) else if b < 16 then some (.reg b) else none

def decACond (n : Nat) : Option ACond :=
  if n = 0 then some .eqz else if n = 1 then some .nez else if n = 2 then some .ltz
  else if n = 3 then some .gez else if n = 4 then some .gtz else if n = 5 then some .lez else none

/-- An access word. -/
def decodeAccess (x : Nat) : Option Instr :=
  let d := fld x 25 22
  let a := fld x 21 18
  let i := fld x 17 17
  let b := fld x 16 0
  match fld x 31 26 with
  | 0x00 => someWhen (fld x 25 0 == 0) .anop
  | 0x01 => if a = 0 then (decSrc i b).map (Instr.amov d) else none
  | 0x02 => (decSrc i b).map (Instr.aadd d a)
  | 0x03 => (decSrc i b).map (Instr.asub d a)
  | 0x04 => (decSrc i b).map (Instr.amul d a)
  | 0x05 => (decSrc i b).map (Instr.ashl d a)
  | 0x06 => (decSrc i b).map (Instr.ashr d a)
  | 0x07 => (decSrc i b).map (Instr.aand d a)
  | 0x08 => (decSrc i b).map (Instr.amin d a)
  | 0x09 => (decSrc i b).map (Instr.acmp d a)
  | 0x10 =>
    match decACond d with
    | some c => someWhen (i == 1) (.abr c a (BitVec.ofNat 17 b))
    | none => none
  | 0x11 => if d = 0 ∧ a = 0 then (decSrc i b).map Instr.ajmp else none
  | 0x12 => if d < 4 ∧ a = 0 then (decSrc i b).map (Instr.aloop d) else none
  | 0x13 => someWhen (decide (d < 4) && a == 0 && i == 0 && b == 0) (.aend d)
  | 0x14 => someWhen (fld x 25 0 == 0) .ahalt
  | 0x18 => someWhen (i == 0 && decide (b < 16)) (.spush d a b)
  | 0x19 => someWhen (i == 0 && decide (b < 15)) (.spushi d a b)
  | 0x1A => someWhen (fld x 25 0 == 0) .swin
  | 0x1B => someWhen (a == 0 && i == 0 && b == 0) (.cqpop d)
  | 0x1C => someWhen (fld x 25 0 == 0) .afence
  | _ => none

/-! ## One word for the opcode table

A word does not say which of the three kinds of machine text it belongs to: the unit that fetches it decides (R157, R161, R163). Log 17 names the order in which this reading tries the kinds: bits [31:26] zero mean a Cox word (no vector or access word but the all-zero ones has them zero); otherwise a legal vector word, then a legal access word, then a Cox word. -/
def decodeTableWord (nbits w : Nat) : Option Instr :=
  let lo := w % 2 ^ Nat.min nbits 64
  let w0 := lo % 2 ^ 32
  let cox := decodeCoxPair w0 (lo / 2 ^ 32)
  if fld w0 31 26 = 0 then cox
  else ((decodeVector w0).or (decodeAccess w0)).or cox

/-! ## The encoder -/

/-- A Cox word from its fields (R157). -/
def packCox (g : Guard) (op d a b x : Nat) : Nat :=
  g.p * 2 ^ 27 + (if g.neg then 1 else 0) * 2 ^ 26 + op * 2 ^ 19 + d * 2 ^ 13 + a * 2 ^ 7 + b * 2 + x

def bitNat (b : Bool) : Nat := if b then 1 else 0

def encSize : Size → Nat
  | .b => 0
  | .h => 1
  | .w => 2
  | .d => 3
def encSpace : Space → Nat
  | .l => 0
  | .c => 1
  | .g => 2
def encScope : Scope → Nat
  | .strand => 0
  | .core => 1
  | .crew => 2
  | .die => 3
  | .package => 4
  | .gang => 5
def encCmpCond : CmpCond → Nat
  | .eq => 0
  | .ne => 1
  | .lt => 2
  | .le => 3
  | .gt => 4
  | .ge => 5
  | .ltu => 6
  | .leu => 7
  | .gtu => 8
  | .geu => 9
def encFcmpCond : FcmpCond → Nat
  | .eq => 0
  | .ne => 1
  | .lt => 2
  | .le => 3
  | .gt => 4
  | .ge => 5
  | .un => 6
def encComb : Comb → Nat
  | .write => 0
  | .and => 1
  | .or => 2
def encFcvtKind : FcvtKind → Nat
  | .i64F32 => 0
  | .f32I64 => 1
  | .i32F32 => 2
  | .f32I32 => 3
  | .bf16F32 => 4
  | .f32Bf16 => 5
  | .f16F32 => 6
  | .f32F16 => 7
def encFMode : FMode → Nat
  | .rne => 0
  | .rtz => 1
  | .rpi => 2
  | .rni => 3
def encAmoOp : AmoOp → Nat
  | .add => 0
  | .and => 1
  | .or => 2
  | .xor => 3
  | .min => 4
  | .max => 5
  | .minu => 6
  | .maxu => 7
  | .swap => 8
def encAmoSize : AmoSize → Nat
  | .w => 2
  | .d => 3
def encRange : RangeRef → Nat × Nat
  | .handle h => (0, h)
  | .regs n sp => (1, encSpace sp * 64 + n)
def encRanges : RangeList → Nat × Nat
  | [] => (0, 0)
  | r :: rs => ((encRange r).1 + 2 * (encRanges rs).1, (encRange r).2 + 256 * (encRanges rs).2)
def encTidSel : TidSel → Nat
  | .x l => l
  | .f l => 8 + l
  | .n => 16
  | .t => 17
def encVTy : VTy → Nat
  | .f32 => 0
  | .bf16 => 1
  | .i32 => 2
  | .i16 => 3
def encITy : ITy → Nat
  | .i32 => 2
  | .i16 => 3
def encFTy : FTy → Nat
  | .f32 => 0
  | .bf16 => 1
def encVCond : VCond → Nat
  | .eq => 0
  | .ne => 1
  | .lt => 2
  | .le => 3
  | .gt => 4
  | .ge => 5
  | .un => 6
  | .ltu => 7
def encACond : ACond → Nat
  | .eqz => 0
  | .nez => 1
  | .ltz => 2
  | .gez => 3
  | .gtz => 4
  | .lez => 5
/-- I and B of a second operand (R163). -/
def encSrc : Src → Nat
  | .imm v => 2 ^ 17 + v.toNat
  | .reg n => n
def encService : Service → Nat
  | .echo => 0
  | .notify => 1

/-- LD and ST: the B field (R202). -/
def encLdB (sz : Size) (sp : Space) (cz sgn : Bool) : Nat :=
  encSize sz + encSpace sp * 4 + bitNat cz * 16 + bitNat sgn * 32
/-- The extension word of an atomic (R206). -/
def encAtomic (opc : Nat) (sp : Space) (sz : AmoSize) (sc : Scope) (pd : Nat) : Nat :=
  opc + encSpace sp * 16 + encAmoSize sz * 64 + encScope sc * 256 + pd * 2048

/-- A vector word from its fields (R161). -/
def packV (op : Nat) (w : Bool) (d a b m t : Nat) : Nat :=
  op * 2 ^ 26 + bitNat w * 2 ^ 25 + d * 2 ^ 19 + a * 2 ^ 12 + b * 2 ^ 5 + m * 4 + t
/-- An access word from its fields; ib holds I and B low (R163). -/
def packA (op d a ib : Nat) : Nat := op * 2 ^ 26 + d * 2 ^ 22 + a * 2 ^ 18 + ib

/-- A two-operand register form. -/
def enc3 (g : Guard) (op d a b : Nat) : List Nat := [packCox g op d a b 0]
/-- A two-operand immediate form. -/
def encE (g : Guard) (op d a b : Nat) (e : Nat) : List Nat := [packCox g op d a b 1, e]

/-- The words of an instruction, first word first; a step that is no encoded word has none. -/
def encode : Instr → List Nat
  | .moduleReset _ => []
  | .bar2Read _ _ _ => []
  | .bar2Write _ _ => []
  | .registerWrite _ _ _ _ => []
  | .configurationWrite _ _ => []
  | .doorbell _ _ _ => []
  | .queueEnable _ => []
  | .queueDisable _ => []
  | .qckrel _ _ => []
  | .qerrRetry _ => []
  | .qerrSkip _ => []
  | .tlbInvalidateAll _ => []
  | .tlbInvalidateRoot => []
  | .tlbInvalidatePage => []
  | .tlbinvComplete => []
  | .preempt _ => []
  | .modeselWrite _ => []
  | .rampctlWrite _ _ => []
  | .ritWrite _ _ _ => []
  | .remapRequest _ _ => []
  | .remapEpochEnd _ => []
  | .regionSwap _ => []
  | .swapAbandon _ => []
  | .channelRetire _ => []
  | .retirementMove _ => []
  | .fwLoad _ _ => []
  | .fwSwitch => []
  | .fwSwitchHandover _ => []
  | .unitRetry _ => []
  | .unitEnd _ => []
  | .portEnable _ => []
  | .counterClear _ _ => []
  | .keyAlloc _ => []
  | .keyRetire _ => []
  | .lockInterfaceRequest _ => []
  | .startInterfaceRequest _ _ => []
  | .stopInterfaceRequest _ => []
  | .interfaceUnlock _ => []
  | .getDeviceInterfaceReport _ => []
  | .getDeviceInterfaceState _ => []
  | .spdmRequest _ => []
  | .atsCompletion _ _ => []
  | .priResponse _ _ => []
  | .atsInvalidationRequest _ _ => []
  | .atsInvalidationComplete => []
  | .ideFailure _ => []
  | .tamper _ => []
  | .glitch _ => []
  | .thermalThrottle _ => []
  | .rampIntervalEnd _ => []
  | .flitReceive _ _ _ => []
  | .linkDown _ _ => []
  | .rootAnnouncementSend => []
  | .rootAnnouncementReceive _ _ _ => []
  | .rootLost => []
  | .peerRequest _ => []
  | .ingressArrival _ _ => []
  | .remoteCompletion _ _ => []
  | .completionTimeout _ => []
  | .collectiveMessage _ _ _ _ => []
  | .collectiveAbandon _ _ _ => []
  | .sramCorrectedError _ => []
  | .freezeEnd _ => []
  | .sramUncorrectableError _ => []
  | .tier0LineRead _ _ _ => []
  | .heartbeat => []
  | .stateTableCommit => []
  | .heartbeatTimeout _ => []
  | .fetcherTurn _ => []
  | .nopPacket _ _ => []
  | .launch _ _ => []
  | .launchSetup _ _ => []
  | .launchStart _ => []
  | .launchComplete _ => []
  | .resume _ _ => []
  | .resumeRestore _ _ => []
  | .hardwareResume => []
  | .wait _ _ => []
  | .waitPoll _ _ => []
  | .signal _ _ => []
  | .cond _ _ => []
  | .loopPacket _ _ => []
  | .indirect _ _ => []
  | .copy _ _ => []
  | .fencePacket _ _ => []
  | .endPacket _ _ => []
  | .packetCompletion _ _ => []
  | .notificationWrite _ => []
  | .sysReply _ _ => []
  | .unitTrapResolution _ => []
  | .ingressAdmission _ => []
  | .taskRelease _ _ => []
  | .taskCompletion _ _ => []
  | .scratchpadPublish _ => []
  | .hbmShadowBind _ _ => []
  | .hbmPublish _ => []
  | .frameReturn _ _ => []
  | .vectorKernelStart _ => []
  | .copyBoxRow _ _ => []
  | .copyCompletion _ _ => []
  | .pushLand _ _ => []
  | .contextEnd _ _ => []
  | .accessPerformed _ _ _ => []
  | .loadReturn _ _ => []
  | .causalStoreApply _ _ => []
  | .causalLoadServe _ _ => []
  | .yieldDeadline _ => []
  | .saveStopped _ => []
  | .preemptionComplete _ => []
  | .activityTimeout _ => []
  | .waitProbeOriginate _ => []
  | .waitProbeReturn _ => []
  | .nop g => enc3 g 0 0 0 0
  | .add g d a b => enc3 g 1 d a b
  | .addLong g d a e => encE g 1 d a 0 e.toNat
  | .sub g d a b => enc3 g 2 d a b
  | .subLong g d a e => encE g 2 d a 0 e.toNat
  | .mul g d a b => enc3 g 3 d a b
  | .mulLong g d a e => encE g 3 d a 0 e.toNat
  | .mulh g d a b => enc3 g 4 d a b
  | .mulhLong g d a e => encE g 4 d a 0 e.toNat
  | .div g d a b => enc3 g 5 d a b
  | .divLong g d a e => encE g 5 d a 0 e.toNat
  | .rem g d a b => enc3 g 6 d a b
  | .remLong g d a e => encE g 6 d a 0 e.toNat
  | .and g d a b => enc3 g 8 d a b
  | .andLong g d a e => encE g 8 d a 0 e.toNat
  | .or g d a b => enc3 g 9 d a b
  | .orLong g d a e => encE g 9 d a 0 e.toNat
  | .xor g d a b => enc3 g 10 d a b
  | .xorLong g d a e => encE g 10 d a 0 e.toNat
  | .andn g d a b => enc3 g 11 d a b
  | .andnLong g d a e => encE g 11 d a 0 e.toNat
  | .shl g d a b => enc3 g 12 d a b
  | .shlLong g d a e => encE g 12 d a 0 e.toNat
  | .shr g d a b => enc3 g 13 d a b
  | .shrLong g d a e => encE g 13 d a 0 e.toNat
  | .sra g d a b => enc3 g 14 d a b
  | .sraLong g d a e => encE g 14 d a 0 e.toNat
  | .rol g d a b => enc3 g 15 d a b
  | .rolLong g d a e => encE g 15 d a 0 e.toNat
  | .min g d a b => enc3 g 16 d a b
  | .minLong g d a e => encE g 16 d a 0 e.toNat
  | .max g d a b => enc3 g 17 d a b
  | .maxLong g d a e => encE g 17 d a 0 e.toNat
  | .clz g d a => enc3 g 18 d a 0
  | .ctz g d a => enc3 g 19 d a 0
  | .popc g d a => enc3 g 20 d a 0
  | .bfx g d a pos wm1 sgn => encE g 21 d a 0 (pos + wm1 * 64 + bitNat sgn * 4096)
  | .bfi g d a pos wm1 => encE g 22 d a 0 (pos + wm1 * 64)
  | .sext g d a wm1 => enc3 g 23 d a wm1
  | .zext g d a wm1 => enc3 g 24 d a wm1
  | .li g d i => enc3 g 25 d (i.toNat / 64) (i.toNat % 64)
  | .liLong g d e => encE g 25 d 0 0 e.toNat
  | .liH g d e => encE g 25 d 1 0 e.toNat
  | .mov g d a => enc3 g 26 d a 0
  | .sel g d a b p neg => encE g 27 d a b (p + bitNat neg * 32)
  | .lea g d i => enc3 g 28 d (i.toNat / 64) (i.toNat % 64)
  | .leaLong g d e => encE g 28 d 0 0 e.toNat
  | .hoff g d a h => encE g 29 d a 0 h
  | .cmp g d a cc second comb => match second with
    | .reg b => encE g 32 d a b (encCmpCond cc + encComb comb * 32)
    | .imm v => encE g 32 d a 0 (encCmpCond cc + 16 + encComb comb * 32 + v.toNat * 65536)
  | .pand g d a b => enc3 g 33 d a b
  | .por g d a b => enc3 g 34 d a b
  | .pxor g d a b => enc3 g 35 d a b
  | .pnot g d a => enc3 g 36 d a 0
  | .pget g d => enc3 g 37 d 0 0
  | .pset g a b => enc3 g 38 0 a b
  | .fadd g d a b => enc3 g 40 d a b
  | .faddLong g d a e => encE g 40 d a 0 e.toNat
  | .fsub g d a b => enc3 g 41 d a b
  | .fsubLong g d a e => encE g 41 d a 0 e.toNat
  | .fmul g d a b => enc3 g 42 d a b
  | .fmulLong g d a e => encE g 42 d a 0 e.toNat
  | .ffma g d a b => enc3 g 43 d a b
  | .fdiv g d a b => enc3 g 44 d a b
  | .fdivLong g d a e => encE g 44 d a 0 e.toNat
  | .fmin g d a b => enc3 g 45 d a b
  | .fminLong g d a e => encE g 45 d a 0 e.toNat
  | .fmax g d a b => enc3 g 46 d a b
  | .fmaxLong g d a e => encE g 46 d a 0 e.toNat
  | .fcmp g d a b cc comb => encE g 47 d a b (encFcmpCond cc + encComb comb * 32)
  | .fcvt g d a kind mode => enc3 g 48 d a (encFMode mode + encFcvtKind kind * 4)
  | .fsgn g d a b => enc3 g 49 d a b
  | .fsgnLong g d a e => encE g 49 d a 0 e.toNat
  | .br g off => enc3 g 56 (off.toNat / 4096) (off.toNat / 64 % 64) (off.toNat % 64)
  | .brLong g e => encE g 56 0 0 0 e.toNat
  | .call g d i => enc3 g 57 d (i.toNat / 64) (i.toNat % 64)
  | .callLong g d e => encE g 57 d 0 0 e.toNat
  | .ret g a => enc3 g 58 0 a 0
  | .jr g d a => enc3 g 59 d a 0
  | .loop g d i => enc3 g 60 d (i.toNat / 64) (i.toNat % 64)
  | .loopLong g d e => encE g 60 d 0 0 e.toNat
  | .dspt g d a nbm1 tab => match tab with
    | .rel e => encE g 61 d a nbm1 e.toNat
    | .loc o => encE g 61 d a (nbm1 + 16) o.toNat
  | .ld g d a sz sp cz sgn => enc3 g 64 d a (encLdB sz sp cz sgn)
  | .ldLong g d a sz sp cz sgn e => encE g 64 d a (encLdB sz sp cz sgn) e.toNat
  | .st g d a sz sp cz => enc3 g 65 d a (encLdB sz sp cz false)
  | .stLong g d a sz sp cz e => encE g 65 d a (encLdB sz sp cz false) e.toNat
  | .probe g d a off => enc3 g 66 d a off.toNat
  | .probeLong g d a e => encE g 66 d a 0 e.toNat
  | .unpin g a => enc3 g 67 0 a 0
  | .amo g d a b op sp sz sc => encE g 68 d a b (encAtomic (encAmoOp op) sp sz sc 0)
  | .cas g d a b sp sz sc pd => encE g 69 d a b (encAtomic 0 sp sz sc pd)
  | .fence g sc => enc3 g 72 0 0 (encScope sc)
  | .fenceR g sc rs => encE g 73 (encScope sc) 0 (rs.length - 1 + 4 * (encRanges rs).1) (encRanges rs).2
  | .track g slot r => encE g 74 (slot + 32 * (encRange r).1) 0 0 (encRange r).2
  | .untrack g slot => enc3 g 75 slot 0 0
  | .pub g r => encE g 76 (32 * (encRange r).1) 0 0 (encRange r).2
  | .tbar g lvl => enc3 g 80 0 0 lvl
  | .tid g d ts => enc3 g 81 d 0 (encTidSel ts)
  | .cinit g cb wm1 cnt => encE g 82 cb 0 0 (wm1 + cnt * 256)
  | .cexp g cb slot a => enc3 g 83 cb a slot
  | .cexpLong g cb slot cnt => encE g 83 cb 0 slot cnt
  | .cwait g cb slot p => enc3 g 84 cb p slot
  | .crel g cb slot => enc3 g 85 cb 0 slot
  | .ctry g p cb slot => enc3 g 86 p cb slot
  | .post g a => enc3 g 88 0 a 0
  | .postNb g p a => enc3 g 88 p a 1
  | .postr g p a b core creg rel => encE g 89 p a b (core + bitNat creg * 1024 + bitNat rel * 2048)
  | .postt g p a b core creg => encE g 90 p a b (core + bitNat creg * 1024)
  | .dcset g n a => enc3 g 91 (n % 64) a (n / 64)
  | .dcsetLong g n v => encE g 91 (n % 64) 0 (n / 64) v
  | .dcadd g n a => enc3 g 92 (n % 64) a (n / 64)
  | .dcaddLong g n e => encE g 92 (n % 64) 0 (n / 64) e.toNat
  | .dcwait g n => enc3 g 93 (n % 64) 0 (n / 64)
  | .sta g p a b => enc3 g 94 p a b
  | .staLong g p a b off => encE g 94 p a b off
  | .sbind g d a b prog cb entry => encE g 96 d a b (prog + cb * 256 + entry * 65536)
  | .cqpush g p a stream => enc3 g 97 p a stream
  | .sstop g stream => enc3 g 98 0 0 stream
  | .yield g p => enc3 g 99 p 0 0
  | .live g a => enc3 g 100 0 a 0
  | .liveLong g e => encE g 100 0 0 0 e.toNat
  | .trap g code => enc3 g 112 0 (code / 64) (code % 64)
  | .sys g d a svc => enc3 g 113 d a (encService svc)
  | .rett g => enc3 g 114 0 0 0
  | .mfs g d n => enc3 g 115 d (n / 64) (n % 64)
  | .mts g n a => enc3 g 116 (n / 64) a (n % 64)
  | .sttcfgWrite _ _ _ => []
  | .sttcfgApply _ => []
  | .halt g => enc3 g 117 0 0 0
  | .exit g => enc3 g 118 0 0 0
  | .vnop => [0]
  | .vadd w d a b m t => [packV 1 w d a b m (encVTy t)]
  | .vsub w d a b m t => [packV 2 w d a b m (encVTy t)]
  | .vmul w d a b m t => [packV 3 w d a b m (encVTy t)]
  | .vfma w d a b m t => [packV 4 w d a b m (encVTy t)]
  | .vmin w d a b m t => [packV 5 w d a b m (encVTy t)]
  | .vmax w d a b m t => [packV 6 w d a b m (encVTy t)]
  | .vabs w d a m t => [packV 7 w d a 0 m (encVTy t)]
  | .vneg w d a m t => [packV 8 w d a 0 m (encVTy t)]
  | .vand w d a b m t => [packV 9 w d a b m (encVTy t)]
  | .vor w d a b m t => [packV 10 w d a b m (encVTy t)]
  | .vxor w d a b m t => [packV 11 w d a b m (encVTy t)]
  | .vshl w d a b m t => [packV 12 w d a b m (encITy t)]
  | .vshr w d a b m t => [packV 13 w d a b m (encITy t)]
  | .vsra w d a b m t => [packV 14 w d a b m (encITy t)]
  | .vcmp cc d a b m t => [packV 16 false (d + 8 * encVCond cc) a b m (encVTy t)]
  | .vsel w d a b m t => [packV 17 w d a b m (encVTy t)]
  | .vmov w d a m t => [packV 18 w d a 0 m (encVTy t)]
  | .vbcst w d a b m t => [packV 19 w d a b m (encVTy t)]
  | .vcvt w d a kind mode m => [packV 20 w d a (mode + 8 * kind) m (vcvtTy kind)]
  | .vscl w d a mw enc mode m => [packV 21 w d a (mode + 8 * bitNat enc + 16 * mw) m 0]
  | .vreds w d a m t => [packV 24 w d a 0 m (encVTy t)]
  | .vredm w d a m t => [packV 25 w d a 0 m (encVTy t)]
  | .vredn w d a m t => [packV 26 w d a 0 m (encVTy t)]
  | .vexp2 w d a m t => [packV 28 w d a 0 m (encFTy t)]
  | .vlog2 w d a m t => [packV 29 w d a 0 m (encFTy t)]
  | .vrcp w d a m t => [packV 30 w d a 0 m (encFTy t)]
  | .vrsq w d a m t => [packV 31 w d a 0 m (encFTy t)]
  | .vsqrt w d a m t => [packV 32 w d a 0 m (encFTy t)]
  | .vsig w d a m t => [packV 33 w d a 0 m (encFTy t)]
  | .vtanh w d a m t => [packV 34 w d a 0 m (encFTy t)]
  | .vld w d pair g sz b m t => [packV 40 w d (sz + 8 * bitNat g + 16 * pair) b m (encVTy t)]
  | .vst d pair g sz b m t => [packV 41 false d (sz + 8 * bitNat g + 16 * pair) b m (encVTy t)]
  | .vgth w d pair g b m t => [packV 42 w d (8 * bitNat g + 16 * pair) b m (encVTy t)]
  | .vprm w d a b m t => [packV 43 w d a b m (encVTy t)]
  | .vunp3 w d a off m t => [packV 44 w d a off m (encVTy t)]
  | .mand d a b => [packV 48 false d a b 0 0]
  | .mor d a b => [packV 49 false d a b 0 0]
  | .mnot d a => [packV 50 false d a 0 0 0]
  | .vloop a => [packV 56 false 0 a 0 0 0]
  | .vend => [packV 57 false 0 0 0 0 0]
  | .anop => [0]
  | .amov d x => [packA 1 d 0 (encSrc x)]
  | .aadd d a x => [packA 2 d a (encSrc x)]
  | .asub d a x => [packA 3 d a (encSrc x)]
  | .amul d a x => [packA 4 d a (encSrc x)]
  | .ashl d a x => [packA 5 d a (encSrc x)]
  | .ashr d a x => [packA 6 d a (encSrc x)]
  | .aand d a x => [packA 7 d a (encSrc x)]
  | .amin d a x => [packA 8 d a (encSrc x)]
  | .acmp d a x => [packA 9 d a (encSrc x)]
  | .abr cc a off => [packA 16 (encACond cc) a (2 ^ 17 + off.toNat)]
  | .ajmp x => [packA 17 0 0 (encSrc x)]
  | .aloop n x => [packA 18 n 0 (encSrc x)]
  | .aend n => [packA 19 n 0 0]
  | .ahalt => [packA 20 0 0 0]
  | .spush d a b => [packA 24 d a b]
  | .spushi d a b => [packA 25 d a b]
  | .swin => [packA 26 0 0 0]
  | .cqpop d => [packA 27 d 0 0]
  | .afence => [packA 28 0 0 0]
  | .wld _ _ => []
  | .mm _ _ => []
  | .mmz _ _ => []
  | .mmc _ _ => []
  | .topk _ _ => []
  | .perm _ _ => []
  | .rsum _ _ => []
  | .trn _ _ => []
  | .vk _ _ => []
  | .xp _ _ => []
  | .cpy _ _ => []
  | .cpyT8 _ _ => []
  | .cpyT16 _ _ => []
  | .gath _ _ => []
  | .scat _ _ => []
  | .cvt _ _ => []
  | .fill _ _ => []
  | .psum _ _ => []
  | .hist _ _ => []
  | .ared _ _ => []
  | .bcst _ _ => []
  | .wst _ _ => []
  | .illegalCoxWord _ _ => []
  | .illegalVectorWord _ => []
  | .illegalAccessWord _ => []
  | .instructionFetchFault _ _ => []
  | .linkUp _ _ _ => []
  | .thermalRecovery _ => []
  | .gangBarrierArrival _ _ _ _ _ => []

end Sys2Proof
end

