-- ==== Sys2Proof/Machine/Tab.lean ====
section
/-! DEFINITION. Tables with a natural number as key: lists of pairs with rising keys. The byte memory is such a table that lists no zero byte (log 4). -/
namespace Sys2Proof.Machine

/-- A table: pairs of a key and a value, keys strictly rising. -/
abbrev Tab (α : Type) := List (Nat × α)

/-- The value a table lists for a key. -/
def tabFind {α : Type} : Tab α → Nat → Option α
  | [], _ => none
  | (a, v) :: r, k => if a = k then some v else tabFind r k

/-- The value a table lists for a key, or the one an unlisted key has. -/
def tabGet {α : Type} (d : α) (t : Tab α) (k : Nat) : α := (tabFind t k).getD d

/-- Lists a value for a key, in place of an earlier one. -/
def tabPut {α : Type} : Tab α → Nat → α → Tab α
  | [], k, v => [(k, v)]
  | (a, w) :: r, k, v =>
    if k < a then (k, v) :: (a, w) :: r
    else if a = k then (k, v) :: r
    else (a, w) :: tabPut r k v

/-- Takes a key out of a table. -/
def tabDel {α : Type} : Tab α → Nat → Tab α
  | [], _ => []
  | (a, w) :: r, k => if a = k then r else (a, w) :: tabDel r k

/-- Takes the keys lo to lo + n - 1 out of a table. -/
def tabClear {α : Type} (t : Tab α) (lo n : Nat) : Tab α :=
  t.filter fun p => !(decide (lo ≤ p.1) && decide (p.1 < lo + n))

/-- Copies the n entries from key src of a table to key dst of another, in place of what that lists there. -/
def tabCopy {α : Type} (into : Tab α) (dst : Nat) (t : Tab α) (src n : Nat) : Tab α :=
  (t.filter fun p => decide (src ≤ p.1) && decide (p.1 < src + n)).foldl (fun acc p => tabPut acc (dst + (p.1 - src)) p.2) (tabClear into dst n)

/-- The values of n keys from k on in a table that lists nothing below k. -/
def tabFrom {α : Type} (d : α) : Tab α → Nat → Nat → List α
  | _, _, 0 => []
  | [], k, n + 1 => d :: tabFrom d [] (k + 1) n
  | (a, v) :: r, k, n + 1 => if a = k then v :: tabFrom d r (k + 1) n else d :: tabFrom d ((a, v) :: r) (k + 1) n

/-- The values of the n keys from k on. -/
def tabList {α : Type} (d : α) (t : Tab α) (k n : Nat) : List α := tabFrom d (t.dropWhile fun p => decide (p.1 < k)) k n

/-- Pairs of the keys from k on with a list of values. -/
def tabPairs {α : Type} (k : Nat) : List α → Tab α
  | [] => []
  | v :: r => (k, v) :: tabPairs (k + 1) r

/-- Lists values for the keys from k on. -/
def tabSetList {α : Type} (t : Tab α) (k : Nat) (l : List α) : Tab α :=
  let hi := k + l.length
  (t.takeWhile fun p => decide (p.1 < k)) ++ (tabPairs k l ++ t.dropWhile fun p => decide (p.1 < hi))

/-- Rising keys: the form every table keeps. -/
def tabRising {α : Type} : Tab α → Bool
  | [] => true
  | [_] => true
  | (a, _) :: (b, v) :: r => decide (a < b) && tabRising ((b, v) :: r)

/-! ## The byte memory -/

/-- The byte memory: pairs of an address and a byte, rising addresses, no zero byte listed (log 4). -/
abbrev Memory := List Host.Cell

/-- One byte; an unlisted one reads 0 (log 4). -/
def memByte (m : Memory) (k : Nat) : Byte := tabGet 0#8 m k

/-- Writes one byte, keeping the canonical form. -/
def memSet (m : Memory) (k : Nat) (b : Byte) : Memory := if b = 0#8 then tabDel m k else tabPut m k b

/-- The bytes of a run from a key on that a memory lists. -/
def listed (k : Nat) : ByteList → Memory
  | [] => []
  | b :: r => if b = 0#8 then listed (k + 1) r else (k, b) :: listed (k + 1) r

/-- Writes a run of bytes from a key on. -/
def memSetList (m : Memory) (k : Nat) (b : ByteList) : Memory :=
  let hi := k + b.length
  (m.takeWhile fun p => decide (p.1 < k)) ++ (listed k b ++ m.dropWhile fun p => decide (p.1 < hi))

/-- Reads n bytes from a key on. -/
def memList (m : Memory) (k n : Nat) : ByteList := tabList 0#8 m k n

/-- The canonical form of the byte memory. -/
def Memory.wf (m : Memory) : Bool := tabRising m && m.all fun p => p.2 != 0#8

/-- Copies the n bytes at key src to key dst: the listed bytes of the source replace what the destination lists. -/
def memCopy (m : Memory) (dst src n : Nat) : Memory :=
  (m.filter fun p => decide (src ≤ p.1) && decide (p.1 < src + n)).foldl
    (fun acc p => memSet acc (dst + (p.1 - src)) p.2) (tabClear m dst n)

end Sys2Proof.Machine
end

