-- ==== Sys2Proof/Machine/Bits.lean ====
section
/-! DEFINITION. Bit fields, sign extension and byte order: the small helpers of every meaning (R3, R4, R172). -/
namespace Sys2Proof.Machine

/-- sext(v, w): the low w bits as a two's-complement integer (R172). -/
def sextInt (v w : Nat) : Int := (BitVec.ofNat w v).toInt

/-- The sign extension of the low w bits of v to 64 bits. -/
def sext64 (v w : Nat) : Word64 := BitVec.ofInt 64 (sextInt v w)

/-- A 64-bit word from an integer, kept modulo 2^64. -/
def w64 (v : Int) : Word64 := BitVec.ofInt 64 v

/-- The value of an extension word as the second operand of a long form (R173). -/
def extVal (e : Word32) : Word64 := e.signExtend 64

/-- A little-endian run of bytes as a number (R4). -/
def leNat : ByteList → Nat
  | [] => 0
  | b :: r => b.toNat + 256 * leNat r

/-- A number as n bytes, least significant first (R4). -/
def leBytes : Nat → Nat → ByteList
  | 0, _ => []
  | n + 1, v => BitVec.ofNat 8 v :: leBytes n (v / 256)

/-- Bits hi down to lo of a word, as a number. -/
def bitsOf {w : Nat} (v : BitVec w) (hi lo : Nat) : Nat := fld v.toNat hi lo

/-- The n bytes of a list from an offset on, short ones filled with zeros. -/
def slice (l : ByteList) (off n : Nat) : ByteList :=
  let t := (l.drop off).take n
  t ++ List.replicate (n - t.length) 0#8

/-- The n-byte field of a record at an offset, as a number. -/
def field (l : ByteList) (off n : Nat) : Nat := leNat (slice l off n)

/-- Puts a field of n bytes over a record. -/
def putField (l : ByteList) (off n v : Nat) : ByteList := l.take off ++ leBytes n v ++ l.drop (off + n)

/-- sat_signed (R172). -/
def satSigned (v : Int) (w : Nat) : Int := min (max v (-(2 ^ (w - 1) : Int))) (2 ^ (w - 1) - 1)

/-- rotl32 (R172). -/
def rotl32 (x n : Nat) : Nat :=
  let k := n % 32
  (x * 2 ^ k + x / 2 ^ (32 - k)) % 2 ^ 32

/-- The least k below start + fuel, from start on, that satisfies p; start + fuel when none does. -/
def firstFrom (p : Nat → Bool) : Nat → Nat → Nat
  | 0, k => k
  | fuel + 1, k => if p k then k else firstFrom p fuel (k + 1)

/-- The integer square root by binary digits. -/
def natSqrtAux : Nat → Nat → Nat → Nat
  | 0, _, r => r
  | k + 1, n, r => let c := r + 2 ^ k; if c * c ≤ n then natSqrtAux k n c else natSqrtAux k n r
def natSqrt (n : Nat) : Nat := natSqrtAux (Nat.log2 n / 2 + 1) n 0

/-- Splits a list into runs of n. -/
def chunks {α : Type} (n : Nat) : Nat → List α → List (List α)
  | 0, _ => []
  | k + 1, l => l.take n :: chunks n k (l.drop n)

/-- The places at which a list meets a test. -/
def placesOf {α : Type} (p : α → Bool) : List α → Nat → List Nat
  | [], _ => []
  | x :: r, k => if p x then k :: placesOf p r (k + 1) else placesOf p r (k + 1)

/-- Sets the element at a place of a list, if it has one. -/
def setAt {α : Type} (l : List α) (k : Nat) (v : α) : List α := l.set k v

end Sys2Proof.Machine
end

