-- ==== Sys2Proof/Machine/Num.lean ====
section
/-! DEFINITION. Number formats and rounding (R50 to R71): exact values as dyadic numbers, one rounding to each format in each mode. -/
namespace Sys2Proof.Machine

/-- An exact value: NaN, an infinity, or (−1)^neg × mag × 2^exp (R51). -/
inductive Fp where
  | nan
  | inf (neg : Bool)
  | fin (neg : Bool) (mag : Nat) (exp : Int)
  deriving DecidableEq, Repr

/-- A floating-point format (R51). maxBits is the encoding of its largest finite value; sat marks the FP8 formats, which saturate (R53). -/
structure FFmt where
  ebits : Nat
  fbits : Nat
  bias : Nat
  infBits : Option Nat
  maxBits : Nat
  nanBits : Nat
  sat : Bool
  deriving DecidableEq, Repr

def fmtF32 : FFmt := ⟨8, 23, 127, some 0x7F800000, 0x7F7FFFFF, 0x7FC00000, false⟩
def fmtF16 : FFmt := ⟨5, 10, 15, some 0x7C00, 0x7BFF, 0x7E00, false⟩
def fmtBf16 : FFmt := ⟨8, 7, 127, some 0x7F80, 0x7F7F, 0x7FC0, false⟩
def fmtE4M3 : FFmt := ⟨4, 3, 7, none, 0x7E, 0x7F, true⟩
def fmtE5M2 : FFmt := ⟨5, 2, 15, some 0x7C, 0x7B, 0x7E, true⟩

/-- The place of the sign bit. -/
def FFmt.signBit (f : FFmt) : Nat := 2 ^ (f.ebits + f.fbits)

/-- fp_val (R172): the value an encoding has. -/
def fpVal (f : FFmt) (b : Nat) : Fp :=
  let s := b / f.signBit % 2 == 1
  let e := b / 2 ^ f.fbits % 2 ^ f.ebits
  let m := b % 2 ^ f.fbits
  let body := b % f.signBit
  if f.infBits = some body then .inf s
  else if body > f.maxBits then .nan
  else if e = 0 then .fin s m (1 - (f.bias : Int) - f.fbits)
  else .fin s (2 ^ f.fbits + m) ((e : Int) - f.bias - f.fbits)

/-- Whether a magnitude whose low k bits D are discarded is rounded up (R61, R64): mode, sign, kept digit odd, the lane's random word. -/
def roundUp (mode : Nat) (neg odd : Bool) (k d w : Nat) : Bool :=
  match mode with
  | 0 => decide (2 * d > 2 ^ k) || (decide (2 * d = 2 ^ k) && odd)
  | 1 => false
  | 2 => !neg && decide (d ≠ 0)
  | 3 => neg && decide (d ≠ 0)
  | _ => if k ≤ 32 then decide (d + w % 2 ^ k ≥ 2 ^ k) else decide (d / 2 ^ (k - 32) + w ≥ 2 ^ 32)

/-- A magnitude mag × 2^exp in units of 2^q, rounded. -/
def roundMag (mode : Nat) (neg : Bool) (mag : Nat) (exp q : Int) (w : Nat) : Nat :=
  if exp ≥ q then mag * 2 ^ (exp - q).toNat
  else
    let k := (q - exp).toNat
    let s := mag / 2 ^ k
    if roundUp mode neg (s % 2 == 1) k (mag % 2 ^ k) w then s + 1 else s

/-- The encoding of an overflowing magnitude (R53, R62). -/
def overflowBits (f : FFmt) (mode : Nat) (neg : Bool) : Nat :=
  match f.infBits with
  | none => f.maxBits
  | some i =>
    if f.sat then f.maxBits
    else match mode with
    | 1 => f.maxBits
    | 2 => if neg then f.maxBits else i
    | 3 => if neg then i else f.maxBits
    | _ => i

/-- The encoding in format f of a value rounded in a mode (R61 to R64), a zero with its sign as IEEE 754 gives it (R71, R186, R278); w is the lane's random word. -/
def roundIeee (f : FFmt) (mode w : Nat) : Fp → Nat
  | .nan => f.nanBits
  | .inf s => (f.infBits.getD f.maxBits) + (if s then f.signBit else 0)
  | .fin s m e =>
    let sg := if s then f.signBit else 0
    if m = 0 then sg
    else
      let emin := 1 - (f.bias : Int)
      let top := max ((Nat.log2 m : Int) + e) emin
      let sig := roundMag mode s m e (top - f.fbits) w
      let b := (top - emin).toNat * 2 ^ f.fbits + sig
      if b > f.maxBits then overflowBits f mode s + sg else b + sg

/-- round_fp (R172): fp_bits of the rounded value, +0 for a value that is zero. -/
def roundFp (f : FFmt) (mode w : Nat) (x : Fp) : Nat :=
  let b := roundIeee f mode w x
  if b = f.signBit then 0 else b

/-- Whether a finite value overflows the format as roundFp rounds it (R62, R239). -/
def fpOverflows (f : FFmt) (mode w : Nat) : Fp → Bool
  | .fin s m e =>
    let emin := 1 - (f.bias : Int)
    let top := max ((Nat.log2 m : Int) + e) emin
    m != 0 && decide ((top - emin).toNat * 2 ^ f.fbits + roundMag mode s m e (top - f.fbits) w > f.maxBits)
  | _ => false

/-- round_fp32 (R172) with round-to-nearest-even. -/
def roundF32 (x : Fp) : Nat := roundFp fmtF32 0 0 x
/-- Binary32 arithmetic with round-to-nearest-even, which keeps the sign of a zero (R71). -/
def ieeeF32 (x : Fp) : Nat := roundIeee fmtF32 0 0 x

/-- The signed integer a finite value rounds to in a mode. -/
def roundIntFin (mode w : Nat) (s : Bool) (m : Nat) (e : Int) : Int :=
  let r := (roundMag mode s m e 0 w : Int)
  if s then -r else r

/-- A conversion to a signed integer of w bits: rounds, then saturates; NaN gives 0 (R63). -/
def roundToInt (mode rnd width : Nat) : Fp → Int
  | .nan => 0
  | .inf s => if s then -(2 ^ (width - 1) : Int) else 2 ^ (width - 1) - 1
  | .fin s m e => satSigned (roundIntFin mode rnd s m e) width

/-- An integer as an exact value; 0 is +0. -/
def fpOfInt (v : Int) : Fp := .fin (decide (v < 0)) v.natAbs 0

/-- An exact value as an integer multiple of 2^q; q must not lie above its exponent. -/
def fpScaled (s : Bool) (m : Nat) (e q : Int) : Int :=
  let r := (m * 2 ^ (e - q).toNat : Nat)
  if s then -(r : Int) else r

/-- The exact sum, with IEEE's signs of zero under round-to-nearest (R71). -/
def fpAdd : Fp → Fp → Fp
  | .nan, _ => .nan
  | _, .nan => .nan
  | .inf a, .inf b => if a = b then .inf a else .nan
  | .inf a, .fin .. => .inf a
  | .fin .., .inf b => .inf b
  | .fin s m e, .fin t n f =>
    let q := min e f
    let v := fpScaled s m e q + fpScaled t n f q
    if v = 0 then .fin (s && t) 0 q else .fin (decide (v < 0)) v.natAbs q

/-- Negation. -/
def fpNeg : Fp → Fp
  | .nan => .nan
  | .inf s => .inf (!s)
  | .fin s m e => .fin (!s) m e

/-- Magnitude. -/
def fpAbs : Fp → Fp
  | .nan => .nan
  | .inf _ => .inf false
  | .fin _ m e => .fin false m e

/-- The exact product. -/
def fpMul : Fp → Fp → Fp
  | .nan, _ => .nan
  | _, .nan => .nan
  | .inf a, .inf b => .inf (a != b)
  | .inf a, .fin t n _ => if n = 0 then .nan else .inf (a != t)
  | .fin s m _, .inf b => if m = 0 then .nan else .inf (s != b)
  | .fin s m e, .fin t n f => .fin (s != t) (m * n) (e + f)

/-- The quotient to more than 64 extra bits and a sticky bit, which every rounding to a 24-bit significand takes as the exact one. -/
def fpDiv : Fp → Fp → Fp
  | .nan, _ => .nan
  | _, .nan => .nan
  | .inf _, .inf _ => .nan
  | .inf a, .fin t _ _ => .inf (a != t)
  | .fin s _ _, .inf b => .fin (s != b) 0 0
  | .fin s m e, .fin t n f =>
    if n = 0 then (if m = 0 then .nan else .inf (s != t))
    else
      let k := 128 + Nat.log2 n
      let x := m * 2 ^ k
      .fin (s != t) (2 * (x / n) + (if x % n = 0 then 0 else 1)) (e - f - k - 1)

/-- The square root to 64 extra bits and a sticky bit; a negative nonzero value has none. -/
def fpSqrt : Fp → Fp
  | .nan => .nan
  | .inf s => if s then .nan else .inf false
  | .fin s m e =>
    if m = 0 then .fin s 0 e
    else if s then .nan
    else
      let odd := (e % 2 == 1)
      let x := m * 2 ^ (if odd then 257 else 256)
      let e' := (if odd then e - 1 else e) / 2
      let r := natSqrt x
      .fin false (2 * r + (if r * r = x then 0 else 1)) (e' - 129)

/-- Numeric order of two values that are not NaN; −0 equals +0. -/
def fpLe : Fp → Fp → Bool
  | .nan, _ => false
  | _, .nan => false
  | .inf a, .inf b => a || !b
  | .inf a, .fin .. => a
  | .fin .., .inf b => !b
  | .fin s m e, .fin t n f => decide (fpScaled s m e (min e f) ≤ fpScaled t n f (min e f))

def Fp.isNan : Fp → Bool
  | .nan => true
  | _ => false

def Fp.isInf : Fp → Bool
  | .inf _ => true
  | _ => false

def Fp.isZero : Fp → Bool
  | .fin _ m _ => m == 0
  | _ => false

def Fp.isNeg : Fp → Bool
  | .nan => false
  | .inf s => s
  | .fin s _ _ => s

def fpEq (x y : Fp) : Bool := fpLe x y && fpLe y x
def fpLt (x y : Fp) : Bool := fpLe x y && !fpLe y x

/-- Minimum of two encodings: −0 below +0, one NaN gives the other operand, two give the canonical NaN (R187). -/
def fpMinMax (f : FFmt) (wantMax : Bool) (a b : Nat) : Nat :=
  let x := fpVal f a
  let y := fpVal f b
  if x.isNan then (if y.isNan then f.nanBits else b)
  else if y.isNan then a
  else if fpEq x y then (if x.isNeg = wantMax then b else a)
  else if fpLt x y = wantMax then b else a

/-! ## Formats of storage (R50) -/

/-- What a format code names. -/
inductive Fmt where
  | fl (f : FFmt)
  | int (w : Nat)
  | bfp (m : Nat)
  | t3p5
  deriving DecidableEq, Repr

/-- The format codes; others are reserved (R50). -/
def fmtOf (c : Nat) : Option Fmt :=
  match c with
  | 0x00 => some (.fl fmtF32)
  | 0x01 => some (.fl fmtF16)
  | 0x02 => some (.fl fmtBf16)
  | 0x03 => some (.fl fmtE4M3)
  | 0x04 => some (.fl fmtE5M2)
  | 0x08 => some (.int 32)
  | 0x09 => some (.int 16)
  | 0x0A => some (.int 8)
  | 0x0B => some (.int 4)
  | 0x0C => some (.int 2)
  | 0x20 => some .t3p5
  | _ => if 0x12 ≤ c ∧ c ≤ 0x18 then some (.bfp (c - 0x10)) else none

/-- Bits of a dimension-0 unit (R122): an element, a block, or a T3P5 byte. -/
def Fmt.unitBits : Fmt → Nat
  | .fl f => 1 + f.ebits + f.fbits
  | .int w => w
  | .bfp m => 8 * (1 + 4 * m)
  | .t3p5 => 8

/-- Elements of a dimension-0 unit. -/
def Fmt.perUnit : Fmt → Nat
  | .fl _ => 1
  | .int _ => 1
  | .bfp _ => 32
  | .t3p5 => 5

/-- Whether the format is one of the integer formats of R68. -/
def Fmt.isInt : Fmt → Bool
  | .fl _ => false
  | .int _ => true
  | .bfp _ => false
  | .t3p5 => true

/-- The value of a mantissa q of a block with exponent E (R56). -/
def bfpVal (e : Nat) (q : Int) : Fp :=
  if e = 255 then .nan
  else if e = 0 then .fin false 0 0
  else .fin (decide (q < 0)) q.natAbs ((e : Int) - 127)

/-- Mantissa i of a block's string of bits (R55). -/
def bfpMant (m : Nat) (s : Nat) (i : Nat) : Int := sextInt (s / 2 ^ (m * i)) m

/-- A block as its exponent and its 32 mantissas (R55). -/
def bfpSplit (m : Nat) (bytes : ByteList) : Nat × List Int :=
  let s := field bytes 1 (4 * m)
  (field bytes 0 1, (List.range 32).map (bfpMant m s))

/-- The 32 elements of a block (R56). -/
def bfpDecode (m : Nat) (bytes : ByteList) : List Fp :=
  let b := bfpSplit m bytes
  b.2.map (bfpVal b.1)

/-- Whether every finite element scaled by 2^(127 - E) lies in the mantissa range (R57). -/
def bfpFits (m : Nat) (xs : List Fp) (e : Nat) : Bool :=
  xs.all fun x =>
    match x with
    | .fin s mg ex =>
      let q := min (ex + 127 - e) 0
      let v := fpScaled s mg (ex + 127 - e) q
      decide (-(2 ^ (m - 1) : Int) * 2 ^ (-q).toNat ≤ v) && decide (v ≤ (2 ^ (m - 1) - 1 : Int) * 2 ^ (-q).toNat)
    | _ => false

/-- The shared exponent of R57. -/
def bfpExp (m : Nat) (xs : List Fp) : Nat := Nat.min 254 (firstFrom (bfpFits m xs) 253 1)

/-- One mantissa: rounded in the mode, then clamped (R57). -/
def bfpQuant (m mode e w : Nat) : Fp → Int
  | .fin s mg ex => satSigned (roundIntFin mode w s mg (ex + 127 - e)) m
  | _ => 0

/-- Exponent and mantissas of a block encoded by R57; ws gives each lane's random word. -/
def bfpQuantBlock (m mode : Nat) (ws : Nat → Nat) (xs : List Fp) : Nat × List Int :=
  if xs.any (fun x => x.isNan || x.isInf) then (255, xs.map fun _ => 0)
  else
    let e := bfpExp m xs
    let q := xs.mapIdx fun i x => bfpQuant m mode e (ws i) x
    if q.all (· == 0) then (0, q) else (e, q)

/-- Whether the clamp of R57 changes a mantissa: a saturation (R63, R403). -/
def bfpClamps (m mode : Nat) (ws : Nat → Nat) (xs : List Fp) : Bool :=
  !(xs.any fun x => x.isNan || x.isInf)
  && (xs.mapIdx fun i x => match x with
    | .fin s mg ex => roundIntFin mode (ws i) s mg (ex + 127 - bfpExp m xs) != bfpQuant m mode (bfpExp m xs) (ws i) x
    | _ => false).any id

/-- The string of mantissas as a number (R55). -/
def bfpString (m : Nat) : List Int → Nat
  | [] => 0
  | q :: r => (q % 2 ^ m).toNat + 2 ^ m * bfpString m r

/-- The encoder into BFPm (R57). -/
def bfpEncode (m mode : Nat) (ws : Nat → Nat) (xs : List Fp) : ByteList :=
  let b := bfpQuantBlock m mode ws xs
  leBytes 1 b.1 ++ leBytes (4 * m) (bfpString m b.2)

/-- Whether a T3P5 code is legal (R58). -/
def t3p5Ok (c : Nat) : Bool := c < 243

/-- The quotients of R59. -/
def t3p5Quot (c j : Nat) : Nat :=
  match j with
  | 0 => c
  | 1 => c * 21846 / 2 ^ 16
  | 2 => c * 7282 / 2 ^ 16
  | 3 => c * 2428 / 2 ^ 16
  | 4 => c * 810 / 2 ^ 16
  | _ => 0

/-- Trit j of a code as −1, 0 or +1 (R59). -/
def t3p5Trit (c j : Nat) : Int := (t3p5Quot c j : Int) - 3 * t3p5Quot c (j + 1) - 1

/-- The generator's advance (R64). -/
def srAdvance (x0 : Nat) : Nat :=
  let x1 := x0 ^^^ (x0 * 2 ^ 13 % 2 ^ 32)
  let x2 := x1 ^^^ (x1 / 2 ^ 17)
  x2 ^^^ (x2 * 2 ^ 5 % 2 ^ 32)

/-- Lane i's random word (R64). -/
def srLane (x i : Nat) : Nat := rotl32 x (7 * i % 32)

/-- The state a write of a generator stores (R66). -/
def srStore (v : Nat) : Nat := if v % 2 ^ 32 = 0 then 0x6D2B79F5 else v % 2 ^ 32

/-- The state of a generator at launch start (R66): n is 0 for SRSV and 1 for SRSC. -/
def srInit (core n : Nat) : Nat := (0x6D2B79F5 ^^^ (core * 256)) ^^^ n

/-- The value of an element of a one-element-per-unit format. -/
def elemVal (f : Fmt) (b : Nat) : Fp :=
  match f with
  | .fl x => fpVal x b
  | .int w => fpOfInt (sextInt b w)
  | _ => .fin false 0 0

/-- The encoding of a value in a one-element-per-unit format (R62, R63). -/
def elemBits (f : Fmt) (mode w : Nat) (x : Fp) : Nat :=
  match f with
  | .fl g => roundFp g mode w x
  | .int k => (roundToInt mode w k x % 2 ^ k).toNat
  | _ => 0

end Sys2Proof.Machine
end

