-- ==== Sys2Proof/Machine/State.lean ====
section
/-! DEFINITION. The state of one Drimus D8 module as plain data, its reset value, and the reasons a step can stop. INVENTORY.md lists every piece with the rule that names it. -/
namespace Sys2Proof.Machine

/-! ## Cox strands -/

/-- Whether a strand runs (R38, R328): stopped means stopped at YIELD or HALT; faulted means stopped by a trap with no usable handler (R400). -/
inductive StrandStatus where
  | notStarted | runnable | stopped | faulted | exited
  deriving DecidableEq, Repr

/-- An issued instruction that has not finished (R174, R317, R320): its words, destination (s0 to s63 as 0 to 63, p0 to p23 as 64 to 87), the value the destination held, captured operands, and the cycle in which its result is due. -/
structure Inflight where
  word : Word32
  ext : Word32
  dst : Nat
  old : Word64
  opA : Word64
  opB : Word64
  opD : Word64
  due : Nat
  deriving DecidableEq, Repr

/-- Bytes that a read outside the module has brought to the unit that waits for them (R83): tier, address, bytes. -/
structure Reply where
  tier : Nat
  addr : Nat
  data : ByteList
  deriving DecidableEq, Repr

/-- A load, AMO or CAS whose value has not returned into its destination (R203, R317). val is the value once memory has given it; pd and ok are the predicate a CAS writes, expect the value a CAS outside the module compares; key, home and dpa are the location, the home die and, in HBM, the device physical address of a causal load (R107), place the address of its instruction (R453). -/
structure Load where
  item : Nat
  dst : Nat
  val : Option Word64
  pd : Nat
  ok : Bool
  nbytes : Nat
  sgn : Bool
  expect : Option Word64
  key : Nat
  home : Option Nat
  dpa : Option Nat
  place : Nat
  deriving DecidableEq, Repr

/-- An instruction that holds its strand (R200): the instruction, the item or request numbers it waits for, the generation or phase it recorded, the answer that ends the hold, and the record that a POSTR has read. -/
structure Hold where
  instr : Instr
  ids : List Nat
  gen : Nat
  answer : Option Word64
  data : ByteList
  deriving DecidableEq, Repr

/-- A failure that traps a strand at a later boundary (R453, R454): its cause with INFO0 and INFO1, and WHERE of its record, none for the boundary itself. -/
structure FailedAccess where
  cause : Nat
  info : Word64
  info1 : Word64
  place : Option Nat
  deriving DecidableEq, Repr

/-- One Cox strand slot (R167, R169, R314, R315); got holds what its fetches and table reads outside the module have brought (R83, R190, R197), and rebase tells that its unfinished instructions count their cycles from its next instruction on (R329). -/
structure Strand where
  regs : Vector Word64 64
  preds : BitVec 24
  pc : Word64
  status : StrandStatus
  inh : Bool
  tcause : BitVec 12
  tinfo : Word64
  tvec : Word64
  tframe : Word64
  spmsel : BitVec 8
  seen : Vector Word32 8
  team : NatList
  inflight : List Inflight
  loads : List Load
  hold : Option Hold
  failed : List FailedAccess
  got : List Reply
  rebase : Bool
  deriving DecidableEq, Repr

/-! ## Ordering: counted items and tracking slots -/

/-- Spaces of ranges and regions (R103, R122). -/
inductive RSpace where
  | l | c | g | w
  deriving DecidableEq, Repr

/-- A range as TRACK holds it (R103, R327): the handle it was named by, 0 for registers; its space; its half-open interval. -/
structure Range where
  handle : Nat
  space : RSpace
  lo : Nat
  hi : Nat
  deriving DecidableEq, Repr

/-- What a counted item is (R102): an access of a strand, a task in the window, an entry of a copy channel. -/
inductive ItemKind where
  | access (slot : Nat) (read : Bool)
  | task (entry : Nat)
  | copy (eid : Nat)
  deriving DecidableEq, Repr

/-- An item counted in a core's catch-all slot (R102): the scope at which it is performed so far, and the tracking slots that count it and whose residue holds it (R103, R104). -/
structure Item where
  id : Nat
  kind : ItemKind
  scope : Option Scope
  trk : BitVec 32
  res : BitVec 32
  deriving DecidableEq, Repr

/-! ## Core objects -/

/-- A handle table entry (R39). -/
structure Handle where
  space : Nat
  fmt : Nat
  ndim : Nat
  base : Nat
  ext : NatList
  stride : NatList
  footlen : Nat
  deriving DecidableEq, Repr

/-- A scratchpad map entry (R75); ren marks a shadow bound by a rename (R127). -/
structure SpmEntry where
  frame : Nat
  shf : Nat
  v : Bool
  shv : Bool
  ren : Bool
  deriving DecidableEq, Repr

/-- A slot of a catch barrier (R331). -/
structure CatchSlot where
  expected : Nat
  arrived : Nat
  phase : Bool
  awaiting : Bool
  pending : Option Nat
  latched : Bool
  deriving DecidableEq, Repr

/-- A catch barrier (R219, R331): its window, the stream bound to it, and the slot the bound context fills. -/
structure CatchBar where
  slots : List CatchSlot
  stream : Option Nat
  deriving DecidableEq, Repr

/-- State of a scratch tag (R94). -/
inductive TagState where
  | invalid | filling | valid
  deriving DecidableEq, Repr

/-- A scratch tag (R94). -/
structure Tag where
  block : Nat
  st : TagState
  pins : Nat
  stamp : Nat
  deriving DecidableEq, Repr

/-- What an entry of a copy channel serves (R333). -/
inductive ChanSrc where
  | sta
  | task (entry : Nat)
  | fill (tag : Nat)
  deriving DecidableEq, Repr

/-- An entry of a copy channel (R141, R333): the template as started, the next box row, and the scratchpad pages (below 2^20) and HBM regions (2^20 × (die + 1) + LRI) to which its shadow writes bound a shadow (R421), and those it has read or written (R116). -/
structure ChanEntry where
  eid : Nat
  tpl : ByteList
  row : Nat
  src : ChanSrc
  held : Bool
  done : Bool
  shadows : NatList
  touched : NatList
  deriving DecidableEq, Repr

/-- Life of a window entry (R332). -/
inductive TaskSt where
  | admitted | staged | running | stopped | done
  deriving DecidableEq, Repr

/-- Status accrued by a task (R239). -/
structure TaskFlags where
  sat : Bool
  inf : Bool
  merge : Bool
  nanb : Bool
  badt : Bool
  ended : Bool
  count : Nat
  deriving DecidableEq, Repr

/-- A window entry (R118, R332): rdeps are its rename dependences (R126), pdeps the earlier readers its publish waits for (R125), round the collective round it belongs to (R267), shadows what its S writes bound (R421), touched the pages and regions it has read or written (R116), since the step at which it was first seen ready (R138), acc the running sum of a PSUM task (R266). -/
structure TaskRec where
  bytes : ByteList
  st : TaskSt
  age : Nat
  passed : Nat
  wcOk : Bool
  csOk : Bool
  prog : Nat
  edges : NatList
  rdeps : NatList
  pdeps : NatList
  ren3 : Bool
  ren4 : Bool
  frames : NatList
  bound : Bool
  pubPending : Bool
  vbase : Nat
  flags : TaskFlags
  round : Nat
  shadows : NatList
  touched : NatList
  since : Option Nat
  acc : Word32
  deriving DecidableEq, Repr

/-- A pending publish (R116): its number, its pages, and the task whose completion waits for it. -/
structure PendPub where
  id : Nat
  pages : NatList
  entry : Option Nat
  deriving DecidableEq, Repr

/-- A special-function result not yet due (R275, R276, R330): its word, the position at which it is due, the mask and operand as captured at issue. -/
structure VReplay where
  word : Word32
  duePos : Nat
  mask : Mask
  opA : Row
  deriving DecidableEq, Repr

/-- A bypass latch (R274, R275): its contents, none when no word has written it since the kernel started or was resumed; and whether it is armed. -/
structure Latch where
  val : Option Row
  armed : Bool
  deriving DecidableEq, Repr

/-- A vector kernel, accepted or running (R255, R270 to R276, R330): its window entry, the address and position of its next word, the first accumulator row of its window. -/
structure Kernel where
  entry : Nat
  next : Word64
  posn : Nat
  vbase : Nat
  loops : List (Word64 × Nat)
  kpar : Vector Word32 16
  masks : Vector Mask 8
  latches : Vector Latch 4
  rq : List VReplay
  flags : TaskFlags
  held : Bool
  deriving DecidableEq, Repr

/-- A translation cached in a TLB (R82): table root, virtual page base, page size, the leaf's fields. -/
structure TlbEntry where
  root : Nat
  va : Nat
  size : Nat
  leaf : Word64
  deriving DecidableEq, Repr

/-- A contribution received in a collective exchange round (R267). -/
structure Contrib where
  entry : Nat
  rank : Nat
  data : ByteList
  deriving DecidableEq, Repr

/-- What updates a dependence counter in a cycle that several units share (R227, R408): a DCSET or DCADD by slot and the address of its instruction, a completion decrement by UNIT, SUB and WHERE of its record, or the increment of a PROBE fill. -/
inductive DcKind where
  | set (slot : Nat) (pc : Word64) (v : Nat)
  | add (slot : Nat) (pc : Word64) (d : Int)
  | dec (unit sub place : Nat)
  | fill
  deriving DecidableEq, Repr

/-- One update of counter n in a shared cycle, with the counter's value before the cycle (R227). -/
structure DcUpd where
  ctr : Nat
  start : Nat
  kind : DcKind
  deriving DecidableEq, Repr

/-- One core (R12) with everything its saved context holds (R326, R327); lead is how far its own cycle counter is ahead of State.cycle (R171), lastPost the slot whose post was admitted last (R129), lastChan the channel whose box row went last (R141), dcNow the counter updates of a cycle that units share (R227), wasActive and wasFresh the activity before the strand's turn (R428). -/
structure Core where
  part : Option Nat
  lcore : Nat
  partw : Word32
  handles : List Handle
  strands : Vector Strand 4
  lastSlot : Nat
  spm : Tab SpmEntry
  reserved : NatList
  retiring : NatList
  pubs : List PendPub
  dcs : Tab Nat
  bars : Tab CatchBar
  track : Tab Range
  items : List Item
  sttcfg : Word64
  sttPend : Option (Nat × Word64)
  tags : Tab Tag
  stampNext : Nat
  templates : Tab Word64
  chans : Vector (List ChanEntry) 8
  window : Tab TaskRec
  ageNext : Nat
  ingress : List ByteList
  ingressTurn : Bool
  lval : Bool
  lfmt : Nat
  lmant : Tab (BitVec 8)
  lexp : Tab (BitVec 8)
  srsv : Word32
  srsc : Word32
  livem : Word32
  staged : Option Kernel
  kernel : Option Kernel
  contribs : List Contrib
  rounds : Tab Nat
  tlb : List TlbEntry
  active : Bool
  fresh : Bool
  quiet : Nat
  frozen : Bool
  wkey : Option Nat
  lead : Word64
  lastPost : Nat
  lastChan : Nat
  dcNow : List DcUpd
  wasActive : Bool
  wasFresh : Bool
  deriving DecidableEq, Repr

/-! ## Access contexts -/

/-- A push issued and not landed (R309): destination offsets with their bytes, and the slot it is counted against. -/
structure Push where
  slot : Nat
  bytes : List (Nat × Byte)
  count : Nat
  deriving DecidableEq, Repr

/-- An access context (R143, R299, R334); held tells that it has stopped with a cause, waits that its word holds (R300, R313), halted that it has reached AHALT (R146, R230), rest how many bytes of the push at APC have been counted and not been pushed, after a row of it has faulted (R418). -/
structure Ctx where
  part : Nat
  prog : Nat
  core : Nat
  stream : Nat
  bar : Nat
  regs : Vector Word48 16
  lc : Vector (BitVec 12) 4
  hd : Vector (BitVec 12) 4
  apc : Nat
  cslot : Nat
  issued : Nat
  cq : List Word64
  pushes : List Push
  held : Bool
  waits : Bool
  stopping : Bool
  halted : Bool
  rest : Nat
  deriving DecidableEq, Repr

/-! ## Launch parts -/

/-- A level descriptor (R29). -/
structure Level where
  domain : Nat
  scope : Nat
  fanout : Nat
  deriving DecidableEq, Repr

/-- An entry of the access-program table (R41) and where the front end placed it: program base in the store, contexts reserved. -/
structure Prog where
  mse : Nat
  nctx : Nat
  len : Nat
  image : Nat
  base : Nat
  ctxs : NatList
  deriving DecidableEq, Repr

/-- A team barrier (R111, R216, R329): level, team number at that level, generation, and who has arrived: pairs of a generation, 65,536 for a member that has exited, and a member number (log 24). -/
structure TeamBar where
  level : Nat
  team : Nat
  gen : BitVec 16
  arrived : List (Nat × Nat)
  deriving DecidableEq, Repr

/-- Where a launch part stands (R43, R322, R335). -/
inductive Phase where
  | waiting | setUp | running | saving | saved | resuming | complete | ended
  deriving DecidableEq, Repr

/-- A launch part (R27, R43, R316, R322); handles, cbtab and dctab are the tables as read at set-up (R28), modules the module identifiers its gang map gives (R44), setTick TICK at the end of step 5 (R402), savedTick and savedCycle TICK and CYCLE in the decision cycle (R325, R329), hosted a save that PREEMPT asked for, image the address of a written image or of the one to be restored, started the step number of its start (R356), homes the cores on which a part to be resumed stood, by logical number (R31), asked the REASON of a save that waits for the part's start or for the end of a freeze (R49, R422). -/
structure Part where
  queue : Nat
  pid : Nat
  lrec : Nat
  gidx : Nat
  atick : Word64
  gmap : Nat
  key : Nat
  ptroot : Word64
  priv : Bool
  hosted : Bool
  gang : Bool
  wkeep : Bool
  levels : List Level
  partw : Word32
  entries : List Word64
  arg : Word64
  handles : List Handle
  cbtab : ByteList
  dctab : ByteList
  cores : NatList
  progs : List Prog
  bars : List TeamBar
  phase : Phase
  image : Option Nat
  reason : Nat
  slot : Nat
  setTick : Word64
  savedTick : Word64
  savedCycle : Nat
  started : Nat
  yreq : Bool
  forced : Bool
  dltick : Word32
  probe : Option (Nat × Bool)
  modules : NatList
  homes : NatList
  asked : Option Nat
  deriving DecidableEq, Repr

/-! ## Dies -/

/-- A region indirection table entry (R87). -/
structure RitEntry where
  pri : Nat
  v : Bool
  shv : Bool
  qs : Bool
  noremap : Bool
  spri : Nat
  deriving DecidableEq, Repr

/-- A swap or retirement move that is running (R92, R424): regions A and B, the latter none for a retirement move. -/
structure Swap where
  a : Nat
  b : Option Nat
  started : Bool
  spare : Nat
  deriving DecidableEq, Repr

/-- A delivered causal store that a die has not applied (R107): source die and clock, the strand and counted item it came from, and, on the die that holds the location, its memory key, its logical address when it lies in HBM, the key identifier and the bytes; place is the address of its instruction (R453). -/
structure CausalStore where
  src : Nat
  clock : Vector Word32 8
  core : Nat
  slot : Nat
  item : Nat
  key : Nat
  dpa : Option Nat
  owner : Nat
  data : ByteList
  place : Nat
  deriving DecidableEq, Repr

/-- The unit an error record or a held unit names (R397, R417). -/
inductive UnitRef where
  | kernel (core : Nat)
  | task (core entry : Nat)
  | chan (core ch : Nat)
  | ctx (mse ctx : Nat)
  deriving DecidableEq, Repr

/-- What each die holds; swapNext holds the swaps that the engine has chosen at the end of an epoch and that wait for their turn (R91), ctrCache the counter blocks and tree nodes in the counter cache, the last used first, with whether they have been modified (R21, R372); pubHeld holds the publishes asked for, whose pages are LRIs, and whose regions' accesses are held; access counts what each channel has served in the epoch, at 0 to 63, and how often each region was recorded, at 64 + LRI (R91); leaving holds the channels whose retirement was asked for (R424); bindAsk the addresses within the die at which a unit's S write waits for the shadow of a region (R87, R89, R91, R107, R147, R378, R424). -/
structure Die where
  rit : Tab RitEntry
  withheld : NatList
  leaving : BitVec 64
  remapctl : Word32
  remapLria : BitVec 16
  remapLrib : BitVec 16
  refused : Bool
  swap : Option Swap
  swapNext : List (Nat × Nat)
  ritHeld : List (Nat × Word64)
  pubHeld : List PendPub
  bindAsk : List (Nat × UnitRef)
  access : Tab Nat
  issue : Vector Word32 8
  applied : Vector Word32 8
  causal : List CausalStore
  ramp : Word64
  rampNext : Option Word64
  retired : BitVec 64
  ctrCache : List (Nat × Bool)
  deriving DecidableEq, Repr

/-- What stands in the sideband of a physical HBM line (R371, R423): the key pair, logical line and counter its MAC was made with (pair 0 before any write), and the poison mark. -/
structure LineMeta where
  ctr : BitVec 56
  tag : Nat
  la : Nat
  poison : Bool
  deriving DecidableEq, Repr

/-! ## Queues and the front end -/

/-- An INDIRECT level (R353): the buffer, its packet count, the index of the next packet, LOOP counts taken, the packet that opened it. -/
structure QLevel where
  base : Nat
  npkt : Nat
  idx : Nat
  loops : Tab Nat
  pid : Nat
  deriving DecidableEq, Repr

/-- A started packet (R346, R351, R438): its 64 bytes, the ring index it has or that of the ring packet whose buffer holds it, whether it came from the ring itself, its address, the INDIRECT whose buffer holds it, whether its own row has run, whether the update of its completion signal has been made or sent (R352), the signals a WAIT lists, its launch part, the status and slot it completes with, and, when it completes aborted, the cause with INFO0, INFO1 and the number of a record already written. -/
structure Packet where
  pid : Nat
  bytes : ByteList
  ring : Nat
  inRing : Bool
  addr : Nat
  ready : Bool
  status : Nat
  slot : Nat
  abort : Option (Nat × Word64 × Word64 × Option Nat)
  begun : Bool
  signalled : Bool
  parent : Option Nat
  list : List Word64
  part : Option Nat
  deriving DecidableEq, Repr

/-- One hardware work queue (R341 to R344, R349 to R354); skipping tells that a QERR SKIP has not read its packet yet (R439). -/
structure Queue where
  qctl : Word64
  qbase : Word64
  wr : Word32
  rd : Word32
  cp : Word32
  ptroot : Word64
  ckbase : Word64
  ckcfg : Word64
  used : Nat
  note : Word64
  nwr : Word32
  nrd : Word32
  yield : Word64
  qerr : Word64
  lbase : Word64
  lsize : Nat
  levels : List QLevel
  packets : List Packet
  skip : Nat
  stopped : Bool
  ffault : Option (Nat × Nat)
  parked : Bool
  skipping : Bool
  notes : List (Nat × ByteList)
  deriving DecidableEq, Repr

/-- State of a TDI (R374). -/
inductive TdiState where
  | unlocked | locked | run | error
  deriving DecidableEq, Repr

/-- A virtual function (R339, R374, R375): TDI state, bound key, stream, stop in progress, and its configuration items, among them its MSI-X capability and the words of its MSI-X table, two for each of 32 vectors (R337). -/
structure Vf where
  tdi : TdiState
  key : Nat
  stream : Nat
  stopping : Bool
  digest : Nat
  command : BitVec 16
  msix : Word64
  msixTab : Tab Word64
  vtab : Word64
  deriving DecidableEq, Repr

/-- What a flit carries (R362, R364): a tier-1 request of some kind with the key identifier it is served under (R370), a POSTR record, a collective contribution with its level and tag, round and rank, an abandon message, an arrival at a barrier. -/
inductive FabricMsg where
  | request (id kind addr len key : Nat) (data : ByteList)
  | post (id core key : Nat) (rec : ByteList)
  | collective (group round rank key : Nat) (data : ByteList)
  | abandon (group round rank key cause : Nat)
  | barrier (level team gen member : Nat)
  deriving DecidableEq, Repr

/-- A flit (R362): the type, destination module identifier, class and sequence number of its header, and its payload. -/
structure Flit where
  typ : Nat
  dest : Nat
  cls : Nat
  seq : Nat
  msg : FabricMsg
  deriving DecidableEq, Repr

/-- A Nerior Link port (R362, R366, R451): PCTL, PSTAT with the reason of its last LINKDOWN, the three counters, how often the flit in turn has been replayed in a row, the sequence numbers of the next flit received and sent, the flits not yet acknowledged, the path delay measured during training in ticks (R367), and the sequence number below which its flits are those of a port that went down (R451). -/
structure Port where
  pctl : Word64
  up : Bool
  lanes : Nat
  peer : Nat
  reason : Nat
  crc : Nat
  replay : Nat
  corr : Nat
  downs : Nat
  rxSeq : Nat
  txSeq : Nat
  unacked : List Flit
  delay : Nat
  moved : Nat
  deriving DecidableEq, Repr

/-- What waits for the completion of a tier-1 or tier-2 request (R114, R453): words is a strand's fetch or table read, flush the read of a fence that pushes tier-2 writes, queue and part what the front end reads for a queue or a launch part, outside a held request from outside (R92). -/
inductive ReqFor where
  | load (core slot item : Nat)
  | store (core slot item : Nat)
  | post (core slot : Nat)
  | task (core entry : Nat)
  | copy (core ch eid : Nat)
  | context (mse ctx : Nat)
  | packet (q pid : Nat)
  | save (part : Nat)
  | words (core slot : Nat)
  | flush (core slot : Nat)
  | queue (q : Nat)
  | part (part : Nat)
  | outside (n : Nat)
  | nothing
  deriving DecidableEq, Repr

/-- An outstanding tier-1 or tier-2 request (R364, R452), with INFO0 and the module identifier that its failure reports (R435), and for a strand the address of the instruction (R453); kind is 0 for a read, 1 for a write, else an atomic, addr and len say what it names, fn is the PCIe function it leaves by (R114). -/
structure RemoteReq where
  id : Nat
  whose : ReqFor
  tier : Nat
  info : Word64
  peer : Nat
  place : Nat
  kind : Nat
  addr : Nat
  len : Nat
  fn : Nat
  deriving DecidableEq, Repr

/-- A request from outside that is held (R92, R345): an access of the host through BAR2, a doorbell or a register write behind one, a request of a peer module. -/
inductive HeldReq where
  | bar2Read (tag addr len : Nat)
  | bar2Write (addr : Nat) (data : ByteList)
  | registerWrite (org : RegOrigin) (off size : Nat) (v : Word64)
  | doorbell (org : RegOrigin) (q : Nat) (v : Word32)
  | peer (r : PeerReq)
  deriving DecidableEq, Repr

/-- A tier-2 store that the host has taken and that no later read of its function has pushed yet (R114): its request number, function, strand, item and address. -/
structure Posted where
  id : Nat
  fn : Nat
  core : Nat
  slot : Nat
  item : Nat
  addr : Nat
  deriving DecidableEq, Repr

/-- A unit without a handler that has stopped with a cause (R321, R417): its error record's number, whether it is held, and whether its report came during a SWITCH (R359). -/
structure UnitTrap where
  seq : Nat
  unit : UnitRef
  cause : Nat
  info : Word64
  held : Bool
  late : Bool
  deriving DecidableEq, Repr

/-- An outstanding SYS request (R235); one made during a SWITCH is held (R359). -/
structure SysReq where
  core : Nat
  slot : Nat
  svc : Service
  arg : Word64
  held : Bool
  deriving DecidableEq, Repr

/-- Firmware complexes and the front end's view of them (R358, R359, R449). -/
structure Firmware where
  act : Bool
  sbst : Nat
  imgA : FwImage
  imgB : FwImage
  switching : Bool
  lost : Bool
  lastBeat : Word64
  committed : Bool
  noBoot : Bool
  deriving DecidableEq, Repr

/-- Keel (R21, R368 to R373, R456, R457): boot, tamper hold, key pairs with their generation, identifiers whose retirement is pending, open sessions, whether the device identity key pair has been derived, the IDE streams with the session that gave their keys, and the root block of the hash tree: the counters of the level-9 nodes. -/
structure Keel where
  booted : Bool
  halted : Bool
  alloc : NatList
  gens : Tab Nat
  genNext : Nat
  retiring : NatList
  erased : Bool
  sessions : NatList
  identity : Bool
  streamKeys : List (Nat × Nat)
  root : Tab (BitVec 56)
  deriving DecidableEq, Repr

/-- Host translations (R347) by 4 KiB pages: cached ones, those whose ATS completion and those whose PRI response is awaited, refusals not yet met, invalidations under way; waits pairs a page with what waits for it (R429). -/
structure HostXlat where
  cache : NatList
  pending : NatList
  paged : NatList
  refused : NatList
  invals : List (Nat × Nat)
  waits : List (Nat × ReqFor)
  deriving DecidableEq, Repr

/-- What the module has sent at its ports; registerData answers a host read of a register, none for an Unsupported Request (R338, R446), ide is the IDE stream of a function whose TDI is in RUN (R374). -/
inductive PortMsg where
  | bar2Data (tag : Nat) (data : ByteList)
  | bar2Error (tag : Nat) (cause : Nat)
  | registerData (tag : Nat) (data : Option Word64)
  | msix (vf vector : Nat) (ide : Option Nat)
  | hostWrite (fn : Nat) (ide : Option Nat) (addr : Nat) (data : ByteList)
  | hostRequest (id fn : Nat) (ide : Option Nat) (kind addr len : Nat) (data : ByteList)
  | peerReply (tag : Nat) (data : ByteList) (ok : Bool)
  | ats (iova : Nat)
  | pri (iova : Nat)
  | atsInvalidated
  | flit (port : Nat) (f : Flit)
  | retransmit (port seq : Nat)
  | announce (port id : Nat) (tick : Word64)
  | spdm (code : Nat) (words : NatList)
  | notifyFirmware (code : Nat) (word : Word64)
  deriving DecidableEq, Repr

/-- Who moves (log 2): a strand, a kernel, an access context, one of the events and task operations, a task operation that goes on for at most n units of work before it can be stopped (R269, R324), a held request from outside (R92), or the host reading a register (R338, log 85). -/
inductive Move where
  | strand (core slot : Nat)
  | kernel (core : Nat)
  | context (mse ctx : Nat)
  | event (i : Instr)
  | units (i : Instr) (n : Nat)
  | outside (n : Nat)
  | register (tag : Nat) (org : RegOrigin) (off size : Nat)
  deriving DecidableEq, Repr

/-- Whose word is being executed (log 2). -/
inductive Turn where
  | none
  | strand (core slot : Nat)
  | kernel (core : Nat)
  | context (mse ctx : Nat)
  | outside (n : Nat)
  deriving DecidableEq, Repr

/-- The module; the moves of one entry of the agenda share a cycle, and shared tells that the step is in such a cycle (log 42), pace bounds the units of work of a task operation's step (log 2); replies holds what reads outside the module have brought to units (R83), arrivals which accesses have met a held region, in order, with the regions they touch (R92), outside the held requests from outside, unsent the messages to other modules that no port carries yet: their die, destination and address (R363); nodeCtrs holds the counters that tree nodes hold for counter blocks and nodes of levels 0 to 8 (R372), cacheBad the counter blocks and tree nodes found not to verify (R426), tlbKind the KIND last written (R344), unitActs the actions of UNITRES that are being delivered (R417), lastCtx the context of each MSE that issued last (R300), rootFix the tick of the last correction (R367), poisoned the 64-bit SRAM words that are poisoned (R420). -/
structure State where
  steps : Nat
  agenda : List (List Move)
  shared : Bool
  pace : Option Nat
  turn : Turn
  port : List PortMsg
  nextId : Nat
  cycle : Word64
  tick : Word64
  tickLag : Nat
  mem : Memory
  lines : Tab LineMeta
  ctrs : Tab (BitVec 56)
  shadowCtr : Tab (BitVec 56)
  nodeCtrs : Tab (BitVec 56)
  cacheBad : NatList
  poisoned : NatList
  cores : Tab Core
  ctxs : Tab Ctx
  parts : Tab Part
  dies : Tab Die
  queues : Tab Queue
  lastServed : Tab Nat
  lastCtx : Tab Nat
  vfs : Tab Vf
  numVfs : Nat
  vfEnable : Bool
  vfBar0 : Word64
  bar2Base : Word64
  ports : Tab Port
  modid : Word32
  tsync : Word32
  rtmo : Word32
  root : Option Nat
  rootSeen : Word64
  rootFix : Word64
  synced : Bool
  crewTlb : Tab (List TlbEntry)
  mseTlb : Tab (List TlbEntry)
  modesel : Word64
  waitpoll : Word64
  tlbBusy : Bool
  tlbQueue : List (Nat × Nat × Nat)
  tlbKind : Nat
  tlbinvr : Word64
  tlbinva : Word64
  preemptReg : Word64
  fwimg : Word64
  fwctl : Word64
  errbase : Word64
  errwr : Word32
  errrd : Word32
  errctl : Word32
  errlost : Word32
  errseq : Word32
  unitres : Word64
  unitActs : List (Nat × Bool)
  chret : Word64
  chleft : Nat
  chbusy : Bool
  chmoving : Bool
  chfailed : Bool
  waitcfg : Word64
  fw : Firmware
  keel : Keel
  xlat : HostXlat
  requests : List RemoteReq
  posted : List Posted
  replies : List (ReqFor × Reply)
  arrivals : List (ReqFor × Nat)
  outside : List (Nat × HeldReq)
  unsent : List (Nat × Nat × Nat × FabricMsg)
  traps : List UnitTrap
  sysreqs : List SysReq
  throttled : List Block
  frozenMse : NatList
  ide : NatList
  deriving DecidableEq, Repr

/-! ## Reset -/

/-- A strand that has not started (R38). -/
def Strand.reset : Strand where
  regs := Vector.replicate 64 0
  preds := 1
  pc := 0
  status := .notStarted
  inh := false
  tcause := 0
  tinfo := 0
  tvec := 0
  tframe := 0
  spmsel := 0
  seen := Vector.replicate 8 0
  team := []
  inflight := []
  loads := []
  hold := none
  failed := []
  got := []
  rebase := false

/-- A core of no launch part (R38; log 5). -/
def Core.reset : Core where
  part := none
  lcore := 0
  partw := 0
  handles := []
  strands := Vector.replicate 4 Strand.reset
  lastSlot := 3
  spm := []
  reserved := []
  retiring := []
  pubs := []
  dcs := []
  bars := []
  track := []
  items := []
  sttcfg := 0
  sttPend := none
  tags := []
  stampNext := 0
  templates := []
  chans := Vector.replicate 8 []
  window := []
  ageNext := 0
  ingress := []
  ingressTurn := false
  lval := false
  lfmt := 0
  lmant := []
  lexp := []
  srsv := 0
  srsc := 0
  livem := 0xFFFFFFFF
  staged := none
  kernel := none
  contribs := []
  rounds := []
  tlb := []
  active := false
  fresh := false
  quiet := 0
  frozen := false
  wkey := none
  lead := 0
  lastPost := 3
  lastChan := 7
  dcNow := []
  wasActive := false
  wasFresh := false

/-- A die at reset (R87, R91, R378). -/
def Die.reset : Die where
  rit := []
  withheld := []
  leaving := 0
  remapctl := 0x04180A00
  remapLria := 0
  remapLrib := 0
  refused := false
  swap := none
  swapNext := []
  ritHeld := []
  pubHeld := []
  bindAsk := []
  access := []
  issue := Vector.replicate 8 0
  applied := Vector.replicate 8 0
  causal := []
  ramp := 0x4B0004B00
  rampNext := none
  retired := 0
  ctrCache := []

/-- A queue at reset (R341, R342). -/
def Queue.reset : Queue where
  qctl := 0x100004000
  qbase := 0
  wr := 0
  rd := 0
  cp := 0
  ptroot := 0
  ckbase := 0
  ckcfg := 0
  used := 0
  note := 4
  nwr := 0
  nrd := 0
  yield := 0
  qerr := 0
  lbase := 0
  lsize := 0
  levels := []
  packets := []
  skip := 0
  stopped := false
  ffault := none
  parked := false
  skipping := false
  notes := []

def Vf.reset : Vf := ⟨.unlocked, 0, 0, false, 0, 0, 0, [], 0⟩
def Port.reset : Port := ⟨0, false, 0, 0, 0, 0, 0, 0, 0, 0, 0, [], 0, 0⟩
def LineMeta.reset : LineMeta := ⟨0, 0, 0, false⟩

/-- The module right after reset: the Keel boot of MODULE_RESET is the first thing that happens (R368, log 16). -/
def State.reset : State where
  steps := 0
  agenda := []
  shared := false
  pace := none
  turn := .none
  port := []
  nextId := 0
  cycle := 0
  tick := 0
  tickLag := 0
  mem := []
  lines := []
  ctrs := []
  shadowCtr := []
  nodeCtrs := []
  cacheBad := []
  poisoned := []
  cores := []
  ctxs := []
  parts := []
  dies := []
  queues := []
  lastServed := []
  lastCtx := []
  vfs := []
  numVfs := 0
  vfEnable := false
  vfBar0 := 0
  bar2Base := 0
  ports := []
  modid := 0
  tsync := 0
  rtmo := 100
  root := none
  rootSeen := 0
  rootFix := 0
  synced := false
  crewTlb := []
  mseTlb := []
  modesel := 0
  waitpoll := 20
  tlbBusy := false
  tlbQueue := []
  tlbKind := 0
  tlbinvr := 0
  tlbinva := 0
  preemptReg := 0
  fwimg := 0
  fwctl := 0
  errbase := 4
  errwr := 0
  errrd := 0
  errctl := 0
  errlost := 0
  errseq := 0
  unitres := 0
  unitActs := []
  chret := 0
  chleft := 0
  chbusy := false
  chmoving := false
  chfailed := false
  waitcfg := 10000
  fw := ⟨false, 2, ⟨0, 0, [], 0, 0, 0⟩, ⟨0, 0, [], 0, 0, 0⟩, false, false, 0, false, false⟩
  keel := ⟨false, false, [0], [], 129, [], false, [], false, [], []⟩
  xlat := ⟨[], [], [], [], [], []⟩
  requests := []
  posted := []
  replies := []
  arrivals := []
  outside := []
  unsent := []
  traps := []
  sysreqs := []
  throttled := []
  frozenMse := []
  ide := []

/-! ## Reasons a step stops -/

/-- Faults. -/
inductive Fault where
  /-- The instruction belongs to a unit (a strand, a kernel, a context) that State.turn does not name. Raised by the shared wrappers of Cox, vector and access words. Safe: step never executes a word without naming its unit. -/
  | noUnit
  deriving DecidableEq, Repr

/-- Refusals. -/
inductive Refusal where
  /-- The instruction has no meaning yet. Raised by the arms of exec only. Safe. -/
  | notModelled (mnemonic : String)
  deriving DecidableEq, Repr

end Sys2Proof.Machine
end

