-- ==== Sys2Proof/Machine/Ops.lean ====
section
/-! DEFINITION. The named operations over registers, memory, translation, counted items and error records, and taking a trap and returning from one (R317 to R319, R397 to R400, R409). -/
namespace Sys2Proof.Machine

/-! ## Places -/

def State.core (s : State) (c : Nat) : Core := tabGet Core.reset s.cores c
def State.setCore (s : State) (c : Nat) (x : Core) : State := { s with cores := tabPut s.cores c x }
def State.onCore (s : State) (c : Nat) (f : Core → Core) : State := s.setCore c (f (s.core c))

def Core.strand (x : Core) (k : Nat) : Strand := x.strands[k]?.getD Strand.reset
def Core.setStrand (x : Core) (k : Nat) (t : Strand) : Core := { x with strands := x.strands.setIfInBounds k t }

def State.strand (s : State) (c k : Nat) : Strand := (s.core c).strand k
def State.setStrand (s : State) (c k : Nat) (t : Strand) : State := s.setCore c ((s.core c).setStrand k t)
def State.onStrand (s : State) (c k : Nat) (f : Strand → Strand) : State := s.setStrand c k (f (s.strand c k))

def Part.none : Part :=
  ⟨0, 0, 0, 0, 0, 0, 0, 0, false, false, false, false, [], 0, [], 0, [], [], [], [], [], [], .ended, Option.none, 0, 0, 0, 0, 0, 0, false, false, 0, Option.none, [], [], Option.none⟩

def State.part (s : State) (p : Nat) : Part := tabGet Part.none s.parts p
def State.setPart (s : State) (p : Nat) (x : Part) : State := { s with parts := tabPut s.parts p x }
def State.onPart (s : State) (p : Nat) (f : Part → Part) : State := s.setPart p (f (s.part p))

/-- The launch part a core belongs to. -/
def State.corePart (s : State) (c : Nat) : Part := ((s.core c).part.map s.part).getD Part.none

def State.die (s : State) (d : Nat) : Die := tabGet Die.reset s.dies d
def State.setDie (s : State) (d : Nat) (x : Die) : State := { s with dies := tabPut s.dies d x }
def State.onDie (s : State) (d : Nat) (f : Die → Die) : State := s.setDie d (f (s.die d))

def State.queue (s : State) (q : Nat) : Queue := tabGet Queue.reset s.queues q
def State.setQueue (s : State) (q : Nat) (x : Queue) : State := { s with queues := tabPut s.queues q x }
def State.onQueue (s : State) (q : Nat) (f : Queue → Queue) : State := s.setQueue q (f (s.queue q))

def State.vf (s : State) (v : Nat) : Vf := tabGet Vf.reset s.vfs v
def State.setVf (s : State) (v : Nat) (x : Vf) : State := { s with vfs := tabPut s.vfs v x }
def State.nport (s : State) (n : Nat) : Port := tabGet Port.reset s.ports n
def State.setPort (s : State) (n : Nat) (x : Port) : State := { s with ports := tabPut s.ports n x }

/-- The key of an access context: its MSE and its number there. -/
def ctxKey (mse ctx : Nat) : Nat := mse * 8 + ctx
def State.ctx (s : State) (mse ctx : Nat) : Option Ctx := tabFind s.ctxs (ctxKey mse ctx)
def State.setCtx (s : State) (mse ctx : Nat) (x : Ctx) : State := { s with ctxs := tabPut s.ctxs (ctxKey mse ctx) x }

/-- Adds a message to what the module has sent. -/
def State.send (s : State) (m : PortMsg) : State := { s with port := s.port ++ [m] }
/-- A number not used before. -/
def State.bumpId (s : State) : State := { s with nextId := s.nextId + 1 }

/-- The die of a core, its crew within the package, its core number in the crew (R25). -/
def coreDie (c : Nat) : Nat := c / 128
def coreCrew (c : Nat) : Nat := c / 64
def mseDie (m : Nat) : Nat := m / 16

/-! ## Registers and predicates -/

/-- read_s (R172). -/
def Strand.readS (t : Strand) (n : Nat) : Word64 := if n = 0 then 0 else t.regs[n]?.getD 0
/-- write_s (R172). -/
def Strand.writeS (t : Strand) (n : Nat) (v : Word64) : Strand :=
  if n = 0 then t else { t with regs := t.regs.setIfInBounds n v }
/-- read_p (R172). -/
def Strand.readP (t : Strand) (n : Nat) : Bool := if n = 0 then true else t.preds.getLsbD n
/-- write_p (R172). -/
def Strand.writeP (t : Strand) (n : Nat) (b : Bool) : Strand :=
  if n = 0 then t
  else { t with preds := if b then t.preds ||| BitVec.ofNat 24 (2 ^ n) else t.preds &&& ~~~(BitVec.ofNat 24 (2 ^ n)) }
/-- A register or predicate by the number that unfinished instructions use: 0 to 63 for s, 64 to 87 for p. -/
def Strand.readAny (t : Strand) (n : Nat) : Word64 :=
  if n < 64 then t.readS n else if t.readP (n - 64) then 1 else 0
def Strand.writeAny (t : Strand) (n : Nat) (v : Word64) : Strand :=
  if n < 64 then t.writeS n v else t.writeP (n - 64) (v.getLsbD 0)
/-- guard (R172). -/
def Strand.guard (t : Strand) (g : Guard) : Bool := t.readP g.p != g.neg

/-! ## The partition and the scratchpad map (R72 to R79) -/

def Core.af (x : Core) : Nat := bitsOf x.partw 5 0
def Core.sp (x : Core) : Nat := bitsOf x.partw 13 8
def Core.ac (x : Core) : Nat := bitsOf x.partw 21 16
def Core.rsv (x : Core) : Nat := bitsOf x.partw 31 24
/-- First local offset of the scratchpad part and of accumulator storage (R73). -/
def Core.spBase (x : Core) : Nat := x.af * 65536
def Core.acBase (x : Core) : Nat := (x.af + x.sp) * 65536

def SpmEntry.reset : SpmEntry := ⟨0, 0, false, false, false⟩
def Core.spmAt (x : Core) (page : Nat) : SpmEntry := tabGet SpmEntry.reset x.spm page

/-- Whether a local offset lies in the scratchpad part. -/
def Core.inSp (x : Core) (off : Nat) : Bool := decide (x.spBase ≤ off) && decide (off < x.acBase)
/-- The logical page of a local offset in the scratchpad part. -/
def Core.pageOf (x : Core) (off : Nat) : Nat := (off - x.spBase) / 8192

/-- Where a local offset lies in the pool SRAM (R73, R74): none outside the local space or in no mapped page. The shadow flag takes a bound shadow frame instead of the visible one (R115). -/
def Core.poolOff (x : Core) (shadow : Bool) (off : Nat) : Option Nat :=
  if off ≥ 2 ^ 21 then none
  else if x.inSp off then
    let e := x.spmAt (x.pageOf off)
    if e.v then some (x.spBase + (if shadow && e.shv then e.shf else e.frame) * 8192 + (off - x.spBase) % 8192) else none
  else some off

/-- Keys of the byte memory (log 4): pool, W-store slice, MSE program store; HBM bytes have keys below 2^40. -/
def poolKey (c off : Nat) : Nat := 2 ^ 41 + c * 2 ^ 21 + off
def wKey (c off : Nat) : Nat := 2 ^ 42 + c * 2 ^ 21 + off
def mseKey (m off : Nat) : Nat := 2 ^ 43 + m * 2 ^ 14 + off

/-- The pool key of one local byte. -/
def State.localKey (s : State) (c : Nat) (shadow : Bool) (off : Nat) : Option Nat :=
  ((s.core c).poolOff shadow off).map (poolKey c)

/-- Reads n local bytes; none where one lies outside or in no mapped page. -/
def State.readLocal (s : State) (c off n : Nat) : Option ByteList :=
  (List.range n).mapM fun i => (s.localKey c false (off + i)).map (memByte s.mem)

/-- Writes local bytes one by one; bytes with no place are dropped (callers check first). -/
def State.writeLocal (s : State) (c : Nat) (shadow : Bool) (off : Nat) : ByteList → State
  | [] => s
  | b :: r =>
    State.writeLocal (match s.localKey c shadow off with
      | some k => { s with mem := memSet s.mem k b }
      | none => s) c shadow (off + 1) r

/-- Whether every byte of a local interval has a place. -/
def Core.localOk (x : Core) (off n : Nat) : Bool :=
  decide (off + n ≤ 2 ^ 21) && (List.range ((off + n - 1) / 8192 + 1 - off / 8192)).all fun i =>
    let o := max off ((off / 8192 + i) * 8192)
    n == 0 || (x.poolOff false o).isSome
    && (x.poolOff false (min (off + n - 1) ((off / 8192 + i) * 8192 + 8191))).isSome

/-! ## HBM (R85 to R90, R370 to R373, R423, R426) -/

def RitEntry.init (lri : Nat) : RitEntry := ⟨lri, true, false, false, false, 0⟩
def Die.ritAt (x : Die) (lri : Nat) : RitEntry := tabGet (RitEntry.init lri) x.rit lri
def State.rit (s : State) (d lri : Nat) : RitEntry := (s.die d).ritAt lri

/-- The physical HBM byte of a device physical address below 2^40 (R85); shadow takes the bound shadow region. -/
def State.hbmKey (s : State) (shadow : Bool) (dpa : Nat) : Option Nat :=
  let e := s.rit (dpa / 2 ^ 37 % 8) (dpa / 2 ^ 21 % 2 ^ 16)
  if e.v then
    some (dpa / 2 ^ 37 % 8 * 2 ^ 37 + (if shadow && e.shv then e.spri else e.pri) * 2 ^ 21 + dpa % 2 ^ 21)
  else none

/-- The channel of a physical region: stack bit and channel number (R86). -/
def regionStack (pri : Nat) : Nat := pri % 2
def regionChannel (pri : Nat) : Nat := (pri / 2 % 32) ^^^ (pri / 64 % 32)

/-- An HBM4E location (R86). -/
structure HbmPlace where
  stack : Nat
  channel : Nat
  pseudo : Nat
  bankGroup : Nat
  bank : Nat
  row : Nat
  line : Nat
  byte : Nat
  deriving DecidableEq, Repr

/-- The location to which (d, PRI, o) maps (R86). -/
def hbmPlace (d pri o : Nat) : HbmPlace where
  stack := 2 * d + regionStack pri
  channel := regionChannel pri
  pseudo := (o / 2 ^ 10 % 2) ^^^ (o / 2 ^ 19 % 2)
  bankGroup := (o / 2 ^ 11 % 4) ^^^ (o / 2 ^ 15 % 4)
  bank := (o / 2 ^ 13 % 4) ^^^ (o / 2 ^ 17 % 4)
  row := pri / 64 % 2 ^ 10 * 64 + o / 2 ^ 15 % 64
  line := o / 64 % 16
  byte := o % 64

/-- The bit of a physical region's channel in a die's mask (R424). -/
def chanBit (pri : Nat) : Nat := 32 * regionStack pri + regionChannel pri

/-- The first line of a region of a die. -/
def regionLines (d region : Nat) : Nat := d * 2 ^ 31 + region * 2 ^ 15

/-- The tag that stands for the key pair of an identifier (R370). -/
def State.keyTag (s : State) (k : Nat) : Nat := tabGet (k + 1) s.keel.gens k

def State.lineAt (s : State) (key : Nat) : LineMeta := tabGet LineMeta.reset s.lines (key / 64)

/-- The number of the counter block or tree node of a level that covers a line (R372): level 0 holds the leaf blocks. -/
def treeNode (level dpa : Nat) : Nat := level + 16 * (dpa / 64 / 8 ^ (level + 1))

/-- Whether the counter cache of a die holds a block or node (R372). -/
def Die.caches (x : Die) (n : Nat) : Bool := x.ctrCache.any fun q => q.1 == n

/-- The levels whose blocks are verified when a line is read: those below the first block found in the counter cache (R426). -/
def State.uncached (s : State) (dpa : Nat) : List Nat := (List.range 10).takeWhile fun l => !(s.die (dpa / 2 ^ 37 % 8)).caches (treeNode l dpa)

/-- The lowest verified level at which a block or node over a line does not verify (R426, log 30). -/
def State.treeBad (s : State) (dpa : Nat) : Option Nat := (s.uncached dpa).find? fun l => s.cacheBad.contains (treeNode l dpa)

/-- The block or node above one (R372). -/
def parentNode (n : Nat) : Nat := n % 16 + 1 + 16 * (n / 16 / 8)

/-- The counter that the parent holds for a block or node (R21, R372): for a node of level 9, in Keel's root block. -/
def State.nodeCtr (s : State) (n : Nat) : BitVec 56 := if n % 16 = 9 then tabGet 0 s.keel.root n else tabGet 0 s.nodeCtrs n

/-- That counter goes up. -/
def State.bumpNode (s : State) (n : Nat) : State :=
  if n % 16 = 9 then { s with keel := { s.keel with root := tabPut s.keel.root n (s.nodeCtr n + 1) } }
  else { s with nodeCtrs := tabPut s.nodeCtrs n (s.nodeCtr n + 1) }

/-- The counter cache of a die, 65,536 blocks of 64 bytes, takes a block (R21, R372); a full one gives up a block it chooses (log 15), and the counter of a modified one goes up in its parent, which is then cached as modified. Blocks of code 10 stand for the second counter set of a shadow (R373). -/
def State.cacheNode : Nat → State → Nat → Nat → Bool → State
  | 0, s, _, _, _ => s
  | f + 1, s, d, n, m =>
    let l := (s.die d).ctrCache
    let e := (n, m || l.any fun q => q.1 == n && q.2)
    let r := l.filter fun q => q.1 != n
    if r.length < 65536 then s.onDie d fun x => { x with ctrCache := e :: r }
    else
      let i := Config.tlbVictim s.steps % 65536
      let v := r.getD i (n, false)
      let t := s.onDie d fun x => { x with ctrCache := e :: r.eraseIdx i }
      if v.2 then (if v.1 % 16 ≥ 9 then t.bumpNode v.1 else State.cacheNode f (t.bumpNode v.1) d (parentNode v.1) true) else t

/-- A line is read: its counter block and the nodes verified above it are in the cache from now on. -/
def State.cacheLine (s : State) (dpa : Nat) : State :=
  (s.uncached dpa).reverse.foldl (fun t l => State.cacheNode 10 t (dpa / 2 ^ 37 % 8) (treeNode l dpa) false) s

/-- The counters of n lines change: their counter blocks are in the cache, modified. -/
def State.dirtyLines (s : State) (dpa key n : Nat) (shadow : Bool) : State :=
  (List.range n).foldl (fun t i => State.cacheNode 10 t (dpa / 2 ^ 37 % 8)
    (if shadow then 10 + 16 * ((key / 64 + i) / 8) else treeNode 0 ((dpa / 64 + i) * 64)) true) s

/-- What reading a line finds (R423, R426), given its sideband and its counter: 0, or the cause HBMUE, MACFAIL or TREEFAIL. -/
def State.lineFinds (s : State) (k dpa : Nat) (m : LineMeta) (ctr : BitVec 56) : Nat :=
  if m.poison then 0x705
  else if m.tag ≠ 0 ∧ !(m.tag == s.keyTag k && m.la == dpa / 64 && m.ctr == ctr) then 0x709
  else if (s.treeBad dpa).isSome then 0x70A
  else 0

def State.lineCause (s : State) (k dpa key : Nat) : Nat := s.lineFinds k dpa (s.lineAt key) (tabGet 0 s.ctrs (dpa / 64))

/-- The sideband of a line that a write under a key pair changes (R371): a full write clears poison. -/
def LineMeta.written (m : LineMeta) (ctr : BitVec 56) (tag la : Nat) (full : Bool) : LineMeta := ⟨ctr, tag, la, m.poison && !full⟩

/-- The sidebands of the n lines that a write of len bytes at dpa touches, under identifier k (R371): the counters of the logical lines advance. -/
def State.touchLines (s : State) (k dpa key len : Nat) (shadow : Bool) (n : Nat) : State :=
  let cs := (if shadow then tabList 0 s.shadowCtr (key / 64) n else tabList 0 s.ctrs (dpa / 64) n).map (· + 1)
  let tag := s.keyTag k
  let ms := (tabList LineMeta.reset s.lines (key / 64) n).zip (cs.zip (List.range n))
  let s1 := if shadow then { s with shadowCtr := tabSetList s.shadowCtr (key / 64) cs } else { s with ctrs := tabSetList s.ctrs (dpa / 64) cs }
  ({ s1 with lines := tabSetList s1.lines (key / 64) (ms.map fun q =>
      let l := (dpa / 64 + q.2.2) * 64
      q.1.written q.2.1 tag (l / 64) (decide (dpa ≤ l) && decide (l + 64 ≤ dpa + len))) } : State).dirtyLines dpa key n shadow

/-! ## Translation (R80 to R84, R415, R416) -/

/-- Kinds of access, coded as the walk word codes them (R415). -/
inductive AKind where
  | read | write | fetch | atomic
  deriving DecidableEq, Repr

def AKind.code : AKind → Nat
  | .read => 0
  | .write => 1
  | .fetch => 2
  | .atomic => 3

/-- Who makes an access: the TLBs it uses, the table root, the key identifier, the unit kind (R397). -/
structure Who where
  core : Option Nat
  mse : Option Nat
  root : Nat
  key : Nat
  unit : Nat
  priv : Bool
  req : ReqFor
  deriving DecidableEq, Repr

/-- A cause with INFO0 and INFO1 (R395, R414). -/
structure Cause where
  code : Nat
  info : Word64
  info1 : Word64
  deriving DecidableEq, Repr

/-- Whether an access with a cause is held instead of failing: code 0 awaits a host translation, 1 and 2 the bytes of a read of tier 1 and tier 2, 3 the end of a region's hold (R83, R92, R347). -/
def Cause.waits (x : Cause) : Bool := decide (x.code < 4)

/-! ### Held regions (R89, R92, R116) -/

/-- The number by which a region of a die is known in lists of touched pages and regions. -/
def regionKey (d lri : Nat) : Nat := 2 ^ 20 * (d + 1) + lri

/-- Whether a unit that has begun and not ended has read or written one of some pages and regions (R116, rule 3). -/
def Core.touches (x : Core) (l : NatList) : Bool :=
  (x.window.any fun p => (p.2.st == .running || p.2.st == .stopped) && p.2.touched.any l.contains)
  || x.chans.toList.any fun q => q.any fun e => !e.done && e.touched.any l.contains

/-- What a task or a copy has read or written (R116). -/
def State.touchedBy (s : State) : ReqFor → NatList
  | .task c n => ((tabFind (s.core c).window n).map (·.touched)).getD []
  | .copy c ch e => ((((s.core c).chans[ch]?.getD []).find? fun q => q.eid == e).map (·.touched)).getD []
  | _ => []

/-- Whether a publish asked for on a die holds accesses already: no unit that has touched its regions is still at work (R89, R116). -/
def State.pubInForce (s : State) (d : Nat) (p : PendPub) : Bool :=
  let l := p.pages.map (regionKey d)
  !(s.cores.any fun q => q.2.touches l)

/-- Whether a region is held for a swap, or for a publish as a given accessor sees it: a unit that has touched the publish set goes on, one that has not waits with the publish (R89, R92, R116). -/
def State.regionHeld (s : State) (r : ReqFor) (d lri : Nat) : Bool :=
  (s.rit d lri).qs || (s.die d).pubHeld.any fun p => p.pages.contains lri &&
    (match r with
    | .task _ _ => !((s.touchedBy r).any (p.pages.map (regionKey d)).contains)
    | .copy _ _ _ => !((s.touchedBy r).any (p.pages.map (regionKey d)).contains)
    | _ => s.pubInForce d p)

/-- The first of some regions, as pairs of die and LRI, at which an access is held: the region is held, or an access that arrived earlier waits for it (R92). -/
def State.blockedAt (s : State) (r : ReqFor) (l : List (Nat × Nat)) : Option Nat :=
  (l.find? fun q => s.regionHeld r q.1 q.2 || (s.arrivals.takeWhile fun a => a.1 != r).any fun a => a.2 == regionKey q.1 q.2).map fun q => regionKey q.1 q.2

/-- An access that is held takes its place in the order of arrival. -/
def State.arriveAt (s : State) (r : ReqFor) (key : Nat) : State :=
  if s.arrivals.any fun a => a.1 == r then s else { s with arrivals := s.arrivals ++ [(r, key)] }

/-- The walk word (R415). -/
def walkWord (level : Nat) (k : AKind) (unit : Nat) : Word64 := BitVec.ofNat 64 (level + k.code * 8 + unit * 32)

/-- The region of a device physical address: die and LRI (R85). -/
def dpaRegion (dpa : Nat) : Nat × Nat := (dpa / 2 ^ 37 % 8, dpa / 2 ^ 21 % 2 ^ 16)

/-- A table entry read at a device physical address (R80): under identifier 0 (R370). Tables are in tier 0; DESIGN CHOICE (log 82): an address with DPA[40] = 1 names the HBM byte at that address less 2^40. A read of a held region waits (R92). -/
def State.readPte (s : State) (r : ReqFor) (dpa : Nat) : Except Nat Word64 :=
  match s.hbmKey false dpa with
  | none => .error 0x606
  | some k =>
    if (s.blockedAt r [dpaRegion dpa]).isSome then .error 3
    else if s.lineCause 0 dpa k = 0 then .ok (BitVec.ofNat 64 (leNat (memList s.mem k 8))) else .error 0x607

/-- Bits of the virtual address that index a table, its level, and the size of a page there (R80). -/
structure WalkLevel where
  level : Nat
  shift : Nat
  bits : Nat

def walkLevels : List WalkLevel := [⟨4, 48, 9⟩, ⟨3, 39, 9⟩, ⟨2, 30, 9⟩, ⟨1, 21, 9⟩, ⟨0, 16, 5⟩]

/-- Whether an entry breaks R81 at a level. -/
def pteBad (level shift : Nat) (e : Word64) : Bool :=
  let leaf := e.getLsbD 1
  bitsOf e 11 6 != 0 || bitsOf e 63 52 != 0
  || (leaf && decide (level ≥ 3)) || (!leaf && level == 0)
  || (!leaf && bitsOf e 51 41 != 0)
  || (leaf && (bitsOf e 5 4 == 3
      || (bitsOf e 5 4 == 0 && bitsOf e 51 41 != 0)
      || (bitsOf e 51 12 * 4096 % 2 ^ shift != 0)))

/-- INFO0 of the cause that a table read at an address meets: that address for NOREGION, the region for a hold, else the virtual address. -/
def walkInfo (c at_ va : Nat) : Nat := if c = 0x606 then at_ else if c = 3 then regionKey (dpaRegion at_).1 (dpaRegion at_).2 else va

/-- The walk (R80, R81): a leaf with its page size, or a cause. -/
def State.walk (s : State) (va : Nat) (k : AKind) (w : Who) : List WalkLevel → Nat → Except Cause (Word64 × Nat)
  | [], _ => .error ⟨0x604, BitVec.ofNat 64 va, 0⟩
  | l :: r, table =>
    let at_ := table + 8 * (va / 2 ^ l.shift % 2 ^ l.bits)
    match s.readPte w.req at_ with
    | .error c => .error ⟨c, BitVec.ofNat 64 (walkInfo c at_ va), walkWord (if c = 0x606 then 7 else l.level) k w.unit⟩
    | .ok e =>
      if !e.getLsbD 0 then .error ⟨0x601, BitVec.ofNat 64 va, walkWord l.level k w.unit⟩
      else if pteBad l.level l.shift e then .error ⟨0x604, BitVec.ofNat 64 va, walkWord l.level k w.unit⟩
      else if e.getLsbD 1 then .ok (e, 2 ^ l.shift)
      else State.walk s va k w r (bitsOf e 40 12 * 4096)

/-- A cached translation that covers an address (R82). -/
def tlbHit (l : List TlbEntry) (root va : Nat) : Option TlbEntry :=
  l.find? fun e => e.root == root && e.va == va / e.size * e.size

/-- The TLBs an access uses, first level first (R82). -/
def State.tlbs (s : State) (w : Who) : List TlbEntry :=
  match w.core with
  | some c => (s.core c).tlb ++ tabGet [] s.crewTlb (coreCrew c)
  | none => (w.mse.map (tabGet [] s.mseTlb ·)).getD []

/-- The leaf for an address: cached, or found by a walk. -/
def State.leafFor (s : State) (w : Who) (va : Nat) (k : AKind) : Except Cause TlbEntry :=
  match tlbHit (s.tlbs w) w.root va with
  | some e => .ok e
  | none => (s.walk va k w walkLevels w.root).map fun p => ⟨w.root, va / p.2 * p.2, p.2, p.1⟩

/-- A TLB of n places takes an entry; a full one gives up a place it chooses (R82, log 15). -/
def tlbAdd (n victim : Nat) (l : List TlbEntry) (e : TlbEntry) : List TlbEntry :=
  if l.contains e then l else if l.length < n then e :: l else e :: l.eraseIdx (victim % n)

/-- Keeps a translation in the TLBs of who made the access; the front end has none (R82). -/
def State.fillTlb (s : State) (w : Who) (e : TlbEntry) : State :=
  match w.core with
  | some c =>
    let s1 := s.onCore c fun x => { x with tlb := tlbAdd 64 (Config.tlbVictim s.steps) x.tlb e }
    { s1 with crewTlb := tabPut s1.crewTlb (coreCrew c) (tlbAdd 4096 (Config.tlbVictim s.steps) (tabGet [] s1.crewTlb (coreCrew c)) e) }
  | none =>
    match w.mse with
    | some m => { s with mseTlb := tabPut s.mseTlb m (tlbAdd 32 (Config.tlbVictim s.steps) (tabGet [] s.mseTlb m) e) }
    | none => s

/-- Where a piece of an access goes: HBM with its logical address and its physical key, the device aperture, a peer module, the host. -/
inductive Loc where
  | hbm (dpa key : Nat)
  | device (off : Nat)
  | peer (addr : Nat)
  | host (iova : Nat)
  deriving DecidableEq, Repr

/-- A piece of an access (R84). -/
structure Piece where
  loc : Loc
  va : Nat
  len : Nat
  deriving DecidableEq, Repr

/-! ### Host translations (R347, R416) -/

/-- The first page of an interval of host addresses that is not in the cache. -/
def State.missingPage (s : State) (iova n : Nat) : Option Nat :=
  ((List.range ((iova + n - 1) / 4096 + 1 - iova / 4096)).map (iova / 4096 + ·)).find? fun p => !s.xlat.cache.contains p

/-- An access to host addresses through the cache: HOSTXLAT for a refused page; code 0 tells that the access is held until its page has a translation. -/
def State.hostCause (s : State) (va iova n : Nat) : Option Cause :=
  (s.missingPage iova n).map fun p =>
    if s.xlat.refused.contains p then ⟨0x605, BitVec.ofNat 64 va, BitVec.ofNat 64 (max iova (p * 4096))⟩
    else ⟨0, BitVec.ofNat 64 (p * 4096), BitVec.ofNat 64 va⟩

/-- Sends the ATS request for a page, unless its answer is awaited already, and notes who waits for it (R347, R429). -/
def State.askAts (s : State) (r : ReqFor) (iova : Nat) : State :=
  let p := iova / 4096
  let t := if s.xlat.waits.contains (p, r) then s else { s with xlat := { s.xlat with waits := s.xlat.waits ++ [(p, r)] } }
  if s.xlat.pending.contains p || s.xlat.paged.contains p then t
  else { t.send (.ats (p * 4096)) with xlat := { t.xlat with pending := t.xlat.pending ++ [p] } }

/-- The access that raises HOSTXLAT meets the refusal of its page; a later one asks again. -/
def State.meetRefusal (s : State) (code : Nat) (info1 : Word64) : State :=
  if code = 0x605 then { s with xlat := { s.xlat with refused := s.xlat.refused.filter (· != info1.toNat / 4096) } } else s

/-- The cache of 4,096 pages takes a page. -/
def State.cachePage (s : State) (p : Nat) : State :=
  let l := s.xlat.cache
  { s with xlat := { s.xlat with cache := if l.contains p then l else if l.length < 4096 then p :: l else p :: l.eraseIdx (Config.tlbVictim s.steps % 4096) } }

/-- The level of a leaf, from the size of its page (R80). -/
def leafLevel (size : Nat) : Nat := if size = 2 ^ 16 then 0 else if size = 2 ^ 21 then 1 else 2

/-- Translates a piece that lies in one 64 KiB block (R80, R416). -/
def State.piece (s : State) (w : Who) (k : AKind) (shadow : Bool) (va len : Nat) : Except Cause (Piece × TlbEntry) :=
  match s.leafFor w va k with
  | .error c => .error c
  | .ok e =>
    let v := BitVec.ofNat 64 va
    let pa := bitsOf e.leaf 51 12 * 4096 + va % e.size
    if (k = .write ∨ k = .atomic) ∧ !e.leaf.getLsbD 2 then .error ⟨0x602, v, walkWord (leafLevel e.size) k w.unit⟩
    else if k = .fetch ∧ !e.leaf.getLsbD 3 then .error ⟨0x603, v, walkWord (leafLevel e.size) k w.unit⟩
    else match bitsOf e.leaf 5 4 with
    | 0 =>
      let dpa := pa % 2 ^ 41
      if dpa ≥ 2 ^ 40 then .ok (⟨.device (dpa - 2 ^ 40), va, len⟩, e)
      else match s.hbmKey shadow dpa with
      | none => .error ⟨0x606, BitVec.ofNat 64 dpa, walkWord 7 k w.unit⟩
      | some key => .ok (⟨.hbm dpa key, va, len⟩, e)
    | 1 => .ok (⟨.peer pa, va, len⟩, e)
    | _ => match s.hostCause va pa len with
      | some x => .error x
      | none => .ok (⟨.host pa, va, len⟩, e)

/-- The 64 KiB blocks an interval of virtual addresses touches. -/
def blocksOf (va n : Nat) : List (Nat × Nat) :=
  (List.range ((va + n - 1) / 65536 + 1 - va / 65536)).map fun i =>
    let lo := max va ((va / 65536 + i) * 65536)
    (lo, min (va + n) ((va / 65536 + i + 1) * 65536) - lo)

/-- The pieces of an access, all translated, or the first cause. -/
def State.pieces (s : State) (w : Who) (k : AKind) (shadow : Bool) (va n : Nat) : Except Cause (List (Piece × TlbEntry)) :=
  (blocksOf va n).mapM fun b => s.piece w k shadow b.1 b.2

/-- The cause of a device access that breaks R339 (R446): the last field is 2 for a read and 3 for a write. -/
def devaper (off : Nat) (write : Bool) : Cause := ⟨0x908, BitVec.ofNat 64 off, if write then 3 else 2⟩

/-- The die whose ports a die-to-die port number belongs to (R18): CD0 has NP0 to NP4 and so on. -/
def portDie (n : Nat) : Nat := ([5, 9, 13, 18, 23, 27, 31].filter fun b => decide (b ≤ n)).length

/-- INFO1 of a failure of a request outside the module (R435): the module identifier of tier 1, 0x7FF for tier 2. -/
def remoteModule (tier addr : Nat) : Nat := if tier = 1 then addr / 2 ^ 41 % 2 ^ 11 else 0x7FF

/-- Whether a tier-1 request from a die finds no way out (R435). -/
def State.noRoute (s : State) (die : Nat) : Bool :=
  !s.modid.getLsbD 15 || !((List.range 36).any fun n => portDie n == die && (s.nport n).up)

/-- The die that an access starts from: the front end sits on CD0 (R20). -/
def Who.die (w : Who) : Nat :=
  match w.core with
  | some c => coreDie c
  | none => (w.mse.map mseDie).getD 0

/-- The counters with which the lines of a piece are checked: those of the shadow when an S write lands there (R373). -/
def State.pieceCtrs (s : State) (shadow : Bool) (dpa key n : Nat) : List (BitVec 56) :=
  if shadow then tabList 0 s.shadowCtr (key / 64) n else tabList 0 s.ctrs (dpa / 64) n

/-- The first cause an HBM piece meets when it is read, or written in part (R423, R426): an unallocated key identifier (R435), poison, a MAC. shadow tells of an S write, whose bytes land in the bound shadow. -/
def State.pieceCause (s : State) (w : Who) (write shadow : Bool) (p : Piece) : Option Cause :=
  match p.loc with
  | .hbm dpa key =>
    if !s.keel.alloc.contains w.key then some ⟨0xB07, BitVec.ofNat 64 p.va, BitVec.ofNat 64 w.key⟩
    else
      let n := (dpa + p.len - 1) / 64 + 1 - dpa / 64
      ((List.range n).zip ((tabList LineMeta.reset s.lines (key / 64) n).zip (s.pieceCtrs shadow dpa key n))).findSome? fun q =>
        let l := (dpa / 64 + q.1) * 64
        let full := write && decide (dpa ≤ l) && decide (l + 64 ≤ dpa + p.len)
        let c := if full then 0 else s.lineFinds w.key l q.2.1 q.2.2
        if c = 0 then none
        else if c = 0x705 then some ⟨c, BitVec.ofNat 64 (key / 64 * 64 + 64 * q.1), BitVec.ofNat 64 l⟩
        else if c = 0x70A then
          let t := (s.treeBad l).getD 0
          some ⟨c, BitVec.ofNat 64 (l / 64 / 8 ^ (t + 1) * 8 ^ (t + 1) * 64), BitVec.ofNat 64 t⟩
        else some ⟨c, BitVec.ofNat 64 l, BitVec.ofNat 64 w.key⟩
  | .device off => some (devaper off write)
  | .peer a => if s.noRoute w.die then some ⟨0xA04, BitVec.ofNat 64 p.va, BitVec.ofNat 64 (remoteModule 1 a)⟩ else none
  | .host _ => none

/-- The blocks of 4 KiB that an interval of addresses outside the module touches, as addresses and lengths: one read request each (R83, R364). -/
def blocks4k (a n : Nat) : List (Nat × Nat) :=
  (List.range ((a + n - 1) / 4096 + 1 - a / 4096)).map fun i =>
    let lo := max a ((a / 4096 + i) * 4096)
    (lo, min (a + n) ((a / 4096 + i + 1) * 4096) - lo)

/-- What reads outside the module have brought to a unit (R83). -/
def State.repliesTo (s : State) (r : ReqFor) : List Reply :=
  match r with
  | .words c k => (s.strand c k).got
  | _ => s.replies.filterMap fun p => if p.1 = r then some p.2 else none

/-- The bytes that a read of a block has brought, if they are there. -/
def State.replyTo (s : State) (r : ReqFor) (tier a n : Nat) : Option ByteList :=
  ((s.repliesTo r).find? fun p => p.tier == tier && p.addr == a && p.data.length == n).map (·.data)

/-- The first block outside the module whose bytes a unit still lacks, as a held access: code 1 or 2, the block's address, and the page of the virtual address with the length less one in its low 12 bits. -/
def State.lacks (s : State) (r : ReqFor) (p : Piece) : Option Cause :=
  let miss := fun (tier a : Nat) => (blocks4k a p.len).findSome? fun b =>
    if (s.replyTo r tier b.1 b.2).isNone then some (⟨tier, BitVec.ofNat 64 b.1, BitVec.ofNat 64 ((p.va + (b.1 - a)) / 4096 * 4096 + (b.2 - 1))⟩ : Cause) else none
  match p.loc with
  | .peer a => miss 1 a
  | .host a => miss 2 a
  | _ => none

/-- Bytes of a piece: from HBM, or what its read requests outside the module have brought. -/
def State.readPiece (s : State) (r : ReqFor) (p : Piece) : ByteList :=
  match p.loc with
  | .hbm _ key => memList s.mem key p.len
  | .device _ => List.replicate p.len 0#8
  | .peer a => (blocks4k a p.len).flatMap fun b => (s.replyTo r 1 b.1 b.2).getD []
  | .host a => (blocks4k a p.len).flatMap fun b => (s.replyTo r 2 b.1 b.2).getD []

/-- The address of the instruction that makes a request, 0 for other units. -/
def State.askPlace (s : State) : ReqFor → Nat
  | .load c k _ => (s.strand c k).pc.toNat
  | .store c k _ => (s.strand c k).pc.toNat
  | .post c k => (s.strand c k).pc.toNat
  | .words c k => (s.strand c k).pc.toNat
  | .flush c k => (s.strand c k).pc.toNat
  | _ => 0

/-- The die a request starts from: the front end sits on CD0 (R20). -/
def ReqFor.die : ReqFor → Nat
  | .load c _ _ => coreDie c
  | .store c _ _ => coreDie c
  | .post c _ => coreDie c
  | .task c _ => coreDie c
  | .copy c _ _ => coreDie c
  | .words c _ => coreDie c
  | .flush c _ => coreDie c
  | .context m _ => mseDie m
  | _ => 0

/-- The launch part for which a request is made. -/
def State.partFor (s : State) : ReqFor → Option Nat
  | .load c _ _ => (s.core c).part
  | .store c _ _ => (s.core c).part
  | .post c _ => (s.core c).part
  | .task c _ => (s.core c).part
  | .copy c _ _ => (s.core c).part
  | .words c _ => (s.core c).part
  | .flush c _ => (s.core c).part
  | .context m x => (s.ctx m x).map (·.part)
  | .save p => some p
  | .part p => some p
  | _ => none

/-- The PCIe function by which a request leaves: that of its queue's owner (R114, R342). -/
def State.fnOf (s : State) (r : ReqFor) : Nat :=
  match r with
  | .packet q _ => bitsOf (s.queue q).qctl 45 40
  | .queue q => bitsOf (s.queue q).qctl 45 40
  | _ => ((s.partFor r).map fun p => bitsOf (s.queue (s.part p).queue).qctl 45 40).getD 0

/-- The ports of a die that are up. -/
def State.upPorts (s : State) (die : Nat) : List Nat := (List.range 36).filter fun n => portDie n == die && (s.nport n).up

/-- The class of a message (R362): 0 requests and records, 1 collectives, 2 barriers. -/
def FabricMsg.cls : FabricMsg → Nat
  | .request _ _ _ _ _ _ => 0
  | .post _ _ _ _ => 0
  | .collective _ _ _ _ _ => 1
  | .abandon _ _ _ _ _ => 1
  | .barrier _ _ _ _ => 2

/-- Whether messages of a die wait: no port carries them (R363), earlier ones wait, or the flits of a port that went down are being sent again (R451). -/
def State.fabricWaits (s : State) (die : Nat) : Bool :=
  s.noRoute die || s.unsent.any (fun q => q.1 == die) || (List.range 36).any fun n => portDie n == die && (s.nport n).moved != 0

/-- A message leaves a die on the port that the hash of its destination and its address names, in a flit that the port keeps until it is acknowledged (R362, R364, R451), or waits behind earlier ones. -/
def State.sendFabric (s : State) (die dest addr : Nat) (m : FabricMsg) : State :=
  if s.fabricWaits die then { s with unsent := s.unsent ++ [(die, dest, addr, m)] }
  else
    let l := s.upPorts die
    let n := l.getD (Config.route dest (addr % 2 ^ 48 / 4096) % l.length) 0
    let p := s.nport n
    let f : Flit := ⟨0, dest, m.cls, p.txSeq, m⟩
    (s.setPort n { p with txSeq := p.txSeq + 1, unacked := p.unacked ++ [f] }).send (.flit n f)

/-- The messages that wait leave, as far as they can. -/
def State.flushUnsent (s : State) : State := s.unsent.foldl (fun t q => t.sendFabric q.1 q.2.1 q.2.2.1 q.2.2.2) { s with unsent := [] }

/-- Whether the module's ports carry requests (R363). -/
def State.linked (s : State) : Bool := s.modid.getLsbD 15

/-- The IDE stream by which a function's traffic goes: that of its TDI in RUN (R374). -/
def State.ideOf (s : State) (fn : Nat) : Option Nat := if fn != 0 && (s.vf fn).tdi == .run then some (s.vf fn).stream else none

/-- Sends a tier-1 or tier-2 request under a key identifier and keeps it until its completion (R114, R364, R370): kind 0 a read of len bytes, 1 a write, else an atomic of its own. -/
def State.ask (s : State) (r : ReqFor) (key tier addr : Nat) (info : Word64) (kind len : Nat) (b : ByteList) : State :=
  let q : RemoteReq := ⟨s.nextId, r, tier, info, remoteModule tier addr, s.askPlace r, kind, addr, len, s.fnOf r⟩
  let t := if tier = 1 then s.sendFabric r.die (remoteModule 1 addr) addr (.request s.nextId kind addr len key b)
    else s.send (.hostRequest s.nextId q.fn (s.ideOf q.fn) kind addr len b)
  { t with nextId := s.nextId + 1, requests := s.requests ++ [q] }

/-- Keeps a tier-1 request that finds no way out until its failure NOROUTE reaches its issuer (R435, R453): tier 0 marks it. -/
def State.askNowhere (s : State) (r : ReqFor) (addr : Nat) (info : Word64) (kind : Nat) : State :=
  { s with nextId := s.nextId + 1, requests := s.requests ++ [⟨s.nextId, r, 0, info, remoteModule 1 addr, s.askPlace r, kind, addr, 0, s.fnOf r⟩] }

/-- A held access asks for what it waits for: the host translation of a page, the bytes of a block outside the module, or its place among those that wait for a region (R83, R92, R347). -/
def State.await (s : State) (w : Who) (x : Cause) : State :=
  if x.code = 0 then s.askAts w.req x.info.toNat
  else if x.code = 3 then s.arriveAt w.req x.info.toNat
  else
    let a := x.info.toNat
    let n := bitsOf x.info1 11 0 + 1
    let info := BitVec.ofNat 64 (x.info1.toNat / 4096 * 4096 + a % 4096)
    if s.requests.any fun q => q.whose == w.req && q.kind == 0 && (q.tier == x.code || q.tier == 0) && q.addr == a then s
    else if x.code = 1 ∧ s.noRoute w.req.die then s.askNowhere w.req a info 0
    else s.ask w.req w.key x.code a info 0 n []

/-- Writes a piece; what goes outside the module leaves at its port. -/
def State.writePiece (s : State) (w : Who) (shadow : Bool) (p : Piece) (b : ByteList) : State :=
  match p.loc with
  | .hbm dpa key =>
    let t := s.touchLines w.key dpa key p.len shadow ((dpa + p.len - 1) / 64 + 1 - dpa / 64)
    { t with mem := memSetList t.mem key b }
  | .device _ => s
  | .peer a => s.ask w.req w.key 1 a (BitVec.ofNat 64 p.va) 1 b.length b
  | .host a => s.ask w.req w.key 2 a (BitVec.ofNat 64 p.va) 1 b.length b

/-- Counts the 64-byte accesses that a channel serves, and records the region of one in every 256 (R91); the counter blocks of its lines are cached (R372). -/
def State.serve (s : State) (p : Piece) : State :=
  match p.loc with
  | .hbm dpa key =>
    ((List.range ((dpa + p.len - 1) / 64 + 1 - dpa / 64)).foldl (fun t i => t.cacheLine ((dpa / 64 + i) * 64)) s).onDie (key / 2 ^ 37) fun x =>
      let ch := chanBit (key / 2 ^ 21 % 2 ^ 16)
      let old := tabGet 0 x.access ch
      let new := old + ((dpa + p.len - 1) / 64 + 1 - dpa / 64)
      let l := 64 + dpa / 2 ^ 21 % 2 ^ 16
      { x with access := if new / 256 = old / 256 then tabPut x.access ch new
          else tabPut (tabPut x.access ch new) l (tabGet 0 x.access l + (new / 256 - old / 256)) }
  | _ => s

/-- An access is made: the TLBs take its translations, its channels count it, and it waits for no region any more. -/
def State.fillAll (s : State) (w : Who) (ps : List (Piece × TlbEntry)) : State :=
  let t := ps.foldl (fun t p => (t.fillTlb w p.2).serve p.1) s
  { t with arrivals := t.arrivals.filter (·.1 != w.req) }

/-- The regions of HBM that pieces lie in, as pairs of die and LRI. -/
def pieceRegions (ps : List Piece) : List (Nat × Nat) :=
  ps.filterMap fun p => match p.loc with
    | .hbm dpa _ => some (dpaRegion dpa)
    | _ => none

/-- What keeps an access of some pieces from being made: a held region (R89, R92), a cause, or bytes of a read outside the module that are not there yet. -/
def State.stops (s : State) (w : Who) (write shadow : Bool) (ps : List Piece) : Option Cause :=
  match s.blockedAt w.req (pieceRegions ps) with
  | some k => some ⟨3, BitVec.ofNat 64 k, 0⟩
  | none => (ps.findSome? (s.pieceCause w write shadow)).or (if write then none else ps.findSome? (s.lacks w.req))

/-- Reads n bytes of device virtual memory: the bytes and the state with its translations cached, or a cause. -/
def State.readG (s : State) (w : Who) (k : AKind) (va n : Nat) : Except Cause (ByteList × State) :=
  if n = 0 then .ok ([], s)
  else if va + n > 2 ^ 57 then .error ⟨0x301, BitVec.ofNat 64 va, 0⟩
  else match s.pieces w k false va n with
  | .error c => .error c
  | .ok ps =>
    match s.stops w false false (ps.map (·.1)) with
    | some c => .error c
    | none => .ok ((ps.map fun p => s.readPiece w.req p.1).flatten, s.fillAll w ps)

/-- Splits bytes over the pieces they go to. -/
def splitOver : List (Piece × TlbEntry) → ByteList → List (Piece × ByteList)
  | [], _ => []
  | p :: r, b => (p.1, b.take p.1.len) :: splitOver r (b.drop p.1.len)

/-- Writes bytes to device virtual memory, or answers the cause that stops the whole write. -/
def State.writeG (s : State) (w : Who) (shadow : Bool) (va : Nat) (b : ByteList) : Except Cause State :=
  if b = [] then .ok s
  else if va + b.length > 2 ^ 57 then .error ⟨0x301, BitVec.ofNat 64 va, 0⟩
  else match s.pieces w .write shadow va b.length with
  | .error c => .error c
  | .ok ps =>
    match s.stops w true shadow (ps.map (·.1)) with
    | some c => .error c
    | none => .ok ((splitOver ps b).foldl (fun t q => t.writePiece w shadow q.1 q.2) (s.fillAll w ps))

/-- Whether one of the 64-bit pool words that hold some keys is poisoned (R420, R423). -/
def State.poisonedAt (s : State) (keys : List Nat) : Option Nat := keys.find? fun k => s.poisoned.contains (k / 8)

/-- The cause SRAMUE (R414, R419, R420): the array, the place of the failing word within it, and its local or W-store offset. -/
def sramCause (arr at_ off : Nat) : Cause := ⟨0x702, BitVec.ofNat 64 (arr + at_ / 8 * 256), BitVec.ofNat 64 (off / 8 * 8)⟩

/-- The cause that reading pool bytes of a core meets: keys are those of the bytes from local offset off on. -/
def State.poolCause (s : State) (c off : Nat) (keys : List Nat) : Option Cause :=
  (keys.zipIdx.find? fun k => s.poisoned.contains (k.1 / 8)).map fun k => sramCause 1 (k.1 - poolKey c 0) (off + k.2)

/-- Reads n local bytes as a consumer that meets the faults of R407 and R423. -/
def State.readLocalChecked (s : State) (c off n : Nat) : Except Cause ByteList :=
  match (List.range n).mapM fun i => s.localKey c false (off + i) with
  | none => .error ⟨0x301, BitVec.ofNat 64 off, 0⟩
  | some ks =>
    match s.poolCause c off ks with
    | some x => .error x
    | none => .ok (ks.map (memByte s.mem))

/-- Takes the poison mark off every pool word that a write of n bytes covers whole (log 21). -/
def State.cleanWords (s : State) (keys : List Nat) : State :=
  { s with poisoned := s.poisoned.filter fun w => !((List.range 8).all fun i => keys.contains (8 * w + i)) }

/-- Who a unit of a core is; its requests belong to nobody. -/
def State.whoCore (s : State) (c unit : Nat) : Who :=
  let p := s.corePart c
  ⟨some c, none, p.ptroot.toNat, p.key, unit, p.priv, .nothing⟩

/-- Who a strand is: its fetches, table reads and accesses (R397). -/
def State.whoStrand (s : State) (c k : Nat) : Who := { s.whoCore c 0 with req := .words c k }

/-! ## Error records (R397 to R399) -/

/-- An error record's fields beside its tick and number. -/
structure ErrRec where
  cause : Nat
  sev : Nat
  unit : Nat
  loc : Nat
  sub : Nat
  nohnd : Bool
  origin : Option (Nat × Nat)
  loc8 : Nat
  info0 : Word64
  info1 : Word64
  info2 : Word64
  deriving DecidableEq, Repr

/-- The 64 bytes of a record (R397): origin is the queue and the key identifier. -/
def ErrRec.bytes (e : ErrRec) (tick : Word64) (seq : Word32) : ByteList :=
  leBytes 2 e.cause ++ leBytes 1 e.sev ++ leBytes 1 e.unit ++ leBytes 2 e.loc ++ leBytes 1 e.sub
  ++ leBytes 1 ((if e.nohnd then 1 else 0) + (if e.origin.isSome then 6 else 0))
  ++ leBytes 8 tick.toNat ++ leBytes 2 ((e.origin.map (·.1)).getD 0) ++ leBytes 1 ((e.origin.map (·.2)).getD 0) ++ leBytes 1 0
  ++ leBytes 4 seq.toNat ++ leBytes 8 e.loc8 ++ leBytes 8 e.info0.toNat ++ leBytes 8 e.info1.toNat ++ leBytes 8 e.info2.toNat
  ++ leBytes 8 0

/-- Writes bytes at a device physical address under an identifier; outside backed HBM nothing is written. -/
def State.writeDpa (s : State) (k dpa : Nat) (b : ByteList) : State :=
  match s.hbmKey false dpa with
  | some key =>
    let t := s.touchLines k dpa key b.length false ((dpa + b.length - 1) / 64 + 1 - dpa / 64)
    { t with mem := memSetList t.mem key b }
  | none => s

/-- QSTAT.ERR of a queue: 0 outside the error state (R437). -/
def qstatErr (cause : Nat) : Nat :=
  if cause = 0 then 0
  else if cause / 256 = 9 then cause % 256
  else if cause / 256 = 11 then 128 ||| cause % 256
  else 64 ||| cause / 256

/-- Who the front end is when it acts for a queue (R341, R370); its requests are r's. -/
def State.whoQueue (s : State) (q : Nat) (r : ReqFor) : Who :=
  let x := s.queue q
  ⟨none, none, bitsOf x.ptroot 40 12 * 4096, bitsOf x.qctl 11 5, 6, x.qctl.getLsbD 4, r⟩

/-- The TDI that owns a queue has been refused its DMA (R460). -/
def State.dmaRefused (s : State) (q : Nat) : Bool :=
  let o := bitsOf (s.queue q).qctl 45 40
  o != 0 && (s.vf o).tdi == .error

/-- The function and vector of a queue's MSI-X message (R337, R342). -/
def State.sendMsix (s : State) (q vector : Nat) : State :=
  if s.dmaRefused q then s
  else s.send (.msix (bitsOf (s.queue q).qctl 45 40) vector (s.ideOf (bitsOf (s.queue q).qctl 45 40)))

/-- Writes bytes at an address of the packet form: bit 63 selects host memory (R349). -/
def State.writeForm (s : State) (w : Who) (a : Word64) (b : ByteList) : Except Cause State :=
  if a.getLsbD 63 then .ok (s.send (.hostWrite (s.fnOf w.req) (s.ideOf (s.fnOf w.req)) (bitsOf a 62 0) b))
  else s.writeG w false (bitsOf a 62 0) b

/-- Keeps an error record in the ring, or drops it and counts it as lost (R398). -/
def State.keepRecord (s : State) (e : ErrRec) : State :=
  let size := 2 ^ bitsOf s.errbase 4 0
  let b := e.bytes s.tick s.errseq
  let s := { s with errseq := s.errseq + 1 }
  if s.errctl.getLsbD 12 ∧ (s.errwr - s.errrd).toNat ≠ size then
    let at_ := bitsOf s.errbase 62 6 * 64 + 64 * (s.errwr.toNat % size)
    let t := if s.errbase.getLsbD 63 then s.send (.hostWrite 0 none at_ b) else s.writeDpa 0 at_ b
    let t := { t with errwr := t.errwr + 1 }
    if t.errctl.getLsbD 11 then t.send (.msix 0 (bitsOf t.errctl 10 0) none) else t
  else { s with errlost := if s.errlost = 0xFFFFFFFF then s.errlost else s.errlost + 1 }

/-- The record of a cause that a front-end access meets while it serves a queue (R352). -/
def sideRecord (q key addr : Nat) (x : Cause) : ErrRec := ⟨x.code, 0, 6, 0, 0, false, some (q, key), addr, x.info, x.info1, 0⟩

/-- QNWR passes an entry of the notification ring (R354). -/
def State.passNote (s : State) (q : Nat) : State := s.onQueue q fun y => { y with nwr := y.nwr + 1 }

/-- Writes the next entry of the notification ring, and sends the MSI-X message of QCTL.MSIE (R352, R354). -/
def State.putEntry (s : State) (q : Nat) (b : ByteList) : Except Cause State :=
  let x := s.queue q
  let at_ := (x.note &&& 0x8000000000000000#64) ||| BitVec.ofNat 64 (bitsOf x.note 62 6 * 64 + 16 * (x.nwr.toNat % 2 ^ bitsOf x.note 4 0))
  match s.writeForm (s.whoQueue q (.queue q)) at_ b with
  | .ok u => .ok (if x.qctl.getLsbD 29 then (u.passNote q).sendMsix q (bitsOf x.qctl 28 18) else u.passNote q)
  | .error c => .error c

/-- A notification goes back to the front of those that wait. -/
def State.requeueNote (s : State) (q addr : Nat) (b : ByteList) : State := s.onQueue q fun y => { y with notes := (addr, b) :: y.notes }

/-- Whether the notification ring is full (R354). -/
def Queue.notesFull (x : Queue) : Bool := (x.nwr - x.nrd).toNat == 2 ^ bitsOf x.note 4 0

/-- The 16 bytes of a notification (R354). -/
def noteBytes (kind status slot tag : Nat) (value : Word64) : ByteList :=
  leBytes 1 kind ++ leBytes 1 status ++ leBytes 1 slot ++ leBytes 1 0 ++ leBytes 4 tag ++ leBytes 8 value.toNat

/-- The entry of KIND 4 that reports a record (R440). -/
def Queue.recordNote (x : Queue) (cause seq : Nat) : ByteList :=
  noteBytes 4 (qstatErr (bitsOf x.qerr 11 0)) 0 seq (BitVec.ofNat 64 (cause + x.rd.toNat * 2 ^ 32))

/-- The next entry of the ring meets a cause and is lost (R352): the cause is recorded, and the record's own entry follows where the ring can be written, and is else lost as well. -/
def State.loseNote (s : State) (q addr : Nat) (c : Cause) : State :=
  let t := (s.meetRefusal c.code c.info1).passNote q
  let u := t.keepRecord (sideRecord q (bitsOf (s.queue q).qctl 11 5) addr c)
  let b := (u.queue q).recordNote c.code t.errseq.toNat
  if (u.queue q).notesFull then u.requeueNote q addr b
  else match u.putEntry q b with
  | .ok v => v
  | .error d => if d.waits then (u.requeueNote q addr b).await (u.whoQueue q (.queue q)) d else u.passNote q

/-- Writes one notification now (R354), addr being the address of the packet it reports; one whose page awaits its translation or whose region is held waits (R347, R92). -/
def State.putNote (s : State) (q addr : Nat) (b : ByteList) : State :=
  match s.putEntry q b with
  | .ok u => u
  | .error c => if c.waits then (s.requeueNote q addr b).await (s.whoQueue q (.queue q)) c else s.loseNote q addr c

/-- Writes a notification, or lets it wait behind a full ring (R354); a refused TDI gets none (R460). -/
def State.notify (s : State) (q addr : Nat) (b : ByteList) : State :=
  if s.dmaRefused q then s
  else if (s.queue q).notesFull || !(s.queue q).notes.isEmpty then s.onQueue q fun x => { x with notes := x.notes ++ [(addr, b)] }
  else s.putNote q addr b

/-- The KIND 4 notification of a record (R440). -/
def State.noteRecord (s : State) (q cause seq : Nat) : State := s.notify q 0 ((s.queue q).recordNote cause seq)

/-- Writes an error record (R397, R398), and the KIND 4 notification of the queue it names (R440). -/
def State.errorRecord (s : State) (e : ErrRec) : State :=
  match e.origin with
  | some (q, _) => if e.cause = 0xB06 then s.keepRecord e else (s.keepRecord e).noteRecord q e.cause s.errseq.toNat
  | none => s.keepRecord e

/-! ## Counted items (R102 to R105) -/

/-- Adds a counted item; trk is the set of bound slots whose interval its span meets. -/
def Core.count (x : Core) (id : Nat) (kind : ItemKind) (trk : BitVec 32) : Core :=
  { x with items := x.items ++ [⟨id, kind, none, trk, 0⟩] }

/-- The tracking slots that count a span (R103). -/
def Core.matching (x : Core) (spans : List (RSpace × Nat × Nat)) : BitVec 32 :=
  x.track.foldl (fun m p =>
    if spans.any fun q => p.2.space = q.1 && decide (p.2.lo < q.2.2) && decide (q.2.1 < p.2.hi)
    then m ||| BitVec.ofNat 32 (2 ^ p.1) else m) 0

def Core.dropItem (x : Core) (id : Nat) : Core := { x with items := x.items.filter (·.id != id) }

/-- Whether an item is performed at a scope (R100). -/
def scopeNum : Scope → Nat
  | .strand => 0
  | .core => 1
  | .crew => 2
  | .die => 3
  | .package => 4
  | .gang => 5

def Item.atScope (i : Item) (sc : Scope) : Bool := (i.scope.map fun t => decide (scopeNum sc ≤ scopeNum t)).getD false

/-! ## Unfinished instructions (R174, R317) -/

/-- Retires the instructions that have finished by a cycle. -/
def Strand.retire (t : Strand) (now : Nat) : Strand := { t with inflight := t.inflight.filter fun f => now < f.due }

/-- Unfinished instructions that a resume has brought back count their cycles from the strand's first instruction on (R329). -/
def Strand.rebased (t : Strand) (now : Nat) : Strand :=
  if t.rebase then { t with inflight := t.inflight.map (fun f => { f with due := now + f.due }), rebase := false } else t

/-- Interlocks (R174): an instruction that reads or writes a pending destination waits until that result is due, by when everything due earlier has finished. -/
def Strand.interlock (t : Strand) (uses : List Nat) : Strand :=
  match (t.inflight.filter fun f => uses.contains f.dst).map (·.due) with
  | [] => t
  | d :: r => t.retire (r.foldl max d)

/-- Returns a load's value into its destination (R203). -/
def Strand.land (t : Strand) (l : Load) : Strand :=
  match l.val with
  | some v =>
    let u := t.writeS l.dst v
    { u.writeP l.pd l.ok with loads := t.loads.filter (·.item != l.item) }
  | none => t

/-- Lands every load whose value is known and whose destination is used. -/
def Strand.landUsed (t : Strand) (uses : List Nat) : Strand :=
  (t.loads.filter fun l => l.val.isSome && (uses.contains l.dst || (l.pd != 0 && uses.contains (64 + l.pd)))).foldl Strand.land t

/-- Lands every load whose value is known (R317). -/
def Strand.landAll (t : Strand) : Strand := (t.loads.filter fun l => l.val.isSome).foldl Strand.land t

/-- Whether the strand must wait for a load that it uses and whose value is still outside. -/
def Strand.mustWait (t : Strand) (uses : List Nat) : Bool :=
  t.loads.any fun l => l.val.isNone && (uses.contains l.dst || (l.pd != 0 && uses.contains (64 + l.pd)))

/-- A strand keeps at most 16 unfinished instructions (R317): with 16 it waits until one finishes. -/
def Strand.makeRoom (t : Strand) : Strand :=
  if t.inflight.length + t.loads.length < 16 then t
  else match t.landAll.inflight.map (·.due) with
  | [] => t.landAll
  | d :: r => if t.landAll.inflight.length + t.landAll.loads.length < 16 then t.landAll else t.landAll.retire (r.foldl min d)

/-- Whether the strand must wait because 16 loads are outside. -/
def Strand.full (t : Strand) : Bool := decide ((t.loads.filter fun l => l.val.isNone).length ≥ 16)

/-- Registers as they stand at a boundary: the destinations of unfinished instructions hold their old values (R318). -/
def undoAll : List Inflight → Strand → Strand
  | [], t => t
  | f :: r, t => (undoAll r t).writeAny f.dst f.old

/-! ## The strand record and the trap frame (R318, R320, R328) -/

/-- A replay entry (R320). -/
def Inflight.bytes (f : Inflight) (now : Nat) : ByteList :=
  leBytes 4 f.word.toNat ++ leBytes 4 f.ext.toNat ++ leBytes 1 (f.due - now) ++ leBytes 1 1 ++ leBytes 6 0
  ++ leBytes 8 f.opA.toNat ++ leBytes 8 f.opB.toNat ++ leBytes 8 f.opD.toNat ++ leBytes 8 0

/-- STATE of a strand record (R328). -/
def Strand.stateWord (t : Strand) : Nat :=
  (match t.status with
  | .notStarted => 0
  | .exited => 2
  | _ => 1)
  + (if t.inh then 4 else 0)
  + (match t.hold with
  | some h => (match h.instr with
    | .tbar _ _ => 8
    | .pub _ _ => 16
    | _ => 0)
  | none => 0)
  + (match t.status with
  | .stopped => 32
  | _ => 0)

/-- Bytes 0x000 to 0x58F of a strand record (R328). tbgen and pubr are TBGEN and PUBR of a strand that holds. -/
def Strand.frame (t : Strand) (now tbgen : Nat) (pubr : ByteList) : ByteList :=
  let t := t.rebased now
  let u := undoAll t.inflight t
  leBytes 8 t.pc.toNat ++ leBytes 4 t.stateWord ++ leBytes 4 (u.preds.toNat ||| 1) ++ leBytes 8 tbgen
  ++ slice pubr 0 24 ++ leBytes 16 0
  ++ ((List.range 64).map fun n => leBytes 8 (u.readS n).toNat).flatten
  ++ (t.seen.toList.map fun w => leBytes 4 w.toNat).flatten
  ++ leBytes 8 t.tvec.toNat ++ leBytes 8 t.tframe.toNat ++ leBytes 8 t.tcause.toNat ++ leBytes 8 t.tinfo.toNat
  ++ leBytes 4 t.inflight.length ++ leBytes 12 0
  ++ slice (t.inflight.map (Inflight.bytes · now)).flatten 0 768

/-- Where a trap frame may lie (R315): wholly in the A-file or wholly in mapped scratchpad pages. -/
def Core.frameOk (x : Core) (off : Nat) : Bool :=
  decide (off + 1424 ≤ x.spBase)
  || (decide (x.spBase ≤ off) && decide (off + 1424 ≤ x.acBase)
      && (List.range (x.pageOf (off + 1423) + 1 - x.pageOf off)).all fun i => (x.spmAt (x.pageOf off + i)).v)

/-- FRM × 64 of a strand's TFRAME (R315). -/
def Strand.frameOff (t : Strand) : Nat := bitsOf t.tframe 20 6 * 64

/-! ## The end of a launch part (R400, R438) -/

/-- Marks a started packet as ready to complete with a status and a checkpoint slot (R352, R354). -/
def State.finishPacket (s : State) (q pid status slot : Nat) : State :=
  s.onQueue q fun x =>
    { x with packets := x.packets.map fun k => if k.pid = pid then { k with ready := true, status := status, slot := slot } else k }

/-- A core that its part has left: what belongs to the physical core stays. -/
def Core.freed (x : Core) : Core :=
  { Core.reset with tlb := x.tlb, wkey := x.wkey, frozen := x.frozen, lead := x.lead }

/-- Whether a request belongs to a part. -/
def State.partOwns (s : State) (p : Nat) (r : ReqFor) : Bool := s.partFor r == some p

/-- Requests of some units belong to nobody from now on; what their reads have brought, and their places among held accesses, are gone. -/
def State.disown (s : State) (f : ReqFor → Bool) : State :=
  { s with
    requests := s.requests.map fun q => if f q.whose then { q with whose := .nothing } else q
    replies := s.replies.filter fun q => !f q.1
    arrivals := s.arrivals.filter fun q => !f q.1
    posted := s.posted.filter fun q => !f (.store q.core q.slot q.item)
    xlat := { s.xlat with waits := s.xlat.waits.filter fun q => !f q.2 } }

/-- The bytes that reads outside the module have brought to a unit have been used. -/
def State.spend (s : State) (r : ReqFor) : State := { s with replies := s.replies.filter fun q => q.1 != r }

/-- Frees the cores and access contexts of a part; completions of its requests find nobody. -/
def State.freePart (s : State) (p : Nat) : State :=
  let t := (s.part p).cores.foldl (fun u c => u.onCore c Core.freed) (s.disown (s.partOwns p))
  { t with
    ctxs := t.ctxs.filter fun q => q.2.part != p
    traps := t.traps.filter fun u => match u.unit with
      | .kernel c => !(s.part p).cores.contains c
      | .task c _ => !(s.part p).cores.contains c
      | .chan c _ => !(s.part p).cores.contains c
      | .ctx m x => !(((s.ctx m x).map (·.part)) == some p)
    sysreqs := t.sysreqs.filter fun r => !(s.part p).cores.contains r.core }

/-- Marks a started packet as ready to complete aborted (R438): the cause, INFO0 and INFO1, and the number of its record when one has been written. -/
def State.abortPacket (s : State) (q pid : Nat) (x : Cause) (seq : Option Nat) : State :=
  s.onQueue q fun y =>
    { y with packets := y.packets.map fun k =>
        if k.pid = pid then { k with ready := true, status := 3, slot := 0, abort := some (x.code, x.info, x.info1, seq) } else k }

/-- The front end ends a part (R400): every unit stops, cores and contexts are freed, the packet completes aborted with the cause of the record that ended it. A save in progress gives up its slot. -/
def State.endPart (s : State) (p : Nat) (x : Cause) (seq : Nat) : State :=
  let y := s.part p
  let s := if y.phase = .saving then s.onQueue y.queue fun q => { q with used := q.used &&& (2 ^ 8 - 1 - 2 ^ y.slot) } else s
  ((s.freePart p).onPart p fun y => { y with phase := .ended, cores := [], progs := [] }).abortPacket y.queue y.pid x (some seq)

/-- The lowest free checkpoint slot of a queue (R341, R355). -/
def Queue.freeSlot (x : Queue) : Option Nat :=
  (List.range (bitsOf x.ckcfg 3 0)).find? fun n => !x.used.testBit n

/-- Takes a save decision for a part (R322): the reason, the slot the image will take, TICK in the decision cycle. -/
def State.decideSave (s : State) (p reason slot : Nat) : State :=
  (s.onPart p fun y => { y with phase := .saving, reason := reason, slot := slot, image := Option.none, savedTick := s.tick, savedCycle := s.cycle.toNat, forced := y.forced || reason == 2, probe := none }).onQueue
    (s.part p).queue fun x => { x with used := x.used ||| 2 ^ slot }

/-- MODESEL.TRIAGE (R357). -/
def State.triage (s : State) : Bool := s.modesel.getLsbD 2

/-- WHERE of a front-end record about a part: the address of its packet (R397). -/
def State.partPlace (s : State) (p : Part) : Nat := (((s.queue p.queue).packets.find? fun k => k.pid == p.pid).map (·.addr)).getD 0

/-- Whether a stop ends a part at once (R400): MODESEL.TRIAGE is 0. -/
def State.endsNow (s : State) (p : Nat) : Bool := ((s.part p).phase == .running || (s.part p).phase == .saving) && !s.triage

/-- The record of a cause that ends a part; the notification of it is written as the queue enters the error state (R437, R440). -/
def State.recordEnd (s : State) (p : Nat) (e : ErrRec) (x : Cause) : State := (s.keepRecord e).endPart p x s.errseq.toNat

/-- REASON of a save that fails (R433): the part ends, the slot stays free. -/
def State.saveFail (s : State) (p sub : Nat) (addr cause : Word64) : State :=
  let x := s.part p
  s.recordEnd p ⟨0x803, 2, 6, 0, 0, false, some (x.queue, x.key), s.partPlace x, BitVec.ofNat 64 sub, addr, cause⟩ ⟨0x803, BitVec.ofNat 64 sub, addr⟩

/-- Whether a core of a part, or an MSE that runs one of its contexts, is frozen (R422). -/
def State.partFrozen (s : State) (p : Nat) : Bool :=
  (s.part p).cores.any (fun c => (s.core c).frozen) || s.ctxs.any fun q => q.2.part == p && s.frozenMse.contains (q.1 / 8)

/-- Takes a save decision when the queue has a free slot; a save without one fails with subcode 1 (R322, R433). One that falls inside a freeze waits for its end (R422), one that falls on a part before its start for that start (R49). -/
def State.askSave (s : State) (p reason : Nat) : State :=
  if (s.part p).phase = .running then
    if s.partFrozen p then s.onPart p fun y => { y with asked := some (max reason (y.asked.getD 0)) }
    else match (s.queue (s.part p).queue).freeSlot with
    | some n => (s.onPart p fun y => { y with asked := none }).decideSave p reason n
    | none => s.saveFail p 1 0 0
  else if (s.part p).phase = .setUp ∨ (s.part p).phase = .resuming then s.onPart p fun y => { y with asked := some reason }
  else s

/-- A save that was asked for earlier is decided, if it can be now (R49, R422). -/
def State.askedSave (s : State) (p : Nat) : State :=
  match (s.part p).asked with
  | some r => s.askSave p r
  | none => s

/-- A stop in a part (R400, R433): the record, and what MODESEL.TRIAGE does with the part: it ends, or is saved with REASON 3, or a save in progress goes on. -/
def State.stopPart (s : State) (p : Nat) (e : ErrRec) (x : Cause) : State :=
  if s.endsNow p then s.recordEnd p e x
  else if (s.part p).phase = .running then (s.errorRecord e).askSave p 3
  else s.errorRecord e

/-- A strand that stops at its boundary with no usable handler (R400): the error record with NOHND, then MODESEL.TRIAGE decides for the part. place is WHERE of the record. -/
def State.noHandler (s : State) (c k : Nat) (cause : Nat) (info info1 : Word64) (place : Nat) : State :=
  let p := s.corePart c
  let e : ErrRec := ⟨cause, 2, 0, c, k, true, some (p.queue, p.key), place, info, info1, 0⟩
  let s := s.onStrand c k fun t => { t with status := .faulted, hold := none, tcause := BitVec.ofNat 12 cause, tinfo := info }
  match (s.core c).part with
  | some q => s.stopPart q e ⟨cause, info, info1⟩
  | none => s.errorRecord e

/-- Taking a trap (R318, R400): loads return, the frame is written, TCAUSE and TINFO take their values, INH becomes 1 and PC becomes TVEC; with no usable handler the strand stops. The strand's pc is the boundary; place is WHERE of a record (R397). -/
def State.takeTrapAt (s : State) (c k cause : Nat) (info info1 : Word64) (place : Nat) : State :=
  let s := s.meetRefusal cause info1
  let t : Strand := { (((s.strand c k).landAll).rebased s.cycle.toNat).retire s.cycle.toNat with got := [] }
  let x := s.core c
  if t.tvec = 0 ∨ t.inh ∨ !x.frameOk t.frameOff ∨ cause = 0x309 then
    (s.setStrand c k t).noHandler c k cause info info1 place
  else
    let t := { t with tcause := BitVec.ofNat 12 cause, tinfo := info, hold := none }
    let s1 := s.writeLocal c false t.frameOff (t.frame s.cycle.toNat 0 [])
    s1.setStrand c k { undoAll t.inflight t with inflight := [], inh := true, pc := t.tvec }

/-- A trap whose record names the boundary. -/
def State.takeTrap (s : State) (c k cause : Nat) (info info1 : Word64) : State :=
  s.takeTrapAt c k cause info info1 (s.strand c k).pc.toNat

/-! ## Team indices (R34, R218) -/

/-- The team number t of R34. -/
def teamNumber : List Level → NatList → Nat
  | [], _ => 0
  | _ :: r, xs => xs.headD 0 * r.foldl (fun a b => a * b.fanout) 1 + teamNumber r xs.tail

/-! ## Running a Cox instruction (R173, R199, R200) -/

/-- What an instruction does at its strand: finish and go on at the next word, go to another address, hold, not issue yet, trap at the boundary before it, or a stop of its own at the boundary after it. -/
inductive Eff where
  | done (s : State)
  | jump (s : State) (pc : Word64)
  | wait (s : State) (h : Hold)
  | stay (s : State)
  | trap (cause : Nat) (info info1 : Word64)
  | over (s : State)

/-- Length of a Cox instruction in bytes (R157). -/
def wordBytes (long : Bool) : Word64 := if long then 8 else 4

/-- A turn in which a strand has issued nothing leaves its core's activity as it was (R428). -/
def State.idle (s : State) (c : Nat) : State := s.onCore c fun x => { x with active := x.wasActive, fresh := x.wasFresh }

/-- Slot k of core c goes on at an address, holding nothing. -/
def State.past (s : State) (c k : Nat) (pc : Word64) : State := s.onStrand c k fun t => { t with pc := pc, hold := none, got := [] }

/-- What a strand's turn finds: unfinished instructions that are due have finished (R174, R329). -/
def State.turned (s : State) (c k : Nat) : Strand := ((s.strand c k).rebased s.cycle.toNat).retire s.cycle.toNat

/-- What the guard of an instruction finds: its predicate is there, and fewer than 16 instructions are unfinished (R173, R317). -/
def State.guarded (s : State) (c k : Nat) (g : Guard) : Strand := (((s.turned c k).interlock [64 + g.p]).landUsed [64 + g.p]).makeRoom

/-- What an instruction that uses some registers finds (R174, R203): whatever is to be written there has been. -/
def State.found (s : State) (c k : Nat) (g : Guard) (uses : List Nat) : Strand := ((s.guarded c k g).interlock uses).landUsed uses

/-- Runs a Cox instruction of the strand whose turn it is: evaluates its guard, interlocks on what it uses, and gives it its effect (R173, R174, R199). A fault raised while a load is still outside waits for that load (R317); an access that is held waits without issuing. -/
def State.coxRun (s : State) (long : Bool) (g : Guard) (uses : List Nat)
    (f : Nat → Nat → Strand → State → Eff) : Host.Outcome State Fault Refusal :=
  match s.turn with
  | .strand c k =>
    if (s.turned c k).mustWait [64 + g.p] || (s.turned c k).full then .next (s.idle c)
    else if !(s.guarded c k g).guard g then .next ((s.setStrand c k (s.guarded c k g)).past c k ((s.guarded c k g).pc + wordBytes long))
    else if (s.guarded c k g).mustWait uses then .next (s.idle c)
    else
      let t := s.found c k g uses
      let s1 := s.setStrand c k t
      match f c k t s1 with
      | .done u => .next (u.past c k (t.pc + wordBytes long))
      | .jump u a => .next (u.past c k a)
      | .wait u h => .next (u.onStrand c k fun x => { x with hold := some h })
      | .stay u => .next (u.idle c)
      | .trap cause info info1 =>
        if cause < 4 then .next ((s1.await (s1.whoStrand c k) ⟨cause, info, info1⟩).idle c)
        else if t.loads.any (·.val.isNone) then .next (s1.idle c) else .next (s1.takeTrap c k cause info info1)
      | .over u => .next u
  | _ => .fault .noUnit

end Sys2Proof.Machine
end

