-- ==== Sys2Proof/Machine/Queues.lean ====
section
/-! DEFINITION. Shared operations of the work queues: queue registers, signals, the error state, how a packet completes, and TDIs that move to ERROR (R341 to R345, R351, R352, R437 to R440, R445, R459, R460). -/
namespace Sys2Proof.Machine

/-- Replaces the bits hi down to lo of a register. -/
def setBits (r : Word64) (hi lo v : Nat) : Word64 :=
  let m := BitVec.ofNat 64 ((2 ^ (hi + 1 - lo) - 1) * 2 ^ lo)
  (r &&& ~~~m) ||| (BitVec.ofNat 64 (v * 2 ^ lo) &&& m)

/-- Takes the bits of a mask from a new value. -/
def takeBits (old new mask : Word64) : Word64 := (old &&& ~~~mask) ||| (new &&& mask)

/-- The nearer bound of a range. -/
def clampNat (lo hi v : Nat) : Nat := max lo (min hi v)

def Queue.en (x : Queue) : Bool := x.qctl.getLsbD 0
def Queue.prio (x : Queue) : Nat := bitsOf x.qctl 3 1
def Queue.keyid (x : Queue) : Nat := bitsOf x.qctl 11 5
def Queue.owner (x : Queue) : Nat := bitsOf x.qctl 45 40
def Queue.inError (x : Queue) : Bool := bitsOf x.qerr 11 0 != 0

/-- TYPE of a packet (R349). -/
def Packet.type (k : Packet) : Nat := field k.bytes 0 1
def Packet.bar (k : Packet) : Bool := field k.bytes 1 1 % 2 == 1

/-- The INDIRECT packets whose levels are open. -/
def Queue.openIds (x : Queue) : List Nat := x.levels.map (·.pid)

/-- Whether an earlier packet holds the next one (R350): BAR, FENCE or END; an INDIRECT does not hold its own buffer (log 22). -/
def Queue.barHeld (x : Queue) : Bool :=
  x.packets.any fun k => !(x.openIds.contains k.pid) && (k.bar || k.type == 9 || k.type == 10)

/-- Whether a started packet still has to choose the next one (R350, R353). -/
def Queue.choosing (x : Queue) : Bool :=
  x.packets.any fun k => (k.type == 5 || k.type == 6) || (k.type == 7 && !k.begun) || (k.type == 10 && !k.begun)

/-- Started and uncompleted LAUNCH, RESUME and COPY packets. -/
def Queue.infl (x : Queue) : Nat := (x.packets.filter fun k => k.type == 1 || k.type == 2 || k.type == 8).length

/-- Levels whose buffers have been fetched to their end are left (R353). -/
def Queue.dropEnded (x : Queue) : Queue :=
  if x.choosing then x
  else { x with levels := x.levels.dropWhile fun l => decide (l.idx ≥ l.npkt) }

/-- The address of a ring packet (R341, R349). -/
def Queue.ringAddr (x : Queue) (i : Nat) : Word64 :=
  (x.lbase &&& 0x8000000000000000#64) ||| BitVec.ofNat 64 (bitsOf x.lbase 62 6 * 64 + 64 * (i % 2 ^ x.lsize))

/-- The address of the next packet and its place: the ring, or the innermost open buffer. -/
def Queue.nextAddr (x : Queue) : Option Word64 :=
  match x.levels with
  | l :: _ => some (BitVec.ofNat 64 (l.base + 64 * l.idx))
  | [] => if x.rd = x.wr then none else some (x.ringAddr x.rd.toNat)

/-- QSTAT (R343): HELD needs a next packet, LEVEL counts the levels that are not fetched to their end. -/
def Queue.qstat (x : Queue) : Word64 :=
  let y := x.dropEnded
  let b := fun (v : Bool) (n : Nat) => if v then 2 ^ n else 0
  BitVec.ofNat 64 (b (x.rd == x.wr && x.packets.isEmpty) 0 + b (y.barHeld && y.nextAddr.isSome) 1
    + b (x.packets.any fun k => k.type == 3 && !k.ready) 2 + b x.stopped 3 + b x.ffault.isSome 4
    + y.levels.length * 32 + x.infl * 256 + qstatErr (bitsOf x.qerr 11 0) * 2 ^ 24)

/-- Setting EN latches the ring, starts at WRIDX and clears the error state (R342, R437). -/
def State.opQueueEnable (s : State) (q : Nat) : State :=
  let x := s.queue q
  if x.en then s
  else s.setQueue q
    { x with
      qctl := x.qctl ||| 1, lbase := x.qbase, lsize := bitsOf x.qctl 16 12, rd := x.wr, cp := x.wr
      qerr := 0, levels := [], skip := 0, stopped := false, ffault := none, parked := false, skipping := false }

/-- Clearing EN: no further packet starts (R342). -/
def State.opQueueDisable (s : State) (q : Nat) : State := s.onQueue q fun x => { x with qctl := setBits x.qctl 0 0 0 }

/-- A doorbell (R345, R445): refused when it runs more than the ring's size ahead of CPIDX. unit is the recording unit. -/
def State.opDoorbell (s : State) (q : Nat) (v : Word32) (unit : Nat) : State :=
  let x := s.queue q
  let size := if x.en then x.lsize else bitsOf x.qctl 16 12
  if (v - x.cp).toNat > 2 ^ size then
    s.errorRecord ⟨0x902, 0, unit, 0, 0, false, some (q, x.keyid), 0, v.zeroExtend 64, x.cp.zeroExtend 64, 0⟩
  else s.setQueue q { x with wr := v, parked := false }

/-- Freeing checkpoint slots (R341). -/
def State.opQckrel (s : State) (q mask : Nat) : State :=
  s.onQueue q fun x => { x with used := x.used &&& (255 ^^^ (mask % 256)) }

/-- Puts a queue in the error state (R437): QERR takes the first cause and the number of its record, every open level closes, and its INDIRECT packets complete aborted. -/
def State.queueError (s : State) (q cause seq : Nat) : State :=
  s.onQueue q fun x =>
    if x.inError then x
    else { x with
      qerr := BitVec.ofNat 64 (cause + seq % 2 ^ 32 * 2 ^ 32), levels := [], skip := 0
      packets := x.packets.map fun k =>
        if k.type = 7 then { k with ready := true, status := 3, abort := some (0, 0, 0, none) } else k }

/-- A fault of a packet that has not started (R437): the error state, the record, its notification. -/
def State.packetFault (s : State) (q addr : Nat) (x : Cause) : State :=
  let seq := s.errseq.toNat
  (s.queueError q x.code seq).errorRecord ⟨x.code, 1, 6, 0, 0, false, some (q, (s.queue q).keyid), addr, x.info, x.info1, 0⟩

/-! ## Signals (R349, R351, R352) -/

/-- Reads bytes at an address of the packet form: host memory by read requests (R83, R349). -/
def State.readForm (s : State) (w : Who) (a : Word64) (n : Nat) : Except Cause ByteList :=
  if a.getLsbD 63 then
    let p : Piece := ⟨.host (bitsOf a 62 0), bitsOf a 62 0, n⟩
    match s.lacks w.req p with
    | some x => .error x
    | none => .ok (s.readPiece w.req p)
  else (s.readG w .read (bitsOf a 62 0) n).map (·.1)

/-- An update of a signal (R351): in HBM the old value gives way to the new; a signal outside the module is updated by a request of its own. -/
def State.updateSignal (s : State) (w : Who) (a : Word64) (kind : Nat) (v : Word64) (f : Word64 → Word64) : Except Cause State :=
  if a.getLsbD 63 then .ok (s.ask w.req w.key 2 (bitsOf a 62 0) a kind 8 (leBytes 8 v.toNat))
  else match s.pieces w .atomic false (bitsOf a 62 0) 8 with
  | .error c => .error c
  | .ok ps =>
    match s.stops w true false (ps.map (·.1)) with
    | some c => .error c
    | none => match ps.head?.map fun p => p.1.loc with
      | some (Loc.peer x) => .ok ((s.fillAll w ps).ask w.req w.key 1 x a kind 8 (leBytes 8 v.toNat))
      | some (Loc.host x) => .ok ((s.fillAll w ps).ask w.req w.key 2 x a kind 8 (leBytes 8 v.toNat))
      | _ => match s.readG w .atomic (bitsOf a 62 0) 8 with
        | .error c => .error c
        | .ok (b, t) => t.writeG w false (bitsOf a 62 0) (leBytes 8 (f (BitVec.ofNat 64 (leNat b))).toNat)

/-- Where a signal lies. -/
def State.signalLoc (s : State) (w : Who) (a : Word64) : Option Loc :=
  if a.getLsbD 63 then some (.host (bitsOf a 62 0))
  else match s.pieces w .read false (bitsOf a 62 0) 8 with
  | .ok (p :: _) => some p.1.loc
  | _ => none

/-- The abort value (R438). -/
def abortValue : Word64 := 0xC000000000000000

/-- CPIDX passes every ring packet that has completed or been passed over (R352): left holds the ring indices of packets not completed; skipped packets are not among them. -/
def advanceCp (left : List Nat) (stop : Nat) : Nat → Nat → Nat
  | 0, c => c
  | n + 1, c =>
    if c = stop ∨ left.contains c then c
    else advanceCp left stop n ((c + 1) % 2 ^ 32)

/-- Step 2 of a completion (R352). -/
def Queue.passCp (x : Queue) : Queue :=
  let left := (x.packets.filter (·.inRing)).map (·.ring)
  { x with cp := BitVec.ofNat 32 (advanceCp left x.rd.toNat (2 ^ 16 + 1) x.cp.toNat) }

/-- Ends the wait of every queue whose fetch met a fault (R444). -/
def State.retryFetches (s : State) : State := { s with queues := s.queues.map fun p => (p.1, { p.2 with parked := false }) }

/-- QERR RETRY (R439): the error state ends and fetch resumes at RDIDX. -/
def State.opQerrRetry (s : State) (q : Nat) : State :=
  if (s.queue q).inError then s.onQueue q fun x => { x with qerr := 0, parked := false, skipping := false } else s

/-- SKIP reads the ring packet at RDIDX (R439): it becomes ready to complete aborted without starting, the error state ends, and fetch goes on after it. A read that meets a cause is recorded and the packet only passed. -/
def State.skipPacket (s : State) (q : Nat) : State :=
  let x := s.queue q
  let a := x.ringAddr x.rd.toNat
  let w := s.whoQueue q (.queue q)
  match s.readForm w a 64 with
  | .ok b =>
    ((s.onQueue q fun y => { y with
        rd := y.rd + 1, qerr := 0, parked := false, skipping := false
        packets := y.packets ++ [⟨s.nextId, b, x.rd.toNat, true, a.toNat, true, 3, 0, none, true, false, none, [], none⟩] }).bumpId).spend (.queue q)
  | .error c =>
    if c.waits then (s.onQueue q fun y => { y with skipping := true }).await w c
    else
      let t := (s.meetRefusal c.code c.info1).onQueue q fun y => ({ y with rd := y.rd + 1, skipping := false } : Queue).passCp
      let u := t.errorRecord ⟨c.code, 0, 6, 0, 0, false, some (q, x.keyid), a.toNat, c.info, c.info1, 0⟩
      (u.onQueue q fun y => { y with qerr := 0, parked := false }).spend (.queue q)

/-- QERR SKIP (R439). -/
def State.opQerrSkip (s : State) (q : Nat) : State :=
  let x := s.queue q
  if !x.inError || x.rd == x.wr then s else s.skipPacket q

/-! ## TDIs (R374, R375, R459, R460) -/

/-- Queues that a VF owns, in ascending order. -/
def State.ownedBy (s : State) (v : Nat) : List Nat := (s.queues.filter fun p => p.2.owner == v).map (·.1)

/-- Resident launch parts of a queue. -/
def State.partsOf (s : State) (q : Nat) : List Nat :=
  (s.parts.filter fun p => p.2.queue == q && (match p.2.phase with
    | .complete => false
    | .ended => false
    | .saved => false
    | _ => true)).map (·.1)

/-- A TDI moves to ERROR (R459, R460): the record, its queues stop in the error state without notifications, their parts end without an image, their slots are freed. -/
def State.tdiError (s : State) (v reason extra : Nat) : State :=
  let x := s.vf v
  if x.tdi = .unlocked ∨ x.tdi = .error then s
  else
    let qs := s.ownedBy v
    let seq := s.errseq.toNat
    let c : Cause := ⟨0xB06, BitVec.ofNat 64 v, BitVec.ofNat 64 (reason + extra % 2 ^ 16 * 2 ^ 16)⟩
    let s1 := s.setVf v { x with tdi := .error }
    let s2 := qs.foldl (fun t q => ((t.opQueueDisable q).queueError q 0xB06 seq).onQueue q fun y => { y with used := 0, notes := [] }) s1
    let s3 := qs.foldl (fun t q => (t.partsOf q).foldl (fun u p => u.endPart p c seq) t) s2
    s3.errorRecord ⟨0xB06, 1, 10, 0, 0, false, qs.head?.map fun q => (q, (s.queue q).keyid), 0, c.info, c.info1, 0⟩

/-- A write of a frozen item of the physical function moves every TDI outside CONFIG_UNLOCKED to ERROR (R459). -/
def State.tdiErrorAll (s : State) (reason extra : Nat) : State :=
  s.vfs.foldl (fun t p => t.tdiError p.1 reason extra) s

/-- Whether some TDI has its items frozen. -/
def State.anyFrozen (s : State) : Bool := s.vfs.any fun p => p.2.tdi != .unlocked
/-- Whether the items of a VF are frozen (R375). -/
def State.frozenVf (s : State) (v : Nat) : Bool := v != 0 && (s.vf v).tdi != .unlocked

end Sys2Proof.Machine
end

