-- ==== Sys2Proof/Machine/Aperture.lean ====
section
/-! DEFINITION. The device aperture: reading and writing its registers under each view, and the operations its writes start (R338 to R345, R398, R417, R424, R430). -/
namespace Sys2Proof.Machine

/-! ## Register images -/

/-- A RIT entry as a register (R87). -/
def RitEntry.word (e : RitEntry) : Word64 :=
  BitVec.ofNat 64 (e.pri + (if e.v then 2 ^ 16 else 0) + (if e.shv then 2 ^ 17 else 0) + (if e.qs then 2 ^ 18 else 0)
    + (if e.noremap then 2 ^ 19 else 0) + e.spri * 2 ^ 32)

/-- A RIT entry from a written word: QS is read-only (R87). -/
def RitEntry.ofWord (old : RitEntry) (v : Word64) : RitEntry :=
  ⟨bitsOf v 15 0, v.getLsbD 16, v.getLsbD 17, old.qs, v.getLsbD 19, bitsOf v 47 32⟩

/-- The image of the active complex and that of the standby (R358). -/
def Firmware.active (f : Firmware) : FwImage := if f.act then f.imgB else f.imgA
def Firmware.standby (f : Firmware) : FwImage := if f.act then f.imgA else f.imgB

/-- FWSTAT (R358). -/
def State.fwstat (s : State) : Word64 :=
  BitVec.ofNat 64 ((if s.fw.act then 1 else 0) + s.fw.sbst * 2 + s.fw.active.ver % 2 ^ 16 * 2 ^ 16 + s.fw.standby.ver % 2 ^ 16 * 2 ^ 32
    + s.fw.active.major % 2 ^ 16 * 2 ^ 48)

/-- CHRET with its read-only fields (R424). -/
def State.chretWord (s : State) : Word64 :=
  BitVec.ofNat 64 (bitsOf s.chret 8 0 + (if s.chbusy then 2 ^ 10 else 0) + (if s.chfailed then 2 ^ 11 else 0) + s.chleft % 2 ^ 16 * 2 ^ 32)

/-- Fields of view U in QCTL (R342): EN, QSZ, MSIV, MSIE. -/
def qctlUser : Word64 := 0x3FFDF001
/-- Every field of QCTL. -/
def qctlAll : Word64 := 0x3FFF3FFDFFFF

/-- A register of a queue page (R341, R439); none for a reserved offset. -/
def State.readQueueReg (s : State) (priv : Bool) (q r : Nat) : Option Word64 :=
  let x := s.queue q
  let p := fun v : Word64 => if priv then v else 0
  match r with
  | 0x00 => some (if priv then x.qctl else x.qctl &&& qctlUser)
  | 0x08 => some x.qbase
  | 0x10 => some (x.wr.zeroExtend 64)
  | 0x18 => some (x.rd.zeroExtend 64)
  | 0x20 => some (x.cp.zeroExtend 64)
  | 0x28 => some x.qstat
  | 0x30 => some (p x.ptroot)
  | 0x38 => some (p x.ckbase)
  | 0x40 => some (p ((x.ckcfg &&& 0xFFFFFFFF000F#64) ||| BitVec.ofNat 64 (x.used % 256 * 256)))
  | 0x48 => some 0
  | 0x50 => some x.note
  | 0x58 => some (x.nwr.zeroExtend 64)
  | 0x60 => some (x.nrd.zeroExtend 64)
  | 0x68 => some (p x.yield)
  | 0x70 => some (x.qerr &&& 0xFFFFFFFF00000FFF#64)
  | _ => none

/-- PREEMPT with BUSY, which is 1 while a save that a GO has asked for is not complete (R344, R356). -/
def State.preemptWord (s : State) : Word64 :=
  s.preemptReg ||| (if s.parts.any fun p => p.2.hosted && (p.2.phase == .setUp || p.2.phase == .running || p.2.phase == .saving || p.2.phase == .resuming) then 0x2000 else 0)

/-- A register of the module-control block (R344, R358, R398, R417, R424, R430). -/
def State.readModuleReg (s : State) (r : Nat) : Option Word64 :=
  match r with
  | 0x00 => some s.modesel
  | 0x08 => some s.waitpoll
  | 0x10 => some (BitVec.ofNat 64 (s.tlbKind + if s.tlbBusy then 8 else 0))
  | 0x18 => some s.tlbinvr
  | 0x20 => some s.tlbinva
  | 0x28 => some s.preemptWord
  | 0x30 => some s.fwstat
  | 0x38 => some s.fwctl
  | 0x40 => some s.fwimg
  | 0x48 => some s.errbase
  | 0x50 => some (s.errwr.zeroExtend 64)
  | 0x58 => some (s.errrd.zeroExtend 64)
  | 0x60 => some (s.errctl.zeroExtend 64 ||| (s.errlost.zeroExtend 64 <<< 32))
  | 0x68 => some (s.unitres ||| (if s.unitActs.isEmpty then 0 else 0x400000000))
  | 0x70 => some s.chretWord
  | 0x78 => some (s.die (bitsOf s.chret 2 0)).retired
  | 0x80 => some s.waitcfg
  | _ => none

/-- Whether a region is quiesced: a swap or a publish of it is in progress (R87, R89, R92). -/
def State.quiesced (s : State) (d lri : Nat) : Bool :=
  (s.rit d lri).qs || (s.die d).pubHeld.any fun p => p.pages.contains lri && s.pubInForce d p

/-- A RIT entry as it reads. -/
def State.ritSeen (s : State) (d lri : Nat) : RitEntry := { s.rit d lri with qs := s.quiesced d lri }

/-- A naturally aligned 8-byte read of the aperture (R339); none for a reserved offset (R446). -/
def State.apertureRead (s : State) (priv : Bool) (off : Nat) : Option Word64 :=
  if off % 8 ≠ 0 then none
  else if off < 0x800000 then s.readQueueReg priv (off / 0x1000) (off % 0x1000)
  else if off < 0xC00000 then some (if priv then (s.ritSeen ((off - 0x800000) / 0x80000) ((off - 0x800000) % 0x80000 / 8)).word else 0)
  else if off < 0xC01000 then (s.readModuleReg (off - 0xC00000)).map fun v => if priv then v else 0
  else if 0xC01008 ≤ off ∧ off < 0xC01200 then some (if priv then (s.vf ((off - 0xC01000) / 8)).vtab else 0)
  else none

/-! ## What writes start -/

/-- TLBINV GO (R348): sets BUSY, or queues behind the invalidation that runs. -/
def State.opTlbInv (s : State) (kind : Nat) : State :=
  let r := (kind, bitsOf s.tlbinvr 40 12 * 4096, s.tlbinva.toNat)
  { s with tlbKind := kind % 4, tlbBusy := true, tlbQueue := s.tlbQueue ++ [r] }

/-- MODESEL (R357): bits [3:0]. -/
def State.opModesel (s : State) (v : Word64) : State := { s with modesel := v &&& 0xF }

/-- A RIT write is held while QS = 1 (R340). -/
def State.opRitWrite (s : State) (d lri : Nat) (v : Word64) : State :=
  if s.quiesced d lri then s.onDie d fun x => { x with ritHeld := x.ritHeld ++ [(lri, v)] }
  else s.onDie d fun x => { x with rit := tabPut x.rit lri (RitEntry.ofWord (x.ritAt lri) v) }

/-- RIT writes that were held take effect, in order, where their regions are no longer quiesced (R340). -/
def State.applyRit (s : State) (d : Nat) : State :=
  let go := (s.die d).ritHeld.filter fun q => !s.quiesced d q.1
  s.onDie d fun x =>
    { x with
      ritHeld := x.ritHeld.filter fun q => s.quiesced d q.1
      rit := go.foldl (fun t q => tabPut t q.1 (RitEntry.ofWord (tabGet (RitEntry.init q.1) t q.1) q.2)) x.rit }

/-- PREEMPT GO (R356): only in host-assisted mode, for every resident part of the queue. -/
def State.opPreempt (s : State) (q : Nat) : State :=
  if s.modesel.getLsbD 3 then
    (s.partsOf q).foldl (fun t p => (t.onPart p fun y => { y with hosted := y.hosted || y.phase == .running || y.phase == .setUp || y.phase == .resuming }).askSave p 0) s
  else s

/-- Whether a physical region lies in a channel (R86, R424). -/
def inChannel (stk ch pri : Nat) : Bool :=
  regionStack pri == stk && regionChannel pri == ch

/-- Logical regions of a die that a channel backs (R424): an entry's index is its LRI, and an entry not listed maps to itself. -/
def State.channelRegions (s : State) (d stk ch : Nat) : List Nat :=
  (List.range 65536).filter fun l =>
    let e := s.rit d l
    e.v && (inChannel stk ch e.pri || (e.shv && inChannel stk ch e.spri))

/-- A CHRET write (R424): GO marks the channel and, unless a swap runs on the die, starts the moves. -/
def State.opChannelRetire (s : State) (v : Word64) : State :=
  let t := { s with chret := v &&& 0x1FF }
  let d := bitsOf v 2 0
  if v.getLsbD 9 && !s.chbusy then
    { t.onDie d (fun x => { x with leaving := x.leaving ||| BitVec.ofNat 64 (2 ^ (32 * bitsOf v 3 3 + bitsOf v 8 4)) }) with
      chbusy := true, chfailed := false, chmoving := (s.die d).swap.isNone
      chleft := (s.channelRegions d (bitsOf v 3 3) (bitsOf v 8 4)).length }
  else if s.chbusy then s else t

/-- FWCTL GO (R358, R359, R447): CMD runs unless a command is running. -/
def State.opFwctl (s : State) (v : Word64) : State :=
  if s.fwctl.getLsbD 3 then s
  else if !v.getLsbD 2 then { s with fwctl := v &&& 3 }
  else if bitsOf v 1 0 = 1 then
    (if s.fw.sbst = 3 ∨ s.fw.sbst = 4 then { s with fwctl := 1 }
      else { s with fwctl := 9, fw := { s.fw with sbst := 1 } })
  else if bitsOf v 1 0 = 2 then
    (if s.fw.sbst = 2 then { s with fwctl := 10, fw := { s.fw with switching := true } }
      else { s.errorRecord ⟨0x90A, 0, 7, 0, 0, false, none, 0, 1, BitVec.ofNat 64 s.fw.active.major, 0⟩ with fwctl := 2 })
  else { s with fwctl := v &&& 3 }

/-- Clamps a log2 size to 4 to 16 in bits [4:0]. -/
def clampSize (v : Word64) : Word64 := setBits v 4 0 (clampNat 4 16 (bitsOf v 4 0))

/-- QCKCFG as a write stores it (R341): NSLOT at most 8. -/
def ckcfgOf (v : Word64) : Word64 := setBits (v &&& 0xFFFFFFFF000F#64) 3 0 (min 8 (bitsOf v 3 0))

/-- A write of a queue register whose frozen fields would change (R375, R459). -/
def State.breaksFreeze (s : State) (q r : Nat) (v : Word64) : Bool :=
  let x := s.queue q
  s.frozenVf x.owner &&
  (match r with
  | 0x00 => (x.qctl ^^^ v) &&& 0x3F0000000FFE#64 != 0
  | 0x30 => x.ptroot != v &&& 0x1FFFFFFF000#64
  | 0x38 => x.ckbase != v &&& 0xFFFFFFFFFFFFF000#64
  | 0x40 => x.ckcfg != ckcfgOf v
  | _ => false)

/-- Writes a register of a queue page (R341, R342, R345, R439). pf tells a write through BAR0 of PF0. -/
def State.writeQueueReg (s : State) (priv pf : Bool) (unit q r : Nat) (v : Word64) : State :=
  if priv && s.breaksFreeze q r v then
    s.tdiError (s.queue q).owner (if pf then 4 else 1) (if pf then q else q * 0x1000 + r)
  else
  match r with
  | 0x00 =>
    let x := s.queue q
    let m := if priv then qctlAll else qctlUser
    let nv := takeBits x.qctl v m
    let nv := setBits nv 16 12 (clampNat 4 16 (bitsOf nv 16 12))
    let t := s.setQueue q { x with qctl := setBits nv 0 0 (if x.en then 1 else 0) }
    if nv.getLsbD 0 then t.opQueueEnable q else t.opQueueDisable q
  | 0x08 => s.onQueue q fun x => { x with qbase := v &&& 0xFFFFFFFFFFFFFFC0#64 }
  | 0x10 => s.opDoorbell q (v.truncate 32) unit
  | 0x30 => if priv then s.onQueue q fun x => { x with ptroot := v &&& 0x1FFFFFFF000#64 } else s
  | 0x38 => if priv then s.onQueue q fun x => { x with ckbase := v &&& 0xFFFFFFFFFFFFF000#64 } else s
  | 0x40 => if priv then s.onQueue q fun x => { x with ckcfg := ckcfgOf v } else s
  | 0x48 => if priv then s.opQckrel q (bitsOf v 7 0) else s
  | 0x50 => s.onQueue q fun x => { x with note := clampSize (v &&& 0xFFFFFFFFFFFFFFDF#64) }
  | 0x60 => s.onQueue q fun x => { x with nrd := v.truncate 32 }
  | 0x68 => if priv then s.onQueue q fun x => { x with yield := v &&& 0xFFFFFFFF#64 } else s
  | 0x70 => if bitsOf v 17 16 = 1 then s.opQerrRetry q else if bitsOf v 17 16 = 2 then s.opQerrSkip q else s
  | _ => s

/-- A write of UNITRES (R417): GO delivers an action to the held unit that SEQ names; without such a unit it has no effect. -/
def State.opUnitres (s : State) (v : Word64) : State :=
  let t := { s with unitres := v &&& 0x1FFFFFFFF#64 }
  if v.getLsbD 33 && s.traps.any fun u => u.seq == bitsOf v 31 0 && u.held then
    { t with unitActs := t.unitActs ++ [(bitsOf v 31 0, v.getLsbD 32)] }
  else t

/-- Writes a register of the module-control block (R344 and the rules that name the others). -/
def State.writeModuleReg (s : State) (r : Nat) (v : Word64) : State :=
  match r with
  | 0x00 => s.opModesel v
  | 0x08 => { s with waitpoll := if bitsOf v 15 0 = 0 then 1 else v &&& 0xFFFF }
  | 0x10 => if v.getLsbD 2 then s.opTlbInv (bitsOf v 1 0) else { s with tlbKind := bitsOf v 1 0 }
  | 0x18 => { s with tlbinvr := v }
  | 0x20 => { s with tlbinva := v }
  | 0x28 =>
    let t := { s with preemptReg := v &&& 0x7FF }
    if v.getLsbD 12 then t.opPreempt (bitsOf v 10 0) else t
  | 0x38 => s.opFwctl v
  | 0x40 => { s with fwimg := v &&& 0xFFFFFFFFFFFFF000#64 }
  | 0x48 => { s with errbase := clampSize (v &&& 0xFFFFFFFFFFFFFFDF#64) }
  | 0x58 => { s with errrd := v.truncate 32 }
  | 0x60 => { s with errctl := (v.truncate 32) &&& 0x1FFF }
  | 0x68 => s.opUnitres v
  | 0x70 => s.opChannelRetire v
  | 0x80 => { s with waitcfg := (v &&& 0x800FFFFF#64) ||| (if bitsOf v 19 0 = 0 then 1 else 0) }
  | _ => s

/-- A naturally aligned 8-byte write of the aperture (R339, R340); offsets that hold no register are for the caller to report. -/
def State.apertureWrite (s : State) (priv pf : Bool) (unit off : Nat) (v : Word64) : State :=
  if off < 0x800000 then s.writeQueueReg priv pf unit (off / 0x1000) (off % 0x1000) v
  else if !priv then s
  else if off < 0xC00000 then s.opRitWrite ((off - 0x800000) / 0x80000) ((off - 0x800000) % 0x80000 / 8) v
  else if off < 0xC01000 then s.writeModuleReg (off - 0xC00000) v
  else
    let n := (off - 0xC01000) / 8
    if s.frozenVf n ∧ (s.vf n).vtab ≠ v &&& 1 then s.tdiError n 1 off
    else s.setVf n { s.vf n with vtab := v &&& 1 }

/-! ## Accesses of units and packets (R339) -/

/-- The aperture offset that a naturally aligned access of 8 bytes reaches, with its translation. -/
def State.apertureAt (s : State) (w : Who) (k : AKind) (va n : Nat) : Option (Nat × Piece × TlbEntry) :=
  if n = 8 ∧ va % 8 = 0 ∧ va + n ≤ 2 ^ 57 then
    match s.piece w k false va n with
    | .ok (p, e) => (match p.loc with
      | .device off => some (off, p, e)
      | _ => none)
    | .error _ => none
  else none

/-- Reads n bytes of device virtual memory for a unit or a packet; an aligned access of 8 bytes reaches the aperture under the view of its launch or packet (R339, R446). -/
def State.readV (s : State) (w : Who) (k : AKind) (va n : Nat) : Except Cause (ByteList × State) :=
  match s.apertureAt w k va n with
  | some (off, p, e) => (match s.apertureRead w.priv off with
    | some v => .ok (leBytes 8 v.toNat, s.fillAll w [(p, e)])
    | none => .error (devaper off false))
  | none => s.readG w k va n

/-- Writes bytes to device virtual memory for a unit or a packet, the aperture among it (R339, R446). -/
def State.writeV (s : State) (w : Who) (shadow : Bool) (va : Nat) (b : ByteList) : Except Cause State :=
  match s.apertureAt w .write va b.length with
  | some (off, p, e) =>
    if (s.apertureRead true off).isSome then .ok ((s.fillAll w [(p, e)]).apertureWrite w.priv false w.unit off (BitVec.ofNat 64 (leNat b)))
    else .error (devaper off true)
  | none => s.writeG w shadow va b

end Sys2Proof.Machine
end

