-- ==== Sys2Proof/Machine/Flags.lean ====
section
/-! DEFINITION. Conditions and how they combine into predicates (R184, R188, R303). The D8 has no condition flags (R173). -/
namespace Sys2Proof.Machine

/-- The conditions of CMP (R184). -/
def cmpHolds (c : CmpCond) (a b : Word64) : Bool :=
  match c with
  | .eq => a == b
  | .ne => a != b
  | .lt => a.slt b
  | .le => a.sle b
  | .gt => b.slt a
  | .ge => b.sle a
  | .ltu => a.ult b
  | .leu => a.ule b
  | .gtu => b.ult a
  | .geu => b.ule a

/-- The conditions of FCMP over FP32 encodings (R188). -/
def fcmpHolds (c : FcmpCond) (a b : Nat) : Bool :=
  let x := fpVal fmtF32 a
  let y := fpVal fmtF32 b
  let un := x.isNan || y.isNan
  match c with
  | .eq => fpEq x y
  | .ne => un || !fpEq x y
  | .lt => fpLt x y
  | .le => fpLe x y
  | .gt => fpLt y x
  | .ge => fpLe y x
  | .un => un

/-- COMB: write, AND with the old predicate, OR with it (R184). -/
def combine (m : Comb) (old c : Bool) : Bool :=
  match m with
  | .write => c
  | .and => old && c
  | .or => old || c

/-- The conditions of ABR against zero (R303). -/
def acondHolds (c : ACond) (v : Word48) : Bool :=
  match c with
  | .eqz => v == 0
  | .nez => v != 0
  | .ltz => v.slt 0
  | .gez => (0 : Word48).sle v
  | .gtz => (0 : Word48).slt v
  | .lez => v.sle 0

end Sys2Proof.Machine
end

