-- ==== Sys2Proof/Machine/Operands.lean ====
section
/-! DEFINITION. Operand forms of the Cox instructions that compute (R158, R173, R186): two registers, a register and an immediate, one register; results due at once and results due later (R174). -/
namespace Sys2Proof.Machine

/-- Writes sD at once: latency 1 (R174). -/
def putS (c k d : Nat) (v : Word64) (t : Strand) (s : State) : Eff := .done (s.setStrand c k (t.writeS d v))

/-- Writes sD from registers A and B. -/
def State.aluReg (s : State) (f : Word64 → Word64 → Word64) (g : Guard) (d a b : Nat) : Host.Outcome State Fault Refusal :=
  s.coxRun false g [d, a, b] fun c k t u => putS c k d (f (t.readS a) (t.readS b)) t u

/-- Writes sD from register A and a sign-extended extension word. -/
def State.aluLong (s : State) (f : Word64 → Word64 → Word64) (g : Guard) (d a : Nat) (e : Word32) : Host.Outcome State Fault Refusal :=
  s.coxRun true g [d, a] fun c k t u => putS c k d (f (t.readS a) (extVal e)) t u

/-- Writes sD from register A. -/
def State.aluOne (s : State) (f : Word64 → Word64) (g : Guard) (d a : Nat) : Host.Outcome State Fault Refusal :=
  s.coxRun false g [d, a] fun c k t u => putS c k d (f (t.readS a)) t u

/-- Adds an unfinished instruction: the value is written as if at once, the old one and the captured operands are kept until it is due (R174, R317, R320). -/
def Strand.issue (t : Strand) (now lat : Nat) (i : Instr) (dst : Nat) (v opA opB opD : Word64) : Strand :=
  { t.writeAny dst v with
    inflight := t.inflight ++ [⟨BitVec.ofNat 32 ((encode i).getD 0 0), BitVec.ofNat 32 ((encode i).getD 1 0), dst, t.readAny dst, opA, opB, opD, now + lat⟩] }

/-- Writes a destination from captured operands after a latency. -/
def State.slow (s : State) (long : Bool) (lat : Nat) (i : Instr) (g : Guard) (uses : List Nat) (dst : Nat)
    (opA opB opD : Strand → Word64) (f : Word64 → Word64 → Word64 → Word64) : Host.Outcome State Fault Refusal :=
  s.coxRun long g (dst :: uses) fun c k t u =>
    .done (u.setStrand c k (t.issue u.cycle.toNat lat i dst (f (opA t) (opB t) (opD t)) (opA t) (opB t) (opD t)))

/-- The two forms of a slow instruction with two operands. -/
def State.slowReg (s : State) (lat : Nat) (i : Instr) (f : Word64 → Word64 → Word64) (g : Guard) (d a b : Nat) :
    Host.Outcome State Fault Refusal :=
  s.slow false lat i g [a, b] d (·.readS a) (·.readS b) (fun _ => 0) fun x y _ => f x y
def State.slowLong (s : State) (lat : Nat) (i : Instr) (f : Word64 → Word64 → Word64) (g : Guard) (d a : Nat) (e : Word32) :
    Host.Outcome State Fault Refusal :=
  s.slow true lat i g [a] d (·.readS a) (fun _ => extVal e) (fun _ => 0) fun x y _ => f x y

/-! ## What the instructions compute -/

def mulHigh (a b : Word64) : Word64 := w64 (a.toInt * b.toInt / 2 ^ 64)
/-- DIV (R177). -/
def divS (a b : Word64) : Word64 := if b = 0 then BitVec.allOnes 64 else w64 (Int.tdiv a.toInt b.toInt)
/-- REM (R177). -/
def remS (a b : Word64) : Word64 := if b = 0 then a else w64 (Int.tmod a.toInt b.toInt)
def shlS (a b : Word64) : Word64 := a <<< (bitsOf b 5 0)
def shrS (a b : Word64) : Word64 := a >>> (bitsOf b 5 0)
def sraS (a b : Word64) : Word64 := a.sshiftRight (bitsOf b 5 0)
def rolS (a b : Word64) : Word64 := a.rotateLeft (bitsOf b 5 0)
def minS (a b : Word64) : Word64 := if a.sle b then a else b
def maxS (a b : Word64) : Word64 := if b.sle a then a else b
/-- Leading zeros by the place of the highest one bit (R178). -/
def clzS (a : Word64) : Word64 := if a = 0 then 64 else BitVec.ofNat 64 (63 - Nat.log2 a.toNat)
/-- Trailing zeros (R178). -/
def ctzS (a : Word64) : Word64 := BitVec.ofNat 64 (firstFrom (fun n => a.getLsbD n) 64 0)
def popcS (a : Word64) : Word64 := BitVec.ofNat 64 ((List.range 64).filter fun n => a.getLsbD n).length
/-- BFX (R179). -/
def bfxS (a : Word64) (pos wm1 : Nat) (sgn : Bool) : Word64 :=
  let f := a.toNat / 2 ^ pos % 2 ^ (wm1 + 1)
  if sgn then sext64 f (wm1 + 1) else BitVec.ofNat 64 f
/-- BFI (R179). -/
def bfiS (old a : Word64) (pos wm1 : Nat) : Word64 :=
  let msk := BitVec.ofNat 64 (2 ^ (wm1 + 1) - 1) <<< pos
  (old &&& ~~~msk) ||| ((a <<< pos) &&& msk)
def sextS (a : Word64) (wm1 : Nat) : Word64 := sext64 a.toNat (wm1 + 1)
def zextS (a : Word64) (wm1 : Nat) : Word64 := BitVec.ofNat 64 (a.toNat % 2 ^ (wm1 + 1))

/-- The FP32 encoding in the low half of a register (R186). -/
def f32Of (a : Word64) : Nat := a.toNat % 2 ^ 32
def faddS (a b : Word64) : Word64 := BitVec.ofNat 64 (ieeeF32 (fpAdd (fpVal fmtF32 (f32Of a)) (fpVal fmtF32 (f32Of b))))
def fsubS (a b : Word64) : Word64 := BitVec.ofNat 64 (ieeeF32 (fpAdd (fpVal fmtF32 (f32Of a)) (fpNeg (fpVal fmtF32 (f32Of b)))))
def fmulS (a b : Word64) : Word64 := BitVec.ofNat 64 (ieeeF32 (fpMul (fpVal fmtF32 (f32Of a)) (fpVal fmtF32 (f32Of b))))
def fdivS (a b : Word64) : Word64 := BitVec.ofNat 64 (ieeeF32 (fpDiv (fpVal fmtF32 (f32Of a)) (fpVal fmtF32 (f32Of b))))
def ffmaS (a b d : Word64) : Word64 :=
  BitVec.ofNat 64 (ieeeF32 (fpAdd (fpMul (fpVal fmtF32 (f32Of a)) (fpVal fmtF32 (f32Of b))) (fpVal fmtF32 (f32Of d))))
def fminS (a b : Word64) : Word64 := BitVec.ofNat 64 (fpMinMax fmtF32 false (f32Of a) (f32Of b))
def fmaxS (a b : Word64) : Word64 := BitVec.ofNat 64 (fpMinMax fmtF32 true (f32Of a) (f32Of b))
def fsgnS (a b : Word64) : Word64 :=
  if (fpVal fmtF32 (f32Of a)).isNan then 0x7FC00000
  else BitVec.ofNat 64 (f32Of a % 2 ^ 31 + f32Of b / 2 ^ 31 * 2 ^ 31)

def FMode.code : FMode → Nat
  | .rne => 0
  | .rtz => 1
  | .rpi => 2
  | .rni => 3

/-- FCVT (R189). -/
def fcvtS (kind : FcvtKind) (mode : FMode) (a : Word64) : Word64 :=
  let m := FMode.code mode
  match kind with
  | .i64F32 => w64 (roundToInt m 0 64 (fpVal fmtF32 (f32Of a)))
  | .f32I64 => BitVec.ofNat 64 (roundIeee fmtF32 m 0 (fpOfInt a.toInt))
  | .i32F32 => w64 (roundToInt m 0 32 (fpVal fmtF32 (f32Of a)))
  | .f32I32 => BitVec.ofNat 64 (roundIeee fmtF32 m 0 (fpOfInt (sextInt a.toNat 32)))
  | .bf16F32 => BitVec.ofNat 64 (roundIeee fmtBf16 m 0 (fpVal fmtF32 (f32Of a)))
  | .f32Bf16 => BitVec.ofNat 64 (roundIeee fmtF32 m 0 (fpVal fmtBf16 (a.toNat % 2 ^ 16)))
  | .f16F32 => BitVec.ofNat 64 (roundIeee fmtF16 m 0 (fpVal fmtF32 (f32Of a)))
  | .f32F16 => BitVec.ofNat 64 (roundIeee fmtF32 m 0 (fpVal fmtF16 (a.toNat % 2 ^ 16)))

/-- Handle h of a core (R39): entry 0 stands for the flat byte space. -/
def Core.handle (x : Core) (h : Nat) : Option Handle := if h < x.handles.length then x.handles[h]? else none

/-- Bits per dimension-0 unit of a handle (R122). -/
def Handle.unitBits (h : Handle) : Nat := ((fmtOf h.fmt).map Fmt.unitBits).getD 0

/-- HOFF (R183). -/
def hoffS (x : Core) (n : Nat) (a : Word64) : Word64 :=
  if n = 0 then a
  else match x.handle n with
  | none => a
  | some h =>
    let i := fun d => a.toNat / 2 ^ (16 * d) % 2 ^ 16
    let off := i 0 * h.unitBits / 8 + ((List.range (h.ndim - 1)).map fun d => i (d + 1) * h.stride.getD d 0).sum
    BitVec.ofNat 64 (h.base + off + if h.space = 0 then x.spBase else 0)

/-- What an instruction that may stand in a replay queue computes from its captured operands, with its destination and its latency (R174, R319, R320). -/
def replayOf (x : Core) (i : Instr) (opA opB opD : Word64) : Option (Nat × Nat × Word64) :=
  match i with
  | .mul _ d _ _ => some (d, 4, opA * opB)
  | .mulLong _ d _ _ => some (d, 4, opA * opB)
  | .mulh _ d _ _ => some (d, 4, mulHigh opA opB)
  | .mulhLong _ d _ _ => some (d, 4, mulHigh opA opB)
  | .div _ d _ _ => some (d, 36, divS opA opB)
  | .divLong _ d _ _ => some (d, 36, divS opA opB)
  | .rem _ d _ _ => some (d, 36, remS opA opB)
  | .remLong _ d _ _ => some (d, 36, remS opA opB)
  | .fadd _ d _ _ => some (d, 4, faddS opA opB)
  | .faddLong _ d _ _ => some (d, 4, faddS opA opB)
  | .fsub _ d _ _ => some (d, 4, fsubS opA opB)
  | .fsubLong _ d _ _ => some (d, 4, fsubS opA opB)
  | .fmul _ d _ _ => some (d, 4, fmulS opA opB)
  | .fmulLong _ d _ _ => some (d, 4, fmulS opA opB)
  | .ffma _ d _ _ => some (d, 4, ffmaS opA opB opD)
  | .fdiv _ d _ _ => some (d, 16, fdivS opA opB)
  | .fdivLong _ d _ _ => some (d, 16, fdivS opA opB)
  | .fcvt _ d _ kind mode => some (d, 3, fcvtS kind mode opA)
  | .fcmp _ d _ _ cc comb =>
    some (64 + d, 2, if combine comb (opD.getLsbD 0) (fcmpHolds cc (f32Of opA) (f32Of opB)) then 1 else 0)
  | .hoff _ d _ h => some (d, 3, hoffS x h opA)
  | _ => none

end Sys2Proof.Machine
end

