-- ==== Sys2Proof/Machine/CoxMemory.lean ====
section
/-! DEFINITION. Meanings of the Cox instructions that reach memory and order accesses: loads, stores, atomics, the scratch cache, fences, tracking and publish (R78, R96 to R108, R199 to R215, R364, R407, R453). -/
namespace Sys2Proof.Machine

/-! ## Where an access goes -/

def sizeBytes : Size → Nat
  | .b => 1
  | .h => 2
  | .w => 4
  | .d => 8

def amoBytes : AmoSize → Nat
  | .w => 4
  | .d => 8

/-- A checked access: pool bytes of a core, or pieces of device virtual memory. -/
inductive Place where
  | pool (core off : Nat) (keys : List Nat)
  | glob (ps : List (Piece × TlbEntry))

/-- The core that a .C address names (R78). -/
def crewPeer (c : Nat) (ea : Word64) : Nat := coreCrew c * 64 + bitsOf ea 26 21

/-- A range class and byte span of an access, as tracking slots see it (R103). -/
def spanOf (c : Nat) (sp : Space) (ea : Word64) (n : Nat) : RSpace × Nat × Nat :=
  match sp with
  | .l => (.l, ea.toNat, ea.toNat + n)
  | .c => if crewPeer c ea = c then (.l, bitsOf ea 20 0, bitsOf ea 20 0 + n) else (.c, ea.toNat, ea.toNat + n)
  | .g => (.g, ea.toNat, ea.toNat + n)

/-- Whether an address breaks the form of its space (R78, R407). -/
def State.badForm (s : State) (c : Nat) (sp : Space) (ea : Word64) (n : Nat) : Bool :=
  match sp with
  | .l => bitsOf ea 63 21 != 0 || !(s.core c).localOk ea.toNat n
  | .c =>
    let off := bitsOf ea 20 0
    let peer := crewPeer c ea
    bitsOf ea 63 27 != 0 || decide (off < (s.core c).spBase) || decide (off + n > (s.core c).acBase)
    || ((s.core peer).part == (s.core c).part && !(s.core peer).localOk off n)
  | .g => bitsOf ea 63 57 != 0 || decide (ea.toNat + n > 2 ^ 57)

/-- Whether a .C address names a core outside the launch part (R78). -/
def State.foreignPeer (s : State) (c : Nat) (sp : Space) (ea : Word64) : Bool :=
  match sp with
  | .c => (s.core (crewPeer c ea)).part != (s.core c).part
  | _ => false

/-- Checks an access and translates it (R78, R396, R407): mustAlign asks for natural alignment, noLocal forbids .L. -/
def State.placeOf (s : State) (c k : Nat) (sp : Space) (ea : Word64) (n : Nat) (kind : AKind) (mustAlign noLocal : Bool) : Except Cause Place :=
  if s.badForm c sp ea n then .error ⟨0x301, ea, 0⟩
  else if mustAlign ∧ ea.toNat % n ≠ 0 then .error ⟨0x302, ea, 0⟩
  else if (noLocal ∧ sp = .l) ∨ s.foreignPeer c sp ea then .error ⟨0x303, ea, 0⟩
  else match sp with
  | .g => (s.pieces (s.whoStrand c k) kind false ea.toNat n).map .glob
  | _ =>
    let home := if sp = .c then crewPeer c ea else c
    .ok (.pool home (bitsOf ea 20 0) ((List.range n).filterMap fun i => s.localKey home false (bitsOf ea 20 0 + i)))

/-- The memory keys of the pool bytes or HBM bytes of an access. -/
def Place.keys : Place → List Nat
  | .pool _ _ ks => ks
  | .glob ps => ps.flatMap fun p => match p.1.loc with
    | .hbm _ key => (List.range p.1.len).map (key + ·)
    | _ => []

/-- The tier of a piece (R81): 3 stands for the device aperture. -/
def Loc.tier : Loc → Nat
  | .hbm _ _ => 0
  | .peer _ => 1
  | .host _ => 2
  | .device _ => 3

/-- The tier of an access that lies in one piece. -/
def Place.tier : Place → Nat
  | .pool _ _ _ => 0
  | .glob ps => (ps.head?.map fun p => p.1.loc.tier).getD 0

/-- Whether some byte of an access lies in tier 1 or 2. -/
def Place.outside : Place → Bool
  | .pool _ _ _ => false
  | .glob ps => ps.any fun p => p.1.loc.tier == 1 || p.1.loc.tier == 2

/-- Whether some byte lies in the device aperture. -/
def Place.touchesDevice : Place → Bool
  | .pool _ _ _ => false
  | .glob ps => ps.any fun p => match p.1.loc with
    | .device _ => true
    | _ => false

/-- The aperture offset of the first byte of an access that lies in the aperture. -/
def Place.deviceOff : Place → Nat
  | .glob ps => (ps.findSome? fun p => match p.1.loc with
    | .device off => some off
    | _ => none).getD 0
  | _ => 0

/-- The aperture offset of an access of 8 bytes that the aperture takes (R339). -/
def Place.apertureOff : Place → Option Nat
  | .glob [(p, _)] => match p.loc with
    | .device off => if p.len = 8 ∧ off % 8 = 0 then some off else none
    | _ => none
  | _ => none

/-- Why an access to a place waits: its core is frozen (R422; a cause of code 3 with no region), or a region it reaches is held (R92, R116). -/
def State.placeHeld (s : State) (c k : Nat) : Place → Option Cause
  | .pool core _ _ => if core != c && (s.core core).frozen then some ⟨3, 0, 0⟩ else none
  | .glob ps => (s.blockedAt (.words c k) (pieceRegions (ps.map (·.1)))).map fun r => ⟨3, BitVec.ofNat 64 r, 0⟩

/-- Causal stores of a strand that their home die has not applied. -/
def State.causalOpen (s : State) (c k : Nat) : List CausalStore :=
  s.dies.flatMap fun p => p.2.causal.filter fun x => x.core == c && x.slot == k && !x.data.isEmpty

/-- Whether a strand's own causal store to some of these bytes is not applied yet (R97, rule 3). -/
def State.ownCausal (s : State) (c k : Nat) (keys : List Nat) : Bool :=
  (s.causalOpen c k).any fun x => keys.any fun q => decide (x.key ≤ q) && decide (q < x.key + x.data.length)

/-- Whether an access to some bytes must wait so that the strand sees its own accesses in program order (R97, R98, R174): its own causal store there is not applied yet, or its own causal load there has not been served. -/
def State.ownOrder (s : State) (c k : Nat) (keys : List Nat) : Bool :=
  s.ownCausal c k keys
  || (s.strand c k).loads.any fun l => l.home.isSome && l.val.isNone && keys.any fun q => decide (l.key ≤ q) && decide (q < l.key + l.nbytes)

/-- The cause that reading or writing the bytes of a place inside the module meets (R423, R426). -/
def State.placeCause (s : State) (c k : Nat) (write : Bool) (full : Bool) : Place → Option Cause
  | .pool core off ks => if full then none else s.poolCause core off ks
  | .glob ps => ps.findSome? fun p => if p.1.loc.tier = 0 then s.pieceCause (s.whoStrand c k) write false p.1 else none

/-- Bytes at a place inside the module. -/
def State.readPlace (s : State) : Place → ByteList
  | .pool _ _ ks => ks.map (memByte s.mem)
  | .glob ps => ps.flatMap fun p => s.readPiece .nothing p.1

/-- Fills the TLBs that an access has used. -/
def State.usePlace (s : State) (c k : Nat) : Place → State
  | .pool _ _ _ => s
  | .glob ps => s.fillAll (s.whoStrand c k) ps

/-- Writes bytes at the keys of the pool, one by one. -/
def memSetKeys (m : Memory) : List Nat → ByteList → Memory
  | k :: ks, b :: r => memSetKeys (memSet m k b) ks r
  | _, _ => m

/-- Writes bytes at a place inside the module. -/
def State.writePlace (s : State) (c : Nat) (b : ByteList) : Place → State
  | .pool _ _ ks => { s with mem := memSetKeys s.mem ks b }.cleanWords ks
  | .glob ps => (splitOver ps b).foldl (fun t q => t.writePiece (s.whoCore c 0) false q.1 q.2) s

/-- Writes the pieces of a store that reaches outside the module (R83, R114): each piece there is a request of its own; one that finds no way out fails later (R435). -/
def State.storePieces (s : State) (c k item : Nat) (b : ByteList) : Place → State
  | .pool _ _ _ => s
  | .glob ps =>
    let w := { s.whoCore c 0 with req := .store c k item }
    (splitOver ps b).foldl (fun t q => match q.1.loc with
      | .peer a => if t.noRoute (coreDie c) then t.askNowhere w.req a (BitVec.ofNat 64 q.1.va) 1 else t.writePiece w false q.1 q.2
      | _ => t.writePiece w false q.1 q.2) s

/-- The first address outside the module that an access names. -/
def Place.outAddr : Place → Nat
  | .glob ps => (ps.findSome? fun p => match p.1.loc with
    | .peer a => some a
    | .host a => some a
    | _ => none).getD 0
  | _ => 0

/-- Issues a counted access of a strand (R102, R103): its item number is nextId. -/
def State.issueItem (s : State) (c k : Nat) (read : Bool) (span : RSpace × Nat × Nat) : State :=
  (s.onCore c fun x => x.count s.nextId (.access k read) (x.matching [span])).bumpId

/-- Whether causal accesses of a strand wait: an earlier causal load is still outside (R107). -/
def Strand.causalWaits (t : Strand) : Bool := t.loads.any fun l => l.home.isSome && l.val.isNone

/-- The home die of a place that lies in one piece inside the module. -/
def Place.homeDie : Place → Nat
  | .pool core _ _ => coreDie core
  | .glob ps => match ps.head?.map fun p => p.1.loc with
    | some (Loc.hbm dpa _) => dpa / 2 ^ 37 % 8
    | _ => 0

def Place.dpa : Place → Option Nat
  | .glob ps => match ps.head?.map fun p => p.1.loc with
    | some (Loc.hbm dpa _) => some dpa
    | _ => none
  | _ => none

/-! ## LD and ST -/

/-- The value a load writes from its bytes (R202). -/
def loadVal (n : Nat) (sgn : Bool) (b : ByteList) : Word64 :=
  if sgn then sext64 (leNat b) (8 * n) else BitVec.ofNat 64 (leNat b)

/-- Keeps a load whose value will return into its destination (R203). -/
def State.holdLoad (s : State) (c k : Nat) (l : Load) : State := s.onStrand c k fun t => { t with loads := t.loads ++ [l] }

/-- A failed access outside the module (R453): the destination receives all ones, and the strand traps at its next boundary. -/
def State.loadFailed (s : State) (c k item : Nat) (x : Cause) (place : Nat) : State :=
  s.onStrand c k fun t =>
    { t with
      loads := t.loads.map fun l => if l.item = item then { l with val := some (BitVec.allOnes 64), expect := none, pd := 0 } else l
      failed := t.failed ++ [⟨x.code, x.info, x.info1, some place⟩] }

/-- Sends the request of a load, AMO or CAS outside the module, or fails it at once for want of a route (R364, R453). The load is kept already. -/
def State.askLoad (s : State) (c k item kind n : Nat) (pl : Place) (ea : Word64) (b : ByteList) : State :=
  if pl.tier = 1 ∧ s.noRoute (coreDie c) then s.loadFailed c k item ⟨0xA04, ea, BitVec.ofNat 64 (remoteModule 1 pl.outAddr)⟩ (s.strand c k).pc.toNat
  else s.ask (.load c k item) (s.whoCore c 0).key pl.tier pl.outAddr ea kind n b

/-- Sends the requests of a load of several pieces, of which some lie outside the module (R83): the bytes of each piece are kept until all are there. -/
def State.askPieces (s : State) (c k item : Nat) (ea : Word64) : List Piece → State
  | [] => s
  | p :: r =>
    let keep := fun (t : State) (tier a : Nat) (b : ByteList) => { t with replies := t.replies ++ [((ReqFor.load c k item), (⟨tier, a, b⟩ : Reply))] }
    match p.loc with
    | .peer a =>
      if s.noRoute (coreDie c) then (s.disown (· == .load c k item)).loadFailed c k item ⟨0xA04, ea, BitVec.ofNat 64 (remoteModule 1 a)⟩ (s.strand c k).pc.toNat
      else State.askPieces (keep (s.ask (.load c k item) (s.whoCore c 0).key 1 a (BitVec.ofNat 64 p.va) 0 p.len []) 1 a []) c k item ea r
    | .host a => State.askPieces (keep (s.ask (.load c k item) (s.whoCore c 0).key 2 a (BitVec.ofNat 64 p.va) 0 p.len []) 2 a []) c k item ea r
    | _ => State.askPieces (keep s 0 p.va (s.readPiece .nothing p)) c k item ea r

/-- A load outside the module, already kept, asks for its bytes. -/
def State.askOutside (s : State) (c k item n : Nat) (ea : Word64) : Place → State
  | .glob (p :: q :: r) => s.askPieces c k item ea ((p :: q :: r).map (·.1))
  | pl => s.askLoad c k item 0 n pl ea []

/-- LD (R83, R92, R97, R202, R203, R106, R107, R407). -/
def ldEff (u : State) (c k d : Nat) (t : Strand) (sz : Size) (sp : Space) (cz sgn : Bool) (ea : Word64) : Eff :=
  let n := sizeBytes sz
  match u.placeOf c k sp ea n .read cz cz with
  | .error x => .trap x.code x.info x.info1
  | .ok pl =>
    let v := (u.usePlace c k pl).issueItem c k true (spanOf c sp ea n)
    let id := u.nextId
    if pl.touchesDevice then
      match pl.apertureOff with
      | none => .trap 0x908 (BitVec.ofNat 64 pl.deviceOff) 2
      | some off =>
        match u.apertureRead (u.whoCore c 0).priv off with
        | none => .trap 0x908 (BitVec.ofNat 64 off) 2
        | some w => .done (v.holdLoad c k ⟨id, d, some w, 0, true, n, sgn, none, 0, none, none, t.pc.toNat⟩)
    else match u.placeHeld c k pl with
    | some x => if x.info = 0 then .stay u else .trap x.code x.info x.info1
    | none =>
      if u.ownOrder c k pl.keys || (cz && !pl.outside && t.causalWaits) then .stay u
      else match u.placeCause c k false false pl with
      | some x => .trap x.code x.info x.info1
      | none =>
        if pl.outside then .done ((v.holdLoad c k ⟨id, d, none, 0, true, n, sgn, none, 0, none, none, t.pc.toNat⟩).askOutside c k id n ea pl)
        else if cz then .done (v.holdLoad c k ⟨id, d, none, 0, true, n, sgn, none, pl.keys.headD 0, some pl.homeDie, pl.dpa, t.pc.toNat⟩)
        else .done (v.holdLoad c k ⟨id, d, some (loadVal n sgn (u.readPlace pl)), 0, true, n, sgn, none, 0, none, none, t.pc.toNat⟩)

def execLd (g : Guard) (d a : Nat) (sz : Size) (sp : Space) (cz sgn : Bool) (s : State) : Host.Outcome State Fault Refusal :=
  s.coxRun false g [d, a] fun c k t u => ldEff u c k d t sz sp cz sgn (t.readS a)
def execLdLong (g : Guard) (d a : Nat) (sz : Size) (sp : Space) (cz sgn : Bool) (e : Word32) (s : State) : Host.Outcome State Fault Refusal :=
  s.coxRun true g [d, a] fun c k t u => ldEff u c k d t sz sp cz sgn (t.readS a + extVal e)

def maxClock (a b : Vector Word32 8) : Vector Word32 8 := Vector.zipWith (fun x y => if x.ult y then y else x) a b
def bumpClock (a : Vector Word32 8) (d : Nat) : Vector Word32 8 := a.setIfInBounds d ((a[d]?.getD 0) + 1)

/-- A causal store (R107): the clocks move, and every die receives it, the home die with the data. -/
def State.causalStore (s : State) (c k item : Nat) (pl : Place) (b : ByteList) : State :=
  let d := coreDie c
  let v := bumpClock (maxClock (s.die d).issue (s.strand c k).seen) d
  let x : CausalStore := ⟨d, v, c, k, item, pl.keys.headD 0, pl.dpa, (s.whoCore c 0).key, [], (s.strand c k).pc.toNat⟩
  let s1 := s.onDie d fun y => { y with issue := v }
  let s2 := s1.onStrand c k fun t => { t with seen := v }
  (List.range 8).foldl (fun u e => u.onDie e fun y => { y with causal := y.causal ++ [if e = pl.homeDie then { x with data := b } else x] }) s2

/-- ST (R83, R92, R97, R202, R203, R106, R107, R407, R453). -/
def stEff (u : State) (c k d : Nat) (t : Strand) (sz : Size) (sp : Space) (cz : Bool) (ea : Word64) : Eff :=
  let n := sizeBytes sz
  match u.placeOf c k sp ea n .write cz cz with
  | .error x => .trap x.code x.info x.info1
  | .ok pl =>
    let v := (u.usePlace c k pl).issueItem c k false (spanOf c sp ea n)
    let id := u.nextId
    let b := leBytes n (t.readS d).toNat
    if pl.touchesDevice then
      match pl.apertureOff with
      | none => .trap 0x908 (BitVec.ofNat 64 pl.deviceOff) 3
      | some off =>
        match u.apertureRead true off with
        | none => .trap 0x908 (BitVec.ofNat 64 off) 3
        | some _ => .done (v.apertureWrite (u.whoCore c 0).priv false 0 off (t.readS d))
    else match u.placeHeld c k pl with
    | some x => if x.info = 0 then .stay u else .trap x.code x.info x.info1
    | none =>
      if u.ownOrder c k pl.keys || (cz && !pl.outside && t.causalWaits) then .stay u
      else match u.placeCause c k true (decide (n = 8 ∧ ea.toNat % 8 = 0)) pl with
      | some x => .trap x.code x.info x.info1
      | none =>
        if pl.outside then .done (v.storePieces c k id b pl)
        else if cz then .done (v.causalStore c k id pl b)
        else .done (v.writePlace c b pl)

def execSt (g : Guard) (d a : Nat) (sz : Size) (sp : Space) (cz : Bool) (s : State) : Host.Outcome State Fault Refusal :=
  s.coxRun false g [d, a] fun c k t u => stEff u c k d t sz sp cz (t.readS a)
def execStLong (g : Guard) (d a : Nat) (sz : Size) (sp : Space) (cz : Bool) (e : Word32) (s : State) : Host.Outcome State Fault Refusal :=
  s.coxRun true g [d, a] fun c k t u => stEff u c k d t sz sp cz (t.readS a + extVal e)

/-! ## Atomics (R108, R206 to R209) -/

/-- f of R207 over w bits. -/
def amoFun (op : AmoOp) (w old o : Nat) : Nat :=
  let a := BitVec.ofNat w old
  let b := BitVec.ofNat w o
  (match op with
  | .add => a + b
  | .and => a &&& b
  | .or => a ||| b
  | .xor => a ^^^ b
  | .min => if a.sle b then a else b
  | .max => if b.sle a then a else b
  | .minu => if a.ule b then a else b
  | .maxu => if b.ule a then a else b
  | .swap => b).toNat

/-- The kind of the request as which an operation leaves the module (R209); 32 is CAS. -/
def amoKind : AmoOp → Nat
  | .add => 16
  | .and => 17
  | .or => 18
  | .xor => 19
  | .min => 20
  | .max => 21
  | .minu => 22
  | .maxu => 23
  | .swap => 24

/-- Whether an aligned address lies in a tier-2 page, as far as a leaf is found (R396: the operand of an atomic comes before its translation). -/
def State.onHost (s : State) (c k : Nat) (sp : Space) (ea : Word64) : Bool :=
  match sp with
  | .g => (match s.leafFor (s.whoStrand c k) ea.toNat .atomic with
    | .ok e => bitsOf e.leaf 5 4 == 2
    | .error _ => false)
  | _ => false

/-- What AMO and CAS share (R206): the location, the cause checks, the request outside the module; inside, the old value and the write. -/
def amoEff (u : State) (c k : Nat) (sp : Space) (sz : AmoSize) (ea : Word64) (toHost : Bool) (kind : Nat) (b : ByteList)
    (load : Option Word64 → Nat → Load) (new : Nat → Option Nat) : Eff :=
  let n := amoBytes sz
  if !u.badForm c sp ea n && ea.toNat % n == 0 && !toHost && u.onHost c k sp ea then .trap 0x303 ea 0
  else match u.placeOf c k sp ea n .atomic true false with
  | .error x => .trap x.code x.info x.info1
  | .ok pl =>
    let v := (u.usePlace c k pl).issueItem c k true (spanOf c sp ea n)
    let id := u.nextId
    if pl.touchesDevice then .trap 0x908 (BitVec.ofNat 64 pl.deviceOff) 3
    else match u.placeHeld c k pl with
    | some x => if x.info = 0 then .stay u else .trap x.code x.info x.info1
    | none =>
      if u.ownOrder c k pl.keys then .stay u
      else match u.placeCause c k true false pl with
      | some x => .trap x.code x.info x.info1
      | none =>
        if pl.outside then .done ((v.holdLoad c k (load none id)).askLoad c k id kind n pl ea b)
        else
          let old := leNat (u.readPlace pl)
          let w := v.holdLoad c k (load (some (BitVec.ofNat 64 old)) id)
          match new old with
          | some m => .done (w.writePlace c (leBytes n m) pl)
          | none => .done w

/-- AMO (R206, R207). -/
def execAmo (g : Guard) (d a b : Nat) (op : AmoOp) (sp : Space) (sz : AmoSize) (_sc : Scope) (s : State) : Host.Outcome State Fault Refusal :=
  s.coxRun true g [d, a, b] fun c k t u =>
    let o := (t.readS b).toNat % 2 ^ (8 * amoBytes sz)
    amoEff u c k sp sz (t.readS a) (op == .add || op == .swap) (amoKind op) (leBytes (amoBytes sz) o)
      (fun v id => ⟨id, d, v, 0, true, amoBytes sz, false, none, 0, none, none, t.pc.toNat⟩)
      fun old => some (amoFun op (8 * amoBytes sz) old o)

/-- CAS (R206, R208): a failure writes nothing. -/
def execCas (g : Guard) (d a b : Nat) (sp : Space) (sz : AmoSize) (_sc : Scope) (pd : Nat) (s : State) : Host.Outcome State Fault Refusal :=
  s.coxRun true g [d, a, b, 64 + pd] fun c k t u =>
    let n := amoBytes sz
    let want := (t.readS d).toNat % 2 ^ (8 * n)
    amoEff u c k sp sz (t.readS a) true 32 (leBytes n want ++ leBytes n (t.readS b).toNat)
      (fun v id => match v with
        | some w => ⟨id, d, some w, pd, decide (w.toNat = want), n, false, none, 0, none, none, t.pc.toNat⟩
        | none => ⟨id, d, none, pd, false, n, false, some (BitVec.ofNat 64 want), 0, none, none, t.pc.toNat⟩)
      fun old => if old = want then some ((t.readS b).toNat % 2 ^ (8 * n)) else none

/-! ## The scratch cache (R93 to R95, R204, R205) -/

/-- Fields of STTCFG (R93). -/
def sttBlock (v : Word64) : Nat := 4096 * 2 ^ bitsOf v 2 0
def sttSlots (v : Word64) : Nat := bitsOf v 13 3
def sttChan (v : Word64) : Nat := bitsOf v 16 14
def sttDc (v : Word64) : Nat := bitsOf v 25 17
def sttBase (v : Word64) : Nat := bitsOf v 46 26

def Tag.reset : Tag := ⟨0, .invalid, 0, 0⟩
def Core.tagAt (x : Core) (n : Nat) : Tag := tabGet Tag.reset x.tags n
def Core.setTag (x : Core) (n : Nat) (t : Tag) : Core := { x with tags := tabPut x.tags n t }

/-- The slot whose tag holds a block. -/
def Core.tagOf (x : Core) (blk : Nat) : Option Nat :=
  (List.range (sttSlots x.sttcfg)).find? fun n => (x.tagAt n).st != .invalid && (x.tagAt n).block == blk

/-- The slot a fill takes (R94, step 5): the lowest invalid one, else the valid unpinned one least recently used. -/
def Core.victim (x : Core) : Option Nat :=
  let l := List.range (sttSlots x.sttcfg)
  match l.find? fun n => (x.tagAt n).st == .invalid with
  | some n => some n
  | none =>
    (l.filter fun n => (x.tagAt n).st == .valid && (x.tagAt n).pins == 0).foldl
      (fun b n => match b with
        | some m => if (x.tagAt n).stamp < (x.tagAt m).stamp then some n else b
        | none => some n) none

/-- A handle-0 region descriptor (R121). -/
def flatRegion (mode base len space : Nat) : ByteList := leBytes 16 (mode * 2 ^ 12 + base * 2 ^ 16 + len * 2 ^ 80 + space * 2 ^ 116)

/-- The template that stands for a fill in its channel entry (R94, R333): one copy of the block to the slot, which decrements DC. -/
def fillTemplate (blk slotOff len dc : Nat) : ByteList :=
  leBytes 4 0 ++ leBytes 2 (dc + 2 ^ 15) ++ leBytes 2 0 ++ flatRegion 1 blk len 1 ++ flatRegion 2 slotOff len 0 ++ leBytes 24 0

/-- A dependence counter (R137). -/
def Core.dc (x : Core) (n : Nat) : Nat := tabGet 0 x.dcs n

/-- A strand that holds in DCWAIT on counter n has seen it at zero (R226): generation 1 of its hold tells so. -/
def Strand.sawZero (t : Strand) (n : Nat) : Strand :=
  { t with hold := t.hold.map fun (h : Hold) => match h.instr with
    | .dcwait _ m => if m = n then { h with gen := 1 } else h
    | _ => h }

/-- The value of a counter at the end of a cycle is zero: every record that waits on it is satisfied, and so is every DCWAIT (R133, R137, R226). -/
def Core.zeroSeen (x : Core) (n : Nat) : Core :=
  { x with
    strands := x.strands.map (·.sawZero n)
    window := x.window.map fun p =>
      (p.1, if field p.2.bytes 6 2 / 2 ^ 15 = 1 ∧ field p.2.bytes 6 2 % 2 ^ 9 = n then { p.2 with wcOk := true } else p.2) }

/-- Gives a counter its value at the end of a cycle (R133, R137). -/
def Core.setDc (x : Core) (n v : Nat) : Core :=
  let y := { x with dcs := tabPut x.dcs n v }
  if v = 0 then y.zeroSeen n else y

/-- Notes an update of a counter in a cycle that units share (R227). -/
def Core.noteDc (x : Core) (n : Nat) (k : DcKind) : Core := { x with dcNow := x.dcNow ++ [⟨n, x.dc n, k⟩] }

/-- Copy entries of a channel. -/
def Core.chan (x : Core) (n : Nat) : List ChanEntry := x.chans[n]?.getD []
def Core.setChan (x : Core) (n : Nat) (l : List ChanEntry) : Core := { x with chans := x.chans.setIfInBounds n l }
def Core.pushChan (x : Core) (n : Nat) (e : ChanEntry) : Core := x.setChan n (x.chan n ++ [e])

/-- Local offset of slot n of the scratch cache. -/
def Core.slotOff (x : Core) (n : Nat) : Nat := x.spBase + sttBase x.sttcfg + n * sttBlock x.sttcfg

/-- Pins a slot again and notes its use (R94, steps 1 and 2). -/
def Core.pinTag (x : Core) (n : Nat) : Core :=
  { x.setTag n { x.tagAt n with pins := (x.tagAt n).pins + 1, stamp := x.stampNext } with stampNext := x.stampNext + 1 }

/-- Step 5 of R94; id is the counted item of the fill, shared tells of a cycle that units share (R227). DESIGN CHOICE (log 83): a counter at 2^20 - 1 becomes 2^20; R226 and R408 bound the results of DCSET and DCADD only. -/
def Core.startFill (x : Core) (shared : Bool) (n blk id : Nat) : Core :=
  let v := x.sttcfg
  let e : ChanEntry := ⟨id, fillTemplate blk (x.slotOff n) (sttBlock v) (sttDc v), 0, .fill n, false, false, [], []⟩
  let y := { x.setTag n ⟨blk, .filling, 1, x.stampNext⟩ with stampNext := x.stampNext + 1 }
  ((if shared then y.noteDc (sttDc v) .fill else y.setDc (sttDc v) (y.dc (sttDc v) + 1)).pushChan (sttChan v) e).count id (.copy id)
    (y.matching [(.g, blk, blk + sttBlock v), (.l, x.slotOff n, x.slotOff n + sttBlock v)])

/-- PROBE (R94, R204, R407). off is the branch offset in words. -/
def probeEff (u : State) (c k d : Nat) (t : Strand) (i : Instr) (va off : Word64) : Eff :=
  let x := u.core c
  let v := x.sttcfg
  let blk := va.toNat / sttBlock v * sttBlock v
  let hit := fun (n : Nat) => (u.setCore c (x.pinTag n)).onStrand c k fun y => y.writeS d (BitVec.ofNat 64 (x.slotOff n))
  let branch := fun (w : State) => Eff.jump w (t.pc + 4 * off)
  if sttSlots v = 0 then .trap 0x30E va 0
  else match x.tagOf blk with
  | some n =>
    if (x.tagAt n).pins ≥ 255 then .trap 0x30E va 0
    else if (x.tagAt n).st = .valid then .done (hit n) else branch (hit n)
  | none =>
    if x.sttPend.isSome ∨ (x.chan (sttChan v)).length ≥ 128 then .wait u ⟨i, [], 0, none, []⟩
    else match x.victim with
    | none => .wait u ⟨i, [], 0, none, []⟩
    | some n =>
      branch (((u.setCore c (x.startFill u.shared n blk u.nextId)).bumpId).onStrand c k fun y => y.writeS d (BitVec.ofNat 64 (x.slotOff n)))

def execProbe (g : Guard) (d a : Nat) (off : Imm6) (s : State) : Host.Outcome State Fault Refusal :=
  s.coxRun false g [d, a] fun c k t u => probeEff u c k d t (.probe g d a off) (t.readS a) (off.signExtend 64)
def execProbeLong (g : Guard) (d a : Nat) (e : Word32) (s : State) : Host.Outcome State Fault Refusal :=
  s.coxRun true g [d, a] fun c k t u => probeEff u c k d t (.probeLong g d a e) (t.readS a) (extVal e)

/-- UNPIN (R205, R407). -/
def execUnpin (g : Guard) (a : Nat) (s : State) : Host.Outcome State Fault Refusal :=
  s.coxRun false g [a] fun c _ t u =>
    let x := u.core c
    let va := t.readS a
    match x.tagOf (va.toNat / sttBlock x.sttcfg * sttBlock x.sttcfg) with
    | none => .trap 0x30E va 0
    | some n =>
      if (x.tagAt n).pins = 0 then .trap 0x30E va 0
      else .done (u.setCore c (x.setTag n { x.tagAt n with pins := (x.tagAt n).pins - 1 }))

/-! ## Fences and tracking (R101 to R105, R210 to R214) -/

/-- Reads of a strand that are still counted. -/
def Core.readsOf (x : Core) (k : Nat) : List Nat :=
  (x.items.filter fun i => i.kind == .access k true).map (·.id)

/-- Whether every item of a waited set is performed at a scope (R101). -/
def Core.allAt (x : Core) (ids : List Nat) (sc : Scope) : Bool :=
  x.items.all fun i => !ids.contains i.id || i.atScope sc

/-- Writes of a core to tier 2 that no later read has pushed yet, as pairs of request number and address, of the items that meet a test (R114). -/
def State.hostWrites (s : State) (c : Nat) (f : Nat → Nat → Bool) : List (Nat × Nat) :=
  (s.requests.filterMap fun r => match r.whose with
    | .store d k i => if d = c ∧ r.tier = 2 ∧ f k i then some (r.id, r.addr) else none
    | _ => none)
  ++ s.posted.filterMap fun p => if p.core = c ∧ f p.slot p.item then some (p.id, p.addr) else none

/-- Issues the read to the same PCIe function that pushes some tier-2 writes of a core, unless a later one of the strand is outstanding (R114; log 84). -/
def State.pushWrites (s : State) (c k : Nat) (f : Nat → Nat → Bool) : State :=
  match s.hostWrites c f with
  | [] => s
  | q :: r =>
    if s.requests.any fun x => x.whose == .flush c k && (q :: r).all fun w => decide (w.1 < x.id) then s
    else s.ask (.flush c k) (s.whoCore c 0).key 2 (q.2 / 8 * 8) (BitVec.ofNat 64 (q.2 / 8 * 8)) 0 8 []

/-- Holds a strand until a set of items is performed at a scope; the set is taken when the fence issues. At package scope or wider the fence issues the read that pushes the tier-2 writes of its set (R114). -/
def fenceEff (u : State) (c k : Nat) (t : Strand) (i : Instr) (sc : Scope) (ids : List Nat) : Eff :=
  let l := match t.hold with
    | some h => h.ids
    | none => ids
  if (u.core c).allAt l sc then .done u
  else .wait (if scopeNum sc ≥ 4 then u.pushWrites c k fun _ i => l.contains i else u) ⟨i, l, 0, none, []⟩

/-- FENCE (R101, R210). -/
def execFence (g : Guard) (sc : Scope) (s : State) : Host.Outcome State Fault Refusal :=
  s.coxRun false g [] fun c k t u => fenceEff u c k t (.fence g sc) sc ((u.core c).items.map (·.id))

/-- A range as named (R103, R211): its handle, space and interval, or the cause of R407. -/
def rangeOf (x : Core) (t : Strand) : RangeRef → Except Cause Range
  | .handle h =>
    match x.handle h with
    | none => .error ⟨0x304, BitVec.ofNat 64 h, 0⟩
    | some y =>
      match y.space with
      | 0 => .ok ⟨h, .l, x.spBase + y.base, x.spBase + y.base + y.footlen⟩
      | 1 => .ok ⟨h, .g, y.base, y.base + y.footlen⟩
      | _ => .ok ⟨h, .w, y.base, y.base + y.footlen⟩
  | .regs n sp =>
    let lo := t.readS n
    let hi := t.readS (n + 1)
    if hi.toNat ≤ lo.toNat then .error ⟨0x305, lo, hi⟩
    else .ok ⟨0, match sp with
      | .l => .l
      | .c => .c
      | .g => .g, lo.toNat, hi.toNat⟩

/-- Registers that ranges read. -/
def rangeUses : List RangeRef → List Nat
  | [] => []
  | .handle _ :: r => rangeUses r
  | .regs n _ :: r => n :: (n + 1) :: rangeUses r

/-- The ranges of a FENCE.R, or the lowest cause among them (R396). -/
def rangesOf (x : Core) (t : Strand) (rs : List RangeRef) : Except Cause (List Range) :=
  let l := rs.map (rangeOf x t)
  let bad := l.filterMap fun r => match r with
    | .error c => some c
    | .ok _ => none
  match (bad.find? fun c => c.code == 0x304).or bad.head? with
  | some c => .error c
  | none => .ok (l.filterMap fun r => r.toOption)

/-- The tracking slots bound to a range (R105, R212): to the same handle, or to the same space, base and limit. -/
def Core.slotsFor (x : Core) (r : Range) : List Nat :=
  (x.track.filter fun p => (r.handle != 0 && p.2.handle == r.handle) || (p.2.space == r.space && p.2.lo == r.lo && p.2.hi == r.hi)).map (·.1)

/-- The waited set of a FENCE.R (R104, R105): with every range bound, the strand's reads and what each of their slots counts or holds as residue. -/
def Core.rangeSet (x : Core) (k : Nat) (rs : List Range) : List Nat :=
  if rs.any fun r => (x.slotsFor r).isEmpty then x.items.map (·.id)
  else
    let slots := rs.flatMap x.slotsFor
    x.readsOf k ++ ((x.items.filter fun i => slots.any fun n => i.trk.getLsbD n || i.res.getLsbD n).map (·.id))

/-- FENCE.R (R105, R212). -/
def execFenceR (g : Guard) (sc : Scope) (rs : RangeList) (s : State) : Host.Outcome State Fault Refusal :=
  s.coxRun true g (rangeUses rs) fun c k t u =>
    match t.hold with
    | some _ => fenceEff u c k t (.fenceR g sc rs) sc []
    | none =>
      match rangesOf (u.core c) t rs with
      | .error x => .trap x.code x.info x.info1
      | .ok l => fenceEff u c k t (.fenceR g sc rs) sc ((u.core c).rangeSet k l)

/-- Takes a slot out of the counts and residues of every item. -/
def Core.forgetSlot (x : Core) (n : Nat) : Core :=
  let m := ~~~(BitVec.ofNat 32 (2 ^ n))
  { x with items := x.items.map fun i => { i with trk := i.trk &&& m, res := i.res &&& m } }

/-- Binds a slot (R103, R104): what is counted now is its residue. -/
def Core.bindSlot (x : Core) (n : Nat) (r : Range) : Core :=
  let y := x.forgetSlot n
  { y with track := tabPut y.track n r, items := y.items.map fun i => { i with res := i.res ||| BitVec.ofNat 32 (2 ^ n) } }

/-- TRACK (R103, R104, R213, R407). -/
def execTrack (g : Guard) (slot : Nat) (r : RangeRef) (s : State) : Host.Outcome State Fault Refusal :=
  s.coxRun true g (rangeUses [r]) fun c _ t u =>
    match rangeOf (u.core c) t r with
    | .error x => .trap x.code x.info x.info1
    | .ok l =>
      if (tabFind (u.core c).track slot).isSome then .trap 0x306 (BitVec.ofNat 64 slot) 0
      else .done (u.setCore c ((u.core c).bindSlot slot l))

/-- UNTRACK (R105, R214). -/
def execUntrack (g : Guard) (slot : Nat) (s : State) : Host.Outcome State Fault Refusal :=
  s.coxRun false g [] fun c _ _ u =>
    .done (u.onCore c fun x => { (x.forgetSlot slot) with track := tabDel x.track slot })

/-! ## PUB (R116, R117, R215) -/

/-- Logical pages of the scratchpad part that an interval touches and that have a shadow of their own. -/
def Core.shadowPages (x : Core) (lo hi : Nat) : List Nat :=
  (x.spm.filter fun p => p.2.v && p.2.shv && !p.2.ren
    && decide (lo < x.spBase + (p.1 + 1) * 8192) && decide (x.spBase + p.1 * 8192 < hi)
    && decide (x.spBase + p.1 * 8192 < x.acBase)).map (·.1)

/-- Whether an interval reaches a page of tier 1 or 2, as far as leaves are found (R396: this comes before causes of translation). -/
def State.leavesTier0 (s : State) (w : Who) (kind : AKind) (lo n : Nat) : Bool :=
  (blocksOf lo n).any fun b => match s.leafFor w b.1 kind with
    | .ok e => bitsOf e.leaf 5 4 != 0
    | .error _ => false

/-- Regions with a shadow that the pages of an interval translate to, as pairs of die and LRI, or the cause met (R215, R407). -/
def State.shadowRegions (s : State) (w : Who) (lo hi : Nat) : Except Cause (List (Nat × Nat)) :=
  if s.leavesTier0 w .read lo (hi - lo) then .error ⟨0x303, BitVec.ofNat 64 lo, 0⟩
  else match s.pieces w .read false lo (hi - lo) with
  | .error x => .error x
  | .ok ps => .ok ((pieceRegions (ps.map (·.1))).eraseDups.filter fun q => (s.rit q.1 q.2).shv)

/-- Asks for an HBM publish on every die that holds regions of a set. -/
def State.askRegions (s : State) (id : Nat) (entry : Option Nat) (l : List (Nat × Nat)) : State :=
  (List.range 8).foldl (fun t d =>
    let r := (l.filter fun q => q.1 == d).map (·.2)
    if r.isEmpty then t else t.onDie d fun y => { y with pubHeld := y.pubHeld ++ [⟨id, r, entry⟩] }) s

/-- Whether a publish asked for has not taken effect yet. -/
def State.pubOpen (s : State) (id : Nat) : Bool :=
  s.cores.any (fun p => p.2.pubs.any fun q => q.id == id) || s.dies.any (fun p => p.2.pubHeld.any fun q => q.id == id)

/-- PUB (R215): asks for its publish and holds until that has taken effect. -/
def execPub (g : Guard) (r : RangeRef) (s : State) : Host.Outcome State Fault Refusal :=
  s.coxRun true g (rangeUses [r]) fun c k t u =>
    match t.hold with
    | some h => if h.ids.any u.pubOpen then .wait u h else .done u
    | none =>
      match rangeOf (u.core c) t r with
      | .error x => .trap x.code x.info x.info1
      | .ok l =>
        let hold : Hold := ⟨.pub g r, [u.nextId], 0, none, []⟩
        let ask := fun (p : Nat) (pages : List Nat) =>
          if pages.isEmpty then Eff.done u
          else .wait ((u.onCore p fun x => { x with pubs := x.pubs ++ [⟨u.nextId, pages, none⟩] }).bumpId) hold
        match l.space with
        | .w => .trap 0x303 (BitVec.ofNat 64 l.lo) 0
        | .l => ask c ((u.core c).shadowPages l.lo l.hi)
        | .c =>
          let p := coreCrew c * 64 + l.lo / 2 ^ 21 % 64
          if (u.core p).part = (u.core c).part then
            ask p ((u.core p).shadowPages (l.lo % 2 ^ 21) (l.lo % 2 ^ 21 + (l.hi - l.lo)))
          else .done u
        | .g =>
          if l.hi > 2 ^ 57 then .trap 0x301 (BitVec.ofNat 64 l.lo) 0
          else match u.shadowRegions (u.whoStrand c k) l.lo l.hi with
          | .error x => .trap x.code x.info x.info1
          | .ok q => if q.isEmpty then .done u else .wait (u.askRegions u.nextId none q).bumpId hold

end Sys2Proof.Machine
end

