-- ==== Sys2Proof/Machine/Fetch.lean ====
section
/-! DEFINITION. Fetching: time, whose turn it is, the word a unit fetches and the instruction it stands for, and placing a word for the next step (R48, R160, R190, R270, R299; logs 1, 2, 16). -/
namespace Sys2Proof.Machine

/-- A core whose activity was set since the last step has been quiet from now on (R428). -/
def Core.quieten (x : Core) (tick : Nat) : Core := if x.fresh then { x with fresh := false, quiet := tick } else x

/-- How far the counter goes in n ticks when it counts one of every two for the next lag ticks (R367). -/
def ticksCounted (n lag : Nat) : Nat := (lag + 1) / 2 - (lag - min n lag + 1) / 2 + (n - min n lag)

/-- A step within a cycle that units share (R227): no time passes. -/
def State.sameCycle (s : State) : State := { s with steps := s.steps + 1, cores := s.cores.map fun p => (p.1, p.2.quieten s.tick.toNat) }

/-- Time passes (R171, R367; log 1): every core's own counter may run ahead of the common one. A tick counter that was ahead at a relock counts one tick of two until it agrees; LOCK then returns. -/
def State.passTime (s : State) : State :=
  let n := Config.ticks s.steps
  { s with
    steps := s.steps + 1
    cycle := s.cycle + BitVec.ofNat 64 (1 + Config.elapsed s.steps)
    tick := s.tick + BitVec.ofNat 64 (ticksCounted n s.tickLag)
    tickLag := s.tickLag - n
    tsync := if s.tickLag ≠ 0 ∧ s.tickLag ≤ n then s.tsync ||| 2 else s.tsync
    cores := s.cores.map fun p => (p.1, { p.2.quieten s.tick.toNat with lead := p.2.lead + BitVec.ofNat 64 (Config.lead s.steps p.1) }) }

/-- Whether a core of a running part may move. -/
def State.coreLive (s : State) (c : Nat) : Bool :=
  !(s.core c).frozen && ((s.core c).part.map fun p => (s.part p).phase == .running) == some true

/-- A hold that a save lets run to its end (R200, R324): SYS, POSTT, POSTR and EXIT. -/
def Strand.finishing (t : Strand) : Bool :=
  match t.hold with
  | some h => (match h.instr with
    | .sys _ _ _ _ => true
    | .postt _ _ _ _ _ _ => true
    | .postr _ _ _ _ _ _ _ => true
    | .exit _ => true
    | _ => false)
  | none => false

/-- Whether a save of a core's part is being stopped, and whether its decision was taken in this cycle, which units share (R322). -/
def State.savingCore (s : State) (c : Nat) : Bool := ((s.core c).part.map fun p => (s.part p).phase == .saving) == some true
def State.decidingCore (s : State) (c : Nat) : Bool := s.shared && s.savingCore c && (s.corePart c).savedCycle == s.cycle.toNat

/-- A strand that may issue (R48): it runs, in a running part, on a core that is not frozen; during a save an instruction that must complete goes on, and in the decision cycle itself every strand may still issue (R322). -/
def State.strandReady (s : State) (c k : Nat) : Bool :=
  (s.strand c k).status == .runnable
  && (s.coreLive c || (!(s.core c).frozen && s.savingCore c && ((s.strand c k).finishing || s.decidingCore c)))

/-- A running kernel moves while its part runs, and during a save until no latch is armed (R275, R324). -/
def State.kernelReady (s : State) (c : Nat) : Bool :=
  match (s.core c).kernel with
  | some x => !x.held && !(s.core c).frozen
      && (s.coreLive c || x.latches.any fun l => l.armed)
  | none => false

def State.contextReady (s : State) (m x : Nat) : Bool :=
  match s.ctx m x with
  | some t => !t.held && !t.stopping && !s.frozenMse.contains m && (s.part t.part).phase == .running
  | none => false

/-- The strand whose turn it is; a held instruction is no activity, and one that does not issue takes its activity back (R428). -/
def State.takeTurn (s : State) (c k : Nat) : State :=
  { s.onCore c (fun x => { x with
      lastSlot := k, wasActive := x.active, wasFresh := x.fresh
      active := x.active || (x.strand k).hold.isNone, fresh := x.fresh || (x.strand k).hold.isNone }) with turn := .strand c k }

/-- Reads an instruction word of 4 bytes at an address (R81, R190, R396). -/
def State.fetchWord (s : State) (w : Who) (pc : Word64) : Except Cause (Nat × State) :=
  if bitsOf pc 63 57 ≠ 0 then .error ⟨0x301, pc, 0⟩
  else if bitsOf pc 1 0 ≠ 0 then .error ⟨0x302, pc, 0⟩
  else (s.readG w .fetch pc.toNat 4).map fun r => (leNat r.1, r.2)

/-- Whether a held instruction is completed, or kept as holding, by a stop of its strand (R200); the others are executed again. -/
def Hold.kept (h : Hold) : Bool :=
  match h.instr with
  | .tbar _ _ => true
  | .pub _ _ => true
  | .postt _ _ _ _ _ _ => true
  | .postr _ _ _ _ _ _ _ => true
  | .sys _ _ _ _ => true
  | _ => false

/-- A fetch that meets a cause is an instruction of its own; one that is held has asked for what it waits for (R83, R92, R347). -/
def State.fetchStop (s : State) (w : Who) (x : Cause) : Instr × State :=
  (.instructionFetchFault x.code x.info, if x.waits then s.await w x else s)

/-- What a strand executes: the instruction it holds, or the one its words stand for; an illegal word, a fault of the fetch, and a failed access whose trap is due at this boundary, are instructions of their own (R160, R190, R406, R453). -/
def fetchStrand (s : State) (c k : Nat) : Instr × State :=
  let t := s.strand c k
  match t.hold with
  | some h =>
    match t.failed with
    | f :: _ => if f.place.isSome && !h.kept then (.instructionFetchFault f.cause f.info, s) else (h.instr, s)
    | [] => (h.instr, s)
  | none =>
    match t.failed with
    | f :: _ => (.instructionFetchFault f.cause f.info, s)
    | [] =>
    match s.fetchWord (s.whoStrand c k) t.pc with
    | .error x => s.fetchStop (s.whoStrand c k) x
    | .ok (w, s1) =>
      match decodeCox w with
      | .illegal => (.illegalCoxWord (BitVec.ofNat 32 w) 0, s1)
      | .one i => (i, s1)
      | .two f =>
        match s1.fetchWord (s1.whoStrand c k) (t.pc + 4) with
        | .error x => s1.fetchStop (s1.whoStrand c k) x
        | .ok (e, s2) =>
          match f e with
          | some i => (i, s2)
          | none => (.illegalCoxWord (BitVec.ofNat 32 w) (BitVec.ofNat 32 e), s2)

/-- Who a kernel strand is: its requests are its task's. -/
def State.whoKernel (s : State) (c : Nat) (x : Kernel) : Who := { s.whoCore c 1 with req := .task c x.entry }

/-- What a kernel strand executes (R162, R270). -/
def fetchKernel (s : State) (c : Nat) : Instr × State :=
  match (s.core c).kernel with
  | none => (.vnop, s)
  | some x =>
    match s.fetchWord (s.whoKernel c x) x.next with
    | .error e => s.fetchStop (s.whoKernel c x) e
    | .ok (w, s1) =>
      match decodeVector w with
      | some i => (i, s1)
      | none => (.illegalVectorWord (BitVec.ofNat 32 w), s1)

/-- The program a context runs (R41). -/
def State.progOf (s : State) (t : Ctx) : Option Prog := (s.part t.part).progs[t.prog]?

/-- Stops a unit without a handler with a cause (R321, R397, R417): the error record is written, and the unit stays stopped until its trap is resolved; under TRIAGE a translation cause or DEVAPER holds it (R446). sub and place are SUB and WHERE of the record. -/
def State.unitFault (s : State) (u : UnitRef) (x : Cause) (unit loc sub place : Nat) (origin : Option (Nat × Nat)) : State :=
  let held := s.triage && (x.code / 256 == 6 || x.code == 0x908)
  let s := s.meetRefusal x.code x.info1
  let seq := s.errseq.toNat
  let s1 := s.errorRecord ⟨x.code, if held then 0 else 1, unit, loc, sub, false, origin, place, x.info, x.info1, 0⟩
  { s1 with traps := s1.traps ++ [⟨seq, u, x.code, x.info, held, s.fw.switching⟩] }

/-- Who an access context is (R82, R397). -/
def State.whoCtx (s : State) (m x : Nat) (t : Ctx) : Who :=
  let p := s.part t.part
  ⟨none, some m, p.ptroot.toNat, p.key, 5, p.priv, .context m x⟩

/-- Stops a context at its word (R164, R413); one whose access is held only waits. -/
def State.ctxFault (s : State) (m x : Nat) (cause : Cause) : State :=
  match s.ctx m x with
  | none => s
  | some t =>
    let p := s.part t.part
    if cause.waits then (s.setCtx m x { t with waits := true }).await (s.whoCtx m x t) cause else
    (s.setCtx m x { t with held := true }).unitFault (.ctx m x) cause 5 m x t.apc (some (p.queue, p.key))

/-- Stops a kernel strand at the boundary before its word (R162, R275, R412); one whose access is held only waits. -/
def State.kernelFault (s : State) (c : Nat) (cause : Cause) : State :=
  match (s.core c).kernel with
  | none => s
  | some x =>
    let p := s.corePart c
    if cause.waits then s.await (s.whoKernel c x) cause else
    (s.onCore c fun y => { y with kernel := some { x with held := true } }).unitFault (.kernel c) cause 1 c 0 x.next.toNat (some (p.queue, p.key))

/-- What a context executes; an APC past its program's last word stops it (R413). -/
def fetchContext (s : State) (m x : Nat) : Option Instr × State :=
  match s.ctx m x with
  | none => (none, s)
  | some t =>
    match s.progOf t with
    | none => (none, s)
    | some p =>
      if 4 * t.apc ≥ p.len then (none, s.ctxFault m x ⟨0x314, BitVec.ofNat 64 t.apc, 0⟩)
      else
        let w := leNat (memList s.mem (mseKey m (p.base + 4 * t.apc)) 4)
        match decodeAccess w with
        | some i => (some i, s)
        | none => (some (.illegalAccessWord (BitVec.ofNat 32 w)), s)

/-! ## The scheduler (log 2) -/

/-- The slot that issues next on a core: round-robin after the last one (R48). -/
def State.nextSlot (s : State) (c : Nat) : Option Nat :=
  ((List.range 4).map fun i => ((s.core c).lastSlot + 1 + i) % 4).find? fun k => s.strandReady c k

/-- The context of an MSE whose turn it is: round-robin after the last one; one whose word holds passes its turn on (R300). -/
def State.nextCtx (s : State) (m : Nat) : Option Nat :=
  ((List.range 8).map fun i => (tabGet 7 s.lastCtx m + 1 + i) % 8).find? fun x => s.contextReady m x

/-- The context whose turn it is. -/
def State.takeCtx (s : State) (m x : Nat) : State := { s with turn := .context m x, lastCtx := tabPut s.lastCtx m x }

/-- The moves that the words of the module's units allow. -/
def State.unitMoves (s : State) : List Move :=
  (s.cores.map fun p => (match s.nextSlot p.1 with
    | some k => [Move.strand p.1 k]
    | none => []) ++ (if s.kernelReady p.1 then [Move.kernel p.1] else [])).flatten
  ++ (s.ctxs.map fun p => if s.nextCtx (p.1 / 8) = some (p.1 % 8) then [Move.context (p.1 / 8) (p.1 % 8)] else []).flatten

/-- The task operation that runs a window entry, by its operation code (R165); the operations of copy channels run there. -/
def taskMove (c n oper : Nat) : Option Instr :=
  match oper with
  | 0x01 => some (.wld c n)
  | 0x02 => some (.mm c n)
  | 0x03 => some (.mmc c n)
  | 0x04 => some (.topk c n)
  | 0x05 => some (.perm c n)
  | 0x06 => some (.rsum c n)
  | 0x07 => some (.trn c n)
  | 0x08 => some (.mmz c n)
  | 0x30 => some (.xp c n)
  | _ => none

/-- The moves of the engines of a core: release, engine step, completion, box rows, returning loads, accesses performed. -/
def State.engineMoves (s : State) (c : Nat) : List Move :=
  let x := s.core c
  if x.frozen || x.part.isNone then []
  else
    ((x.strands.toList.zipIdx.filter fun p => p.1.loads.any fun l => l.val.isSome).map fun p => Move.event (.loadReturn c p.2))
    ++ (x.items.filterMap fun i => match i.kind with
      | .access _ _ => some (Move.event (.accessPerformed c i.id .gang))
      | _ => none)
    ++ (if x.ingress.isEmpty then [] else [Move.event (.ingressAdmission c)])
    ++ (if x.window.isEmpty then [] else (List.range 4).map fun k => Move.event (.taskRelease c k))
    ++ (if x.staged.isNone then (x.window.filter fun p => p.2.st == .staged && field p.2.bytes 0 1 % 4 == 1).map (fun p => Move.event (.vk c p.1)) else [])
    ++ (if x.kernel.isNone && x.staged.isSome then [Move.event (.vectorKernelStart c)] else [])
    ++ ((x.window.filter fun p => p.2.st == .running || p.2.st == .staged).filterMap fun p => (taskMove c p.1 (field p.2.bytes 1 1)).map Move.event)
    ++ ((x.window.filter fun p => p.2.st == .done).map fun p => Move.event (.taskCompletion c p.1))
    ++ (if x.pubs.isEmpty then [] else [Move.event (.scratchpadPublish c)])
    ++ (x.retiring.map fun f => Move.event (.frameReturn c f))
    ++ (if x.sttPend.isSome then [Move.event (.sttcfgApply c)] else [])
    ++ ((List.range 8).filter fun n => !((x.chans[n]?.getD []).isEmpty)).flatMap fun n =>
        [Move.event (.copyBoxRow c n), Move.event (.copyCompletion c n)]

/-- The publishes that dies have been asked for. -/
def State.dieMoves (s : State) : List Move := (s.dies.filter fun p => !p.2.pubHeld.isEmpty).map fun p => Move.event (.hbmPublish p.1)

/-- What access contexts leave to be done: pushes to land, ends. -/
def State.streamMoves (s : State) : List Move :=
  s.ctxs.flatMap fun p =>
    (if p.2.pushes.isEmpty then [] else [Move.event (.pushLand (p.1 / 8) (p.1 % 8))])
    ++ (if p.2.stopping then [Move.event (.contextEnd (p.1 / 8) (p.1 % 8))] else [])

/-- The move that a step makes when the agenda names none: one of those that the units and engines allow, taken in turn. -/
def State.freeMove (s : State) : Move :=
  let l := s.unitMoves ++ s.cores.flatMap (fun p => s.engineMoves p.1) ++ s.streamMoves ++ s.dieMoves
  l.getD (s.steps % (l.length + (if l = [] then 1 else 0))) (.event (.nopPacket 0 0))

/-- The next move, whether it ends its cycle, and the agenda without it: the agenda's first, or, with an empty agenda, a free one. The moves of one entry share a cycle. -/
def State.nextMove (s : State) : Move × Bool × State :=
  match s.agenda with
  | [] => (s.freeMove, true, s)
  | [] :: r => (s.freeMove, true, { s with agenda := r })
  | [m] :: r => (m, true, { s with agenda := r })
  | (m :: l) :: r => (m, false, { s with agenda := l :: r, shared := true })

/-! ## Placing a word (log 16) -/

/-- A launch part on core 0 whose tables map the word's page. -/
def placedPart : Part :=
  { Part.none with phase := .running, cores := [0], levels := [⟨5, 5, 1⟩], ptroot := 0 }

/-- A translation of the 64 KiB page at 64 KiB that allows fetches and writes. -/
def placedTlb : TlbEntry := ⟨0, 65536, 65536, 0x1000F#64⟩

/-- A running part on core 0 with a translation cached, and the bytes of a word in HBM. -/
def State.placeCode (s : State) (w n : Nat) : State :=
  let c : Core := { s.core 0 with part := some 0, tlb := [placedTlb], handles := [⟨0, 0, 0, 0, [], [], 0⟩] }
  { (s.setPart 0 placedPart).setCore 0 c with mem := memSetList s.mem 65536 (leBytes n w) }

def State.placeCox (s : State) (w : Nat) : State :=
  let t := s.placeCode w 8
  { t.onStrand 0 0 (fun x => { x with status := .runnable, pc := 65536, team := [0] }) with agenda := [[.strand 0 0]] }

/-- A kernel at its first word (R255): every mask all ones, no latch written. -/
def Kernel.start (entry : Nat) (pc : Word64) (vbase : Nat) (kpar : Vector Word32 16) : Kernel :=
  ⟨entry, pc, 0, vbase, [], kpar, Vector.replicate 8 (BitVec.allOnes 256), Vector.replicate 4 ⟨none, false⟩, [],
   ⟨false, false, false, false, false, false, 0⟩, false⟩

def State.placeKernel (s : State) (w : Nat) : State :=
  let t := s.placeCode w 4
  { t.onCore 0 (fun x => { x with kernel := some (Kernel.start 0 65536 0 (Vector.replicate 16 0)) })
    with agenda := [[.kernel 0]] }

def Ctx.start (part prog core stream bar entry : Nat) : Ctx :=
  ⟨part, prog, core, stream, bar, Vector.replicate 16 0, Vector.replicate 4 0, Vector.replicate 4 0, entry, 0, 0, [], [], false, false, false, false, 0⟩

def State.placeAccess (s : State) (w : Nat) : State :=
  let t := s.placeCode 0 4
  { (t.onPart 0 fun p => { p with progs := [⟨0, 1, 64, 0, 0, [0]⟩] }).setCtx 0 0 (Ctx.start 0 0 0 0 0 0) with
    mem := memSetList t.mem (mseKey 0 0) (leBytes 4 w), agenda := [[.context 0 0]] }

end Sys2Proof.Machine
end

