-- ==== Sys2Proof/Machine/Joinery.lean ====
section
/-! DEFINITION. The Joinery: task records and regions, their checks, dependences and renaming, admission, release, publish and completion (R118 to R138, R239, R240, R255, R256, R410, R421, R427). -/
namespace Sys2Proof.Machine

/-! ## Fields of a task record (R118) -/

def recCls (r : ByteList) : Nat := field r 0 1 % 4
def recPrio (r : ByteList) : Nat := field r 0 1 / 4 % 4
def recOper (r : ByteList) : Nat := field r 1 1
def recAfmt (r : ByteList) : Nat := field r 2 1
def recWfmt (r : ByteList) : Nat := field r 3 1
def recCdc (r : ByteList) : Nat := field r 4 2 % 2 ^ 9
def recCdv (r : ByteList) : Bool := field r 4 2 / 2 ^ 15 == 1
def recWdc (r : ByteList) : Nat := field r 6 2 % 2 ^ 9
def recWdv (r : ByteList) : Bool := field r 6 2 / 2 ^ 15 == 1
def recCb (r : ByteList) : Nat := field r 8 2 % 64
def recCbSlot (r : ByteList) : Nat := field r 8 2 / 64 % 16
def recCwv (r : ByteList) : Bool := field r 8 2 / 2 ^ 15 == 1
def recPubc (r : ByteList) : Bool := field r 10 2 % 2 == 1
def recCst (r : ByteList) : Bool := field r 10 2 / 2 % 2 == 1
def recNoren (r : ByteList) : Bool := field r 10 2 / 4 % 2 == 1
def recNrd (r : ByteList) : Nat := field r 12 1 % 4
def recNwr (r : ByteList) : Nat := field r 12 1 / 4 % 4
def recNloop (r : ByteList) : Nat := field r 13 1 % 8
def recStoff (r : ByteList) : Nat := field r 14 2 * 32
def recParam (r : ByteList) : Nat := field r 0x78 8
/-- Bits hi to lo of PARAM. -/
def recPar (r : ByteList) (hi lo : Nat) : Nat := fld (recParam r) hi lo
/-- COUNT and STEP of a loop level. -/
def recCount (r : ByteList) (l : Nat) : Nat := field r (0x60 + 4 * l) 4 % 2 ^ 12
def recStep (r : ByteList) (l : Nat) : Int := sextInt (field r (0x60 + 4 * l) 4 / 2 ^ 12) 20
/-- K passes of a product (R247). -/
def recNkp (r : ByteList) : Nat := recPar r 3 1 + 1

/-! ## Regions (R120 to R123) -/

/-- A region descriptor (R120). -/
structure Region where
  hnd : Nat
  rd : Bool
  wr : Bool
  sh : Bool
  ws : Bool
  org : NatList
  ext : NatList
  deriving DecidableEq, Repr

def regionOf (b : ByteList) : Region :=
  let v := leNat b
  ⟨v % 2 ^ 12, v.testBit 12, v.testBit 13, v.testBit 14, v.testBit 15,
    (List.range 4).map fun d => v / 2 ^ (16 + 16 * d) % 2 ^ 16, (List.range 4).map fun d => v / 2 ^ (80 + 12 * d) % 2 ^ 12⟩

def Region.org1 (g : Region) (d : Nat) : Nat := g.org.getD d 0
def Region.ext1 (g : Region) (d : Nat) : Nat := g.ext.getD d 0
/-- First byte and length of a handle-0 region (R121). -/
def Region.first (g : Region) : Nat := g.org1 0 + 2 ^ 16 * g.org1 1 + 2 ^ 32 * g.org1 2 + 2 ^ 48 * g.org1 3
def Region.len (g : Region) : Nat := g.ext1 0 + 2 ^ 12 * g.ext1 1 + 2 ^ 24 * g.ext1 2

/-- Region slot i of a record. -/
def recRegion (r : ByteList) (i : Nat) : Region := regionOf (slice r (16 + 16 * i) 16)

/-- The used regions of a record with their slots. -/
def recUsed (r : ByteList) : List (Nat × Region) :=
  (List.range (recNrd r) ++ (List.range (recNwr r)).map (· + 3)).map fun i => (i, recRegion r i)

def Handle.none : Handle := ⟨0, 0, 0, 0, [], [], 0⟩
/-- Byte stride of dimension d above 0 (R39). -/
def Handle.strideOf (h : Handle) (d : Nat) : Nat := h.stride.getD (d - 1) 0
def Core.handleAt (x : Core) (n : Nat) : Handle := (x.handle n).getD Handle.none
/-- Base of a handle; one in the scratchpad is shifted into local offsets (R122). -/
def Core.handleBase (x : Core) (h : Handle) : Nat := h.base + if h.space = 0 then x.spBase else 0

/-- Space of a region: 0 local, 1 device virtual, 2 W-store (R122). -/
def Core.regSpace (x : Core) (g : Region) : Nat := if g.hnd = 0 then g.ext1 3 % 4 else (x.handleAt g.hnd).space

def Core.regEmpty (x : Core) (g : Region) : Bool :=
  if g.hnd = 0 then g.len == 0 else (List.range (x.handleAt g.hnd).ndim).any fun d => g.ext1 d == 0

/-- Start and length in bytes of the run along dimension 0 (R122). -/
def runOf (u o e : Nat) : Nat × Nat := (o * u / 8, ((o + e) * u + 7) / 8 - o * u / 8)

/-- The first byte of a region, an empty one too (R121, R122). -/
def Core.regLo (x : Core) (g : Region) : Nat :=
  if g.hnd = 0 then g.first
  else
    let h := x.handleAt g.hnd
    x.handleBase h + g.org1 0 * h.unitBits / 8 + (((List.range (h.ndim - 1)).map (· + 1)).map fun d => g.org1 d * h.strideOf d).sum

/-- The byte span of a region (R122); that of an empty one is empty. -/
def Core.regSpan (x : Core) (g : Region) : Nat × Nat :=
  if x.regEmpty g then (0, 0)
  else if g.hnd = 0 then (g.first, g.first + g.len)
  else
    let h := x.handleAt g.hnd
    let hi := (List.range (h.ndim - 1)).map (· + 1)
    (x.regLo g, x.handleBase h + ((g.org1 0 + g.ext1 0) * h.unitBits + 7) / 8 + (hi.map fun d => (g.org1 d + g.ext1 d - 1) * h.strideOf d).sum)

/-- The footprint of a region (R122). -/
def Core.regFoot (x : Core) (g : Region) : Nat × Nat :=
  if g.hnd = 0 then (g.first, g.first + g.len)
  else let h := x.handleAt g.hnd; (x.handleBase h, x.handleBase h + h.footlen)

def meets (a b : Nat × Nat) : Bool := decide (a.1 < b.2) && decide (b.1 < a.2)

/-- The overlap test (R123). -/
def Core.overlap (x : Core) (a b : Region) : Bool :=
  if x.regEmpty a || x.regEmpty b || x.regSpace a != x.regSpace b then false
  else if a.hnd = b.hnd ∧ a.hnd ≠ 0 then
    (List.range (x.handleAt a.hnd).ndim).all fun d => decide (b.org1 d < a.org1 d + a.ext1 d) && decide (a.org1 d < b.org1 d + b.ext1 d)
  else meets (x.regFoot a) (x.regFoot b) && meets (x.regSpan a) (x.regSpan b)

/-- Index tuples of the dimensions above 0 in box order, dimension 1 fastest (R258). -/
def boxTuples (g : Region) : Nat → List (List Nat)
  | 0 => [[]]
  | n + 1 => ((List.range (g.ext1 (n + 1))).map fun i => (boxTuples g n).map fun t => t ++ [g.org1 (n + 1) + i]).flatten

/-- The box rows of a region as pairs of address and length (R141, R258). -/
def Core.boxRows (x : Core) (g : Region) : List (Nat × Nat) :=
  if x.regEmpty g then []
  else if g.hnd = 0 then [(g.first, g.len)]
  else
    let h := x.handleAt g.hnd
    let r := runOf h.unitBits (g.org1 0) (g.ext1 0)
    (boxTuples g (h.ndim - 1)).map fun t =>
      (x.handleBase h + r.1 + (t.zipIdx.map fun p => p.1 * h.strideOf (p.2 + 1)).sum, r.2)

/-- Bytes of a region. -/
def Core.regBytes (x : Core) (g : Region) : Nat := ((x.boxRows g).map (·.2)).sum

/-- The first address at or after a that no run covers. -/
def coverEnd (runs : List (Nat × Nat)) : Nat → Nat → Nat
  | 0, a => a
  | n + 1, a =>
    match runs.find? fun r => decide (r.1 ≤ a) && decide (a < r.1 + r.2) with
    | some r => coverEnd runs n (r.1 + r.2)
    | none => a

/-- Whether a region holds every byte of an interval. -/
def Core.regHolds (x : Core) (g : Region) (lo hi : Nat) : Bool :=
  decide (hi ≤ coverEnd (x.boxRows g) (x.boxRows g).length lo)

/-- Format of a region: its handle's, or the one the operation gives a handle-0 region (R238). -/
def Core.regFmt (x : Core) (g : Region) (f : Nat) : Fmt := (fmtOf (if g.hnd = 0 then f else (x.handleAt g.hnd).fmt)).getD (.int 8)

/-- Elements that n bytes of a format hold. -/
def Fmt.elems (f : Fmt) (n : Nat) : Nat := n * 8 / f.unitBits * f.perUnit

/-- The implicit window region of a VK record (R256). -/
def Core.window1 (x : Core) (vbase : Nat) : Region :=
  let a := x.acBase + 512 * vbase
  ⟨0, true, true, false, false, [a % 2 ^ 16, a / 2 ^ 16, 0, 0], [0, 8, 0, 0]⟩

/-- Every region a record's accesses may use: its used ones and, for VK, the window as slot 5. -/
def Core.regionsOf (x : Core) (r : ByteList) (vbase : Nat) : List (Nat × Region) :=
  recUsed r ++ if recOper r = 0x20 then [(5, x.window1 vbase)] else []

/-- The slot of a region that holds an access of a mode (R119). -/
def Core.regionFor (x : Core) (r : ByteList) (vbase space lo hi : Nat) (write : Bool) : Option (Nat × Region) :=
  (x.regionsOf r vbase).find? fun p => (if write then p.2.wr else p.2.rd) && x.regSpace p.2 == space && x.regHolds p.2 lo hi

/-- REGION with its INFO1 (R395): the slot of a used region whose span holds the address in the other mode. -/
def Core.regionFault (x : Core) (r : ByteList) (vbase space a : Nat) (write : Bool) : Cause :=
  ⟨0x318, BitVec.ofNat 64 a,
    match (x.regionsOf r vbase).find? fun p => !(if write then p.2.wr else p.2.rd) && x.regSpace p.2 == space
        && decide ((x.regSpan p.2).1 ≤ a) && decide (a < (x.regSpan p.2).2) with
    | some p => BitVec.ofNat 64 p.1
    | none => BitVec.allOnes 64⟩

/-! ## Logical pages (R74 to R76) -/

/-- Logical pages of the scratchpad part that an interval of local offsets touches. -/
def Core.pagesIn (x : Core) (lo hi : Nat) : List Nat :=
  let a := max lo x.spBase
  let b := min hi x.acBase
  if a < b then (List.range (x.pageOf (b - 1) + 1 - x.pageOf a)).map (· + x.pageOf a) else []

/-- Pages that a region touches. -/
def Core.regPages (x : Core) (g : Region) : List Nat :=
  if x.regSpace g = 0 then x.pagesIn (x.regSpan g).1 (x.regSpan g).2 else []

/-- Whether a region's span lies wholly in mapped logical pages of the scratchpad part. -/
def Core.regMapped (x : Core) (g : Region) : Bool :=
  x.regSpace g == 0 && decide (x.spBase ≤ (x.regSpan g).1) && decide ((x.regSpan g).2 ≤ x.acBase)
  && (x.regPages g).all fun p => (x.spmAt p).v

/-- Unreserved frames of the spare pool, lowest first (R74, R126). -/
def Core.spareFrames (x : Core) : List Nat :=
  (List.range (8 * x.sp)).filter fun f => !x.reserved.contains f && !x.retiring.contains f
    && !(x.spm.any fun p => (p.2.v && p.2.frame == f) || (p.2.shv && p.2.shf == f))

/-! ## Checks at admission (R410) -/

/-- What R238 lets a format field hold. -/
inductive FmtRule where
  | zero | act | weight | storage | sum | tile
  deriving DecidableEq, Repr

/-- Formats of array activations (R50). -/
def Fmt.isAct : Fmt → Bool
  | .fl f => f != fmtF32
  | .int w => decide (w ≤ 8)
  | .bfp _ => true
  | .t3p5 => false

def FmtRule.ok (r : FmtRule) (c : Nat) : Bool :=
  match r, fmtOf c with
  | .zero, _ => c == 0
  | _, none => false
  | .act, some f => f.isAct
  | .weight, some f => f.isAct || f == .t3p5
  | .storage, some _ => true
  | .sum, some _ => c == 0 || c == 8
  | .tile, some f => match f with
    | .fl _ => true
    | .int w => decide (w ≥ 8)
    | .t3p5 => true
    | _ => false

/-- What R165 and R238 fix for an operation: its class, its format fields, the region counts allowed, whether the loop nest may be used, and the PARAM bits that are not reserved. -/
structure OperRow where
  cls : Nat
  afmt : FmtRule
  wfmt : FmtRule
  nrd : NatList
  nwr : NatList
  nest : Bool
  mask : Nat
  deriving DecidableEq, Repr

def isBfp (c : Nat) : Bool := decide (0x12 ≤ c) && decide (c ≤ 0x18)

/-- The rows of R238; counts that depend on WFMT or PARAM are taken from the record. -/
def operRow (r : ByteList) : Option OperRow :=
  match recOper r with
  | 0x01 => some ⟨0, .zero, .weight, [if isBfp (recWfmt r) then 2 else 1], [0], false, 2 ^ 21 - 1⟩
  | 0x02 => some ⟨0, .act, .zero, [if recNkp r ≥ 2 then 2 else 1], [1], true, 2 ^ 37 - 1⟩
  | 0x08 => some ⟨0, .act, .zero, [if recNkp r ≥ 2 then 2 else 1], [1], true, 2 ^ 37 - 1⟩
  | 0x03 => some ⟨0, .zero, .zero, [1], [1], false, 2 ^ 9 - 1⟩
  | 0x04 => some ⟨0, .zero, .zero, [1], [2], false, 2 ^ 17 - 1⟩
  | 0x05 => some ⟨0, .act, .zero, [2], [1], true, 0xFFFE⟩
  | 0x06 => some ⟨0, .act, .zero, [1], [1], true, 2 ^ 28 - 1⟩
  | 0x07 => some ⟨0, .tile, .zero, [1], [1], false, 0xFFFF3F7F⟩
  | 0x20 => some ⟨1, .zero, .zero, [0, 1, 2, 3], [0, 1, 2], false, 2 ^ 21 - 1⟩
  | 0x30 => some ⟨2, .zero, .zero, [1], [1], false, 0⟩
  | 0x40 => some ⟨3, .storage, .zero, [1], [1], false, 0⟩
  | 0x41 => some ⟨3, .storage, .zero, [1], [1], false, 0⟩
  | 0x42 => some ⟨3, .storage, .zero, [1], [1], false, 0⟩
  | 0x43 => some ⟨3, .zero, .zero, [2], [1], false, 0⟩
  | 0x44 => some ⟨3, .zero, .zero, [2], [1], false, 0xFFFF⟩
  | 0x45 => some ⟨3, .storage, .storage, [1], [1], false, 7⟩
  | 0x46 => some ⟨3, .storage, .zero, [0], [1], false, 2 ^ 64 - 1⟩
  | 0x47 => some ⟨3, .zero, .zero, if recPar r 0 0 = 1 then [2] else [1, 2], [1], false, 0xFFFFFFFF01⟩
  | 0x48 => some ⟨3, .zero, .zero, [1, 2], [2], false, 2 ^ 24 - 1⟩
  | 0x49 => some ⟨3, .sum, .zero, [1], [1, 2], false, 0xFF0F⟩
  | 0x4A => some ⟨3, .zero, .zero, [0, 1], [1], false, 0xFFFFFF07⟩
  | 0x4B => some ⟨3, .zero, .zero, [1], [1], false, 0⟩
  | _ => none

/-- PARAM fields outside their stated limits (R410). -/
def paramBad (r : ByteList) : Bool :=
  match recOper r with
  | 0x02 => decide (recNkp r ≥ 2) && decide (recPar r 36 32 + recNkp r > 33)
  | 0x08 => decide (recNkp r ≥ 2) && decide (recPar r 36 32 + recNkp r > 33)
  | 0x03 => recPar r 7 0 == 0 || decide (recPar r 7 0 > 128)
  | 0x04 => recPar r 7 0 == 0 || decide (recPar r 7 0 > 128) || recPar r 15 8 == 0 || decide (recPar r 15 8 > 128)
  | 0x06 => recPar r 27 16 == 0
  | 0x07 => recPar r 31 16 % (((fmtOf (recAfmt r)).map (·.unitBits / 8)).getD 1) != 0
  | 0x20 => recParam r % 32 != 0
  | 0x45 => decide (recPar r 2 0 > 4)
  | 0x48 => recPar r 11 0 == 0 || recPar r 23 12 == 0
  | _ => false

/-- Whether a region's mode bits and its handle break R120 and R121 in a slot. -/
def Core.regionBad (x : Core) (i : Nat) (g : Region) : Bool :=
  decide (g.hnd ≥ x.handles.length)
  || (if i < 3 then !g.rd || g.wr || g.sh else !g.wr)
  || (g.hnd == 0 && (g.ext1 3 / 4 != 0 || g.ext1 3 % 4 == 3))
  || g.ws != (x.regSpace g == 2)
  || (g.sh && (g.ws || !(x.regSpace g == 1 || x.regEmpty g || x.regMapped g)))

/-- Whether an operation names the W-store in a slot where R79 lets nothing reach it: WST writes it, WLD and the products' later passes read it (R79, R238); a VK record's declaration reaches nothing. DESIGN CHOICE (log 86): such a record is refused with RECORD for every operation, where R410 names the spaces of R254, R257, R259, R260 and R262 to R264 only. -/
def wStoreBad (oper slot space : Nat) : Bool :=
  space == 2 && !(oper == 0x20 || (oper == 0x01 && slot < 3) || ((oper == 0x02 || oper == 0x08) && slot == 1) || (oper == 0x4B && slot == 3))

/-- Element size, source and destination of a transpose (R257, R259): one side with a handle gives the dimensions and strides of a side without. -/
structure TSide where
  space : Nat
  base : Nat
  org : NatList
  ext : NatList
  stride : NatList
  deriving DecidableEq, Repr

/-- One side of a transpose. other is the other side's region. -/
def Core.tside (x : Core) (g other : Region) : TSide :=
  if g.hnd = 0 then
    let h := x.handleAt other.hnd
    let e := fun d => if d < h.ndim then other.ext1 d else 1
    ⟨x.regSpace g, g.first, [0, 0, 0, 0], [e 1, e 0, e 2, e 3], [h.strideOf 1, h.strideOf 2, h.strideOf 3]⟩
  else
    let h := x.handleAt g.hnd
    let e := fun d => if d < h.ndim then g.ext1 d else 1
    let o := fun d => if d < h.ndim then g.org1 d else 0
    ⟨x.regSpace g, x.handleBase h, [o 0, o 1, o 2, o 3], [e 0, e 1, e 2, e 3], [h.strideOf 1, h.strideOf 2, h.strideOf 3]⟩

/-- Element size in bytes of a transpose: 0 when no handle gives one. -/
def Core.tsize (x : Core) (a b : Region) : Nat :=
  let h := x.handleAt (if a.hnd = 0 then b.hnd else a.hnd)
  if a.hnd = 0 ∧ b.hnd = 0 then 0 else if h.unitBits % 8 = 0 then h.unitBits / 8 else 0

/-- Rules of a transpose (R257, R259) by the slot they fault: sizes allowed, and whether both sides must be local. -/
def Core.transposeBad (x : Core) (r : ByteList) (sizes : NatList) (isLocal : Bool) : List (Nat × Bool) :=
  let a := recRegion r 0
  let b := recRegion r 3
  let sa := x.tside a b
  let sb := x.tside b a
  [(0x10, (isLocal && x.regSpace a != 0) || (decide (b.hnd < x.handles.length) && !sizes.contains (x.tsize a b))),
   (0x40, (isLocal && x.regSpace b != 0) || (a.hnd != 0 && b.hnd != 0 && x.tsize b b != x.tsize a a)
      || sb.ext != [sa.ext.getD 1 0, sa.ext.getD 0 0, sa.ext.getD 2 0, sa.ext.getD 3 0])]

/-- Whether a region is none of the handle regions of two dimensions or more that GATH and SCAT take (R263, R264). -/
def Core.rowsBad (x : Core) (g : Region) : Bool := g.hnd == 0 || decide ((x.handleAt g.hnd).ndim < 2)

/-- Whether a region breaks the rule of GATH's table: moreover its higher extents are 1 (R263). DESIGN CHOICE (log 87): SCAT asks the same of both its sides, one format and one EXT0 among them, since R410 has the extents and formats of R264 checked and R264 states none. -/
def Core.tableBad (x : Core) (g : Region) : Bool :=
  x.rowsBad g || (List.range (x.handleAt g.hnd).ndim).any fun d => decide (d ≥ 2) && g.ext1 d != 1

/-- The region rules that the regions and handles alone decide, by the slot they fault (R410). DESIGN CHOICE (log 88): a list, an index list or a matrix row given by a handle is admitted and read in box order, where R238 only says that these are handle-0 regions; score and rank rows of MMC and TOPK need not be 512-byte aligned nor local (R250). -/
def Core.shapeChecks (x : Core) (r : ByteList) : List (Nat × Bool) :=
  let g := recRegion r
  let n := fun i => x.regBytes (g i)
  let rows := [(0x10, x.regLo (g 0) % 128 != 0), (0x40, x.regLo (g 3) % 512 != 0)]
  let count := fun i f => ((x.boxRows (g i)).map fun p => (x.regFmt (g i) f).elems p.2).sum
  let tables := [(0x10, x.tableBad (g 0)),
    (0x40, x.rowsBad (g 3) || (x.handleAt (g 0).hnd).fmt != (x.handleAt (g 3).hnd).fmt || (g 0).ext1 0 != (g 3).ext1 0)]
  match recOper r with
  | 0x02 => rows
  | 0x08 => rows
  | 0x05 => rows
  | 0x06 => rows
  | 0x03 => [(0x10, n 0 == 0 || n 0 % 512 != 0), (0x40, n 3 != n 0)]
  | 0x04 => [(0x10, n 0 == 0 || n 0 % 512 != 0), (0x40, n 3 != n 0), (0x50, n 4 != n 0)]
  | 0x07 => [(0x10, x.regSpace (g 0) != 0), (0x40, x.regSpace (g 3) != 0)]
  | 0x30 => x.transposeBad r [1, 2, 4] true
  | 0x40 =>
    [(0x02, (g 0).hnd == 0 && (g 3).hnd == 0 && recAfmt r != 0x0A),
     (0x10, (g 0).hnd != 0 && (g 3).hnd != 0 && decide ((g 3).hnd < x.handles.length) && (x.handleAt (g 0).hnd).fmt != (x.handleAt (g 3).hnd).fmt),
     (0x40, n 0 != n 3)]
  | 0x41 => x.transposeBad r [1] false
  | 0x42 => x.transposeBad r [2] false
  | 0x45 => [(0x40, count 0 (recAfmt r) != count 3 (recWfmt r))]
  | 0x43 => tables ++ [(0x40, (g 3).ext1 1 != n 1 / 4)]
  | 0x44 => tables ++ [(0x40, x.tableBad (g 3))]
  | 0x4B => [(0x10, x.regSpace (g 0) == 2), (0x40, x.regSpace (g 3) != 2 || n 0 != n 3)]
  | 0x48 =>
    [(0x10, n 0 % (8 * max 1 (recPar r 23 12)) != 0), (0x20, recNrd r == 2 && n 1 % 4 != 0),
     (0x40, n 3 != 4 * recPar r 11 0), (0x50, n 4 != n 0)]
  | 0x47 =>
    if recPar r 0 0 = 0 then [(0x10, n 0 % 4 != 0), (0x20, recNrd r == 2 && n 1 != n 0), (0x40, n 3 != n 0)]
    else [(0x10, n 0 % 8 != 0), (0x40, 2 * n 3 != n 0 || n 3 % 4 != 0)]
  | _ => []

/-- Strand slots of one unit of a domain (R12, R29). -/
def domainSlots (d : Nat) : Nat :=
  match d with
  | 0 => 4096
  | 1 => 4096
  | 2 => 512
  | 3 => 256
  | 4 => 16
  | 5 => 4
  | _ => 1

/-- The pieces into which the levels down to a level split a unit of its domain (R30, rule 5); the list runs from that level upwards. -/
def splitPieces1 : List Level → Nat
  | a :: b :: r => if a.domain = b.domain then a.fanout * splitPieces1 (b :: r) else 1
  | _ => 1

/-- Whether the teams of a level consist of whole cores (R31, R267). -/
def Part.wholeCores (p : Part) (lvl : Nat) : Bool :=
  match (p.levels.take (lvl + 1)).reverse with
  | [] => false
  | a :: r => decide (lvl < p.levels.length) && domainSlots a.domain / splitPieces1 (a :: r) % 4 == 0

/-- Every check of R410 that the record, the handles and the core decide, by offset. -/
def Core.recordChecks (x : Core) (p : Part) (r : ByteList) (o : OperRow) : List (Nat × Bool) :=
  [(0, field r 0 1 / 16 != 0), (1, o.cls != recCls r), (2, !o.afmt.ok (recAfmt r)), (3, !o.wfmt.ok (recWfmt r)),
   (4, field r 4 2 / 2 ^ 9 % 2 ^ 6 != 0), (6, field r 6 2 / 2 ^ 9 % 2 ^ 6 != 0),
   (8, field r 8 2 / 2 ^ 10 % 2 ^ 5 != 0 || (recCwv r && decide (((tabFind x.bars (recCb r)).map (·.slots.length)).getD 0 ≤ recCbSlot r))),
   (10, field r 10 2 / 8 != 0),
   (12, field r 12 1 / 16 != 0 || !o.nrd.contains (recNrd r) || !o.nwr.contains (recNwr r)),
   (13, field r 13 1 / 8 != 0 || decide (recNloop r > if o.nest then 6 else 0)),
   (14, recCst r && !x.localOk (recStoff r) 8)]
  ++ ((recUsed r).map fun q => (16 + 16 * q.1, x.regionBad q.1 q.2 || wStoreBad (recOper r) q.1 (x.regSpace q.2)))
  ++ (if (recOper r = 0x02 ∨ recOper r = 0x08 ∨ recOper r = 0x06) ∧ recPar r 0 0 = 1 then [(0x40, !(recRegion r 3).rd)] else [])
  ++ x.shapeChecks r
  ++ ((List.range (recNloop r)).map fun l => (0x60 + 4 * l, recCount r l == 0))
  ++ [(0x78, recParam r / (o.mask + 1) != 0 || recParam r &&& (2 ^ 64 - 1 - o.mask) != 0 || paramBad r
      || ((recOper r == 0x49 || recOper r == 0x4A) && !p.wholeCores (recPar r 2 0)))]

/-- The offset of the first faulty field of a record, none when it may be admitted (R410). A record whose region counts are wrong has no region checks of its own. -/
def Core.recordFault (x : Core) (p : Part) (r : ByteList) : Option Nat :=
  match operRow r with
  | none => some (if field r 0 1 / 16 != 0 then 0 else 1)
  | some o => (((x.recordChecks p r o).filter (·.2)).map (·.1)).min?

/-- VBASE of a VK record, read at admission (R255, R410): none when the kernel block breaks its rules. -/
def State.recordVbase (s : State) (c : Nat) (r : ByteList) : Except Cause (Option Nat) :=
  if recOper r ≠ 0x20 then .ok (some 0)
  else
    let x := s.core c
    let o := recParam r
    if !x.localOk o 96 then .ok none
    else match s.readLocalChecked c o 96 with
    | .error e => .error e
    | .ok b =>
      let v := field b 8 2
      .ok (if v / 2 ^ 11 = 0 ∧ v + 63 < x.ac * 128 then some v else none)

/-- The cause that refuses a record at a core, or its VBASE. place is the record's offset. -/
def State.recordCheck (s : State) (c place : Nat) (r : ByteList) : Except Cause Nat :=
  match (s.core c).recordFault (s.corePart c) r with
  | some o => .error ⟨0x401, BitVec.ofNat 64 place, BitVec.ofNat 64 o⟩
  | none =>
    match s.recordVbase c r with
    | .error e => .error e
    | .ok none => .error ⟨0x401, BitVec.ofNat 64 place, 0x78⟩
    | .ok (some v) => .ok v

/-! ## Dependences and renaming (R124 to R128, R240) -/

/-- Regions that a record reads and writes, the window of a VK record among them. -/
def Core.readRegs (x : Core) (r : ByteList) (vbase : Nat) : List Region := ((x.regionsOf r vbase).map (·.2)).filter (·.rd)
def Core.writeRegs (x : Core) (r : ByteList) (vbase : Nat) : List (Nat × Region) := (x.regionsOf r vbase).filter (·.2.wr)

/-- Whether two matrix records conflict over the latch (R240): both use it and one writes it. -/
def latchConflict (a b : ByteList) : Bool :=
  let writes := fun r => !((recOper r == 0x02 || recOper r == 0x08) && recNkp r == 1)
  recCls a == 0 && recCls b == 0 && (writes a || writes b)

/-- Pages that an entry has renamed or will rename. -/
def Core.renamedPages (x : Core) (t : TaskRec) : List Nat :=
  ((if t.ren3 then x.regPages (recRegion t.bytes 3) else []) ++ (if t.ren4 then x.regPages (recRegion t.bytes 4) else [])).eraseDups.mergeSort (· ≤ ·)

/-- Whether a new record depends on an earlier entry by an edge that renaming cannot avoid: read after write, write after write, the latch, a renamed page (R124, R128, R240). -/
def Core.edgeTo (x : Core) (r : ByteList) (vbase : Nat) (e : TaskRec) : Bool :=
  latchConflict r e.bytes
  || ((x.writeRegs e.bytes e.vbase).any fun w =>
      (x.readRegs r vbase).any (x.overlap · w.2) || (x.writeRegs r vbase).any fun g => x.overlap g.2 w.2)
  || ((x.writeRegs r vbase).any fun g => (x.regPages g.2).any fun p => (x.renamedPages e).contains p)

/-- Earlier entries with a read that a write region conflicts with. -/
def Core.readersOf (x : Core) (g : Region) : List Nat :=
  (x.window.filter fun p => (x.readRegs p.2.bytes p.2.vbase).any (x.overlap g)).map (·.1)

/-- Conditions 1 to 5 of R126 for a write region of a record. -/
def Core.mayRename (x : Core) (r : ByteList) (g : Region) : Bool :=
  let pages := x.regPages g
  x.regMapped g && !x.regEmpty g && !g.ws && !g.sh && !g.rd && !recNoren r
  && !(x.window.any fun p => (x.writeRegs p.2.bytes p.2.vbase).any fun w => (x.regPages w.2).any pages.contains)
  && pages.all (fun p => !(x.spmAt p).shv)
  && decide (pages.length ≤ x.spareFrames.length)

/-- What one write region of a new entry adds to it (R124 to R126). i is its slot. -/
def Core.addWrite (x : Core) (t : TaskRec) (i : Nat) (g : Region) : Core × TaskRec :=
  let war := x.readersOf g
  if war.isEmpty then (x, t)
  else if g.sh then (x, if recPubc t.bytes then { t with pdeps := (t.pdeps ++ war).eraseDups } else t)
  else if (i = 3 ∨ i = 4) ∧ x.mayRename t.bytes g then
    let new := (x.regPages g).filter fun p => !(x.renamedPages t).contains p
    let fr := x.spareFrames.take new.length
    ({ x with reserved := x.reserved ++ fr },
     { t with
       frames := (t.frames ++ fr).mergeSort (· ≤ ·), rdeps := (t.rdeps ++ war).eraseDups
       ren3 := t.ren3 || i == 3, ren4 := t.ren4 || i == 4, pubPending := true })
  else (x, { t with edges := (t.edges ++ war).eraseDups })

def TaskFlags.none : TaskFlags := ⟨false, false, false, false, false, false, 0⟩

/-- The lowest free window entry. -/
def Core.freeEntry (x : Core) : Option Nat := (List.range 256).find? fun n => (tabFind x.window n).isNone

/-- A catch slot of a core. -/
def Core.bar (x : Core) (n : Nat) : CatchBar := tabGet ⟨[], none⟩ x.bars n
def Core.catchFull (x : Core) (n k : Nat) : Bool := (((x.bar n).slots[k]?).map (·.awaiting)).getD false

/-- The key of a collective round of a core: level and tag. -/
def roundKey (r : ByteList) : Nat := recPar r 2 0 * 256 + recPar r 15 8

/-- Admits a record that has passed its checks into a free entry (R124 to R126, R133, R267). -/
def Core.enter (x : Core) (n : Nat) (r : ByteList) (vbase : Nat) : Core :=
  let coll := recOper r = 0x49 ∨ recOper r = 0x4A
  let t : TaskRec :=
    { bytes := r, st := .admitted, age := x.ageNext, passed := 0
      wcOk := recWdv r && x.dc (recWdc r) == 0
      csOk := recCwv r && x.catchFull (recCb r) (recCbSlot r)
      prog := 0, edges := (x.window.filter fun p => x.edgeTo r vbase p.2).map (·.1), rdeps := [], pdeps := []
      ren3 := false, ren4 := false, frames := [], bound := false, pubPending := recPubc r, vbase := vbase
      flags := TaskFlags.none, round := if coll then tabGet 0 x.rounds (roundKey r) % 512 else 0, shadows := [], touched := [], since := none, acc := 0 }
  let y := (x.writeRegs r vbase).foldl (fun q g => q.1.addWrite q.2 g.1 g.2) (x, t)
  { y.1 with
    window := tabPut y.1.window n y.2, ageNext := x.ageNext + 1, active := true, fresh := true
    rounds := if coll then tabPut x.rounds (roundKey r) ((tabGet 0 x.rounds (roundKey r) + 1) % 65536) else x.rounds }

/-- Whether a strand of a core holds in POST (R129). -/
def Core.postPending (x : Core) : Bool :=
  x.freeEntry.isSome && x.strands.toList.any fun t => match t.hold with
    | some h => (match h.instr with
      | .post _ _ => true
      | .postNb _ _ _ => true
      | _ => false)
    | none => false

/-- INGRESS_ADMISSION (R129, R131, R410): the oldest ingress record is admitted, or dropped with an error record. -/
def execIngressAdmission (core : Nat) (s : State) : Host.Outcome State Fault Refusal :=
  let x := s.core core
  if !s.coreLive core || (!x.ingressTurn && x.postPending) then .next s
  else match x.ingress with
  | [] => .next s
  | b :: r =>
    match s.recordCheck core 0 b with
    | .error e =>
      let p := s.corePart core
      .next ((s.setCore core { x with ingress := r, ingressTurn := false }).errorRecord
        ⟨e.code, 1, 12, core, 0, false, some (p.queue, p.key), 0, e.info, e.info1, 0⟩)
    | .ok v =>
      match x.freeEntry with
      | none => .next s
      | some n => .next (s.setCore core (({ x with ingress := r, ingressTurn := false }).enter n b v))

/-! ## Release (R133 to R135) -/

/-- Whether an entry is ready (R133). -/
def TaskRec.ready (t : TaskRec) : Bool :=
  t.st == .admitted && t.edges.isEmpty && (!recWdv t.bytes || t.wcOk) && (!recCwv t.bytes || t.csOk)

/-- Spans of an entry's regions as tracking slots see them (R102, R103). -/
def Core.taskSpans (x : Core) (r : ByteList) (vbase : Nat) : List (RSpace × Nat × Nat) :=
  (x.regionsOf r vbase).map fun p => (match x.regSpace p.2 with
    | 0 => RSpace.l
    | 1 => RSpace.g
    | _ => RSpace.w, x.regSpan p.2)

/-- The next record of a class to be released (R134, R135). -/
def Core.pickTask (x : Core) (cls : Nat) : Option (Nat × TaskRec) :=
  let l := x.window.filter fun p => p.2.ready && recCls p.2.bytes == cls
  let oldest := fun (b : Option (Nat × TaskRec)) (p : Nat × TaskRec) => match b with
    | none => some p
    | some q => if p.2.age < q.2.age then some p else b
  match (l.filter fun p => decide (p.2.passed ≥ 4096)).foldl oldest none with
  | some p => some p
  | none =>
    let top := (l.map fun p => recPrio p.2.bytes).foldl max 0
    (l.filter fun p => recPrio p.2.bytes == top).foldl oldest none

/-- Notes the step at which entries are first seen ready (R138). -/
def Core.stampReady (x : Core) (n : Nat) : Core :=
  if x.window.any fun p => p.2.ready && p.2.since.isNone then
    { x with window := x.window.map fun p => (p.1, if p.2.ready && p.2.since.isNone then { p.2 with since := some n } else p.2) }
  else x

/-- The same on every core. -/
def State.stampReady (s : State) : State := { s with cores := s.cores.map fun p => (p.1, p.2.stampReady s.steps) }

/-- Whether one entry was ready in an earlier cycle than another (R138). -/
def TaskRec.readyBefore (a b : TaskRec) : Bool :=
  match a.since, b.since with
  | some m, some n => decide (m < n)
  | some _, none => true
  | none, _ => false

/-- Whether an engine class has a place for one more task (R134). -/
def Core.hasPlace (x : Core) (cls : Nat) : Bool :=
  if cls = 3 then (List.range 8).any fun n => decide ((x.chan n).length < 128)
  else !(x.window.any fun p => p.2.st == .staged && recCls p.2.bytes == cls)

/-- Whether an engine of a class runs a task. -/
def Core.engineBusy (x : Core) (cls : Nat) : Bool :=
  x.window.any fun p => (p.2.st == .running || p.2.st == .stopped) && recCls p.2.bytes == cls

/-- The channel with the fewest entries, the lowest-numbered on a tie (R134). -/
def Core.emptiest (x : Core) : Nat :=
  (List.range 8).foldl (fun b n => if (x.chan n).length < (x.chan b).length then n else b) 0

/-- Copies a frame's bytes and poison marks into another (R76). -/
def State.copyFrame (s : State) (c dst src : Nat) : State :=
  let base := (s.core c).spBase
  let a := poolKey c (base + src * 8192)
  let b := poolKey c (base + dst * 8192)
  { s with
    mem := memCopy s.mem b a 8192
    poisoned := (s.poisoned.filter fun w => !(decide (b / 8 ≤ w) && decide (w < b / 8 + 1024)))
      ++ ((s.poisoned.filter fun w => decide (a / 8 ≤ w) && decide (w < a / 8 + 1024)).map fun w => w - a / 8 + b / 8) }

/-- Binds a shadow frame to a page (R76, R127). -/
def State.bindFrame (s : State) (c page frame : Nat) (ren : Bool) : State :=
  (s.copyFrame c frame ((s.core c).spmAt page).frame).onCore c fun x =>
    { x with spm := tabPut x.spm page { x.spmAt page with shf := frame, shv := true, ren := ren } }

/-- Binds the frames reserved for an entry's renamed pages (R126, R127). -/
def State.bindRename (s : State) (c : Nat) (t : TaskRec) : State :=
  ((((s.core c).renamedPages t).zip t.frames).foldl (fun u p => u.bindFrame c p.1 p.2 true) s).onCore c fun x =>
    { x with reserved := x.reserved.filter fun f => !t.frames.contains f }

/-- Whether a record of another class that was ready earlier and has a place is released first: a ready record is selected in the cycle after it became ready (R134, R138). -/
def Core.releasedFirst (x : Core) (cls : Nat) (t : TaskRec) : Bool :=
  (List.range 4).any fun k => k != cls && x.hasPlace k && ((x.pickTask k).map fun p => p.2.readyBefore t) == some true

/-- TASK_RELEASE (R134, R135, R138). -/
def execTaskRelease (core cls : Nat) (s : State) : Host.Outcome State Fault Refusal :=
  let x := s.core core
  if !s.coreLive core || !x.hasPlace cls then .next s
  else match x.pickTask cls with
  | none => .next s
  | some (n, t) =>
    if x.releasedFirst cls t then .next s
    else
    let passed := x.window.map fun p =>
      (p.1, if p.2.ready && recCls p.2.bytes == cls && decide (recPrio p.2.bytes < recPrio t.bytes) then { p.2 with passed := p.2.passed + 1 } else p.2)
    let st := if cls = 1 ∨ (cls ≠ 3 ∧ x.engineBusy cls) then TaskSt.staged else .running
    let y := { x with window := tabPut passed n { t with st := st, bound := !t.frames.isEmpty }, active := true, fresh := true }
    let y := y.count s.nextId (.task n) (y.matching (y.taskSpans t.bytes t.vbase))
    let y := if cls = 3 then y.pushChan y.emptiest ⟨s.nextId, [], 0, .task n, false, false, [], []⟩ else y
    .next (((s.setCore core y).bumpId).bindRename core t)

/-! ## Publish and completion (R116, R125, R127, R136, R137, R421) -/

/-- The unit number of R397 for an engine class. -/
def classUnit (cls : Nat) : Nat :=
  match cls with
  | 0 => 2
  | 1 => 1
  | 2 => 3
  | _ => 4

/-- The channel that holds a window entry's copy, 0 for other classes (R397, SUB). -/
def Core.chanOf (x : Core) (n : Nat) : Nat :=
  ((List.range 8).find? fun h => (x.chan h).any fun e => e.src == .task n).getD 0

/-- The record of a counter that completion decrements would take below zero (R408): under is by how much, modulo 2^32. -/
def State.counterUnder (s : State) (c n under unit sub place : Nat) : State :=
  let p := s.corePart c
  s.errorRecord ⟨0x30D, 0, unit, c, sub, false, some (p.queue, p.key), place, BitVec.ofNat 64 (n + (2 ^ 32 - under) % 2 ^ 32 * 2 ^ 32), 0, 0⟩

/-- One completion decrement (R137, R408): a counter at zero stays there, and COUNTER is recorded for the unit. In a cycle that units share it is combined with the others at the end (R227). -/
def State.decCounter (s : State) (c n unit sub place : Nat) : State :=
  let v := (s.core c).dc n
  if s.shared then s.onCore c (·.noteDc n (.dec unit sub place))
  else
    let t := s.onCore c (·.setDc n (v - 1))
    if v = 0 then t.counterUnder c n 1 unit sub place else t

/-- The number by which the dies know the task of a pending publish. -/
def pubTask (c n : Nat) : Nat := c * 256 + n

/-- Whether a publish asked for by an entry has not taken effect. -/
def State.taskPubOpen (s : State) (c n : Nat) : Bool :=
  (s.core c).pubs.any (fun p => p.entry == some (pubTask c n)) || s.dies.any (fun d => d.2.pubHeld.any fun p => p.entry == some (pubTask c n))

/-- What a task's publish covers (R116, R125, R127): the pages and regions that its S write regions have bound, and its renamed pages. -/
def Core.pubPages (x : Core) (t : TaskRec) : List Nat :=
  (x.renamedPages t ++ (if recPubc t.bytes then (x.writeRegs t.bytes t.vbase).flatMap fun g =>
    if g.2.sh then (x.regPages g.2).filter fun p => (x.spmAt p).shv else [] else [])).eraseDups.mergeSort (· ≤ ·)

/-- Who a task is: its accesses to device virtual memory. -/
def State.whoTask (s : State) (c n unit : Nat) : Who := { s.whoCore c unit with req := .task c n }

/-- The regions that a task's publish covers, by write region: those with a shadow, or the cause met. -/
def State.pubRegions (s : State) (c n : Nat) (t : TaskRec) : List (Except Cause (List (Nat × Nat))) :=
  if !recPubc t.bytes then []
  else ((s.core c).writeRegs t.bytes t.vbase).map fun g =>
    if g.2.sh && (s.core c).regSpace g.2 == 1 && !(s.core c).regEmpty g.2 then
      s.shadowRegions (s.whoTask c n (classUnit (recCls t.bytes))) ((s.core c).regSpan g.2).1 ((s.core c).regSpan g.2).2
    else .ok []

/-- The first cause for which the table reads of a publish are held. -/
def heldAmong (l : List (Except Cause (List (Nat × Nat)))) : Option Cause :=
  l.findSome? fun r => match r with
    | .error x => if x.waits then some x else none
    | .ok _ => none

/-- Asks for a task's publish. -/
def State.askTaskPub (s : State) (c n : Nat) (t : TaskRec) : State :=
  let pages := (s.core c).pubPages t
  let regions := ((s.pubRegions c n t).flatMap fun r => match r with
    | .ok l => l
    | .error _ => []).eraseDups
  let s1 := s.onCore c fun x =>
    { x with
      window := tabPut x.window n { t with pubPending := false }
      pubs := if pages.isEmpty then x.pubs else x.pubs ++ [⟨s.nextId, pages, some (pubTask c n)⟩] }
  (s1.askRegions s.nextId (some (pubTask c n)) regions).bumpId

/-- The completion status (R239, R404). -/
def statusBytes (r : ByteList) (f : TaskFlags) : ByteList :=
  let b := fun (v : Bool) (k : Nat) => if v then 2 ^ k else 0
  leBytes 8 (1 + b f.sat 1 + b f.inf 2 + b f.merge 3 + b f.nanb 4 + b f.badt 5 + b f.ended 6 + recOper r * 256 + f.count % 2 ^ 32 * 2 ^ 32)

/-- Writes local bytes where they have a place, and takes the poison off the words they fill. -/
def State.putLocal (s : State) (c : Nat) (shadow : Bool) (off : Nat) (b : ByteList) : State :=
  (s.writeLocal c shadow off b).cleanWords ((List.range b.length).filterMap fun i => s.localKey c shadow (off + i))

/-- The strands, the engine and the requests no longer know a unit. -/
def State.forgetUnit (s : State) (u : UnitRef) (r : ReqFor) : State :=
  let t := s.disown (· == r)
  { t with
    traps := t.traps.filter (·.unit != u)
    dies := t.dies.map fun p => (p.1, { p.2 with bindAsk := p.2.bindAsk.filter (·.2 != u) }) }

/-- Steps 2 to 4 of R136: the status, the counter, the entry and its edges. -/
def State.freeTask (s : State) (c n : Nat) (t : TaskRec) (f : TaskFlags) : State :=
  let ch := (s.core c).chanOf n
  let s1 := if recCst t.bytes then s.putLocal c false (recStoff t.bytes) (statusBytes t.bytes f) else s
  let s2 := if recCdv t.bytes then s1.decCounter c (recCdc t.bytes) (classUnit (recCls t.bytes)) ch n else s1
  let s3 := s2.onCore c fun x =>
    { x with
      window := (tabDel x.window n).map fun p =>
        (p.1, { p.2 with edges := p.2.edges.filter (· != n), rdeps := p.2.rdeps.filter (· != n), pdeps := p.2.pdeps.filter (· != n) })
      items := x.items.filter fun i => i.kind != .task n
      chans := x.chans.map fun l => l.filter fun e => e.src != .task n
      contribs := x.contribs.filter fun q => q.entry != n
      active := true, fresh := true }
  s3.forgetUnit (.task c n) (.task c n)

/-- Whether some request of a unit outside the module has not completed. -/
def State.asksOpen (s : State) (r : ReqFor) : Bool := s.requests.any fun q => q.whose == r

/-- TASK_COMPLETION (R136): the publish first, once the entries it waits for have completed; then status, counter, entry and edges. -/
def execTaskCompletion (core entry : Nat) (s : State) : Host.Outcome State Fault Refusal :=
  match tabFind (s.core core).window entry with
  | none => .next s
  | some t =>
    if (s.core core).frozen || t.st != .done || s.asksOpen (.task core entry) || s.taskPubOpen core entry then .next s
    else if t.pubPending then
      if t.rdeps.isEmpty && t.pdeps.isEmpty then
        match heldAmong (s.pubRegions core entry t) with
        | some x => .next (s.await (s.whoTask core entry (classUnit (recCls t.bytes))) x)
        | none =>
          let u := s.askTaskPub core entry t
          .next (if u.taskPubOpen core entry then u else u.freeTask core entry t t.flags)
      else .next s
    else .next (s.freeTask core entry t t.flags)

/-- Regions of a copy channel's entry: those of its task, or those of its template. -/
def templateRegions (tpl : ByteList) : List Region :=
  if field tpl 0 1 = 2 then [regionOf (slice tpl 0x18 16)] else [regionOf (slice tpl 8 16), regionOf (slice tpl 0x18 16)]

/-- Makes the shadow frames of pages visible; the old frames are pending return (R76, R127). -/
def Core.publish (x : Core) (pages : List Nat) : Core :=
  pages.foldl (fun y p =>
    let e := y.spmAt p
    if e.shv then { y with spm := tabPut y.spm p { e with frame := e.shf, shf := 0, shv := false, ren := false }, retiring := y.retiring ++ [e.frame] }
    else y) x

/-- SCRATCHPAD_PUBLISH (R116): the pending publishes of a core take effect of whose pages no task or copy at work has read or written one. -/
def execScratchpadPublish (core : Nat) (s : State) : Host.Outcome State Fault Refusal :=
  let x := s.core core
  if x.frozen then .next s
  else
    let go := x.pubs.filter fun p => !x.touches p.pages
    .next (s.setCore core
      { x.publish (go.flatMap (·.pages)) with pubs := x.pubs.filter fun p => x.touches p.pages })

/-- Whether a causal access translated to a frame of a core is still outside; every other access completes within its step (log 3). -/
def State.frameUsed (s : State) (core frame : Nat) : Bool :=
  let a := poolKey core ((s.core core).spBase + frame * 8192)
  let at_ := fun (k : Nat) => decide (a ≤ k) && decide (k < a + 8192)
  s.dies.any (fun p => p.2.causal.any fun x => !x.data.isEmpty && at_ x.key)
  || s.cores.any fun p => p.2.strands.toList.any fun t => t.loads.any fun l => l.home.isSome && l.val.isNone && at_ l.key

/-- FRAME_RETURN (R127): an old frame returns to the spare pool once the accesses translated to it have completed. -/
def execFrameReturn (core frame : Nat) (s : State) : Host.Outcome State Fault Refusal :=
  if (s.core core).frozen || s.frameUsed core frame then .next s
  else .next (s.onCore core fun x => { x with retiring := x.retiring.filter (· != frame) })

/-- Causal loads and stores that are outside and lie in a region. -/
def State.causalIn (s : State) (d lri : Nat) : Bool :=
  let at_ := fun (a : Nat) => decide (a / 2 ^ 37 % 8 = d) && decide (a / 2 ^ 21 % 2 ^ 16 = lri) && decide (a < 2 ^ 40)
  s.dies.any (fun p => p.2.causal.any fun x => !x.data.isEmpty && ((x.dpa.map at_).getD false))
  || s.cores.any fun p => p.2.strands.toList.any fun t => t.loads.any fun l =>
      l.home.isSome && l.val.isNone && ((l.dpa.map at_).getD false)

/-- What a publish on a die waits for: units that have touched its set (R116), a swap of a region (R92), accesses issued before the hold, the same publish on a lower die (R215). -/
def State.pubWaits (s : State) (d : Nat) (p : PendPub) : Bool :=
  !s.pubInForce d p || p.pages.any (fun l => (s.rit d l).qs || s.causalIn d l)
  || (List.range d).any fun e => (s.die e).pubHeld.any fun q => q.id == p.id

/-- HBM_PUBLISH (R89, R116, R215): the regions whose publish was asked for first on a die take their shadows with their counters (R373), and RIT writes that it held take effect (R340). -/
def execHbmPublish (die : Nat) (s : State) : Host.Outcome State Fault Refusal :=
  match (s.die die).pubHeld with
  | [] => .next s
  | p :: r =>
    if s.pubWaits die p then .next s
    else
      let go := p.pages.filter fun l => (s.rit die l).shv
      let s1 := { s with ctrs := go.foldl (fun t l => tabCopy t (regionLines die l) s.shadowCtr (regionLines die (s.rit die l).spri) (2 ^ 15)) s.ctrs }
      .next ((s1.onDie die fun x =>
      { x with
        pubHeld := r
        rit := p.pages.foldl (fun t l =>
          let e := tabGet (RitEntry.init l) t l
          if e.shv then tabPut t l { e with pri := e.spri, spri := 0, shv := false } else t) x.rit }).applyRit die)

/-! ## Ending a task or a copy (R421) -/

/-- Discards a bound shadow: a page below 2^20, or a region of a die. -/
def State.dropShadow (s : State) (c n : Nat) : State :=
  if n < 2 ^ 20 then s.onCore c fun x =>
    { x with spm := tabPut x.spm n { x.spmAt n with shf := 0, shv := false, ren := false } }
  else
    let d := n / 2 ^ 20 - 1
    s.onDie d fun y => { y with rit := tabPut y.rit (n % 2 ^ 20) { y.ritAt (n % 2 ^ 20) with spri := 0, shv := false } }

/-- Ends a task (R421): shadows discarded without a publish, status with ENDED, counter decremented once, edges resolved. -/
def State.endTask (s : State) (c n : Nat) : State :=
  match tabFind (s.core c).window n with
  | none => s
  | some t =>
    let s1 := (t.shadows ++ (if t.bound then (s.core c).renamedPages t else [])).foldl (fun u p => u.dropShadow c p) s
    let s2 := s1.onCore c fun x =>
      { x with
        reserved := if t.bound then x.reserved else x.reserved.filter fun f => !t.frames.contains f
        kernel := if (x.kernel.map (·.entry)) == some n then none else x.kernel
        staged := if (x.staged.map (·.entry)) == some n then none else x.staged
        pubs := x.pubs.filter fun p => p.entry != some (pubTask c n) }
    s2.freeTask c n t { t.flags with ended := true }

/-- Takes an entry out of a channel. -/
def Core.dropChan (x : Core) (ch eid : Nat) : Core := x.setChan ch ((x.chan ch).filter (·.eid != eid))

/-- What a copy that has finished, or has been ended, does to the counter and to the tag of a fill (R94, R136, R137, R421). -/
def State.closeCopy (s : State) (c ch : Nat) (e : ChanEntry) (ended : Bool) : State :=
  let s1 := if field e.tpl 4 2 / 2 ^ 15 = 1 then s.decCounter c (field e.tpl 4 2 % 2 ^ 9) 4 ch 0 else s
  let s2 := s1.onCore c fun x => { ((x.dropChan ch e.eid).dropItem e.eid) with active := true, fresh := true }
  match e.src with
  | .fill n => s2.onCore c fun x =>
      x.setTag n (if ended then { x.tagAt n with st := .invalid, pins := 0 }
        else if (x.tagAt n).st = .filling then { x.tagAt n with st := .valid } else x.tagAt n)
  | _ => s2

/-- Ends a copy or a fill (R421). -/
def State.endCopy (s : State) (c ch : Nat) (e : ChanEntry) : State :=
  ((e.shadows.foldl (fun u p => u.dropShadow c p) s).closeCopy c ch e true).forgetUnit (.chan c ch) (.copy c ch e.eid)

end Sys2Proof.Machine
end

