-- ==== Sys2Proof/Machine/Engine.lean ====
section
/-! DEFINITION. What engines share: the accesses of a task or copy, its units of work and how it runs, stops at a cause and finishes (R115, R119, R239, R321, R411, R417, R423, R427). -/
namespace Sys2Proof.Machine

/-- A task or copy at work: the record that describes it, the write regions that are renamed, the unit that faults, what its requests outside the module belong to, UNIT and SUB of its error records, and its counted item. -/
structure Job where
  core : Nat
  bytes : ByteList
  ren3 : Bool
  ren4 : Bool
  vbase : Nat
  unit : UnitRef
  req : ReqFor
  kind : Nat
  sub : Nat
  eid : Nat
  deriving DecidableEq, Repr

/-- Why a unit waits: an access that is held (R83, R92, R347), a shadow of a region to be bound (R89), or something that another unit does. -/
inductive Held where
  | access (w : Who) (x : Cause)
  | shadow (u : UnitRef) (d a : Nat)
  | turn
  deriving DecidableEq, Repr

/-- The outcome of an access: done; not now; a cause, which leaves nothing of its unit of work; a cause that leaves what stands in a state. -/
inductive Acc (α : Type) where
  | ok (v : α)
  | wait (h : Held)
  | bad (x : Cause)
  | part (s : State) (x : Cause)

def Acc.next {α β : Type} (a : Acc α) (f : α → Acc β) : Acc β :=
  match a with
  | .ok v => f v
  | .wait h => .wait h
  | .bad x => .bad x
  | .part s x => .part s x

/-- An access that meets a cause, or is held. -/
def Acc.of {α : Type} (w : Who) (a : Except Cause α) : Acc α :=
  match a with
  | .ok v => .ok v
  | .error x => if x.waits then .wait (.access w x) else .bad x

/-- A read that must ask outside the module waits until the writes that the same unit has sent there are done: the unit sees its own accesses in order (R98, R258, R293). -/
def Acc.ordered {α : Type} (s : State) (r : ReqFor) (a : Acc α) : Acc α :=
  match a with
  | .wait (.access w x) =>
    if (x.code = 1 ∨ x.code = 2) ∧ (s.requests.any fun q => q.whose == r && q.kind != 0) then .wait .turn else .wait (.access w x)
  | a => a

/-- A unit waits: it asks for what it waits for. -/
def State.wait (s : State) : Held → State
  | .access w x => s.await w x
  | .shadow u d a => s.onDie d fun y =>
    if y.bindAsk.any fun q => q.2 == u && q.1 / 2 ^ 21 == a / 2 ^ 21 then y else { y with bindAsk := y.bindAsk ++ [(a, u)] }
  | .turn => s

def Job.region (j : Job) (i : Nat) : Region := recRegion j.bytes i

def State.jobWho (s : State) (j : Job) : Who := { s.whoCore j.core j.kind with req := j.req }

/-- Keys of the W-store slice of a core. -/
def wKeys (c addr n : Nat) : List Nat := (List.range n).map fun i => wKey c (addr + i)

/-! ## What a unit has touched (R116, rule 3) -/

/-- Adds to a list what it does not hold. -/
def joinList (l new : NatList) : NatList := l ++ new.filter fun n => !l.contains n

/-- Notes the pages and regions that a task or copy has read or written. -/
def State.noteTouch (s : State) (r : ReqFor) (l : NatList) : State :=
  match r with
  | .task c n => s.onCore c fun x => { x with window := x.window.map fun p => (p.1, if p.1 = n then { p.2 with touched := joinList p.2.touched l } else p.2) }
  | .copy c ch e => s.onCore c fun x => x.setChan ch ((x.chan ch).map fun y => if y.eid = e then { y with touched := joinList y.touched l } else y)
  | _ => s

/-- A unit reads or writes logical pages of its core: one that would first touch a page of a pending publish waits with it. -/
def State.touchPages (s : State) (j : Job) (pages : NatList) : Acc State :=
  if (s.core j.core).pubs.any fun p => p.pages.any pages.contains && !(p.pages.any (s.touchedBy j.req).contains) then .wait .turn
  else .ok (s.noteTouch j.req pages)

/-- A unit has read or written an interval of device virtual memory. -/
def State.touchRegions (s : State) (j : Job) (k : AKind) (addr n : Nat) : State :=
  match s.pieces (s.jobWho j) k false addr n with
  | .ok ps => s.noteTouch j.req ((pieceRegions (ps.map (·.1))).map fun q => regionKey q.1 q.2)
  | .error _ => s

/-- Reads n bytes of a space (R77, R423): 0 local, 1 device virtual, 2 W-store. -/
def State.engRead (s : State) (j : Job) (space addr n : Nat) : Acc (ByteList × State) :=
  if n = 0 then .ok ([], s)
  else match space with
  | 0 =>
    if !(s.core j.core).localOk addr n then .bad ⟨0x301, BitVec.ofNat 64 addr, 0⟩
    else (s.touchPages j ((s.core j.core).pagesIn addr (addr + n))).next fun t =>
      (Acc.of (s.jobWho j) (t.readLocalChecked j.core addr n)).next fun b => .ok (b, t)
  | 1 => (Acc.ordered s j.req (Acc.of (s.jobWho j) (s.readV (s.jobWho j) .read addr n))).next fun r => .ok (r.1, r.2.touchRegions j .read addr n)
  | _ =>
    if addr + n > 2 ^ 21 then .bad ⟨0x301, BitVec.ofNat 64 addr, 0⟩
    else match s.poisonedAt (wKeys j.core addr n) with
    | some k => .bad (sramCause 2 (k % 2 ^ 21) (k % 2 ^ 21))
    | none => .ok ((wKeys j.core addr n).map (memByte s.mem), s)

/-- Reads runs of a space one after another. -/
def State.engReads (j : Job) (space : Nat) : List (Nat × Nat) → State → Acc (ByteList × State)
  | [], s => .ok ([], s)
  | (a, n) :: r, s =>
    (s.engRead j space a n).next fun p => (State.engReads j space r p.2).next fun q => .ok (p.1 ++ q.1, q.2)

/-- Notes a shadow that a unit has bound (R421). -/
def State.noteShadow (s : State) (j : Job) (n : Nat) : State :=
  s.onCore j.core fun x =>
    { x with
      window := x.window.map fun p => (p.1, if j.unit = .task j.core p.1 then { p.2 with shadows := n :: p.2.shadows } else p.2)
      chans := x.chans.map fun l => l.map fun e => if e.eid = j.eid ∧ j.unit = .chan j.core j.sub then { e with shadows := n :: e.shadows } else e }

/-- Binds the shadows of the pages that an S write touches (R76, R427). -/
def State.bindPages (j : Job) (addr : Nat) : List Nat → State → Acc State
  | [], s => .ok s
  | p :: r, s =>
    let x := s.core j.core
    if (x.spmAt p).shv then State.bindPages j addr r s
    else match x.spareFrames with
    | f :: _ => State.bindPages j addr r ((s.bindFrame j.core p f false).noteShadow j p)
    | [] =>
      if x.retiring.isEmpty then .bad ⟨0x801, BitVec.ofNat 64 (max addr (x.spBase + p * 8192)), 0⟩ else .wait .turn

/-- The first place of an S write whose region needs a shadow (R89): its die, and the address within the die. -/
def State.unbound (s : State) (ps : List (Piece × TlbEntry)) : Option (Nat × Nat) :=
  ps.findSome? fun p => match p.1.loc with
    | .hbm dpa _ =>
      let d := dpa / 2 ^ 37 % 8
      if (s.rit d (dpa / 2 ^ 21 % 2 ^ 16)).shv then none else some (d, dpa % 2 ^ 37)
    | _ => none

/-- A write to device virtual memory, plain or shadow (R89, R115, R120): a shadow that a region lacks is asked for first. -/
def State.engWriteG (s : State) (j : Job) (shadow : Bool) (addr : Nat) (b : ByteList) : Acc State :=
  let w := s.jobWho j
  if shadow && s.leavesTier0 w .write addr b.length then .bad ⟨0x303, BitVec.ofNat 64 addr, 0⟩
  else match s.pieces w .write false addr b.length with
  | .error x => if x.waits then .wait (.access w x) else .bad x
  | .ok ps =>
    match s.blockedAt w.req (pieceRegions (ps.map (·.1))), if shadow then s.unbound ps else none with
    | some k, _ => .wait (.access w ⟨3, BitVec.ofNat 64 k, 0⟩)
    | none, some q => .wait (.shadow j.unit q.1 q.2)
    | none, none => (Acc.of w (s.writeV w shadow addr b)).next fun t => .ok (t.touchRegions j .write addr b.length)

/-- Writes bytes in a space: 0 local, 1 device virtual, 2 W-store. -/
def State.engWrite (s : State) (j : Job) (shadow : Bool) (space addr : Nat) (b : ByteList) : Acc State :=
  if b.isEmpty then .ok s
  else match space with
  | 0 =>
    if !(s.core j.core).localOk addr b.length then .bad ⟨0x301, BitVec.ofNat 64 addr, 0⟩
    else
      (s.touchPages j ((s.core j.core).pagesIn addr (addr + b.length))).next fun u =>
      (if shadow then State.bindPages j addr ((s.core j.core).pagesIn addr (addr + b.length)) u else .ok u).next fun t =>
        .ok (t.putLocal j.core shadow addr b)
  | 1 => if addr + b.length > 2 ^ 57 then .bad ⟨0x301, BitVec.ofNat 64 addr, 0⟩ else s.engWriteG j shadow addr b
  | _ =>
    if addr + b.length > 2 ^ 21 then .bad ⟨0x301, BitVec.ofNat 64 addr, 0⟩
    else .ok ({ s with mem := memSetList s.mem (wKey j.core addr) b }.cleanWords (wKeys j.core addr b.length))

/-- Whether writes through a write slot land in a shadow (R115, R127). -/
def Job.shadowed (j : Job) (slot : Nat) : Bool := (j.region slot).sh || (slot == 3 && j.ren3) || (slot == 4 && j.ren4)

/-- Writes bytes through a write slot. -/
def State.engPut (s : State) (j : Job) (slot addr : Nat) (b : ByteList) : Acc State :=
  s.engWrite j (j.shadowed slot) ((s.core j.core).regSpace (j.region slot)) addr b

/-- Writes runs of bytes one after another through a write slot. -/
def State.engPuts (j : Job) (slot : Nat) : List (Nat × ByteList) → State → Acc State
  | [], s => .ok s
  | (a, b) :: r, s => (s.engPut j slot a b).next fun t => State.engPuts j slot r t

/-- The part of a list of runs that holds n bytes from a position of their stream on. -/
def takeRuns : List (Nat × Nat) → Nat → Nat → List (Nat × Nat)
  | [], _, _ => []
  | (a, l) :: r, pos, n =>
    if n = 0 then []
    else if pos ≥ l then takeRuns r (pos - l) n
    else (a + pos, min (l - pos) n) :: takeRuns r 0 (n - min (l - pos) n)

/-- Cuts bytes to runs. -/
def overRuns : List (Nat × Nat) → ByteList → List (Nat × ByteList)
  | [], _ => []
  | (a, n) :: r, b => (a, b.take n) :: overRuns r (b.drop n)

/-- Reads n bytes at a position of a region's stream in box order (R258). -/
def State.readStream (s : State) (j : Job) (slot pos n : Nat) : Acc (ByteList × State) :=
  let x := s.core j.core
  State.engReads j (x.regSpace (j.region slot)) (takeRuns (x.boxRows (j.region slot)) pos n) s

/-- Writes bytes from a position of a write slot's stream on. -/
def State.writeStream (s : State) (j : Job) (slot pos : Nat) (b : ByteList) : Acc State :=
  State.engPuts j slot (overRuns (takeRuns ((s.core j.core).boxRows (j.region slot)) pos b.length) b) s

/-- Reads bytes that the task itself has written through a write slot: from the shadow where its writes land in one (R115). -/
def State.engBack (s : State) (j : Job) (slot addr n : Nat) : Acc ByteList :=
  let sh := j.shadowed slot
  match (s.core j.core).regSpace (j.region slot) with
  | 0 =>
    let ks := (List.range n).filterMap fun i => s.localKey j.core sh (addr + i)
    match s.poolCause j.core addr ks with
    | some x => .bad x
    | none => .ok (ks.map (memByte s.mem))
  | 1 =>
    let w := s.jobWho j
    Acc.ordered s j.req (Acc.of w (match s.pieces w .write sh addr n with
      | .error x => .error x
      | .ok ps => match s.stops w false sh (ps.map (·.1)) with
        | some x => .error x
        | none => .ok (ps.map fun p => s.readPiece w.req p.1).flatten))
  | _ => match s.poisonedAt (wKeys j.core addr n) with
    | some k => .bad (sramCause 2 (k % 2 ^ 21) (k % 2 ^ 21))
    | none => .ok ((wKeys j.core addr n).map (memByte s.mem))

/-- Reads back n bytes at a position of a write slot's stream. -/
def State.backStream (s : State) (j : Job) (slot pos n : Nat) : Acc ByteList :=
  (takeRuns ((s.core j.core).boxRows (j.region slot)) pos n).foldl
    (fun a q => a.next fun b => (s.engBack j slot q.1 q.2).next fun c => .ok (b ++ c)) (.ok [])

/-- Refuses an access outside the regions of the record (R119, R411). -/
def State.inRegion (s : State) (j : Job) (space lo hi : Nat) (write : Bool) : Acc Nat :=
  match (s.core j.core).regionFor j.bytes j.vbase space lo hi write with
  | some p => .ok p.1
  | none => .bad ((s.core j.core).regionFault j.bytes j.vbase space lo write)

/-! ## Status (R239, R404) -/

def TaskFlags.join (a b : TaskFlags) : TaskFlags :=
  ⟨a.sat || b.sat, a.inf || b.inf, a.merge || b.merge, a.nanb || b.nanb, a.badt || b.badt, a.ended || b.ended, a.count + b.count⟩

/-- Adds to what a task has accrued; copies that are no tasks accrue nothing. -/
def State.accrue (s : State) (j : Job) (f : TaskFlags) : State :=
  s.onCore j.core fun x =>
    { x with window := x.window.map fun p => (p.1, if j.unit = .task j.core p.1 then { p.2 with flags := p.2.flags.join f } else p.2) }

/-! ## Units of work (R269) -/

/-- Runs units from k on: up to one that waits or meets a cause, which leaves nothing of that unit. -/
def runUnits (step : Nat → State → Acc State) (note : Nat → State → State) : Nat → Nat → State → State × Option Cause × Bool
  | 0, _, s => (s, none, true)
  | n + 1, k, s =>
    match step k s with
    | .ok t => runUnits step note n (k + 1) (note (k + 1) t)
    | .wait h => (s.wait h, none, false)
    | .bad x => (s, some x, false)
    | .part t x => (t, some x, false)

def State.onTask (s : State) (c n : Nat) (f : TaskRec → TaskRec) : State :=
  s.onCore c fun x => { x with window := x.window.map fun p => (p.1, if p.1 = n then f p.2 else p.2) }

/-- A core has been active (R428). -/
def State.stirred (s : State) (c : Nat) : State := s.onCore c fun x => { x with active := true, fresh := true }

/-- Stops a task at its boundary with a cause (R321, R417). -/
def State.stopTask (s : State) (c n sub : Nat) (x : Cause) : State :=
  let p := s.corePart c
  let cls := (((tabFind (s.core c).window n).map fun t => recCls t.bytes)).getD 0
  (s.onTask c n fun t => { t with st := .stopped }).unitFault (.task c n) x (classUnit cls) c sub n (some (p.queue, p.key))

/-- The job of a window entry. -/
def TaskRec.job (t : TaskRec) (c n sub eid : Nat) : Job :=
  ⟨c, t.bytes, t.ren3, t.ren4, t.vbase, .task c n, .task c n, classUnit (recCls t.bytes), sub, eid⟩

/-- Iterations of the loop nest (R245). -/
def recIters (r : ByteList) : Nat := ((List.range (recNloop r)).map (recCount r)).foldl (· * ·) 1

/-- Units of a matrix or transpose task between two of its stop points (R269): in a pass of a product its start and its rows; for MMC and TOPK all of them. -/
def Core.stopUnits (x : Core) (r : ByteList) : Nat :=
  if recOper r = 0x02 ∨ recOper r = 0x08 ∨ recOper r = 0x05 ∨ recOper r = 0x06 then recIters r + 1
  else if recOper r = 0x03 ∨ recOper r = 0x04 then x.regBytes (recRegion r 0) / 512 + 1
  else 1

/-- Whether a task stands between two stop points. -/
def TaskRec.midway (t : TaskRec) (x : Core) : Bool := t.prog % x.stopUnits t.bytes != 0

/-- A window entry that its engine may run now: of the operation, running or first in line, on a live core, or, while its part is being saved, up to its next stop point (R324). -/
def State.runnable (s : State) (c n oper : Nat) : Option TaskRec :=
  let x := s.core c
  match tabFind x.window n with
  | some t =>
    if recOper t.bytes = oper ∧ (t.st = .running ∨ (t.st = .staged ∧ !x.engineBusy (recCls t.bytes)))
        ∧ (s.coreLive c ∨ (!x.frozen ∧ s.savingCore c ∧ t.midway x)) then some t
    else none
  | none => none

/-- How many units a step of a task runs at most (log 2): all that are left, those that its move allows, those up to its next stop point while its part is being saved. -/
def State.paced (s : State) (c left toStop : Nat) : Nat :=
  let n := min left (s.pace.getD left)
  if s.savingCore c then min n toStop else n

/-- Runs a matrix or transpose task from its next unit on: to its end, to a wait or to a cause. -/
def State.runTask (s : State) (c n oper : Nat) (units : State → Job → Nat) (step : Job → Nat → State → Acc State) :
    Host.Outcome State Fault Refusal :=
  match s.runnable c n oper with
  | none => .next s
  | some t =>
    let j := t.job c n 0 0
    let s1 := s.onTask c n fun y => { y with st := .running }
    let left := units s1 j - t.prog
    let g := (s.core c).stopUnits t.bytes
    let m := s.paced c left (g - t.prog % g)
    match runUnits (step j) (fun k u => ((u.onTask c n fun y => { y with prog := k }).stirred c).spend j.req) m t.prog s1 with
    | (u, some x, _) => .next (u.stopTask c n 0 x)
    | (u, none, true) => .next (if m = left then u.onTask c n fun y => { y with st := .done } else u)
    | (u, none, false) => .next u

end Sys2Proof.Machine
end

