-- ==== Sys2Proof/Machine/Copies.lean ====
section
/-! DEFINITION. The transpose engine and the operations of the copy class, box row by box row: copies, conversions, fills, gathers, scatters, routing (R139 to R142, R257 to R266). Collectives are in Collectives.lean. -/
namespace Sys2Proof.Machine

/-! ## Elements of a format (R54, R55, R58) -/

/-- Bytes and elements of the smallest run that holds whole elements. -/
def Fmt.group (f : Fmt) : Nat × Nat :=
  match f with
  | .fl g => ((g.ebits + g.fbits + 1) / 8, 1)
  | .int w => if w ≥ 8 then (w / 8, 1) else (1, 8 / w)
  | .bfp m => (1 + 4 * m, 32)
  | .t3p5 => (1, 5)

/-- Elements of a group's bytes, with NANB and BADT (R403). -/
def Fmt.decodeGroup (f : Fmt) (b : ByteList) : List Fp × Bool × Bool :=
  match f with
  | .fl g => ([fpVal g (leNat b)], false, false)
  | .int w => ((List.range (max 1 (8 / w))).map fun k => fpOfInt (packedI w b k), false, false)
  | .bfp m => (bfpDecode m b, field b 0 1 == 255, false)
  | .t3p5 =>
    let c := field b 0 1
    ((List.range 5).map fun k => fpOfInt (t3p5Trit (if t3p5Ok c then c else 121) k), false, !t3p5Ok c)
where
  packedI (w : Nat) (b : ByteList) (k : Nat) : Int := sextInt (leNat b / 2 ^ (w * k)) w

/-- Elements that whole groups hold. -/
def Fmt.decodeAll (f : Fmt) (b : ByteList) : List Fp × Bool × Bool :=
  let l := (chunks f.group.1 (b.length / f.group.1) b).map f.decodeGroup
  (l.flatMap (·.1), l.any (·.2.1), l.any (·.2.2))

/-- What one value becomes in a format of one value per element: its bits, whether an integer saturated, whether a float overflowed (R239, R260). -/
def encodeElem (f : Fmt) (mode w : Nat) (v : Fp) : Nat × Bool × Bool :=
  match f with
  | .fl g => (roundFp g mode w v, false, fpOverflows g mode w v)
  | .int n =>
    let r := roundToInt mode w n v
    ((r % 2 ^ n).toNat, intSat mode w v r, false)
  | .t3p5 =>
    let r := min (max (roundToInt mode w 32 v) (-1)) 1
    ((r + 1).toNat, intSat mode w v r, false)
  | .bfp _ => (0, false, false)
where
  /-- Whether the value an integer conversion gives is not the one it rounds to (R63). -/
  intSat (mode w : Nat) (v : Fp) (r : Int) : Bool :=
    match v with
    | .nan => false
    | .inf _ => true
    | .fin s m e => roundIntFin mode w s m e != r

/-- The bytes of values in a format, with SAT and INF; word i is the random word of value i. -/
def Fmt.encodeAll (f : Fmt) (mode : Nat) (ws : Nat → Nat) (vs : List Fp) : ByteList × Bool × Bool :=
  match f with
  | .bfp m =>
    let bl := (chunks 32 (vs.length / 32) vs).mapIdx fun k l => (l, fun i => ws (32 * k + i))
    ((bl.map fun p => bfpEncode m mode p.2 p.1).flatten, bl.any fun p => bfpClamps m mode p.2 p.1, false)
  | _ =>
    let el := vs.mapIdx fun i v => encodeElem f mode (ws i) v
    let n := f.group.2
    let base := match f with
      | .t3p5 => 3
      | _ => 2 ^ f.unitBits
    let bytes := (chunks n (vs.length / n) (el.map (·.1))).flatMap fun g =>
      leBytes f.group.1 (g.foldr (fun d a => d + base * a) 0)
    (bytes, el.any (·.2.1), el.any (·.2.2))

/-! ## Rows of a copy (R258) -/

/-- Box rows of a region slot. -/
def State.rowsOf (s : State) (j : Job) (slot : Nat) : List (Nat × Nat) := (s.core j.core).boxRows (j.region slot)

/-- Bytes before row k. -/
def rowStart (rows : List (Nat × Nat)) (k : Nat) : Nat := ((rows.take k).map (·.2)).sum

/-- Row k of CPY and WST (R259, R262): bytes in box order, read in full before they are written. DESIGN CHOICE (log 93): the row that is read in full is the destination's where the sides' rows differ in length, and a handle-0 region is one row. -/
def cpyRow (j : Job) (k : Nat) (s : State) : Acc State :=
  let rows := s.rowsOf j 3
  match rows[k]? with
  | none => .ok s
  | some (a, n) => (s.readStream j 0 (rowStart rows k) n).next fun r => r.2.engPut j 3 a r.1

/-- Runs of source bytes that hold elements from p to p + n of a region, with the elements to leave out at the front. -/
def elemRuns (f : Fmt) : List (Nat × Nat) → Nat → Nat → List (Nat × Nat × Nat × Nat)
  | [], _, _ => []
  | (a, l) :: r, p, n =>
    let m := f.elems l
    if n = 0 then []
    else if p ≥ m then elemRuns f r (p - m) n
    else
      let q := min (m - p) n
      let g := f.group
      (a + p / g.2 * g.1, ((p + q - 1) / g.2 + 1 - p / g.2) * g.1, p % g.2, q) :: elemRuns f r 0 (n - q)

/-- Reads and decodes runs of elements. -/
def State.readElems (f : Fmt) (j : Job) (space : Nat) : List (Nat × Nat × Nat × Nat) → State → Acc (List Fp × State)
  | [], s => .ok ([], s)
  | (a, n, skip, q) :: r, s =>
    (s.engRead j space a n).next fun b =>
      let d := f.decodeAll b.1
      (State.readElems f j space r (b.2.accrue j { TaskFlags.none with nanb := d.2.1, badt := d.2.2 })).next fun t =>
        .ok ((d.1.drop skip).take q ++ t.1, t.2)

/-- Advances the copy converter once for each vector of up to 128 elements (R64): the states it takes. -/
def srStates : Nat → Nat → List Nat
  | 0, _ => []
  | n + 1, x => srAdvance x :: srStates n (srAdvance x)

/-- Row k of CVT (R260). -/
def cvtRow (j : Job) (k : Nat) (s : State) : Acc State :=
  let x := s.core j.core
  let sf := x.regFmt (j.region 0) (recAfmt j.bytes)
  let df := x.regFmt (j.region 3) (recWfmt j.bytes)
  let rows := s.rowsOf j 3
  match rows[k]? with
  | none => .ok s
  | some (a, n) =>
    let first := ((rows.take k).map fun p => df.elems p.2).sum
    (State.readElems sf j (x.regSpace (j.region 0)) (elemRuns sf (s.rowsOf j 0) first (df.elems n)) s).next fun r =>
      let st := srStates ((r.1.length + 127) / 128) x.srsc.toNat
      let e := df.encodeAll (recPar j.bytes 2 0) (fun i => srLane (st.getD (i / 128) 0) (i % 128)) r.1
      (r.2.engPut j 3 a (e.1.take n)).next fun t =>
        .ok ((t.onCore j.core fun y => { y with srsc := BitVec.ofNat 32 (st.getLastD y.srsc.toNat) }).accrue j
          { TaskFlags.none with sat := e.2.1, inf := e.2.2 })

/-- The repeated unit of FILL (R261). -/
def fillUnit (f : Fmt) (p : Nat) : ByteList :=
  match f with
  | .bfp m => leBytes 1 p ++ List.replicate (4 * m) (BitVec.ofNat 8 (p / 256))
  | _ => leBytes f.group.1 p

/-- n bytes of a repeated unit. -/
def repeatBytes (u : ByteList) (n : Nat) : ByteList := ((List.replicate (n / u.length + 1) u).flatten).take n

/-- Row k of FILL (R261). -/
def fillRow (j : Job) (k : Nat) (s : State) : Acc State :=
  match (s.rowsOf j 3)[k]? with
  | none => .ok s
  | some (a, n) => s.engPut j 3 a (repeatBytes (fillUnit ((s.core j.core).regFmt (j.region 3) (recAfmt j.bytes)) (recParam j.bytes)) n)

/-! ## Transposes (R257, R259) -/

/-- The address of an element of a side, es bytes each, at an index tuple relative to its origin. -/
def TSide.addr (t : TSide) (es : Nat) (i : Nat → Nat) : Nat :=
  t.base + (t.org.getD 0 0 + i 0) * es + ([1, 2, 3].map fun d => (t.org.getD d 0 + i d) * t.stride.getD (d - 1) 0).sum

/-- Refuses elements of a handle-0 side outside its interval (R119). -/
def State.tsideCheck (s : State) (j : Job) (slot es : Nat) (l : List Nat) : Option Cause :=
  let g := j.region slot
  if g.hnd ≠ 0 then none
  else (l.find? fun a => decide (a < g.first) || decide (g.first + g.len < a + es)).map fun a =>
    (s.core j.core).regionFault j.bytes j.vbase ((s.core j.core).regSpace g) a (slot == 3)

/-- Moves elements: all are read before one is written. Each pair is a source and a destination address. -/
def State.moveElems (s : State) (j : Job) (es : Nat) (l : List (Nat × Nat)) : Acc State :=
  match (s.tsideCheck j 0 es (l.map (·.1))).or (s.tsideCheck j 3 es (l.map (·.2))) with
  | some x => .bad x
  | none =>
    (State.engReads j ((s.core j.core).regSpace (j.region 0)) (l.map fun p => (p.1, es)) s).next fun r =>
      State.engPuts j 3 (overRuns (l.map fun p => (p.2, es)) r.1) r.2

/-- The source side, the destination side and the element size of a transpose. -/
def State.tsides (s : State) (j : Job) : TSide × TSide × Nat :=
  let x := s.core j.core
  (x.tside (j.region 0) (j.region 3), x.tside (j.region 3) (j.region 0), x.tsize (j.region 0) (j.region 3))

/-- Tiles of 32 × 32 elements along source dimensions 0 and 1. -/
def xpTiles (e : NatList) : Nat × Nat := ((e.getD 0 0 + 31) / 32, (e.getD 1 0 + 31) / 32)

/-- Tile k of XP, dimension 0 fastest (R257). -/
def xpTile (j : Job) (k : Nat) (s : State) : Acc State :=
  let t := s.tsides j
  let e := t.1.ext
  let n := xpTiles e
  let i0 := 32 * (k % n.1)
  let i1 := 32 * (k / n.1 % n.2)
  let i2 := k / (n.1 * n.2) % e.getD 2 0
  let i3 := k / (n.1 * n.2 * e.getD 2 0)
  let cells := (List.range (min 32 (e.getD 1 0 - i1))).flatMap fun b => (List.range (min 32 (e.getD 0 0 - i0))).map fun a => (i0 + a, i1 + b)
  s.moveElems j t.2.2 (cells.map fun p =>
    (t.1.addr t.2.2 fun d => [p.1, p.2, i2, i3].getD d 0, t.2.1.addr t.2.2 fun d => [p.2, p.1, i2, i3].getD d 0))

/-- XP (R257). -/
def execXp (core entry : Nat) (s : State) : Host.Outcome State Fault Refusal :=
  s.runTask core entry 0x30 (fun u j =>
    let e := (u.tsides j).1.ext
    (xpTiles e).1 * (xpTiles e).2 * e.getD 2 0 * e.getD 3 0) xpTile

/-- Destination row k of CPY.T8 and CPY.T16 (R259): gathered from a strided column of the source. -/
def transposeRow (j : Job) (k : Nat) (s : State) : Acc State :=
  let t := s.tsides j
  let e := t.1.ext
  let i0 := k % max 1 (e.getD 0 0)
  let i2 := k / max 1 (e.getD 0 0) % max 1 (e.getD 2 0)
  let i3 := k / (max 1 (e.getD 0 0) * max 1 (e.getD 2 0))
  s.moveElems j t.2.2 ((List.range (e.getD 1 0)).map fun i1 =>
    (t.1.addr t.2.2 fun d => [i0, i1, i2, i3].getD d 0, t.2.1.addr t.2.2 fun d => [i1, i0, i2, i3].getD d 0))

def transposeRows (s : State) (j : Job) : Nat :=
  let e := (s.tsides j).1.ext
  if e.getD 1 0 = 0 then 0 else e.getD 0 0 * e.getD 2 0 * e.getD 3 0

/-! ## Gather and scatter (R263, R264) -/

/-- Entries of an index list. -/
def State.listLen (s : State) (j : Job) (slot : Nat) : Nat := (s.core j.core).regBytes (j.region slot) / 4

/-- Entry q of a list of INT32 values. -/
def State.listAt (s : State) (j : Job) (slot q : Nat) : Acc (Int × State) :=
  (s.readStream j slot (4 * q) 4).next fun r => .ok (sextInt (leNat r.1) 32, r.2)

/-- The run of a table at a dimension-1 index, or REGION when the row lies outside the region (R263, R411). -/
def State.tableRow (s : State) (j : Job) (slot : Nat) (i : Int) : Acc (Nat × Nat) :=
  let x := s.core j.core
  let g := j.region slot
  let h := x.handleAt g.hnd
  let r := runOf h.unitBits (g.org1 0) (g.ext1 0)
  let a : Int := (x.handleBase h + r.1 + ((List.range (h.ndim - 2)).map fun d => g.org1 (d + 2) * h.strideOf (d + 2)).sum : Nat) + i * h.strideOf 1
  if (g.org1 1 : Int) ≤ i ∧ i < g.org1 1 + g.ext1 1 then .ok (a.toNat, r.2)
  else
    let f := x.regionFault j.bytes j.vbase (x.regSpace g) a.toNat (slot == 3)
    .bad { f with info := w64 a }

/-- Row q of GATH (R263). DESIGN CHOICE (log 94): the zeros of an index of −1 are bytes of zero, in T3P5 too, where such a byte decodes as five trits of −1. -/
def gathRow (j : Job) (q : Nat) (s : State) : Acc State :=
  (s.listAt j 1 q).next fun i =>
    (i.2.tableRow j 3 ((j.region 3).org1 1 + q)).next fun d =>
      let src := if i.1 = -1 then Acc.ok (List.replicate d.2 0#8, i.2)
        else (i.2.tableRow j 0 i.1).next fun p => i.2.engRead j ((s.core j.core).regSpace (j.region 0)) p.1 p.2
      src.next fun r =>
        (r.2.engPut j 3 d.1 r.1).next fun t => .ok (t.accrue j { TaskFlags.none with count := 1 })

/-- Entry q of SCAT (R264). -/
def scatRow (j : Job) (q : Nat) (s : State) : Acc State :=
  (s.listAt j 1 q).next fun i =>
    if i.1 = -1 then .ok i.2
    else
      (i.2.tableRow j 0 ((j.region 0).org1 1 + q / max 1 (recPar j.bytes 15 0))).next fun p =>
      (i.2.tableRow j 3 i.1).next fun d =>
      (i.2.engRead j ((s.core j.core).regSpace (j.region 0)) p.1 p.2).next fun r =>
      (r.2.engPut j 3 d.1 r.1).next fun t => .ok (t.accrue j { TaskFlags.none with count := 1 })

/-! ## Routing (R265, R266) -/

/-- n INT32 values of a list from value p on. -/
def State.readInts (s : State) (j : Job) (slot p n : Nat) : Acc (List Int × State) :=
  (s.readStream j slot (4 * p) (4 * n)).next fun r => .ok ((chunks 4 (r.1.length / 4) r.1).map fun b => sextInt (leNat b) 32, r.2)

/-- Entries of a route list: experts and gates. -/
def routesOf (b : ByteList) : List (Int × Nat) := (chunks 8 (b.length / 8) b).map fun e => (sextInt (field e 0 4) 32, field e 4 4)

/-- n entries of a route list from entry p on. -/
def State.readRoutes (s : State) (j : Job) (slot p n : Nat) : Acc (List (Int × Nat) × State) :=
  (s.readStream j slot (8 * p) (8 * n)).next fun r => .ok (routesOf r.1, r.2)

def int32Bytes (v : Int) : ByteList := leBytes 4 (v % 2 ^ 32).toNat
def routeBytes (l : List (Int × Nat)) : ByteList := l.flatMap fun p => int32Bytes p.1 ++ leBytes 4 p.2

/-- Units of a list of n entries: 64 entries each (R269); log 95: each is read when it comes. -/
def listUnits (n : Nat) : Nat := max 1 ((n + 63) / 64)

/-- State of HIST over the entries it has taken: the choices of the current token, the list written so far, the duplicates, the overflow flag. -/
structure HistAcc where
  row : List (Int × Nat)
  out : List (Int × Nat)
  merged : Nat
  inf : Bool

/-- One entry of a route list (R265). e is its physical expert. -/
def HistAcc.add (a : HistAcc) (e : Int) (gate : Nat) : HistAcc :=
  if e = -1 then { a with row := a.row ++ [(-1, 0)] }
  else match a.row.findIdx? fun p => p.1 == e with
  | some f =>
    let v := fpAdd (fpVal fmtF32 (a.row.getD f (0, 0)).2) (fpVal fmtF32 gate)
    { a with row := a.row.set f (e, roundF32 v) ++ [(-1, 0)], merged := a.merged + 1, inf := a.inf || fpOverflows fmtF32 0 0 v }
  | none => { a with row := a.row ++ [(e, gate)] }

/-- The physical expert of an entry, or the list entry outside its region that it names: slot and index (R265). -/
def physical (tab : Option (List Int)) (ne : Nat) (l : Int) : Except (Nat × Int) Int :=
  let e := if l = -1 then Except.ok (-1) else match tab with
    | none => .ok l
    | some t => if 0 ≤ l ∧ l < t.length then .ok (t.getD l.toNat (-1)) else .error (1, l)
  match e with
  | .ok v => if v = -1 ∨ (0 ≤ v ∧ v < ne) then .ok v else .error (3, v)
  | .error x => .error x

/-- Runs HIST over entries; k counts choices of a token. -/
def histRun (tab : Option (List Int)) (ne jj : Nat) : Nat → List (Int × Nat) → HistAcc → Except (Nat × Int) HistAcc
  | _, [], a => .ok { a with out := a.out ++ a.row, row := [] }
  | k, (l, g) :: r, a =>
    match physical tab ne l with
    | .error x => .error x
    | .ok e =>
      let b := a.add e g
      if k + 1 = jj then histRun tab ne jj 0 r { b with out := b.out ++ b.row, row := [] } else histRun tab ne jj (k + 1) r b

/-- REGION for entry i of 4 bytes of a list (R265, R266). -/
def State.entryFault (s : State) (j : Job) (slot : Nat) (i : Int) : Cause :=
  let x := s.core j.core
  let a : Int := x.regLo (j.region slot) + 4 * i
  { x.regionFault j.bytes j.vbase (x.regSpace (j.region slot)) a.toNat (slot == 3) with info := w64 a }

/-- Entries that a list of entries of w bytes in RG0 holds. -/
def State.entries (s : State) (j : Job) (w : Nat) : Nat := (s.core j.core).regBytes (j.region 0) / w

/-- How often each of the experts below ne stands in a resolved list. -/
def histOf (ne : Nat) (l : List (Int × Nat)) : List Nat :=
  (l.foldl (fun (a : Array Nat) p => if p.1 < 0 then a else a.setIfInBounds p.1.toNat (a.getD p.1.toNat 0 + 1)) (Array.replicate ne 0)).toList

/-- Entries 64k to 64k + 63 of HIST (R265): the resolved entries of the token in hand stand in RG4; the counts are those of the list, written after its last entry. -/
def histUnit (j : Job) (k : Nat) (s : State) : Acc State :=
  let r := j.bytes
  let ne := recPar r 11 0
  let jj := max 1 (recPar r 23 12)
  let n := s.entries j 8
  let first := 64 * k / jj * jj
  (s.readRoutes j 0 (64 * k) (min 64 (n - 64 * k))).next fun routes =>
  (if recNrd r = 2 then (routes.2.readInts j 1 0 ((s.core j.core).regBytes (j.region 1) / 4)).next fun t => .ok (some t.1, t.2)
    else .ok (none, routes.2)).next fun tab =>
  (tab.2.backStream j 4 (8 * first) (8 * (64 * k - first))).next fun before =>
    match histRun tab.1 ne jj (64 * k - first) routes.1 ⟨routesOf before, [], 0, false⟩ with
    | .error x => .bad (s.entryFault j x.1 x.2)
    | .ok a =>
      (tab.2.writeStream j 4 (8 * first) (routeBytes a.out)).next fun t =>
      (if n ≤ 64 * k + 64 then
          (t.backStream j 4 0 (8 * n)).next fun l => t.writeStream j 3 0 ((histOf ne (routesOf l)).flatMap (leBytes 4))
        else .ok t).next fun u =>
      .ok (u.accrue j { TaskFlags.none with merge := decide (a.merged > 0), inf := a.inf, count := a.merged })

/-- Running sums of mode 0 (R266): results, whether one saturated, the sum that goes on to the next entries, if there are more. DESIGN CHOICE (log 96): the sum saturates at every addition; BASE is its first term, and y is added last. -/
def psumRun (more : Bool) (acc : Int) (sat : Bool) : List Int → List Int → List Int × Bool × Int
  | x :: xs, y :: ys =>
    let o := satSigned (acc + y) 32
    let a := satSigned (acc + x) 32
    let r := psumRun more a (sat || o != acc + y || ((more || !xs.isEmpty) && a != acc + x)) xs ys
    (o :: r.1, r.2)
  | _, _ => ([], sat, acc)

/-- Slots of mode 1 (R266). seen lists the experts met so far. -/
def psumSlots (off : List Int) (sat : Bool) : List Int → List Int → Except Int (List Int × Bool)
  | _, [] => .ok ([], sat)
  | seen, e :: r =>
    if e = -1 then (psumSlots off sat seen r).map fun p => (-1 :: p.1, p.2)
    else if e < 0 ∨ off.length ≤ e then .error e
    else
      let v := off.getD e.toNat 0 + (seen.filter (· == e)).length
      let o := satSigned v 32
      (psumSlots off (sat || o != v) (e :: seen) r).map fun p => (o :: p.1, p.2)

/-- Entries of PSUM. -/
def State.psumEntries (s : State) (j : Job) : Nat := s.entries j (if recPar j.bytes 0 0 = 0 then 4 else 8)

/-- Keeps the sum that goes on in a task's record. -/
def State.keepSum (s : State) (j : Job) (v : Int) : State :=
  match j.unit with
  | .task c n => s.onTask c n fun t => { t with acc := BitVec.ofInt 32 v }
  | _ => s

/-- The sum a PSUM task goes on from: BASE, or what it has kept. -/
def State.sumSoFar (s : State) (j : Job) (k : Nat) : Int :=
  match k, j.unit with
  | 0, _ => sextInt (recPar j.bytes 39 8) 32
  | _, .task c n => (((tabFind (s.core c).window n).map fun t => t.acc.toInt)).getD 0
  | _, _ => 0

/-- Entries 64k to 64k + 63 of PSUM (R266). -/
def psumUnit (j : Job) (k : Nat) (s : State) : Acc State :=
  let n := s.psumEntries j
  let m := min 64 (n - 64 * k)
  let put := fun (u : State) (l : List Int) (sat : Bool) =>
    (u.writeStream j 3 (256 * k) (l.flatMap int32Bytes)).next fun t => Acc.ok (t.accrue j { TaskFlags.none with sat := sat })
  if recPar j.bytes 0 0 = 0 then
    (s.readInts j 0 (64 * k) m).next fun x =>
    (if recNrd j.bytes = 2 then x.2.readInts j 1 (64 * k) m else .ok (x.1.map fun _ => 0, x.2)).next fun y =>
      let p := psumRun (decide (64 * k + m < n)) (s.sumSoFar j k) false x.1 y.1
      (put y.2 p.1 p.2.1).next fun t => .ok (t.keepSum j p.2.2)
  else
    (s.readRoutes j 0 0 (64 * k + m)).next fun x =>
    (x.2.readInts j 1 0 ((s.core j.core).regBytes (j.region 1) / 4)).next fun y =>
      let es := x.1.map (·.1)
      match psumSlots y.1 false (es.take (64 * k)) (es.drop (64 * k)) with
      | .error e => .bad (s.entryFault j 1 e)
      | .ok p => put y.2 p.1 p.2

/-! ## Templates (R140) -/

/-- The task record that a template stands for (R140): the operation of its KIND on its regions. -/
def templateRecord (t : ByteList) : ByteList :=
  let kind := field t 0 1
  leBytes 1 3 ++ leBytes 1 (if kind = 0 then 0x40 else if kind = 1 then 0x45 else 0x46)
  ++ leBytes 1 (if kind = 2 then field t 3 1 else field t 2 1) ++ leBytes 1 (if kind = 1 then field t 3 1 else 0)
  ++ slice t 4 2 ++ leBytes 6 0 ++ leBytes 1 (if kind = 2 then 4 else 5) ++ leBytes 3 0
  ++ (if kind = 2 then leBytes 16 0 else slice t 8 16) ++ leBytes 32 0 ++ slice t 0x18 16 ++ leBytes 16 0 ++ leBytes 24 0
  ++ (if kind = 0 then leBytes 8 0 else if kind = 1 then leBytes 1 (field t 1 1) ++ leBytes 7 0 else slice t 0x28 8)

end Sys2Proof.Machine
end

