-- ==== Sys2Proof/Machine/Collectives.lean ====
section
/-! DEFINITION. Collectives (R113, R267, R268, R411, R455), the copy channels' box rows and completions (R109, R141, R258), the rows of copy-class task operations, and shadows of HBM regions (R89, R427). -/
namespace Sys2Proof.Machine

/-! ## Participants (R267) -/

/-- Team indices of a core's strands. -/
def Core.teamOf (x : Core) : NatList := ((x.strands.toList.map (·.team)).find? fun l => !l.isEmpty).getD []

/-- Cores of the part on this module in the team instance at a level that holds a core, by ascending logical core number. -/
def State.teamCores (s : State) (c lvl : Nat) : List Nat :=
  let p := s.corePart c
  let key := (s.core c).teamOf.take (lvl + 1)
  (p.cores.filter fun d => ((s.core d).teamOf.take (lvl + 1)) == key).mergeSort fun a b => decide ((s.core a).lcore ≤ (s.core b).lcore)

/-- Modules that the team at a level spans (log 24). -/
def Part.span (p : Part) (lvl : Nat) : Nat :=
  match p.levels[lvl]? with
  | some l => if l.domain = 0 then max 1 l.fanout else 1
  | Option.none => 1

/-- The rank of a core: by gang index, then by logical core number. -/
def State.rankOf (s : State) (c lvl : Nat) : Nat :=
  let l := s.teamCores c lvl
  let at_ := (l.findIdx? (· == c)).getD 0
  if (s.corePart c).span lvl > 1 then (s.corePart c).gidx * l.length + at_ else at_

/-- The number of participants. -/
def State.ranks (s : State) (c lvl : Nat) : Nat := (s.corePart c).span lvl * (s.teamCores c lvl).length

/-- The window entry of a core that belongs to a round. -/
def Core.roundEntry (x : Core) (key round : Nat) : Option Nat :=
  (x.window.find? fun p => (recOper p.2.bytes == 0x49 || recOper p.2.bytes == 0x4A) && roundKey p.2.bytes == key && p.2.round == round).map (·.1)

/-- What a participant contributes (R267, R268): operation, AFMT, ROOT, element count in bytes, whether it declares RG0, and its data. -/
def contribution (oper afmt root len : Nat) (own : Bool) (b : ByteList) : ByteList :=
  leBytes 1 oper ++ leBytes 1 afmt ++ leBytes 2 root ++ leBytes 8 len ++ leBytes 1 (if own then 1 else 0) ++ b

/-- A contribution arrives for an entry, once. -/
def Core.receive (x : Core) (e rank : Nat) (b : ByteList) : Core :=
  if x.contribs.any fun q => q.entry == e && q.rank == rank then x else { x with contribs := x.contribs ++ [⟨e, rank, b⟩] }

/-- The team instance and tag of a collective as messages name it (log 24): level and tag, and the team's number. -/
def State.groupOf (s : State) (c lvl key : Nat) : Nat :=
  key + 2048 * teamNumber (s.corePart c).levels ((s.core c).teamOf.take (lvl + 1))

/-- Sends a message about a round to every other module that its team spans (R267, R370). -/
def State.tellPeers (s : State) (c lvl : Nat) (m : FabricMsg) : State :=
  let p := s.corePart c
  if p.span lvl > 1 then
    ((List.range (p.span lvl)).filter (· != p.gidx)).foldl (fun u i => u.sendFabric (coreDie c) (p.modules.getD i 0) 0 m) s
  else s

/-- The exchange of a participant that has read its contribution: it reaches the participants of this module that take part already, and theirs reach it; others are sent to the peer modules. -/
def State.exchange (s : State) (c e lvl key round rank : Nat) (b : ByteList) : State :=
  let others := (s.teamCores c lvl).filter (· != c)
  let s1 := s.onCore c (·.receive e rank b)
  let s2 := others.foldl (fun u d =>
    match (u.core d).roundEntry key round with
    | some f =>
      let theirs := (u.core d).contribs.find? fun q => q.entry == f && q.rank == u.rankOf d lvl
      let v := u.onCore d (·.receive f rank b)
      match theirs with
      | some q => v.onCore c (·.receive e q.rank q.data)
      | none => v
    | none => u) s1
  s2.tellPeers c lvl (.collective (s.groupOf c lvl key) round rank (s.corePart c).key b)

/-- The participants of this module in a round that a message names: cores and window entries; none unless every core of the team has admitted its record (log 98). -/
def State.partners (s : State) (group round key : Nat) : List (Nat × Nat) :=
  let lvl := group % 2048 / 256
  let l := (s.cores.map (·.1)).filter fun c =>
    (s.core c).part.isSome && (s.corePart c).key == key && decide ((s.corePart c).span lvl > 1) && s.groupOf c lvl (group % 2048) == group
  let m := l.filterMap fun c => ((s.core c).roundEntry (group % 2048) round).map fun e => (c, e)
  if m.length = l.length then m else []

/-- A contribution arrives from another module (R267); none while it is not yet taken. -/
def State.takeContribution (s : State) (group round rank key : Nat) (b : ByteList) : Option State :=
  match s.partners group round key with
  | [] => none
  | l => some (l.foldl (fun u p => u.onCore p.1 (·.receive p.2 rank b)) s)

/-- The contributions of a round by rank; none while one is missing. -/
def Core.roundData (x : Core) (e n : Nat) : Option (List ByteList) :=
  (List.range n).mapM fun r => (x.contribs.find? fun q => q.entry == e && q.rank == r).map (·.data)

/-- Whether the tasks of a round differ, or a BCST round breaks its rules (R268, R411). -/
def roundBad (l : List ByteList) : Bool :=
  let h := l.headD []
  let root := field h 2 2
  let rb := l.getD root []
  l.any (fun b => field b 0 1 != field h 0 1 || field b 1 1 != field h 1 1)
  || (if field h 0 1 = 0x4A then
        l.any (fun b => field b 2 2 != root) || decide (l.length ≤ root) || field rb 12 1 == 0
        || (l.zipIdx.any fun p => p.2 != root && field p.1 12 1 == 1)
        || l.any (fun b => field b 4 8 + 13 != rb.length)
      else l.any fun b => field b 4 8 != field h 4 8)

/-- One word of a sum, with its sticky flags. -/
structure LaneSum where
  v : Nat
  sat : Bool
  inf : Bool
  deriving DecidableEq, Repr

/-- Adds in rank order (R268), with SAT and INF. -/
def foldRanks (isInt : Bool) : List Nat → LaneSum
  | [] => ⟨0, false, false⟩
  | x :: r => r.foldl (fun a y =>
      if isInt then
        let t := sextInt a.v 32 + sextInt y 32
        let q := satSigned t 32
        { a with v := (q % 2 ^ 32).toNat, sat := a.sat || q != t }
      else
        let t := fpAdd (fpVal fmtF32 a.v) (fpVal fmtF32 y)
        { a with v := roundF32 t, inf := a.inf || fpOverflows fmtF32 0 0 t }) ⟨x, false, false⟩

/-- The column of word i over contributions. -/
def wordCol (l : List ByteList) (i : Nat) : List Nat := l.map fun b => field b (13 + 4 * i) 4

/-- The result of a round at a participant: bytes for RG3, bytes for RG4, flags (R268). DESIGN CHOICE (log 97): PRE = 1 in a record without RG4 writes no prefix and raises nothing. -/
def roundResult (r : ByteList) (rank : Nat) (l : List ByteList) : ByteList × ByteList × TaskFlags :=
  if recOper r = 0x4A then ((l.getD (recPar r 31 16) []).drop 13, [], TaskFlags.none)
  else
    let n := field (l.headD []) 4 8 / 4
    let isInt := recAfmt r == 8
    let tot := (List.range n).map fun i => foldRanks isInt (wordCol l i)
    let pre := if recPar r 3 3 = 1 ∧ recNwr r = 2 then (List.range n).map fun i => foldRanks isInt ((wordCol l i).take rank) else []
    ((tot.flatMap fun a => leBytes 4 a.v), (pre.flatMap fun a => leBytes 4 a.v),
      { TaskFlags.none with sat := (tot ++ pre).any (·.sat), inf := (tot ++ pre).any (·.inf) })

/-- Whether a region is too short for a result: REGION (R119). -/
def State.resultShort (s : State) (j : Job) (slot : Nat) (b : ByteList) : Option Cause :=
  let x := s.core j.core
  let g := j.region slot
  if x.regBytes g < b.length then some (x.regionFault j.bytes j.vbase (x.regSpace g) (x.regLo g + x.regBytes g) true) else none

/-- Writes box row i of a result through a write slot. -/
def State.putRow (s : State) (j : Job) (slot i : Nat) (b : ByteList) : Acc State :=
  let rows := s.rowsOf j slot
  match rows[i]? with
  | none => .ok s
  | some (a, n) => s.engPut j slot a ((b.drop (rowStart rows i)).take n)

/-- The rows that a collective's result is written in: those of RG3, and of RG4 where a prefix is written. -/
def State.resultRows (s : State) (j : Job) : Nat :=
  (s.rowsOf j 3).length + if recOper j.bytes = 0x49 ∧ recPar j.bytes 3 3 = 1 ∧ recNwr j.bytes = 2 then (s.rowsOf j 4).length else 0

/-- The first unit of ARED and BCST: the contribution is read and exchanged, once (R113, R267). -/
def collExchange (j : Job) (e : Nat) (s : State) : Acc State :=
  let r := j.bytes
  let lvl := recPar r 2 0
  let rank := s.rankOf j.core lvl
  let round := ((tabFind (s.core j.core).window e).map (·.round)).getD 0
  let len := fun i => (s.core j.core).regBytes (j.region i)
  if (s.core j.core).contribs.any fun q => q.entry == e && q.rank == rank then .ok s
  else
    (if recNrd r = 0 then .ok ([], s) else s.readStream j 0 0 (len 0)).next fun b =>
      .ok (b.2.exchange j.core e lvl (roundKey r) round rank
        (contribution (recOper r) (recAfmt r) (recPar r 31 16) (if recOper r = 0x4A then len 3 else len 0) (recNrd r == 1) b.1))

/-- Row i of the result, when every contribution is there (R113, R268, R411). -/
def collRow (j : Job) (e i : Nat) (s : State) : Acc State :=
  let r := j.bytes
  let lvl := recPar r 2 0
  match (s.core j.core).roundData e (s.ranks j.core lvl) with
  | none => .wait .turn
  | some l =>
    if roundBad l then .bad ⟨0x404, BitVec.ofNat 64 (recPar r 15 8), 0⟩
    else
      let o := roundResult r (s.rankOf j.core lvl) l
      match (s.resultShort j 3 o.1).or (if o.2.1.isEmpty then none else s.resultShort j 4 o.2.1) with
      | some x => .bad x
      | none =>
        let n := (s.rowsOf j 3).length
        (if i < n then s.putRow j 3 i o.1 else if o.2.1.isEmpty then .ok s else s.putRow j 4 (i - n) o.2.1).next fun t =>
          .ok (if i = 0 then t.accrue j o.2.2 else t)

/-- ARED and BCST, as units: the exchange, and then the rows of the result (R267, R269). -/
def collUnit (j : Job) (k : Nat) (s : State) : Acc State :=
  match j.unit, k with
  | .task _ e, 0 => collExchange j e s
  | .task _ e, i + 1 => collRow j e i s
  | _, _ => .ok s

/-! ## Channels (R109, R141) -/

/-- The units of a copy-class record. -/
def copyUnits (s : State) (j : Job) : Nat :=
  match recOper j.bytes with
  | 0x41 => transposeRows s j
  | 0x42 => transposeRows s j
  | 0x43 => s.listLen j 1
  | 0x44 => s.listLen j 1
  | 0x47 => listUnits (s.psumEntries j)
  | 0x48 => listUnits (s.entries j 8)
  | 0x49 => 1 + max 1 (s.resultRows j)
  | 0x4A => 1 + max 1 (s.resultRows j)
  | _ => (s.rowsOf j 3).length

/-- One unit of a copy-class record. -/
def copyUnit (j : Job) (k : Nat) (s : State) : Acc State :=
  match recOper j.bytes with
  | 0x41 => transposeRow j k s
  | 0x42 => transposeRow j k s
  | 0x43 => gathRow j k s
  | 0x44 => scatRow j k s
  | 0x45 => cvtRow j k s
  | 0x46 => fillRow j k s
  | 0x47 => psumUnit j k s
  | 0x48 => histUnit j k s
  | 0x49 => collUnit j k s
  | 0x4A => collUnit j k s
  | _ => cpyRow j k s

/-- The job of a channel entry. -/
def State.copyJob (s : State) (c ch : Nat) (e : ChanEntry) : Job :=
  match e.src with
  | .task n => (((tabFind (s.core c).window n).map fun t => t.job c n ch e.eid)).getD ⟨c, [], false, false, 0, .task c n, .task c n, 4, ch, e.eid⟩
  | _ => ⟨c, templateRecord e.tpl, false, false, 0, .chan c ch, .copy c ch e.eid, 4, ch, e.eid⟩

/-- The entry of a channel whose rows run now. -/
def Core.current (x : Core) (ch : Nat) : Option ChanEntry := (x.chan ch).find? fun e => !e.done

/-- Changes a channel entry. -/
def State.onEntry (s : State) (c ch eid : Nat) (f : ChanEntry → ChanEntry) : State :=
  s.onCore c fun x => x.setChan ch ((x.chan ch).map fun e => if e.eid = eid then f e else e)

/-- Moves a copy on to row k. -/
def State.noteRow (s : State) (c ch : Nat) (e : ChanEntry) (k : Nat) : State :=
  let t := s.onEntry c ch e.eid fun y => { y with row := k }
  match e.src with
  | .task n => t.onTask c n fun y => { y with prog := k }
  | _ => t

/-- Stops a copy at its row with a cause (R321, R417). -/
def State.stopCopy (s : State) (c ch : Nat) (e : ChanEntry) (x : Cause) : State :=
  let t := s.onEntry c ch e.eid fun y => { y with held := true }
  let p := s.corePart c
  match e.src with
  | .task n => t.stopTask c n ch x
  | _ => t.unitFault (.chan c ch) x 4 c ch 0 (some (p.queue, p.key))

/-- Stops whatever runs a window entry with a cause: its kernel, its copy, its engine (R321, R417). -/
def State.stopRunning (s : State) (c n : Nat) (x : Cause) : State :=
  if ((s.core c).kernel.map (·.entry)) = some n then s.kernelFault c x
  else match ((s.core c).chan ((s.core c).chanOf n)).find? fun q => q.src == .task n with
  | some q => s.stopCopy c ((s.core c).chanOf n) q x
  | none => s.stopTask c n 0 x

/-- A copy whose rows are all written. -/
def State.finishCopy (s : State) (c ch : Nat) (e : ChanEntry) : State :=
  let t := s.onEntry c ch e.eid fun y => { y with done := true }
  match e.src with
  | .task n => t.onTask c n fun y => { y with st := .done }
  | _ => t

/-- Bytes that the contributions a core holds take in its saved exchange state, and whether there is room for them (R326; log 25). -/
def Core.contribBytes (x : Core) : Nat := (x.contribs.map fun q => 5 + q.data.length).sum
def Core.contribsFit (x : Core) : Bool := decide (x.contribBytes ≤ 168)

/-- Whether a contribution from another module has come. -/
def State.peerCame (s : State) (c n lvl : Nat) : Bool :=
  decide ((s.corePart c).span lvl > 1)
  && (s.core c).contribs.any fun q => q.entry == n && q.rank / (s.teamCores c lvl).length != (s.corePart c).gidx

/-- A collective in flight that a save lets run to its result (R267, R324; log 25): its contributions have no room in the image, and they are all there, or one has come from another module. -/
def State.exchanging (s : State) (c n : Nat) : Bool :=
  match tabFind (s.core c).window n with
  | none => false
  | some t =>
    let lvl := recPar t.bytes 2 0
    (recOper t.bytes == 0x49 || recOper t.bytes == 0x4A) && t.st == .running && !(s.core c).contribsFit
    && (((s.core c).roundData n (s.ranks c lvl)).isSome || s.peerCame c n lvl)

/-- Whether a contribution that this module has sent has not been acknowledged yet (R324). -/
def State.contribsOut (s : State) (key : Nat) : Bool :=
  let mine := fun (m : FabricMsg) => match m with
    | .collective _ _ _ k _ => k == key
    | _ => false
  (s.unsent.any fun q => mine q.2.2.2) || s.ports.any fun p => p.2.unacked.any fun f => mine f.msg

/-- Whether an entry of a channel may run while its part is being saved. -/
def State.runsOn (s : State) (c : Nat) (e : ChanEntry) : Bool :=
  !(s.core c).frozen && (s.corePart c).phase == .saving && (match e.src with
    | .task n => s.exchanging c n
    | _ => false)

/-- The entry of a channel that may run: on a live core, not held. -/
def State.copyReady (s : State) (c ch : Nat) : Option ChanEntry :=
  match (s.core c).current ch with
  | some e => if (s.coreLive c || s.runsOn c e) && !e.held then some e else none
  | none => none

/-- The channel whose turn it is: the first after the last one that has a row to run (R141). -/
def State.nextChan (s : State) (c : Nat) : Option Nat :=
  ((List.range 8).map fun i => ((s.core c).lastChan + 1 + i) % 8).find? fun ch => (s.copyReady c ch).isSome

/-- Whether a channel is alone in having a row to run. -/
def State.onlyChan (s : State) (c ch : Nat) : Bool := (List.range 8).all fun h => h == ch || (s.copyReady c h).isNone

/-- Runs at most some rows of a channel entry, when its channel has the turn; beside others it runs one (R141). -/
def State.runCopy (s : State) (c ch limit : Nat) (e : ChanEntry) : State :=
  if s.nextChan c = some ch then
    let s := s.onCore c fun x => { x with lastChan := ch }
    let j := s.copyJob c ch e
    let n := copyUnits s j
    let m := min (n - e.row) (if s.onlyChan c ch then limit else 1)
    match runUnits (copyUnit j) (fun k u => ((u.noteRow c ch e k).stirred c).spend j.req) m e.row s with
    | (u, some x, _) => u.stopCopy c ch e x
    | (u, none, fin) => if fin && decide (n ≤ e.row + m) then u.finishCopy c ch e else u
  else s

/-- COPY_BOX_ROW (R141, R258): one box row of the channel's oldest entry that has rows left. -/
def execCopyBoxRow (core ch : Nat) (s : State) : Host.Outcome State Fault Refusal :=
  match s.copyReady core ch with
  | some e => .next (s.runCopy core ch 1 e)
  | none => .next s

/-- COPY_COMPLETION (R109, R136, R141): the oldest entry of a channel, once its writes are performed. -/
def execCopyCompletion (core ch : Nat) (s : State) : Host.Outcome State Fault Refusal :=
  match (s.core core).chan ch with
  | [] => .next s
  | e :: _ =>
    match e.src with
    | .task _ => .next s
    | _ =>
      if e.done && !(s.core core).frozen && !s.asksOpen (.copy core ch e.eid) then
        .next (s.closeCopy core ch e false)
      else .next s

/-- Runs a copy-class task from its next row on: to its end, to a wait or to a cause, as far as its turn and its move go (log 2). -/
def State.copyTask (s : State) (c n oper : Nat) : Host.Outcome State Fault Refusal :=
  let ch := (s.core c).chanOf n
  match s.copyReady c ch with
  | some e =>
    let j := s.copyJob c ch e
    if e.src = .task n ∧ recOper j.bytes = oper then .next (s.runCopy c ch (s.pace.getD (copyUnits s j)) e) else .next s
  | none => .next s

/-- CPY (R259). -/
def execCpy (core entry : Nat) (s : State) : Host.Outcome State Fault Refusal := s.copyTask core entry 0x40
/-- CPY.T8 (R259). -/
def execCpyT8 (core entry : Nat) (s : State) : Host.Outcome State Fault Refusal := s.copyTask core entry 0x41
/-- CPY.T16 (R259). -/
def execCpyT16 (core entry : Nat) (s : State) : Host.Outcome State Fault Refusal := s.copyTask core entry 0x42
/-- GATH (R263). -/
def execGath (core entry : Nat) (s : State) : Host.Outcome State Fault Refusal := s.copyTask core entry 0x43
/-- SCAT (R264). -/
def execScat (core entry : Nat) (s : State) : Host.Outcome State Fault Refusal := s.copyTask core entry 0x44
/-- CVT (R260). -/
def execCvt (core entry : Nat) (s : State) : Host.Outcome State Fault Refusal := s.copyTask core entry 0x45
/-- FILL (R261). -/
def execFill (core entry : Nat) (s : State) : Host.Outcome State Fault Refusal := s.copyTask core entry 0x46
/-- PSUM (R266). -/
def execPsum (core entry : Nat) (s : State) : Host.Outcome State Fault Refusal := s.copyTask core entry 0x47
/-- HIST (R265). -/
def execHist (core entry : Nat) (s : State) : Host.Outcome State Fault Refusal := s.copyTask core entry 0x48
/-- ARED (R268). -/
def execAred (core entry : Nat) (s : State) : Host.Outcome State Fault Refusal := s.copyTask core entry 0x49
/-- BCST (R268). -/
def execBcst (core entry : Nat) (s : State) : Host.Outcome State Fault Refusal := s.copyTask core entry 0x4A
/-- WST (R262). -/
def execWst (core entry : Nat) (s : State) : Host.Outcome State Fault Refusal := s.copyTask core entry 0x4B

/-! ## Collectives across modules (R267, R455) -/

/-- COLLECTIVE_MESSAGE (R267, R363): a contribution from a peer module arrives at a participant. -/
def execCollectiveMessage (core entry rank : Nat) (data : ByteList) (s : State) : Host.Outcome State Fault Refusal :=
  match tabFind (s.core core).window entry with
  | some t =>
    let lvl := recPar t.bytes 2 0
    if (recOper t.bytes = 0x49 ∨ recOper t.bytes = 0x4A) ∧ rank < s.ranks core lvl ∧ (s.corePart core).span lvl > 1 ∧ s.linked
    then .next (s.onCore core (·.receive entry rank data)) else .next s
  | none => .next s

/-- Ends a participant's task of a round with the cause of another's failure (R455). -/
def State.endRound (s : State) (c n cause : Nat) (info : Word64) : State :=
  let p := s.corePart c
  (s.errorRecord ⟨cause, 1, 4, c, (s.core c).chanOf n, false, some (p.queue, p.key), n, info, 0, 0⟩).endTask c n

/-- Ends the tasks of a round at the other participants of this module, and tells the peer modules (R455). -/
def State.abandonRound (s : State) (c n cause : Nat) (info : Word64) : State :=
  match tabFind (s.core c).window n with
  | none => s
  | some t =>
    if recOper t.bytes ≠ 0x49 ∧ recOper t.bytes ≠ 0x4A then s
    else
      let lvl := recPar t.bytes 2 0
      (((s.teamCores c lvl).filter (· != c)).foldl (fun u d =>
        match (u.core d).roundEntry (roundKey t.bytes) t.round with
        | some f => u.endRound d f cause info
        | none => u) s).tellPeers c lvl (.abandon (s.groupOf c lvl (roundKey t.bytes)) t.round (s.rankOf c lvl) (s.corePart c).key cause)

/-- The TAG of a collective's record as INFO0. -/
def tagInfo (r : ByteList) : Word64 := BitVec.ofNat 64 (recPar r 15 8)

/-- An abandon message arrives from another module (R455): the tasks of the round here end. -/
def State.takeAbandon (s : State) (group round key cause : Nat) : State :=
  (s.cores.map (·.1)).foldl (fun u c =>
    if (s.core c).part.isSome && (s.corePart c).key == key && s.groupOf c (group % 2048 / 256) (group % 2048) == group then
      match (u.core c).roundEntry (group % 2048) round with
      | some e => u.endRound c e cause (BitVec.ofNat 64 (group % 256))
      | none => u
    else u) s

/-- COLLECTIVE_ABANDON (R363, R455): the receiving participant's task of the round ends with the cause. -/
def execCollectiveAbandon (core entry cause : Nat) (s : State) : Host.Outcome State Fault Refusal :=
  match tabFind (s.core core).window entry with
  | some t =>
    if (recOper t.bytes = 0x49 ∨ recOper t.bytes = 0x4A) ∧ s.linked then .next (s.endRound core entry cause (tagInfo t.bytes)) else .next s
  | none => .next s

/-! ## Shadows of HBM regions (R88, R89, R427) -/

/-- Whether a physical region is named by a valid entry of a die's table (R87). -/
def Die.named (x : Die) (pri : Nat) : Bool :=
  (match tabFind x.rit pri with
    | none => true
    | some _ => false)
  || x.rit.any fun p => p.2.v && (p.2.pri == pri || (p.2.shv && p.2.spri == pri))

/-- The spare regions of a die, lowest first (R87, R88, R424, R425): those no valid entry names, without withheld ones, those of channels that are being retired or are retired, and the staging region of a running swap. A region with no listed entry of its own number is named by that entry. -/
def Die.spares (x : Die) : List Nat :=
  ((x.rit.map (·.1)).filter fun r => !x.named r && !x.withheld.contains r && !x.leaving.getLsbD (chanBit r)
    && !(x.swap.any fun w => w.started && w.spare == r))

/-- Whether a region of a die is about to become spare (R427): the old one of a publish that holds accesses, or the staging region of a swap (log 99). -/
def State.regionComing (s : State) (d : Nat) : Bool :=
  ((s.die d).swap.any fun w => w.started) || (s.die d).pubHeld.any fun p => s.pubInForce d p && p.pages.any fun l => (s.rit d l).shv

/-- Copies a region: its bytes with the sidebands of its lines (R89, R371). -/
def State.copyRegion (s : State) (d dst src : Nat) : State :=
  let a := d * 2 ^ 37 + src * 2 ^ 21
  let b := d * 2 ^ 37 + dst * 2 ^ 21
  { s with
    mem := memCopy s.mem b a (2 ^ 21)
    lines := tabCopy s.lines (b / 64) s.lines (a / 64) (2 ^ 15) }

/-- HBM_SHADOW_BIND (R89, R427): an asked-for shadow takes the lowest spare region, and a second set of counters (R373); with none, and none about to be spare, the asking unit ends with NOSHADOW. -/
def execHbmShadowBind (die lri : Nat) (s : State) : Host.Outcome State Fault Refusal :=
  let x := s.die die
  match x.bindAsk.find? fun p => p.1 / 2 ^ 21 == lri with
  | none => .next s
  | some (a, u) =>
    let e := x.ritAt lri
    let drop := { x with bindAsk := x.bindAsk.filter fun q => q.1 / 2 ^ 21 != lri }
    let cause : Cause := ⟨0x801, BitVec.ofNat 64 (die * 2 ^ 37 + a), 0⟩
    if e.qs then .next s
    else if e.shv then .next (s.setDie die drop)
    else match x.spares with
    | p :: _ =>
      let key := 2 ^ 20 * (die + 1) + lri
      let s0 := s.copyRegion die p e.pri
      let s0 := { s0 with shadowCtr := tabCopy s0.shadowCtr (regionLines die p) s0.ctrs (regionLines die lri) (2 ^ 15) }
      let s1 := s0.setDie die { drop with rit := tabPut x.rit lri { e with spri := p, shv := true } }
      .next (match u with
        | .task c n => s1.onTask c n fun t => { t with shadows := key :: t.shadows }
        | .chan c ch => s1.onCore c fun y => y.setChan ch ((y.chan ch).map fun q => if (y.current ch).map (·.eid) = some q.eid then { q with shadows := key :: q.shadows } else q)
        | _ => s1)
    | [] =>
      if s.regionComing die then .next s
      else
      let s1 := s.setDie die drop
      .next (match u with
        | .task c n => s1.stopRunning c n cause
        | .chan c ch => match (s1.core c).current ch with
          | some q => s1.stopCopy c ch q cause
          | none => s1
        | _ => s1)

end Sys2Proof.Machine
end

