-- ==== Sys2Proof/Machine/CoxTasks.lean ====
section
/-! DEFINITION. Meanings of the Cox instructions that synchronise teams, catch barriers and counters, post tasks, start copies, bind streams and yield (R110, R111, R129 to R132, R139 to R146, R216 to R233, R407, R408, R454). -/
namespace Sys2Proof.Machine

/-! ## Team barriers (R111, R216, R217; log 24) -/

/-- The number by which a barrier knows a strand: gang index, logical core, slot. -/
def State.memberNo (s : State) (c k : Nat) : Nat := (s.corePart c).gidx * 65536 + (s.core c).lcore * 4 + k

/-- Whether a level's teams span modules (log 24). -/
def Part.spans (p : Part) (lvl : Nat) : Bool := decide (p.span lvl > 1)

/-- The strands of the part, on this module, in the team at a level of a strand with some team indices. -/
def State.members (s : State) (p : Part) (lvl : Nat) (team : NatList) : List (Nat × Nat) :=
  p.cores.flatMap fun d => (List.range 4).filterMap fun k =>
    let t := (s.strand d k).team
    if t ≠ [] ∧ (p.spans lvl ∨ t.take (lvl + 1) = team.take (lvl + 1)) then some (d, k) else none

/-- The number of the team of a strand at a level. -/
def Part.teamKey (p : Part) (lvl : Nat) (team : NatList) : Nat :=
  if p.spans lvl then 0 else teamNumber (p.levels.take (lvl + 1)) (team.take (lvl + 1))

def Part.barAt (p : Part) (lvl key : Nat) : TeamBar := (p.bars.find? fun b => b.level == lvl && b.team == key).getD ⟨lvl, key, 0, []⟩
def Part.setBar (p : Part) (b : TeamBar) : Part :=
  { p with bars := (p.bars.filter fun q => !(q.level == b.level && q.team == b.team)) ++ [b] }

/-- An arrival for a generation, counted once. -/
def TeamBar.arrive (b : TeamBar) (gen member : Nat) : TeamBar :=
  if b.arrived.contains (gen, member) then b else { b with arrived := b.arrived ++ [(gen, member)] }

/-- Whether every member has arrived or exited: mem are the members on this module, span the modules. -/
def State.roundOver (s : State) (p : Part) (b : TeamBar) (mem : List (Nat × Nat)) : Bool :=
  mem.all (fun q => (s.strand q.1 q.2).status == .exited || b.arrived.contains (b.gen.toNat, s.memberNo q.1 q.2))
  && decide ((((b.arrived.filter fun q => (q.1 == b.gen.toNat || q.1 == 65536) && q.2 / 65536 != p.gidx).map (·.2)).eraseDups).length
      ≥ (p.span b.level - 1) * mem.length)

/-- Ends the round of a barrier when it is over: the generation increments. -/
def State.settle (s : State) (p : Part) (b : TeamBar) (mem : List (Nat × Nat)) : TeamBar :=
  if s.roundOver p b mem then { b with gen := b.gen + 1, arrived := b.arrived.filter fun q => q.1 != b.gen.toNat } else b

/-- Stores of a strand to other modules or to the host that are still outside, or have not been pushed to the host's memory (R114). -/
def State.storesOut (s : State) (c k : Nat) : Bool :=
  (s.requests.any fun r => match r.whose with
    | .store d j _ => d == c && j == k
    | _ => false)
  || s.posted.any fun p => p.core == c && p.slot == k

/-- Whether the release of a strand must wait (R110): a load is still outside, a causal store of its own is not applied, or a store of its own is still outside. -/
def State.releaseWaits (s : State) (c k : Nat) : Bool :=
  (s.strand c k).loads.any (·.val.isNone) || !(s.causalOpen c k).isEmpty || s.storesOut c k

/-- A release waits: it issues the read that pushes the strand's writes to the host (R114). -/
def State.releasing (s : State) (c k : Nat) : State := s.pushWrites c k fun slot _ => slot == k

/-- Whether a strand's own accesses are all performed at gang scope. -/
def State.ownAtGang (s : State) (c k : Nat) : Bool :=
  (s.core c).items.all fun i => !(i.kind == .access k true || i.kind == .access k false) || i.atScope .gang

/-- The part a core belongs to, changed. -/
def State.onCorePart (s : State) (c : Nat) (f : Part → Part) : State :=
  match (s.core c).part with
  | some p => s.onPart p f
  | none => s

/-- TBAR (R35, R111, R216, R407). A level of gang scope waits until the strand's accesses are performed at gang scope. -/
def execTbar (g : Guard) (lvl : Nat) (s : State) : Host.Outcome State Fault Refusal :=
  s.coxRun false g [] fun c k t u =>
    let p := u.corePart c
    let key := p.teamKey lvl t.team
    if lvl ≥ p.levels.length then .trap 0x30A (BitVec.ofNat 64 lvl) 0
    else match t.hold with
    | some h => if (p.barAt lvl key).gen.toNat = h.gen then .wait u h else .done u
    | none =>
      if u.releaseWaits c k || (((p.levels[lvl]?).map (·.scope)).getD 0 == 5 && !u.ownAtGang c k) then .stay (u.releasing c k)
      else
        let b := p.barAt lvl key
        let n := u.memberNo c k
        let b2 := u.settle p (b.arrive b.gen.toNat n) (u.members p lvl t.team)
        let v := u.onCorePart c (·.setBar b2)
        let w := v.tellPeers c lvl (.barrier lvl key b.gen.toNat n)
        if b2.gen = b.gen then .wait w ⟨.tbar g lvl, [], b.gen.toNat, none, []⟩ else .done w

/-- A member on another module arrives at a barrier of a part for a generation, or has exited (generation 65,536). -/
def State.arriveAtBar (s : State) (part level team gen member : Nat) : State :=
  let p := s.part part
  if (tabFind s.parts part).isNone || !p.spans level || team != 0 || decide (gen > 65536) || member / 65536 == p.gidx then s
  else
    let b := (p.barAt level team).arrive gen member
    s.setPart part (p.setBar (s.settle p b (s.members p level [])))

/-- GANG_BARRIER_ARRIVAL (R111, R217, R329, R363; log 24). -/
def execGangBarrierArrival (part level team gen member : Nat) (s : State) : Host.Outcome State Fault Refusal :=
  if s.linked then .next (s.arriveAtBar part level team gen member) else .next s

/-- What a strand's exit does to the barriers of its teams (R217): the strand already stands as exited. -/
def State.exitBars (s : State) (c k : Nat) : State :=
  let p := s.corePart c
  let t := s.strand c k
  let n := s.memberNo c k
  (List.range p.levels.length).foldl (fun u lvl =>
    let q := u.corePart c
    let key := q.teamKey lvl t.team
    let b := q.barAt lvl key
    let v := u.onCorePart c (·.setBar (u.settle q b (u.members q lvl t.team)))
    v.tellPeers c lvl (.barrier lvl key 65536 n)) s

/-- TID (R34, R218). -/
def execTid (g : Guard) (d : Nat) (ts : TidSel) (s : State) : Host.Outcome State Fault Refusal :=
  s.coxRun false g [d] fun c k t u =>
    let l := (u.corePart c).levels
    putS c k d (BitVec.ofNat 64 (match ts with
      | .x i => t.team.getD i 0
      | .f i => ((l[i]?).map (·.fanout)).getD 1
      | .n => l.length
      | .t => teamNumber l t.team)) t u

/-! ## Catch barriers (R112, R219 to R223, R407) -/

def CatchSlot.fresh (expected : Nat) : CatchSlot := ⟨expected, 0, false, false, none, false⟩
def Core.setBar (x : Core) (n : Nat) (b : CatchBar) : Core := { x with bars := tabPut x.bars n b }
def Core.putSlot (x : Core) (n k : Nat) (y : CatchSlot) : Core := x.setBar n { x.bar n with slots := setAt (x.bar n).slots k y }
/-- INFO of CATCHUSE (R395). -/
def catchInfo (cb slot : Nat) : Word64 := BitVec.ofNat 64 (cb + slot * 256)

/-- CINIT (R219). -/
def execCinit (g : Guard) (cb wm1 cnt : Nat) (s : State) : Host.Outcome State Fault Refusal :=
  s.coxRun true g [] fun c _ _ u =>
    if ((u.core c).bar cb).stream.isSome then .trap 0x30B (catchInfo cb 0) 0
    else .done (u.onCore c (·.setBar cb ⟨List.replicate (wm1 + 1) (CatchSlot.fresh cnt), none⟩))

/-- CEXP (R220): a count for a latched slot is pending until its CREL. -/
def cexpEff (u : State) (c cb slot count : Nat) : Eff :=
  match ((u.core c).bar cb).slots[slot]? with
  | none => .trap 0x30B (catchInfo cb slot) 0
  | some y =>
    if count = 0 ∨ count ≥ 2 ^ 24 then .trap 0x30C (BitVec.ofNat 64 count) 0
    else .done (u.onCore c (·.putSlot cb slot (if y.latched then { y with pending := some count } else { y with expected := count })))

def execCexp (g : Guard) (cb slot a : Nat) (s : State) : Host.Outcome State Fault Refusal :=
  s.coxRun false g [a] fun c _ t u => cexpEff u c cb slot (t.readS a).toNat
def execCexpLong (g : Guard) (cb slot cnt : Nat) (s : State) : Host.Outcome State Fault Refusal :=
  s.coxRun true g [] fun c _ _ u => cexpEff u c cb slot cnt

/-- CWAIT (R221). -/
def execCwait (g : Guard) (cb slot p : Nat) (s : State) : Host.Outcome State Fault Refusal :=
  s.coxRun false g [64 + p] fun c k t u =>
    match ((u.core c).bar cb).slots[slot]? with
    | none => .trap 0x30B (catchInfo cb slot) 0
    | some y =>
      let h : Hold := ⟨.cwait g cb slot p, [], 0, none, []⟩
      if p = 0 then (if y.awaiting then .done u else .wait u h)
      else if y.phase = t.readP p then .wait u h
      else .done (u.setStrand c k (t.writeP p y.phase))

/-- CTRY (R222). -/
def execCtry (g : Guard) (p cb slot : Nat) (s : State) : Host.Outcome State Fault Refusal :=
  s.coxRun false g [64 + p] fun c k t u =>
    match ((u.core c).bar cb).slots[slot]? with
    | none => .trap 0x30B (catchInfo cb slot) 0
    | some y => .done (u.setStrand c k (t.writeP p y.awaiting))

/-- CREL (R110, R112, R223). -/
def execCrel (g : Guard) (cb slot : Nat) (s : State) : Host.Outcome State Fault Refusal :=
  s.coxRun false g [] fun c k _ u =>
    match ((u.core c).bar cb).slots[slot]? with
    | none => .trap 0x30B (catchInfo cb slot) 0
    | some y =>
      if !y.awaiting then .trap 0x30B (catchInfo cb slot) 0
      else if u.releaseWaits c k then .stay (u.releasing c k)
      else .done (u.onCore c (·.putSlot cb slot
        { y with arrived := 0, expected := y.pending.getD y.expected, pending := none, awaiting := false, latched := false }))

/-! ## Posting tasks (R129 to R132, R224, R225, R407, R410) -/

/-- The record that a POST names, or the cause that refuses its place. -/
def State.postRecord (s : State) (c : Nat) (off : Word64) : Except Cause ByteList :=
  if off.toNat % 16 ≠ 0 ∨ !(s.core c).localOk off.toNat 128 then .error ⟨0x30F, off, 0⟩
  else s.readLocalChecked c off.toNat 128

/-- Whether a strand holds with its post pending. -/
def Strand.posting (t : Strand) : Bool :=
  match t.hold with
  | some h => (match h.instr with
    | .post _ _ => true
    | .postNb _ _ _ => true
    | _ => false)
  | none => false

/-- Whether the post of slot k is admitted next: round-robin after the slot admitted last, among those that are pending (R129). -/
def Core.postTurn (x : Core) (k : Nat) : Bool :=
  ((List.range 4).map fun i => (x.lastPost + 1 + i) % 4).find? (fun j => j == k || (x.strand j).posting) == some k

/-- POST and POST.NB: pd is the predicate of the latter. -/
def postEff (u : State) (c k : Nat) (t : Strand) (i : Instr) (a : Nat) (pd : Option Nat) : Eff :=
  let off := t.readS a
  let x := u.core c
  let put := fun (v : State) (b : Bool) => match pd with
    | some p => v.onStrand c k (·.writeP p b)
    | none => v
  if u.releaseWaits c k then .stay (u.releasing c k)
  else match u.postRecord c off with
  | .error e => .trap e.code e.info e.info1
  | .ok r =>
    match x.freeEntry with
    | none => match pd with
      | some _ => .done (put u false)
      | none => .wait u ⟨i, [], 0, none, []⟩
    | some n =>
      if (x.ingressTurn && !x.ingress.isEmpty) || !x.postTurn k then .wait u ⟨i, [], 0, none, []⟩
      else match u.recordCheck c off.toNat r with
      | .error e => .trap e.code e.info e.info1
      | .ok v => .done (put (u.setCore c (({ x with ingressTurn := true, lastPost := k }).enter n r v)) true)

/-- POST (R224). -/
def execPost (g : Guard) (a : Nat) (s : State) : Host.Outcome State Fault Refusal :=
  s.coxRun false g [a] fun c k t u => postEff u c k t (.post g a) a none
/-- POST.NB (R130, R224). -/
def execPostNb (g : Guard) (p a : Nat) (s : State) : Host.Outcome State Fault Refusal :=
  s.coxRun false g [a, 64 + p] fun c k t u => postEff u c k t (.postNb g p a) a (some p)

/-- The core of the part with a logical core number. -/
def State.coreOf (s : State) (p : Part) (l : Nat) : Option Nat := p.cores.find? fun d => (s.core d).lcore == l

/-- Whether a part takes ingress records (R132): it runs, or the decision to save it falls in this cycle, and its queue on the core has room (R131). -/
def State.takesIngress (s : State) (p : Part) (d : Nat) : Bool :=
  (p.phase == .running || p.phase == .setUp || p.phase == .resuming || (p.phase == .saving && s.shared && p.savedCycle == s.cycle.toNat)) && decide ((s.core d).ingress.length < 64)

/-- Queues a record at a core (R131, R428). -/
def Core.queueIngress (x : Core) (r : ByteList) : Core := { x with ingress := x.ingress ++ [r], active := true, fresh := true }

/-- Delivers a record to a core of the part: the predicate tells whether it was queued. -/
def State.deliver (s : State) (c k p d : Nat) (r : ByteList) : State :=
  let ok := s.takesIngress (s.corePart c) d
  (if ok then s.onCore d (·.queueIngress r) else s).onStrand c k (·.writeP p ok)

/-- Delivers a record that a strand has read, once what its release waits for is done and the target core is not frozen (R225, R422). -/
def deliverEff (u : State) (c k p d : Nat) (waits : Bool) (push : State → State) (h : Hold) : Eff :=
  if waits then .wait (push u) h
  else if (u.core d).frozen then .wait u h
  else .done (u.deliver c k p d h.data)

/-- POSTT (R131, R132, R225): the record is read first. -/
def execPostt (g : Guard) (p a b core : Nat) (creg : Bool) (s : State) : Host.Outcome State Fault Refusal :=
  s.coxRun true g [64 + p, a, b] fun c k t u =>
    let fields := if creg then t.readS b else BitVec.ofNat 64 core
    match (t.hold.map fun h => Except.ok h.data).getD (u.postRecord c (t.readS a)) with
    | .error e => .trap e.code e.info e.info1
    | .ok r =>
      match u.coreOf (u.corePart c) (bitsOf fields 9 0) with
      | none => .trap 0x310 fields 0
      | some d => deliverEff u c k p d (u.releaseWaits c k) (·.releasing c k) ⟨.postt g p a b core creg, [], 0, none, r⟩

/-- What a POSTR that leaves the module does next: gen 0 waits for the fence of .REL, gen 1 for the target's answer, which is 0 refused, 1 queued, 2 failed (R225, R454). -/
def postrGo (u : State) (c k p : Nat) (h : Hold) (m core : Nat) (fields : Word64) : Eff :=
  if h.gen = 1 then
    match h.answer with
    | none => .wait u h
    | some 0 => .done (u.onStrand c k (·.writeP p false))
    | some 1 => .done (u.onStrand c k (·.writeP p true))
    | some _ => .done u
  else if !(u.core c).allAt h.ids .gang then .wait (u.pushWrites c k fun _ i => h.ids.contains i) h
  else if u.noRoute (coreDie c) then .trap 0xA04 fields (BitVec.ofNat 64 m)
  else
    let v := u.sendFabric (coreDie c) m 0 (.post u.nextId core (u.corePart c).key h.data)
    .wait { v with nextId := u.nextId + 1, requests := v.requests ++ [⟨u.nextId, .post c k, 1, fields, m, u.askPlace (.post c k), 1, 0, 128, 0⟩] } { h with gen := 1, ids := [] }

/-- POSTR (R131, R132, R225, R454): the record is read, and the set of its release taken, when it issues. -/
def execPostr (g : Guard) (p a b core : Nat) (creg rel : Bool) (s : State) : Host.Outcome State Fault Refusal :=
  s.coxRun true g [64 + p, a, b] fun c k t u =>
    let fields := t.readS b
    let l := if creg then bitsOf fields 9 0 else core
    let q := u.corePart c
    let idx := bitsOf fields 47 32
    match (t.hold.map fun h => Except.ok h.data).getD (u.postRecord c (t.readS a)) with
    | .error e => .trap e.code e.info e.info1
    | .ok r =>
      if l ≥ q.cores.length ∨ (if q.gang then idx ≥ q.span 0 else idx ≠ 0) then .trap 0x310 fields 0
      else
        let h := t.hold.getD ⟨.postr g p a b core creg rel, if rel then (u.core c).items.map (·.id) else [], 0, none, r⟩
        if q.gang && idx != q.gidx then postrGo u c k p h (q.modules.getD idx 0) l fields
        else match u.coreOf q l with
        | none => .trap 0x310 fields 0
        | some d => deliverEff u c k p d (!(u.core c).allAt h.ids .gang) (·.pushWrites c k fun _ i => h.ids.contains i) h

/-! ## Dependence counters (R226, R227, R408) -/

/-- INFO of COUNTER: the counter, and the low 32 bits of the value rejected. -/
def counterInfo (n : Nat) (v : Int) : Word64 := BitVec.ofNat 64 (n + (v % 2 ^ 32).toNat * 2 ^ 32)

/-- Gives a counter a value as DCSET and DCADD do (R226): with their release, or COUNTER outside 0 to 2^20 - 1. In a cycle that units share the update is noted, and combined with the others at the end (R227). -/
def dcEff (u : State) (c k n : Nat) (v : Int) (alone : Bool) (kind : DcKind) : Eff :=
  if (v < 0 ∨ v ≥ 2 ^ 20) ∧ (alone ∨ !u.shared) then .trap 0x30D (counterInfo n v) 0
  else if u.releaseWaits c k then .stay (u.releasing c k)
  else .done (u.onCore c (if u.shared then (·.noteDc n kind) else (·.setDc n v.toNat)))

/-- DCSET (R226, R408): the register value is unsigned, and one of 2^20 or more traps at once. -/
def dcsetEff (u : State) (c k n v : Nat) (t : Strand) : Eff := dcEff u c k n v true (.set k t.pc v)
def execDcset (g : Guard) (n a : Nat) (s : State) : Host.Outcome State Fault Refusal :=
  s.coxRun false g [a] fun c k t u => dcsetEff u c k n (t.readS a).toNat t
def execDcsetLong (g : Guard) (n v : Nat) (s : State) : Host.Outcome State Fault Refusal :=
  s.coxRun true g [] fun c k t u => dcsetEff u c k n v t
/-- DCADD (R226). -/
def dcaddEff (u : State) (c k n : Nat) (d : Int) (t : Strand) : Eff := dcEff u c k n ((u.core c).dc n + d) false (.add k t.pc d)
def execDcadd (g : Guard) (n a : Nat) (s : State) : Host.Outcome State Fault Refusal :=
  s.coxRun false g [a] fun c k t u => dcaddEff u c k n (t.readS a).toInt t
def execDcaddLong (g : Guard) (n : Nat) (e : Word32) (s : State) : Host.Outcome State Fault Refusal :=
  s.coxRun true g [] fun c k t u => dcaddEff u c k n e.toInt t
/-- DCWAIT (R226): it ends in the first cycle in which the counter's value is zero, which its hold remembers; in a cycle that units share, at the end of it. -/
def execDcwait (g : Guard) (n : Nat) (s : State) : Host.Outcome State Fault Refusal :=
  s.coxRun false g [] fun c _ t u =>
    let seen := (t.hold.map fun h => h.gen == 1).getD false
    if seen || (!u.shared && (u.core c).dc n == 0) then .done u
    else .wait u (t.hold.getD ⟨.dcwait g n, [], 0, none, []⟩)

/-! ### The end of a cycle that units share (R227, R408) -/

/-- The value that the DCSETs of a cycle leave: that of the highest slot, else the start value. -/
def setOf (l : List DcUpd) (start : Nat) : Int :=
  ((l.foldl (fun (b : Option (Nat × Nat)) y => match y.kind, b with
    | .set k _ v, none => some (k, v)
    | .set k _ v, some q => if k ≥ q.1 then some (k, v) else some q
    | _, _ => b) none).map fun q => (q.2 : Int)).getD start

/-- What an update adds. -/
def DcUpd.adds (y : DcUpd) : Int :=
  match y.kind with
  | .set _ _ _ => 0
  | .add _ _ d => d
  | .dec _ _ _ => -1
  | .fill => 1

/-- Whether an update is a strand's own. -/
def DcUpd.own (y : DcUpd) : Bool :=
  match y.kind with
  | .set _ _ _ => true
  | .add _ _ _ => true
  | _ => false

/-- A strand's DCSET or DCADD is withdrawn (R408): it traps with the boundary before the instruction. -/
def Strand.withdraw (t : Strand) (pc : Word64) (info : Word64) : Strand :=
  { t with pc := pc, failed := t.failed ++ [⟨0x30D, info, 0, none⟩] }

/-- Combines the updates of one counter. -/
def State.combineDc (s : State) (c n : Nat) : State :=
  let l := (s.core c).dcNow.filter fun y => y.ctr == n
  let start := ((l.head?).map (·.start)).getD 0
  let sum := fun (m : List DcUpd) => (m.map DcUpd.adds).sum
  let v := setOf l start + sum l
  if 0 ≤ v ∧ v < 2 ^ 20 then s.onCore c (·.setDc n v.toNat)
  else
    let s1 := l.foldl (fun u y => match y.kind with
      | .set k pc _ => u.onStrand c k (·.withdraw pc (counterInfo n v))
      | .add k pc _ => u.onStrand c k (·.withdraw pc (counterInfo n v))
      | _ => u) s
    let r := (start : Int) + sum (l.filter fun y => !y.own)
    let t := s1.onCore c (·.setDc n r.toNat)
    if r < 0 then
      match (l.filterMap fun y => match y.kind with
        | .dec unit sub place => some (unit, sub, place)
        | _ => none).getLast? with
      | some q => t.counterUnder c n (-r).toNat q.1 q.2.1 q.2.2
      | none => t
    else t

/-- The end of a cycle that units share: every counter of the core that was updated takes its value, and a DCWAIT sees those at zero. -/
def State.closeCore (s : State) (c : Nat) : State :=
  let t := (((s.core c).dcNow.map (·.ctr)).eraseDups).foldl (fun u n => u.combineDc c n) s
  t.onCore c fun x =>
    let y := { x with dcNow := [] }
    (x.strands.toList.filterMap fun q => q.hold.bind fun h => match h.instr with
      | .dcwait _ n => if x.dc n = 0 then some n else none
      | _ => none).foldl (fun (z : Core) n => { z with strands := z.strands.map (·.sawZero n) }) y

/-- The end of a cycle that units share. -/
def State.closeCycle (s : State) : State := { (s.cores.map (·.1)).foldl State.closeCore s with shared := false }

/-! ## The copy aperture (R139 to R142, R228, R407) -/

/-- The 64 bytes of template t. -/
def Core.template (x : Core) (t : Nat) : ByteList := (List.range 8).flatMap fun w => leBytes 8 (tabGet 0 x.templates (8 * t + w)).toNat

/-- Adds a patch to one origin, modulo 2^16. -/
def patchAt (b : ByteList) (off v : Nat) : ByteList := putField b off 2 ((field b off 2 + v) % 2 ^ 16)

/-- A template with its patch applied (R141). -/
def patchTemplate (b : ByteList) (v : Nat) : ByteList :=
  let f := field b 6 1
  if f = 0 ∨ f > 12 then b
  else if f ≤ 4 then patchAt b (0x0A + 2 * (f - 1)) v
  else if f ≤ 8 then patchAt b (0x1A + 2 * (f - 5)) v
  else patchAt (patchAt b (0x0A + 2 * (f - 9)) v) (0x1A + 2 * (f - 9)) v

/-- Whether a region breaks R120 apart from its mode bits and its format. -/
def Core.regionForm (x : Core) (g : Region) : Bool :=
  decide (g.hnd < x.handles.length) && !(g.hnd == 0 && (g.ext1 3 / 4 != 0 || g.ext1 3 % 4 == 3))

/-- Whether a template breaks R140. -/
def Core.templateBad (x : Core) (p : Part) (b : ByteList) : Bool :=
  let rs := templateRegions b
  decide (field b 0 1 > 2) || decide (field b 1 1 > 4) || decide (field b 6 1 > 12) || field b 7 1 != 0
  || field b 4 2 / 2 ^ 9 % 2 ^ 6 != 0 || (List.range 16).any (fun i => field b (0x30 + i) 1 != 0)
  || rs.any (fun g => x.regSpace g == 2)
  || (if field b 0 1 = 0 ∧ rs.all x.regEmpty then !(rs.all x.regionForm)
      else (x.recordFault p (templateRecord b)).isSome)

/-- A channel start (R141, R322): true when the copy started; none does once the save of the part has been decided. -/
def State.startCopy (s : State) (c ch : Nat) (b : ByteList) : State × Bool :=
  let x := s.core c
  if (x.chan ch).length ≥ 128 ∨ s.savingCore c then (s, false)
  else
    let spans := (templateRegions b).map fun g => (if x.regSpace g = 0 then RSpace.l else RSpace.g, x.regSpan g)
    let y := (x.pushChan ch ⟨s.nextId, b, 0, .sta, false, false, [], []⟩).count s.nextId (.copy s.nextId) (x.matching spans)
    ((s.setCore c y).bumpId, true)

/-- STA at an aperture offset. -/
def staEff (u : State) (c k p : Nat) (off d : Word64) : Eff :=
  let x := u.core c
  let put := fun (v : State) (b : Bool) => Eff.done (v.onStrand c k (·.writeP p b))
  if off.toNat % 8 ≠ 0 then .trap 0x311 off d
  else if off.toNat < 0x40 then
    let t := bitsOf d 7 0
    let b := patchTemplate (x.template t) (bitsOf d 23 8)
    if bitsOf d 63 24 ≠ 0 then .trap 0x311 off d
    else if x.templateBad (u.corePart c) b then .trap 0x403 (BitVec.ofNat 64 t) 0
    else if u.releaseWaits c k then .stay (u.releasing c k)
    else
      let r := u.startCopy c (off.toNat / 8) b
      put r.1 r.2
  else if 0x4000 ≤ off.toNat ∧ off.toNat < 0x8000 then
    put (u.setCore c { x with templates := tabPut x.templates ((off.toNat - 0x4000) / 8) d }) true
  else .trap 0x311 off d

/-- STA (R228). -/
def execSta (g : Guard) (p a b : Nat) (s : State) : Host.Outcome State Fault Refusal :=
  s.coxRun false g [64 + p, a, b] fun c k t u => staEff u c k p (t.readS a) (t.readS b)
def execStaLong (g : Guard) (p a b off : Nat) (s : State) : Host.Outcome State Fault Refusal :=
  s.coxRun true g [64 + p, a, b] fun c k t u => staEff u c k p (t.readS a + BitVec.ofNat 64 off) (t.readS b)

/-! ## Streams (R143 to R146, R229 to R231) -/

/-- The contexts bound to a core, with their MSE and number. -/
def State.boundTo (s : State) (c : Nat) : List (Nat × Ctx) := s.ctxs.filter fun p => p.2.core == c

/-- The context with a stream number of a core. -/
def State.streamOf (s : State) (c n : Nat) : Option (Nat × Ctx) := (s.boundTo c).find? fun p => p.2.stream == n

/-- The low 48 bits of a register, as an access register holds them. -/
def low48 (v : Word64) : Word48 := v.truncate 48

/-- SBIND (R143, R229, R407). -/
def execSbind (g : Guard) (d a b prog cb entry : Nat) (s : State) : Host.Outcome State Fault Refusal :=
  s.coxRun true g [d, a, b] fun c k t u =>
    let p := u.corePart c
    let y := (u.core c).bar cb
    let ext := BitVec.ofNat 64 ((encode (.sbind g d a b prog cb entry)).getD 1 0)
    match p.progs[prog]? with
    | none => .trap 0x312 ext 0
    | some q =>
      if entry ≥ q.len / 4 ∨ y.slots = [] ∨ y.stream.isSome then .trap 0x312 ext 0
      else if u.releaseWaits c k then .stay (u.releasing c k)
      else match (q.ctxs.mergeSort (· ≤ ·)).find? fun n => (u.ctx q.mse n).isNone, (List.range 8).find? fun n => (u.streamOf c n).isNone with
      | some x, some n =>
        let z := Ctx.start ((u.core c).part.getD 0) prog c n cb entry
        let z := { z with regs := (z.regs.setIfInBounds 0 (low48 (t.readS a))).setIfInBounds 1 (low48 (t.readS b)) }
        .done (((u.setCtx q.mse x z).onCore c (·.setBar cb { y with stream := some n })).onStrand c k (·.writeS d (BitVec.ofNat 64 n)))
      | _, _ => .done (u.onStrand c k (·.writeS d (BitVec.allOnes 64)))

/-- CQPUSH (R145, R146, R230): a stream that SSTOP is stopping is still bound; one whose context has reached AHALT is not. -/
def execCqpush (g : Guard) (p a stream : Nat) (s : State) : Host.Outcome State Fault Refusal :=
  s.coxRun false g [64 + p, a] fun c k t u =>
    if u.releaseWaits c k then .stay (u.releasing c k)
    else match u.streamOf c stream with
    | some (n, x) =>
      if x.cq.length ≥ 16 ∨ x.halted then .done (u.onStrand c k (·.writeP p false))
      else .done (({ u with ctxs := tabPut u.ctxs n { x with cq := x.cq ++ [t.readS a] } }).onStrand c k (·.writeP p true))
    | none => .done (u.onStrand c k (·.writeP p false))

/-- SSTOP (R146, R231): the context stops after its current word; CONTEXT_END frees it. -/
def execSstop (g : Guard) (stream : Nat) (s : State) : Host.Outcome State Fault Refusal :=
  s.coxRun false g [] fun c _ _ u =>
    match u.streamOf c stream with
    | some (n, x) => .done { u with ctxs := tabPut u.ctxs n { x with stopping := true } }
    | none => .done u

/-! ## Scheduling (R232, R233, R323) -/

/-- Takes the cooperative save decision once every started strand of a part has stopped at YIELD or exited, and one has stopped (R322). -/
def State.yieldDone (s : State) (p : Nat) : State :=
  let l := (s.part p).cores.flatMap fun d => (s.core d).strands.toList
  if (s.part p).yreq && (l.all fun t => t.status == .stopped || t.status == .exited || t.status == .notStarted) && l.any (·.status == .stopped)
  then s.askSave p 1 else s

/-- YIELD (R232, R323). -/
def execYield (g : Guard) (p : Nat) (s : State) : Host.Outcome State Fault Refusal :=
  s.coxRun false g [64 + p] fun c k t u =>
    if (u.corePart c).yreq then
      let v := u.setStrand c k { t.writeP p true with pc := t.pc + 4, status := .stopped, hold := none, got := [] }
      .over (match (v.core c).part with
        | some q => v.yieldDone q
        | none => v)
    else .done (u.setStrand c k (t.writeP p false))

/-- LIVE (R233). -/
def execLive (g : Guard) (a : Nat) (s : State) : Host.Outcome State Fault Refusal :=
  s.coxRun false g [a] fun c _ t u => .done (u.onCore c fun x => { x with livem := (t.readS a).truncate 32 })
def execLiveLong (g : Guard) (e : Word32) (s : State) : Host.Outcome State Fault Refusal :=
  s.coxRun true g [] fun c _ _ u => .done (u.onCore c fun x => { x with livem := e })

end Sys2Proof.Machine
end

