-- ==== Sys2Proof/Machine/Access.lean ====
section
/-! DEFINITION. Access contexts: every access word, the landing of pushes and the end of a context (R112, R143 to R146, R164, R299 to R313, R413). -/
namespace Sys2Proof.Machine

/-! ## Running an access word (R299, R300) -/

def Ctx.read (t : Ctx) (n : Nat) : Word48 := t.regs[n]?.getD 0
def Ctx.write (t : Ctx) (n : Nat) (v : Word48) : Ctx := { t with regs := t.regs.setIfInBounds n v }

/-- The second operand (R301). -/
def Ctx.src (t : Ctx) (x : Src) : Word48 :=
  match x with
  | .imm v => v.signExtend 48
  | .reg n => t.read n

/-- What a word does at its context: go on at the next word, go to a word index, hold, stop at the word with no effect, or stop at a push of which only a part has been issued (R418). -/
inductive AEff where
  | done (t : Ctx) (s : State)
  | jump (t : Ctx) (s : State) (pc : Int)
  | hold
  | fault (x : Cause)
  | part (t : Ctx) (s : State) (x : Cause)

/-- A context has executed its word and goes on at an index; what its reads outside the module have brought is used (R83, R428). -/
def State.ctxGoes (s : State) (m x : Nat) (t : Ctx) (pc : Nat) : State :=
  ((s.spend (.context m x)).setCtx m x { t with apc := pc, waits := false }).onCore t.core fun y => { y with active := true, fresh := true }

/-- Gives the word of the context whose turn it is its effect (R299, R300, R428); a target outside the program stops the context (R303, R413). -/
def State.ctxRun (s : State) (f : Nat → Nat → Ctx → State → AEff) : Host.Outcome State Fault Refusal :=
  match s.turn with
  | .context m x =>
    match s.ctx m x with
    | none => .fault .noUnit
    | some t =>
      match f m x t s with
      | .hold => .next (s.setCtx m x { t with waits := true })
      | .fault c => .next (s.ctxFault m x c)
      | .part t1 u c => .next ((u.setCtx m x t1).ctxFault m x c)
      | .done t1 u => .next (u.ctxGoes m x t1 (t1.apc + 1))
      | .jump t1 u pc =>
        if pc < 0 ∨ pc ≥ ((((s.progOf t).map (·.len)).getD 0 / 4 : Nat) : Int) then .next (s.ctxFault m x ⟨0x314, w64 pc, 0⟩)
        else .next (u.ctxGoes m x t1 pc.toNat)
  | _ => .fault .noUnit

/-- Writes aD from registers and the second operand. -/
def State.ctxAlu (s : State) (d a : Nat) (x : Src) (f : Word48 → Word48 → Word48) : Host.Outcome State Fault Refusal :=
  s.ctxRun fun _ _ t u => .done (t.write d (f (t.read a) (t.src x))) u

/-! ## Arithmetic (R302) -/

/-- ANOP (R301). -/
def execAnop (s : State) : Host.Outcome State Fault Refusal := s.ctxRun fun _ _ t u => .done t u
/-- AMOV. -/
def execAmov (d : Nat) (x : Src) (s : State) : Host.Outcome State Fault Refusal := s.ctxAlu d 0 x fun _ v => v
/-- AADD. -/
def execAadd (d a : Nat) (x : Src) (s : State) : Host.Outcome State Fault Refusal := s.ctxAlu d a x (· + ·)
/-- ASUB. -/
def execAsub (d a : Nat) (x : Src) (s : State) : Host.Outcome State Fault Refusal := s.ctxAlu d a x (· - ·)
/-- AMUL. -/
def execAmul (d a : Nat) (x : Src) (s : State) : Host.Outcome State Fault Refusal := s.ctxAlu d a x (· * ·)
/-- ASHL: 0 for amounts of 48 and more. -/
def execAshl (d a : Nat) (x : Src) (s : State) : Host.Outcome State Fault Refusal := s.ctxAlu d a x fun v n => v <<< bitsOf n 5 0
/-- ASHR: logical. -/
def execAshr (d a : Nat) (x : Src) (s : State) : Host.Outcome State Fault Refusal := s.ctxAlu d a x fun v n => v >>> bitsOf n 5 0
/-- AAND. -/
def execAand (d a : Nat) (x : Src) (s : State) : Host.Outcome State Fault Refusal := s.ctxAlu d a x (· &&& ·)
/-- AMIN: the signed lesser. -/
def execAmin (d a : Nat) (x : Src) (s : State) : Host.Outcome State Fault Refusal := s.ctxAlu d a x fun v n => if n.slt v then n else v
/-- ACMP: −1, 0 or +1. -/
def execAcmp (d a : Nat) (x : Src) (s : State) : Host.Outcome State Fault Refusal :=
  s.ctxAlu d a x fun v n => if v.slt n then BitVec.allOnes 48 else if v = n then 0 else 1

/-! ## Control flow (R303 to R305) -/

/-- ABR (R303). -/
def execAbr (cc : ACond) (a : Nat) (off : Imm17) (s : State) : Host.Outcome State Fault Refusal :=
  s.ctxRun fun _ _ t u => if acondHolds cc (t.read a) then .jump t u (t.apc + off.toInt) else .done t u

/-- AJMP (R303): a word offset, or the low 12 bits of a register. -/
def execAjmp (x : Src) (s : State) : Host.Outcome State Fault Refusal :=
  s.ctxRun fun _ _ t u => .jump t u (match x with
    | .imm v => t.apc + v.toInt
    | .reg n => (bitsOf (t.read n) 11 0 : Int))

/-- The word at an index of a context's program. -/
def State.progWord (s : State) (m : Nat) (p : Prog) (i : Nat) : Option Instr := decodeAccess (leNat (memList s.mem (mseKey m (p.base + 4 * i)) 4))

/-- ALOOP (R304, R413). -/
def execAloop (n : Nat) (x : Src) (s : State) : Host.Outcome State Fault Refusal :=
  s.ctxRun fun m _ t u =>
    let c : Int := match x with
      | .imm v => v.toInt
      | .reg r => ((t.read r).toNat : Int)
    if c < 0 ∨ c > 4095 then .fault ⟨0x313, w64 c, 0⟩
    else if c = 0 then
      match u.progOf t with
      | none => .hold
      | some p =>
        match ((List.range (p.len / 4 - (t.apc + 1))).map (· + t.apc + 1)).find? fun i => u.progWord m p i == some (.aend n) with
        | some i => .done { t with apc := i } u
        | none => .fault ⟨0x313, BitVec.ofNat 64 t.apc, 0⟩
    else .done { t with lc := t.lc.setIfInBounds n (BitVec.ofInt 12 c), hd := t.hd.setIfInBounds n (BitVec.ofNat 12 (t.apc + 1)) } u

/-- AEND (R304). -/
def execAend (n : Nat) (s : State) : Host.Outcome State Fault Refusal :=
  s.ctxRun fun _ _ t u =>
    let c := t.lc[n]?.getD 0
    if c = 0 then .done t u
    else
      let t1 := { t with lc := t.lc.setIfInBounds n (c - 1) }
      if c - 1 ≠ 0 then .jump t1 u ((t.hd[n]?.getD 0).toNat : Int) else .done t1 u

/-- AHALT (R146, R305): the context ends once its pushes have landed. -/
def execAhalt (s : State) : Host.Outcome State Fault Refusal := s.ctxRun fun _ _ t u => .done { t with stopping := true, halted := true } u

/-! ## Pushes (R306 to R309, R413) -/

/-- The slot that a context fills, and the window size. -/
def State.slotOf (s : State) (t : Ctx) : Option CatchSlot := ((s.core t.core).bar t.bar).slots[t.cslot]?
def State.windowOf (s : State) (t : Ctx) : Nat := ((s.core t.core).bar t.bar).slots.length

/-- Whether a push holds (R112, R309): the current slot awaits CREL, or all bytes of its fill are on their way. -/
def State.pushHolds (s : State) (t : Ctx) : Bool :=
  match s.slotOf t with
  | some y => y.awaiting || (t.issued == 0 && t.pushes.any fun p => p.slot == t.cslot)
  | none => true

/-- Reads len bytes at an address below 2^48; a row's addresses wrap there (R299). A row of 8 aligned bytes reaches the aperture (R339). -/
def State.readRow48 (s : State) (w : Who) (va len : Nat) : Except Cause (ByteList × State) :=
  if va + len ≤ 2 ^ 48 then s.readV w .read va len
  else match s.readG w .read va (2 ^ 48 - va) with
  | .error x => .error x
  | .ok p => (p.2.readG w .read 0 (va + len - 2 ^ 48)).map fun q => (p.1 ++ q.1, q.2)

/-- Reads the rows of a push one after another, row none giving zeros, up to the first that meets a cause: the bytes of the rows before it, and the cause. -/
def State.pushRows (w : Who) (len : Nat) : List (Option Nat) → State → ByteList × State × Option Cause
  | [], s => ([], s, none)
  | a :: r, s =>
    match (match a with
      | none => .ok (List.replicate len 0#8, s)
      | some va => s.readRow48 w va len : Except Cause (ByteList × State)) with
    | .error x => ([], s, some x)
    | .ok p =>
      let q := State.pushRows w len r p.2
      (p.1 ++ q.1, q.2)

/-- Whether every byte that a push would write lies in mapped pages of the scratchpad part (R77, R413). -/
def Core.pushOk (x : Core) (dst n : Nat) : Bool :=
  decide (x.spBase + dst + n ≤ x.acBase) && (x.pagesIn (x.spBase + dst) (x.spBase + dst + n)).all fun p => (x.spmAt p).v

/-- The slot that the fill counted last belongs to: the current one, or the one before it when that fill is complete. -/
def Ctx.lastSlot (t : Ctx) (window : Nat) : Nat := if t.issued = 0 then (t.cslot + (window - 1)) % window else t.cslot

/-- Counts a push of n bytes against the current slot (R144, R309). -/
def Ctx.counted (t : Ctx) (n expected window : Nat) : Ctx :=
  if t.issued + n == expected then { t with issued := 0, cslot := (t.cslot + 1) % window, rest := n } else { t with issued := t.issued + n, rest := n }

/-- The bytes of the rows that have been read leave for their destination (R309); rest are still to be pushed. -/
def Ctx.pushed (t : Ctx) (window dst : Nat) (b : ByteList) : Ctx :=
  { t with pushes := if b = [] then t.pushes else t.pushes ++ [⟨t.lastSlot window, b.mapIdx fun i v => (dst + i, v), b.length⟩], rest := t.rest - b.length }

/-- Issues a push (R309, R413): dst is a scratchpad offset, shape its shape; rows answers the source rows. A row that meets a cause leaves the push counted: the rows before it are pushed, and the context stops there, to push only the others when it is retried (R418; log 102). -/
def pushEff (m x : Nat) (t : Ctx) (dst : Nat) (shape : Word48) (rows : State → Except Cause (List (Option Nat) × State)) (s : State) : AEff :=
  let len := bitsOf shape 15 0
  let n := bitsOf shape 27 16 * len
  match s.slotOf t with
  | none => .hold
  | some y =>
    let again := t.rest != 0
    if !again && s.pushHolds t then .hold
    else if !again && decide (n > y.expected - t.issued) then .fault ⟨0x315, BitVec.ofNat 64 n, BitVec.ofNat 64 (y.expected - t.issued)⟩
    else if n ≠ 0 ∧ !(s.core t.core).pushOk dst n then .fault ⟨0x316, BitVec.ofNat 64 dst, 0⟩
    else match rows s with
    | .error c => .fault c
    | .ok (l, s1) =>
      let skip := if again then n - t.rest else 0
      let r := State.pushRows (s.whoCtx m x t) len (l.drop (skip / len)) s1
      let u := if again then r.2.1 else r.2.1.onCore t.core fun x => x.setBar t.bar { x.bar t.bar with slots := setAt (x.bar t.bar).slots t.cslot { y with latched := true } }
      let t1 := ((if again || n == 0 then t else t.counted n y.expected (s.windowOf t)).pushed (s.windowOf t) (dst + skip) r.1)
      match r.2.2 with
      | none => .done t1 u
      | some c => if c.waits then .fault c else .part t1 u c

/-- The address of a source row: a register value plus an offset, modulo 2^48 (R299). -/
def rowAddr (a : Word48) (off : Nat) : Nat := (a.toNat + off) % 2 ^ 48

/-- SPUSH (R307). -/
def execSpush (d a b : Nat) (s : State) : Host.Outcome State Fault Refusal :=
  s.ctxRun fun m x t u =>
    let sh := t.read b
    pushEff m x t (t.read d).toNat sh (fun v => .ok ((List.range (bitsOf sh 27 16)).map fun r => some (rowAddr (t.read a) (r * bitsOf sh 47 28)), v)) u

/-- The rows that an index list names (R308): every entry is read before any row; an index below −1 stops the context. -/
def State.indexRows (s : State) (m x : Nat) (t : Ctx) (a b : Nat) (sh : Word48) : Except Cause (List (Option Nat) × State) :=
  let n := bitsOf sh 27 16
  match State.pushRows (s.whoCtx m x t) 4 ((List.range n).map fun q => some (rowAddr (t.read b) (4 * q))) s with
  | (_, _, some x) => .error x
  | (bytes, u, none) =>
    let l := (chunks 4 n bytes).map fun e => sextInt (leNat e) 32
    match l.find? fun x => decide (x < -1) with
    | some x => .error ⟨0x317, w64 x, 0⟩
    | none => .ok (l.map fun x => if x = -1 then none else some (rowAddr (t.read a) (x.toNat * bitsOf sh 47 28)), u)

/-- SPUSHI (R308). -/
def execSpushi (d a b : Nat) (s : State) : Host.Outcome State Fault Refusal :=
  s.ctxRun fun m x t u =>
    let sh := t.read (b + 1)
    pushEff m x t (t.read d).toNat sh (fun v => v.indexRows m x t a b sh) u

/-- SWIN (R144, R310): the current slot's arrived count is 0 and it does not await CREL. -/
def execSwin (s : State) : Host.Outcome State Fault Refusal :=
  s.ctxRun fun _ _ t u => match u.slotOf t with
    | some y => if y.arrived = 0 ∧ !y.awaiting then .done t u else .hold
    | none => .hold

/-- CQPOP (R311). -/
def execCqpop (d : Nat) (s : State) : Host.Outcome State Fault Refusal :=
  s.ctxRun fun _ _ t u => match t.cq with
    | v :: r => .done ({ t with cq := r }.write d (v.truncate 48)) u
    | [] => .hold

/-- AFENCE (R312). -/
def execAfence (s : State) : Host.Outcome State Fault Refusal := s.ctxRun fun _ _ t u => if t.pushes.isEmpty then .done t u else .hold

/-- ILLEGAL_ACCESS_WORD (R164, R406): the context stops at the word. -/
def execIllegalAccessWord (w : Word32) (s : State) : Host.Outcome State Fault Refusal :=
  s.ctxRun fun _ _ _ _ => .fault ⟨0x203, BitVec.ofNat 64 w.toNat, 0⟩

/-! ## Landing and ending (R112, R146, R309, R312) -/

/-- Adds landed bytes to a slot; at its expected count it fills and its phase toggles (R112). -/
def CatchSlot.arrive (y : CatchSlot) (n : Nat) : CatchSlot :=
  let a := y.arrived + n
  if a ≥ y.expected ∧ !y.awaiting then { y with arrived := a, phase := !y.phase, awaiting := true } else { y with arrived := a }

/-- A full slot satisfies every record that waits on it (R133). -/
def Core.latchCatch (x : Core) (n k : Nat) : Core :=
  if x.catchFull n k then
    { x with window := x.window.map fun p =>
        (p.1, if recCwv p.2.bytes && recCb p.2.bytes == n && recCbSlot p.2.bytes == k then { p.2 with csOk := true } else p.2) }
  else x

/-- PUSH_LAND (R309): one of the context's pushes lands in the visible frames (R116, R128); which of several is free (R312). -/
def execPushLand (mse ctx : Nat) (s : State) : Host.Outcome State Fault Refusal :=
  match s.ctx mse ctx with
  | none => .next s
  | some t =>
    let k := Config.choice s.steps % t.pushes.length
    match t.pushes[k]? with
    | none => .next s
    | some p =>
      if (s.core t.core).frozen || s.frozenMse.contains mse then .next s
      else
        let x := s.core t.core
        let s1 := s.putLocal t.core false (x.spBase + (p.bytes.headD (0, 0)).1) (p.bytes.map (·.2))
        .next ((s1.setCtx mse ctx { t with pushes := t.pushes.eraseIdx k }).onCore t.core fun y =>
          { (y.setBar t.bar { y.bar t.bar with
              slots := (y.bar t.bar).slots.mapIdx fun i q => if i = p.slot then q.arrive p.count else q }).latchCatch t.bar p.slot with
            active := true, fresh := true })

/-- CONTEXT_END (R146): frees the stream number, the barrier and the control queue; a cause that the context has stopped with ends with it, and what it has asked outside the module finds nobody. -/
def execContextEnd (mse ctx : Nat) (s : State) : Host.Outcome State Fault Refusal :=
  match s.ctx mse ctx with
  | none => .next s
  | some t =>
    if !t.stopping || !t.pushes.isEmpty || (s.core t.core).frozen || s.frozenMse.contains mse then .next s
    else .next { (s.disown (· == .context mse ctx)).onCore t.core (fun x => x.setBar t.bar { x.bar t.bar with stream := none }) with
      ctxs := tabDel s.ctxs (ctxKey mse ctx), traps := s.traps.filter fun u => u.unit != .ctx mse ctx }

end Sys2Proof.Machine
end

