-- ==== Sys2Proof/Machine/CoxCompute.lean ====
section
/-! DEFINITION. Meanings of the Cox instructions that compute (R176 to R189). -/
namespace Sys2Proof.Machine

/-- NOP (R234). -/
def execNop (g : Guard) (s : State) : Host.Outcome State Fault Refusal := s.coxRun false g [] fun _ _ _ u => .done u

/-- ADD in its two forms (R176). -/
def execAdd (g : Guard) (d a b : Nat) (s : State) : Host.Outcome State Fault Refusal := s.aluReg (fun x y => x + y) g d a b
def execAddLong (g : Guard) (d a : Nat) (e : Word32) (s : State) : Host.Outcome State Fault Refusal := s.aluLong (fun x y => x + y) g d a e

/-- SUB in its two forms (R176). -/
def execSub (g : Guard) (d a b : Nat) (s : State) : Host.Outcome State Fault Refusal := s.aluReg (fun x y => x - y) g d a b
def execSubLong (g : Guard) (d a : Nat) (e : Word32) (s : State) : Host.Outcome State Fault Refusal := s.aluLong (fun x y => x - y) g d a e

/-- AND in its two forms (R176). -/
def execAnd (g : Guard) (d a b : Nat) (s : State) : Host.Outcome State Fault Refusal := s.aluReg (fun x y => x &&& y) g d a b
def execAndLong (g : Guard) (d a : Nat) (e : Word32) (s : State) : Host.Outcome State Fault Refusal := s.aluLong (fun x y => x &&& y) g d a e

/-- OR in its two forms (R176). -/
def execOr (g : Guard) (d a b : Nat) (s : State) : Host.Outcome State Fault Refusal := s.aluReg (fun x y => x ||| y) g d a b
def execOrLong (g : Guard) (d a : Nat) (e : Word32) (s : State) : Host.Outcome State Fault Refusal := s.aluLong (fun x y => x ||| y) g d a e

/-- XOR in its two forms (R176). -/
def execXor (g : Guard) (d a b : Nat) (s : State) : Host.Outcome State Fault Refusal := s.aluReg (fun x y => x ^^^ y) g d a b
def execXorLong (g : Guard) (d a : Nat) (e : Word32) (s : State) : Host.Outcome State Fault Refusal := s.aluLong (fun x y => x ^^^ y) g d a e

/-- ANDN in its two forms (R176). -/
def execAndn (g : Guard) (d a b : Nat) (s : State) : Host.Outcome State Fault Refusal := s.aluReg (fun x y => x &&& ~~~y) g d a b
def execAndnLong (g : Guard) (d a : Nat) (e : Word32) (s : State) : Host.Outcome State Fault Refusal := s.aluLong (fun x y => x &&& ~~~y) g d a e

/-- SHL in its two forms (R176). -/
def execShl (g : Guard) (d a b : Nat) (s : State) : Host.Outcome State Fault Refusal := s.aluReg shlS g d a b
def execShlLong (g : Guard) (d a : Nat) (e : Word32) (s : State) : Host.Outcome State Fault Refusal := s.aluLong shlS g d a e

/-- SHR in its two forms (R176). -/
def execShr (g : Guard) (d a b : Nat) (s : State) : Host.Outcome State Fault Refusal := s.aluReg shrS g d a b
def execShrLong (g : Guard) (d a : Nat) (e : Word32) (s : State) : Host.Outcome State Fault Refusal := s.aluLong shrS g d a e

/-- SRA in its two forms (R176). -/
def execSra (g : Guard) (d a b : Nat) (s : State) : Host.Outcome State Fault Refusal := s.aluReg sraS g d a b
def execSraLong (g : Guard) (d a : Nat) (e : Word32) (s : State) : Host.Outcome State Fault Refusal := s.aluLong sraS g d a e

/-- ROL in its two forms (R176). -/
def execRol (g : Guard) (d a b : Nat) (s : State) : Host.Outcome State Fault Refusal := s.aluReg rolS g d a b
def execRolLong (g : Guard) (d a : Nat) (e : Word32) (s : State) : Host.Outcome State Fault Refusal := s.aluLong rolS g d a e

/-- MIN in its two forms (R176). -/
def execMin (g : Guard) (d a b : Nat) (s : State) : Host.Outcome State Fault Refusal := s.aluReg minS g d a b
def execMinLong (g : Guard) (d a : Nat) (e : Word32) (s : State) : Host.Outcome State Fault Refusal := s.aluLong minS g d a e

/-- MAX in its two forms (R176). -/
def execMax (g : Guard) (d a b : Nat) (s : State) : Host.Outcome State Fault Refusal := s.aluReg maxS g d a b
def execMaxLong (g : Guard) (d a : Nat) (e : Word32) (s : State) : Host.Outcome State Fault Refusal := s.aluLong maxS g d a e

/-- FMIN in its two forms (R187). -/
def execFmin (g : Guard) (d a b : Nat) (s : State) : Host.Outcome State Fault Refusal := s.aluReg fminS g d a b
def execFminLong (g : Guard) (d a : Nat) (e : Word32) (s : State) : Host.Outcome State Fault Refusal := s.aluLong fminS g d a e

/-- FMAX in its two forms (R187). -/
def execFmax (g : Guard) (d a b : Nat) (s : State) : Host.Outcome State Fault Refusal := s.aluReg fmaxS g d a b
def execFmaxLong (g : Guard) (d a : Nat) (e : Word32) (s : State) : Host.Outcome State Fault Refusal := s.aluLong fmaxS g d a e

/-- FSGN in its two forms (R186). -/
def execFsgn (g : Guard) (d a b : Nat) (s : State) : Host.Outcome State Fault Refusal := s.aluReg fsgnS g d a b
def execFsgnLong (g : Guard) (d a : Nat) (e : Word32) (s : State) : Host.Outcome State Fault Refusal := s.aluLong fsgnS g d a e

/-- MUL in its two forms (R176). -/
def execMul (g : Guard) (d a b : Nat) (s : State) : Host.Outcome State Fault Refusal :=
  s.slowReg 4 (.mul g d a b) (fun x y => x * y) g d a b
def execMulLong (g : Guard) (d a : Nat) (e : Word32) (s : State) : Host.Outcome State Fault Refusal :=
  s.slowLong 4 (.mulLong g d a e) (fun x y => x * y) g d a e

/-- MULH in its two forms (R176). -/
def execMulh (g : Guard) (d a b : Nat) (s : State) : Host.Outcome State Fault Refusal :=
  s.slowReg 4 (.mulh g d a b) mulHigh g d a b
def execMulhLong (g : Guard) (d a : Nat) (e : Word32) (s : State) : Host.Outcome State Fault Refusal :=
  s.slowLong 4 (.mulhLong g d a e) mulHigh g d a e

/-- DIV in its two forms (R177). -/
def execDiv (g : Guard) (d a b : Nat) (s : State) : Host.Outcome State Fault Refusal :=
  s.slowReg 36 (.div g d a b) divS g d a b
def execDivLong (g : Guard) (d a : Nat) (e : Word32) (s : State) : Host.Outcome State Fault Refusal :=
  s.slowLong 36 (.divLong g d a e) divS g d a e

/-- REM in its two forms (R177). -/
def execRem (g : Guard) (d a b : Nat) (s : State) : Host.Outcome State Fault Refusal :=
  s.slowReg 36 (.rem g d a b) remS g d a b
def execRemLong (g : Guard) (d a : Nat) (e : Word32) (s : State) : Host.Outcome State Fault Refusal :=
  s.slowLong 36 (.remLong g d a e) remS g d a e

/-- FADD in its two forms (R186). -/
def execFadd (g : Guard) (d a b : Nat) (s : State) : Host.Outcome State Fault Refusal :=
  s.slowReg 4 (.fadd g d a b) faddS g d a b
def execFaddLong (g : Guard) (d a : Nat) (e : Word32) (s : State) : Host.Outcome State Fault Refusal :=
  s.slowLong 4 (.faddLong g d a e) faddS g d a e

/-- FSUB in its two forms (R186). -/
def execFsub (g : Guard) (d a b : Nat) (s : State) : Host.Outcome State Fault Refusal :=
  s.slowReg 4 (.fsub g d a b) fsubS g d a b
def execFsubLong (g : Guard) (d a : Nat) (e : Word32) (s : State) : Host.Outcome State Fault Refusal :=
  s.slowLong 4 (.fsubLong g d a e) fsubS g d a e

/-- FMUL in its two forms (R186). -/
def execFmul (g : Guard) (d a b : Nat) (s : State) : Host.Outcome State Fault Refusal :=
  s.slowReg 4 (.fmul g d a b) fmulS g d a b
def execFmulLong (g : Guard) (d a : Nat) (e : Word32) (s : State) : Host.Outcome State Fault Refusal :=
  s.slowLong 4 (.fmulLong g d a e) fmulS g d a e

/-- FDIV in its two forms (R186). -/
def execFdiv (g : Guard) (d a b : Nat) (s : State) : Host.Outcome State Fault Refusal :=
  s.slowReg 16 (.fdiv g d a b) fdivS g d a b
def execFdivLong (g : Guard) (d a : Nat) (e : Word32) (s : State) : Host.Outcome State Fault Refusal :=
  s.slowLong 16 (.fdivLong g d a e) fdivS g d a e

/-- The one-operand forms (R178). -/
def execClz (g : Guard) (d a : Nat) (s : State) : Host.Outcome State Fault Refusal := s.aluOne clzS g d a
def execCtz (g : Guard) (d a : Nat) (s : State) : Host.Outcome State Fault Refusal := s.aluOne ctzS g d a
def execPopc (g : Guard) (d a : Nat) (s : State) : Host.Outcome State Fault Refusal := s.aluOne popcS g d a
def execSext (g : Guard) (d a wm1 : Nat) (s : State) : Host.Outcome State Fault Refusal := s.aluOne (sextS · wm1) g d a
def execZext (g : Guard) (d a wm1 : Nat) (s : State) : Host.Outcome State Fault Refusal := s.aluOne (zextS · wm1) g d a
def execMov (g : Guard) (d a : Nat) (s : State) : Host.Outcome State Fault Refusal := s.aluOne (fun v => v) g d a

/-- BFX (R179). -/
def execBfx (g : Guard) (d a pos wm1 : Nat) (sgn : Bool) (s : State) : Host.Outcome State Fault Refusal :=
  s.coxRun true g [d, a] fun c k t u => putS c k d (bfxS (t.readS a) pos wm1 sgn) t u
/-- BFI reads and writes sD (R179). -/
def execBfi (g : Guard) (d a pos wm1 : Nat) (s : State) : Host.Outcome State Fault Refusal :=
  s.coxRun true g [d, a] fun c k t u => putS c k d (bfiS (t.readS d) (t.readS a) pos wm1) t u

/-- LI (R180). -/
def execLi (g : Guard) (d : Nat) (i : Imm12) (s : State) : Host.Outcome State Fault Refusal :=
  s.coxRun false g [d] fun c k t u => putS c k d (i.signExtend 64) t u
def execLiLong (g : Guard) (d : Nat) (e : Word32) (s : State) : Host.Outcome State Fault Refusal :=
  s.coxRun true g [d] fun c k t u => putS c k d (extVal e) t u
/-- LI.H keeps the lower half of sD (R180). -/
def execLiH (g : Guard) (d : Nat) (e : Word32) (s : State) : Host.Outcome State Fault Refusal :=
  s.coxRun true g [d] fun c k t u => putS c k d ((e.zeroExtend 64 <<< 32) ||| (t.readS d &&& 0xFFFFFFFF#64)) t u

/-- SEL (R181). -/
def execSel (g : Guard) (d a b p : Nat) (neg : Bool) (s : State) : Host.Outcome State Fault Refusal :=
  s.coxRun true g [d, a, b, 64 + p] fun c k t u => putS c k d (if t.readP p != neg then t.readS a else t.readS b) t u

/-- LEA (R182). -/
def execLea (g : Guard) (d : Nat) (i : Imm12) (s : State) : Host.Outcome State Fault Refusal :=
  s.coxRun false g [d] fun c k t u => putS c k d (t.pc + i.signExtend 64) t u
def execLeaLong (g : Guard) (d : Nat) (e : Word32) (s : State) : Host.Outcome State Fault Refusal :=
  s.coxRun true g [d] fun c k t u => putS c k d (t.pc + extVal e) t u

/-- HOFF (R183, R407): a handle at or above NHANDLE traps. -/
def execHoff (g : Guard) (d a h : Nat) (s : State) : Host.Outcome State Fault Refusal :=
  s.coxRun true g [d, a] fun c k t u =>
    if h ≥ (u.core c).handles.length ∧ h ≠ 0 then .trap 0x304 (BitVec.ofNat 64 h) 0
    else .done (u.setStrand c k (t.issue u.cycle.toNat 3 (.hoff g d a h) d (hoffS (u.core c) h (t.readS a)) (t.readS a) 0 0))

/-- The second operand of CMP (R184). -/
def cmpSecondVal (t : Strand) : CmpSecond → Word64
  | .reg b => t.readS b
  | .imm v => v.signExtend 64
def cmpUses : CmpSecond → List Nat
  | .reg b => [b]
  | .imm _ => []

/-- CMP (R184). -/
def execCmp (g : Guard) (d a : Nat) (cc : CmpCond) (second : CmpSecond) (comb : Comb) (s : State) : Host.Outcome State Fault Refusal :=
  s.coxRun true g ([64 + d, a] ++ cmpUses second) fun c k t u =>
    .done (u.setStrand c k (t.writeP d (combine comb (t.readP d) (cmpHolds cc (t.readS a) (cmpSecondVal t second)))))

/-- A predicate from two predicates (R185). -/
def State.predLogic (s : State) (f : Bool → Bool → Bool) (g : Guard) (d a b : Nat) : Host.Outcome State Fault Refusal :=
  s.coxRun false g [64 + d, 64 + a, 64 + b] fun c k t u => .done (u.setStrand c k (t.writeP d (f (t.readP a) (t.readP b))))
def execPand (g : Guard) (d a b : Nat) (s : State) : Host.Outcome State Fault Refusal := s.predLogic (fun x y => x && y) g d a b
def execPor (g : Guard) (d a b : Nat) (s : State) : Host.Outcome State Fault Refusal := s.predLogic (fun x y => x || y) g d a b
def execPxor (g : Guard) (d a b : Nat) (s : State) : Host.Outcome State Fault Refusal := s.predLogic (fun x y => x != y) g d a b
def execPnot (g : Guard) (d a : Nat) (s : State) : Host.Outcome State Fault Refusal := s.predLogic (fun x _ => !x) g d a a

/-- PGET packs all predicates; bit 0 is 1 (R185). -/
def execPget (g : Guard) (d : Nat) (s : State) : Host.Outcome State Fault Refusal :=
  s.coxRun false g (d :: (List.range 24).map (64 + ·)) fun c k t u => putS c k d ((t.preds ||| 1).zeroExtend 64) t u
/-- PSET writes the predicates that the mask in sB selects, p0 never (R185). -/
def execPset (g : Guard) (a b : Nat) (s : State) : Host.Outcome State Fault Refusal :=
  s.coxRun false g ([a, b] ++ (List.range 24).map (64 + ·)) fun c k t u =>
    let m := BitVec.truncate 24 (t.readS b) &&& 0xFFFFFE#24
    .done (u.setStrand c k { t with preds := (t.preds &&& ~~~m) ||| (BitVec.truncate 24 (t.readS a) &&& m) })

/-- FFMA reads sD as the addend (R186). -/
def execFfma (g : Guard) (d a b : Nat) (s : State) : Host.Outcome State Fault Refusal :=
  s.slow false 4 (.ffma g d a b) g [a, b] d (·.readS a) (·.readS b) (·.readS d) ffmaS
/-- FCMP (R188). -/
def execFcmp (g : Guard) (d a b : Nat) (cc : FcmpCond) (comb : Comb) (s : State) : Host.Outcome State Fault Refusal :=
  s.slow true 2 (.fcmp g d a b cc comb) g [a, b] (64 + d) (·.readS a) (·.readS b)
    (fun t => if comb ≠ .write ∧ t.readP d then 1 else 0)
    fun x y z => if combine comb (z.getLsbD 0) (fcmpHolds cc (f32Of x) (f32Of y)) then 1 else 0
/-- FCVT (R189). -/
def execFcvt (g : Guard) (d a : Nat) (kind : FcvtKind) (mode : FMode) (s : State) : Host.Outcome State Fault Refusal :=
  s.slow false 3 (.fcvt g d a kind mode) g [a] d (·.readS a) (fun _ => 0) (fun _ => 0) fun x _ _ => fcvtS kind mode x

end Sys2Proof.Machine
end

