-- ==== Sys2Proof/Machine/CoxControl.lean ====
section
/-! DEFINITION. Meanings of the Cox instructions that move the program counter (R190 to R197). -/
namespace Sys2Proof.Machine

/-- Whether a target may be jumped to: bits [1:0] and [63:57] zero (R193, R407). -/
def targetOk (a : Word64) : Bool := bitsOf a 1 0 == 0 && bitsOf a 63 57 == 0

/-- Goes to a target with the strand's effects made, or traps with BADTARGET and no effect (R407). -/
def goTo (u : State) (target : Word64) : Eff := if targetOk target then .jump u target else .trap 0x102 target 0

/-- BR (R191). -/
def execBr (g : Guard) (off : Imm18) (s : State) : Host.Outcome State Fault Refusal :=
  s.coxRun false g [] fun _ _ t u => goTo u (t.pc + 4 * off.signExtend 64)
def execBrLong (g : Guard) (e : Word32) (s : State) : Host.Outcome State Fault Refusal :=
  s.coxRun true g [] fun _ _ t u => goTo u (t.pc + 4 * extVal e)

/-- CALL (R192): the link is the address after the call's words. -/
def execCall (g : Guard) (d : Nat) (i : Imm12) (s : State) : Host.Outcome State Fault Refusal :=
  s.coxRun false g [d] fun c k t u => goTo (u.setStrand c k (t.writeS d (t.pc + 4))) (t.pc + 4 * i.signExtend 64)
def execCallLong (g : Guard) (d : Nat) (e : Word32) (s : State) : Host.Outcome State Fault Refusal :=
  s.coxRun true g [d] fun c k t u => goTo (u.setStrand c k (t.writeS d (t.pc + 8))) (t.pc + 4 * extVal e)

/-- RET (R193). -/
def execRet (g : Guard) (a : Nat) (s : State) : Host.Outcome State Fault Refusal :=
  s.coxRun false g [a] fun _ _ t u => goTo u (t.readS a)
/-- JR reads sA before it writes sD (R193). -/
def execJr (g : Guard) (d a : Nat) (s : State) : Host.Outcome State Fault Refusal :=
  s.coxRun false g [d, a] fun c k t u => goTo (u.setStrand c k (t.writeS d (t.pc + 4))) (t.readS a)

/-- The counted loop (R194): the count goes down, and a count left over branches. -/
def loopEff (d : Nat) (off : Word64) (c k : Nat) (t : Strand) (u : State) : Eff :=
  let n := t.readS d - 1
  let v := u.setStrand c k (t.writeS d n)
  if n = 0 then .done v else goTo v (t.pc + 4 * off)
def execLoop (g : Guard) (d : Nat) (i : Imm12) (s : State) : Host.Outcome State Fault Refusal :=
  s.coxRun false g [d] fun c k t u => loopEff d (i.signExtend 64) c k t u
def execLoopLong (g : Guard) (d : Nat) (e : Word32) (s : State) : Host.Outcome State Fault Refusal :=
  s.coxRun true g [d] fun c k t u => loopEff d (extVal e) c k t u

/-- The first bucket whose capacity holds a count (R196): its capacity and its target offset. -/
def bucketFor (count : Nat) : Nat → ByteList → Option (Nat × Word64)
  | 0, _ => none
  | n + 1, b =>
    if count ≤ leNat (b.take 4) then some (leNat (b.take 4), sext64 (leNat ((b.drop 4).take 4)) 32)
    else bucketFor count n (b.drop 8)

/-- What DSPT does once its table has been read (R196). -/
def dsptGo (d a nb : Nat) (table : ByteList) (c k : Nat) (t : Strand) (u : State) : Eff :=
  match bucketFor (t.readS a).toNat nb table with
  | some (cap, off) => goTo (u.setStrand c k (t.writeS d (BitVec.ofNat 64 cap))) (t.pc + off)
  | none => .done (u.setStrand c k (t.writeS d (t.readS a)))

/-- The bytes of DSPT's table in device virtual memory (R83, R92, R197): the strand's own accesses to them come first. -/
def dsptRead (u : State) (c k : Nat) (tb n : Nat) : Except Cause (Option (ByteList × State)) :=
  match u.placeOf c k .g (BitVec.ofNat 64 tb) n .read false false with
  | .error x => .error x
  | .ok pl =>
    if u.ownOrder c k pl.keys then .ok none
    else (u.readV (u.whoStrand c k) .read tb n).map some

/-- DSPT (R195 to R197, R407): an 8-byte aligned table that lies in one page. -/
def execDspt (g : Guard) (d a nbm1 : Nat) (tab : DsptTable) (s : State) : Host.Outcome State Fault Refusal :=
  s.coxRun true g [d, a] fun c k t u =>
    let n := 8 * (nbm1 + 1)
    match tab with
    | .rel e =>
      let tb := t.pc + extVal e
      if bitsOf tb 63 57 ≠ 0 then .trap 0x301 tb 0
      else if tb.toNat % 8 ≠ 0 ∨ tb.toNat % 65536 + n > 65536 then .trap 0x302 tb 0
      else match dsptRead u c k tb.toNat n with
        | .error x => .trap x.code x.info x.info1
        | .ok none => .stay u
        | .ok (some (b, v)) => dsptGo d a (nbm1 + 1) b c k (v.strand c k) v
    | .loc off =>
      if off.toNat % 8 ≠ 0 ∨ off.toNat % 8192 + n > 8192 then .trap 0x302 (off.zeroExtend 64) 0
      else match u.readLocalChecked c off.toNat n with
        | .error x => .trap x.code x.info x.info1
        | .ok b =>
          if u.ownOrder c k ((List.range n).filterMap fun i => u.localKey c false (off.toNat + i)) then .stay u
          else dsptGo d a (nbm1 + 1) b c k t u

end Sys2Proof.Machine
end

