-- ==== Sys2Proof/Machine/Remap.lean ====
section
/-! DEFINITION. HBM remapping: swaps, channel retirement, what the remap engine chooses, and the ramp limiter's register (R87 to R92, R147, R373, R378, R424, R425). -/
namespace Sys2Proof.Machine

/-! ## The ramp limiter (R147, R378) -/

/-- A RAMPCTL write (R378): the limits are clamped and wait for the next interval. -/
def State.opRampctl (s : State) (d : Nat) (v : Word64) : State :=
  s.onDie d fun x => { x with
    rampNext := some (setBits (setBits 0 19 0 (clampNat 2400 307200 (bitsOf v 19 0))) 39 20 (clampNat 2400 307200 (bitsOf v 39 20))) }

/-- RAMPCTL_WRITE (R378). -/
def execRampctlWrite (die : Nat) (v : Word64) (s : State) : Host.Outcome State Fault Refusal :=
  if die < 8 then .next (s.opRampctl die v) else .next s

/-- The issue slots of an interval that follows one with some number of them: a free number within the limits of R147. -/
def slotsAfter (ramp : Word64) (free : Nat) : Nat :=
  clampNat (bitsOf ramp 59 40 - bitsOf ramp 39 20) (min 307200 (bitsOf ramp 59 40 + bitsOf ramp 19 0)) free

/-- RAMP_INTERVAL_END (R147, R378): LAST takes the interval's count, and a written limit takes effect. -/
def execRampIntervalEnd (die : Nat) (s : State) : Host.Outcome State Fault Refusal :=
  if die ≥ 8 then .next s
  else
    let x := s.die die
    let n := slotsAfter x.ramp (Config.issueSlots s.steps)
    .next (s.setDie die { x with ramp := setBits (x.rampNext.getD x.ramp) 59 40 n, rampNext := none })

/-! ## Swaps (R91, R92) -/

/-- Whether a region may be chosen for a swap (R91). -/
def Die.swappable (x : Die) (lri : Nat) : Bool :=
  let e := x.ritAt lri
  e.v && !e.shv && !e.qs && !e.noremap

/-- A REMAPREQ write (R91): GO is refused, or asks for a swap. -/
def State.opRemapReq (s : State) (d : Nat) (v : Word64) : State :=
  let x := s.die d
  let a := bitsOf v 15 0
  let b := bitsOf v 31 16
  let y := { x with remapLria := v.truncate 16, remapLrib := BitVec.ofNat 16 b }
  if !v.getLsbD 32 then s.setDie d y
  else if a = b ∨ !x.swappable a ∨ !x.swappable b ∨ x.swap.isSome then s.setDie d { y with refused := true }
  else s.setDie d { y with refused := false, swap := some ⟨a, some b, false, 0⟩ }

/-- REMAP_REQUEST (R91). -/
def execRemapRequest (die : Nat) (v : Word64) (s : State) : Host.Outcome State Fault Refusal :=
  if die < 8 then .next (s.opRemapReq die v) else .next s

/-- REMAPREQ as it reads (R91). -/
def Die.remapReq (x : Die) : Word64 :=
  BitVec.ofNat 64 (x.remapLria.toNat + x.remapLrib.toNat * 2 ^ 16 + (if x.swap.isSome then 2 ^ 33 else 0) + (if x.refused then 2 ^ 34 else 0))

/-- REMAPCTL as a write stores it (R91). -/
def remapctlOf (v : Word64) : Word32 :=
  let e := max 1 (bitsOf v 15 8)
  let r := max 17 (bitsOf v 23 16)
  BitVec.ofNat 32 (bitsOf v 0 0 + e * 2 ^ 8 + r * 2 ^ 16 + bitsOf v 31 24 * 2 ^ 24)

/-- The channel, out of those not being retired, that is best by an order on counts. DESIGN CHOICE (log 100): of channels with equal counts, the lowest numbered. -/
def Die.pickChannel (x : Die) (better : Nat → Nat → Bool) : Option Nat :=
  ((List.range 64).filter fun n => !x.leaving.getLsbD n).foldl
    (fun b n => match b with
      | none => some n
      | some m => if better (tabGet 0 x.access n) (tabGet 0 x.access m) then some n else b) none

/-- The hot region of a channel (R91), out of those that no swap chosen before takes: the LRI recorded most often, the lowest on a tie. -/
def Die.hotRegion (x : Die) (taken : NatList) (ch : Nat) : Option Nat :=
  ((x.access.filter fun p => decide (p.1 ≥ 64) && x.swappable (p.1 - 64) && !taken.contains (p.1 - 64) && chanBit (x.ritAt (p.1 - 64)).pri == ch).foldl
    (fun b p => match b with
      | none => some p
      | some q => if p.2 > q.2 then some p else b) none).map fun p => p.1 - 64

/-- The cold region of a channel (R91): its lowest LRI that was not recorded. -/
def Die.coldRegion (x : Die) (taken : NatList) (ch : Nat) : Option Nat :=
  (List.range 65536).find? fun l => x.swappable l && !taken.contains l && chanBit (x.ritAt l).pri == ch && tabGet 0 x.access (64 + l) == 0

/-- The regions A and B of a swap that the engine chooses at the end of an epoch (R91). -/
def Die.chooseSwap (x : Die) (taken : NatList) : Option (Nat × Nat) :=
  match x.pickChannel (fun a b => decide (a > b)), x.pickChannel (fun a b => decide (a < b)) with
  | some h, some c =>
    let total := ((List.range 64).map (tabGet 0 x.access ·)).sum
    if tabGet 0 x.access h * 16 * 64 > total * bitsOf x.remapctl 23 16 then
      match x.hotRegion taken h, x.coldRegion taken c with
      | some a, some b => if a = b then none else some (a, b)
      | _, _ => none
    else none
  | _, _ => none

/-- At most n swaps for an epoch (R91), one after another, of regions that no earlier one takes (log 100). -/
def Die.chooseSwaps (x : Die) : Nat → NatList → List (Nat × Nat)
  | 0, _ => []
  | n + 1, taken =>
    match x.chooseSwap taken with
    | some p => p :: x.chooseSwaps n (p.1 :: p.2 :: taken)
    | none => []

/-- The next of the chosen swaps whose regions may still be swapped begins, when none runs (R91: one at a time). -/
def Die.nextSwap (x : Die) : Die :=
  if x.swap.isSome then x
  else match x.swapNext.dropWhile fun p => [p.1, p.2].any fun l => !x.swappable l || x.leaving.getLsbD (chanBit (x.ritAt l).pri) with
  | [] => { x with swapNext := [] }
  | p :: r => { x with swap := some ⟨p.1, some p.2, false, 0⟩, swapNext := r }

/-- REMAP_EPOCH_END (R91): in hardware mode, with EN, the engine chooses up to MAXSW swaps, which are dropped while one is in progress; the counts start again. -/
def execRemapEpochEnd (die : Nat) (s : State) : Host.Outcome State Fault Refusal :=
  if die ≥ 8 then .next s
  else
    let x := s.die die
    let l := if x.remapctl.getLsbD 0 && !s.modesel.getLsbD 1 && x.swap.isNone then x.chooseSwaps (bitsOf x.remapctl 31 24) [] else x.swapNext
    .next (s.setDie die { x with access := [], swapNext := l }.nextSwap)

/-- Sets QS of a region. -/
def State.quiesce (s : State) (d lri : Nat) : State :=
  s.onDie d fun x => { x with rit := tabPut x.rit lri { x.ritAt lri with qs := true } }

/-- Clears QS of a region, and RIT writes that were held take effect (R92, R340). -/
def State.unquiesce (s : State) (d lri : Nat) : State :=
  (s.onDie d fun x => { x with rit := tabPut x.rit lri { x.ritAt lri with qs := false } }).applyRit d

/-- A record of a die's memory controller (R397). -/
def memRecord (die sub cause : Nat) (info info1 : Word64) : ErrRec := ⟨cause, 0, 8, die, sub, false, none, 0, info, info1, 0⟩

/-- One MOVEPOISON record for every poisoned line of a region that a move copies (R425). -/
def State.movePoison (s : State) (d lri pri : Nat) : State :=
  let a := regionLines d pri
  (s.lines.filter fun p => decide (a ≤ p.1) && decide (p.1 < a + 2 ^ 15) && p.2.poison).foldl
    (fun t p => t.errorRecord (memRecord d (regionStack pri) 0x706 (BitVec.ofNat 64 ((regionLines d lri + (p.1 - a)) * 64)) 0)) s

/-- Steps 3 to 5 of R92. -/
def State.finishSwap (s : State) (d : Nat) (w : Swap) (b : Nat) : State :=
  let pa := (s.rit d w.a).pri
  let pb := (s.rit d b).pri
  let s1 := (((s.movePoison d b pb).movePoison d w.a pa).copyRegion d w.spare pb).copyRegion d pb pa
  let s2 := s1.onDie d fun x =>
    { x with swap := none, rit := tabPut (tabPut x.rit w.a { x.ritAt w.a with pri := pb }) b { x.ritAt b with pri := w.spare } }
  ((s2.unquiesce d w.a).unquiesce d b).onDie d Die.nextSwap

/-- REGION_SWAP (R88, R92): once a spare region is free the regions are quiesced; once earlier accesses are done, they move. -/
def execRegionSwap (die : Nat) (s : State) : Host.Outcome State Fault Refusal :=
  match (s.die die).swap with
  | none => .next s
  | some w =>
    match w.b with
    | none => .next s
    | some b =>
      if w.started then
        if s.causalIn die w.a || s.causalIn die b then .next s else .next (s.finishSwap die w b)
      else match (s.die die).spares with
      | [] => .next s
      | p :: _ => .next (((s.quiesce die w.a).quiesce die b).onDie die fun x => { x with swap := some { w with started := true, spare := p } })

/-! ## Channel retirement (R424) -/

def State.retDie (s : State) : Nat := bitsOf s.chret 2 0
def State.retStack (s : State) : Nat := bitsOf s.chret 3 3
def State.retChan (s : State) : Nat := bitsOf s.chret 8 4

/-- The end of a retirement (R424): the mask bit or FAILED, and the RETIRE record. -/
def State.endRetire (s : State) (failed : Bool) : State :=
  let t := if failed then s else s.onDie s.retDie fun x => { x with retired := x.retired ||| BitVec.ofNat 64 (2 ^ (32 * s.retStack + s.retChan)) }
  ({ t with chbusy := false, chmoving := false, chfailed := failed }).errorRecord
    (memRecord s.retDie s.retStack 0x708 (BitVec.ofNat 64 (bitsOf s.chret 8 0)) (BitVec.ofNat 64 s.chleft))

/-- SWAP_ABANDON (R425): both entries keep their mapping, and the staging region is not used again. -/
def execSwapAbandon (die : Nat) (s : State) : Host.Outcome State Fault Refusal :=
  match (s.die die).swap with
  | none => .next s
  | some w =>
    if !w.started then .next s
    else
      let s1 := s.onDie die fun x => { x with swap := none, withheld := x.withheld ++ [w.spare] }
      let s2 := match w.b with
        | some b => ((s1.unquiesce die w.a).unquiesce die b).onDie die Die.nextSwap
        | none => s1.unquiesce die w.a
      let s3 := s2.errorRecord (memRecord die (regionStack w.spare) 0x707 (BitVec.ofNat 64 w.a) (BitVec.ofNat 64 (w.b.getD 0 * 2 ^ 16)))
      .next (if w.b.isNone then s3.endRetire true else s3)

/-- CHANNEL_RETIRE (R424): a CHRET write. -/
def execChannelRetire (v : Word64) (s : State) : Host.Outcome State Fault Refusal :=
  if s.keel.booted then .next (s.opChannelRetire v) else .next s

/-- The regions that still stand in the retiring channel. -/
def State.leftRegions (s : State) : List Nat := s.channelRegions s.retDie s.retStack s.retChan

/-- Moves the region of a retirement move (R92, R373, R424): its visible region, or else its shadow with its counters. -/
def State.finishMove (s : State) (d : Nat) (w : Swap) : State :=
  let e := s.rit d w.a
  let vis := inChannel s.retStack s.retChan e.pri
  let from_ := if vis then e.pri else e.spri
  let s1 := (s.movePoison d w.a from_).copyRegion d w.spare from_
  let s2 := if vis then s1 else
    { s1 with shadowCtr := tabClear (tabCopy s1.shadowCtr (regionLines d w.spare) s1.shadowCtr (regionLines d from_) (2 ^ 15)) (regionLines d from_) (2 ^ 15) }
  let s3 := (s2.onDie d fun x =>
    { x with swap := none, rit := tabPut x.rit w.a (if vis then { x.ritAt w.a with pri := w.spare } else { x.ritAt w.a with spri := w.spare }) }).unquiesce d w.a
  let s4 := { s3 with chleft := s3.leftRegions.length }
  if s4.chleft = 0 then s4.endRetire false else s4

/-- RETIREMENT_MOVE (R424): waits for a running swap, counts, and moves the lowest region left; with no spare region the retirement fails. -/
def execRetirementMove (die : Nat) (s : State) : Host.Outcome State Fault Refusal :=
  if !s.chbusy || s.retDie != die then .next s
  else match (s.die die).swap with
  | some w => if w.b.isNone && !(s.causalIn die w.a) then .next (s.finishMove die w) else .next s
  | none =>
    if !s.chmoving then .next { s with chmoving := true, chleft := s.leftRegions.length }
    else match s.leftRegions with
    | [] => .next (s.endRetire false)
    | a :: _ =>
      if (s.die die).pubHeld.any fun p => p.pages.contains a then .next s
      else match (s.die die).spares with
      | [] => .next (s.endRetire true)
      | p :: _ => .next ((s.quiesce die a).onDie die fun x => { x with swap := some ⟨a, none, true, p⟩ })

end Sys2Proof.Machine
end

