-- ==== Sys2Proof/Machine/CoxSystem.lean ====
section
/-! DEFINITION. Meanings of the system instructions: system registers, traps and returns from them, firmware requests, HALT and EXIT, and words that are no instruction (R160, R169 to R171, R190, R234 to R237, R314 to R320, R395, R406, R409). -/
namespace Sys2Proof.Machine

/-! ## System registers (R169) -/

def SpmEntry.word (e : SpmEntry) : Nat := e.frame % 256 + e.shf % 256 * 2 ^ 8 + (if e.v then 2 ^ 16 else 0) + (if e.shv then 2 ^ 17 else 0)

/-- YDL (R316). -/
def Part.ydl (p : Part) : Word64 :=
  BitVec.ofNat 64 ((if p.yreq then 1 else 0) + (if p.forced then 2 else 0) + p.dltick.toNat * 2 ^ 32)

/-- Whether a number belongs to the privileged view. -/
def privSys (n : Nat) : Bool := decide (0x100 ≤ n) && decide (n ≤ 0x104)

/-- The value of a system register; none for an unassigned number. -/
def State.readSys (s : State) (c k n : Nat) : Option Word64 :=
  let x := s.core c
  let t := s.strand c k
  let p := s.corePart c
  let y := s.die (coreDie c)
  match n with
  | 0x000 => some 0x801B1D008
  | 0x001 => some (BitVec.ofNat 64 c)
  | 0x002 => some (x.partw.zeroExtend 64)
  | 0x003 => some (BitVec.ofNat 64 (k + (if p.priv then 4 else 0) + x.lcore * 2 ^ 16))
  | 0x004 => some (s.cycle + x.lead)
  | 0x005 => some s.tick
  | 0x010 => some (t.spmsel.zeroExtend 64)
  | 0x011 => some (BitVec.ofNat 64 (x.spmAt t.spmsel.toNat).word)
  | 0x012 => some x.sttcfg
  | 0x018 => some (x.srsv.zeroExtend 64)
  | 0x019 => some (x.srsc.zeroExtend 64)
  | 0x020 => some (t.tcause.zeroExtend 64)
  | 0x021 => some t.tinfo
  | 0x022 => some t.tvec
  | 0x023 => some t.tframe
  | 0x024 => some p.ydl
  | 0x100 => some p.ptroot
  | 0x101 => some (y.remapctl.zeroExtend 64)
  | 0x102 => some y.remapReq
  | 0x103 => some s.modesel
  | 0x104 => some y.ramp
  | _ => none

/-- MFS (R234, R407). -/
def execMfs (g : Guard) (d n : Nat) (s : State) : Host.Outcome State Fault Refusal :=
  s.coxRun false g [d] fun c k t u =>
    match u.readSys c k n with
    | none => .trap 0x307 (BitVec.ofNat 64 n) 0
    | some v => if privSys n && !(u.corePart c).priv then .trap 0x308 (BitVec.ofNat 64 n) 0 else putS c k d v t u

/-! ### STTCFG (R93, R407) -/

/-- Whether a value breaks the rules of STTCFG. -/
def Core.sttBad (x : Core) (v : Word64) : Bool :=
  let n := sttSlots v
  let lo := sttBase v
  decide (bitsOf v 2 0 > 4) || decide (n > 1024) || lo % sttBlock v != 0
  || (n != 0 && (decide (lo + n * sttBlock v > x.sp * 65536)
      || !((List.range ((lo + n * sttBlock v - 1) / 8192 + 1 - lo / 8192)).all fun i => (x.spmAt (lo / 8192 + i)).v)))

/-- Whether a fill of the core is in flight. -/
def Core.fillsOpen (x : Core) : Bool :=
  x.chans.toList.flatten.any fun e => match e.src with
    | .fill _ => true
    | _ => false

/-- A new value takes effect: every tag invalid, every pin count 0 (R93). -/
def Core.applyStt (x : Core) (v : Word64) : Core :=
  { x with sttcfg := v &&& 0x7FFFFFFFFFFF, tags := [], stampNext := 0, sttPend := none }

/-- STTCFG_WRITE (R93): an MTS to STTCFG by a strand is refused with STTUSE, or waits for the fills in flight. -/
def execSttcfgWrite (core slot : Nat) (v : Word64) (s : State) : Host.Outcome State Fault Refusal :=
  let x := s.core core
  if slot ≥ 4 ∨ !s.strandReady core slot then .next s
  else if x.sttBad v then
    (if (s.strand core slot).loads.any (·.val.isNone) then .next s else .next (s.takeTrap core slot 0x30E v 0))
  else if x.sttPend.isSome then .next s
  else .next (s.setCore core { x with sttPend := some (slot, v) })

/-- STTCFG_APPLY (R93): once no fill is in flight, the waiting value takes effect. -/
def execSttcfgApply (core : Nat) (s : State) : Host.Outcome State Fault Refusal :=
  let x := s.core core
  match x.sttPend with
  | some (_, v) => if x.fillsOpen || x.frozen then .next s else .next (s.setCore core (x.applyStt v))
  | none => .next s

/-- MTS to STTCFG: gen 1 of its hold tells that its value waits. -/
def sttEff (u : State) (c k : Nat) (t : Strand) (i : Instr) (v : Word64) : Eff :=
  let x := u.core c
  let waits := (x.sttPend.map (·.1)) == some k
  if (t.hold.map (·.gen)) = some 1 then
    if !waits then .done u
    else if x.fillsOpen then .wait u ⟨i, [], 1, none, []⟩
    else .done (u.setCore c (x.applyStt v))
  else if x.sttBad v then .trap 0x30E v 0
  else if x.sttPend.isSome then .wait u ⟨i, [], 0, none, []⟩
  else if x.fillsOpen then .wait (u.setCore c { x with sttPend := some (k, v) }) ⟨i, [], 1, none, []⟩
  else .done (u.setCore c (x.applyStt v))

/-- MTS (R66, R75, R80, R91, R93, R234, R315, R357, R378, R407). -/
def execMts (g : Guard) (n a : Nat) (s : State) : Host.Outcome State Fault Refusal :=
  s.coxRun false g [a] fun c k t u =>
    let v := t.readS a
    if (u.readSys c k n).isNone || !([0x010, 0x012, 0x018, 0x019, 0x022, 0x023].contains n || privSys n) then .trap 0x307 (BitVec.ofNat 64 n) 0
    else if privSys n && !(u.corePart c).priv then .trap 0x308 (BitVec.ofNat 64 n) 0
    else match n with
    | 0x010 => .done (u.setStrand c k { t with spmsel := v.truncate 8 })
    | 0x012 => sttEff u c k t (.mts g n a) v
    | 0x018 => .done (u.onCore c fun x => { x with srsv := BitVec.ofNat 32 (srStore (bitsOf v 31 0)) })
    | 0x019 => .done (u.onCore c fun x => { x with srsc := BitVec.ofNat 32 (srStore (bitsOf v 31 0)) })
    | 0x022 => .done (u.setStrand c k { t with tvec := v &&& 0xFFFFFFFFFFFFFFFC#64 })
    | 0x023 => .done (u.setStrand c k { t with tframe := v &&& 0x1FFFC0 })
    | 0x100 => .done (u.onCorePart c fun p => { p with ptroot := v &&& 0x1FFFFFFF000#64 })
    | 0x101 => .done (u.onDie (coreDie c) fun y => { y with remapctl := remapctlOf v })
    | 0x102 => .done (u.opRemapReq (coreDie c) v)
    | 0x103 => .done (u.opModesel v)
    | _ => .done (u.opRampctl (coreDie c) v)

/-! ## Traps and returns (R318, R319, R409) -/

/-- Every register and predicate of a strand: an instruction that uses them all waits for whatever is unfinished. -/
def allUses : List Nat := List.range 88

/-- TRAP (R234, R318): the boundary falls after the word. -/
def execTrap (g : Guard) (code : Nat) (s : State) : Host.Outcome State Fault Refusal :=
  s.coxRun false g [] fun c k t u =>
    if t.loads.any (·.val.isNone) then .stay u
    else .over ((u.setStrand c k { t with pc := t.pc + 4, hold := none, got := [] }).takeTrap c k 0x101 (BitVec.ofNat 64 code) 0)

/-- The instruction of a replay entry (R320). -/
def replayInstr (e : ByteList) : Option Instr :=
  match decodeCox (field e 0 4) with
  | .one i => some i
  | .two f => f (field e 4 4)
  | .illegal => none

/-- What a replay entry re-injects: destination, latency, value. -/
def Core.replayed (x : Core) (e : ByteList) : Option (Nat × Nat × Word64) :=
  (replayInstr e).bind fun i =>
    replayOf x i (BitVec.ofNat 64 (field e 0x10 8)) (BitVec.ofNat 64 (field e 0x18 8)) (BitVec.ofNat 64 (field e 0x20 8))

/-- Whether a replay entry fails R409. -/
def Core.replayBad (x : Core) (e : ByteList) : Bool :=
  field e 9 1 != 1 || field e 0x0A 6 != 0 || field e 0x28 8 != 0
  || (match x.replayed e with
    | none => true
    | some (_, lat, _) => field e 8 1 == 0 || decide (field e 8 1 > lat - 1))

/-- The replay entries of a frame. -/
def frameEntries (f : ByteList) : List ByteList := (List.range (field f 0x280 4)).map fun i => slice f (0x290 + 48 * i) 48

/-- Re-injects one entry: it writes its result REM cycles later (R319). -/
def Core.reinject (x : Core) (now : Nat) (t : Strand) (e : ByteList) : Strand :=
  match x.replayed e with
  | none => t
  | some (dst, _, v) =>
    { t.writeAny dst v with
      inflight := t.inflight ++ [⟨BitVec.ofNat 32 (field e 0 4), BitVec.ofNat 32 (field e 4 4), dst, t.readAny dst,
        BitVec.ofNat 64 (field e 0x10 8), BitVec.ofNat 64 (field e 0x18 8), BitVec.ofNat 64 (field e 0x20 8), now + field e 8 1⟩] }

/-- Predicates as a record holds them: bit 0 reads 1 (R328). -/
def predsOf (v : Nat) : BitVec 24 := BitVec.ofNat 24 v ||| 1

/-- Registers as a record holds them: s0 reads 0 (R328). -/
def regsOf (f : ByteList) : Vector Word64 64 := Vector.ofFn fun n => if n.val = 0 then 0 else BitVec.ofNat 64 (field f (0x40 + 8 * n.val) 8)

/-- The strand that RETT leaves (R319). -/
def Core.afterRett (x : Core) (now : Nat) (t : Strand) (f : ByteList) : Strand :=
  (frameEntries f).foldl (x.reinject now)
    { t with pc := BitVec.ofNat 64 (field f 0 8), preds := predsOf (field f 0x0C 4), regs := regsOf f, inh := false, hold := none, inflight := [], loads := [], got := [], rebase := false }

/-- RETT (R319, R409). -/
def execRett (g : Guard) (s : State) : Host.Outcome State Fault Refusal :=
  s.coxRun false g allUses fun c k t u =>
    let x := u.core c
    let off := BitVec.ofNat 64 t.frameOff
    if !t.inh then .trap 0x309 off (BitVec.allOnes 64)
    else match u.readLocalChecked c t.frameOff 1424 with
    | .error e => .trap e.code e.info e.info1
    | .ok f =>
      if field f 0x280 4 > 16 then .trap 0x309 off (BitVec.allOnes 64)
      else match (frameEntries f).findIdx? x.replayBad with
      | some n => .trap 0x309 off (BitVec.ofNat 64 n)
      | none => .over (u.setStrand c k (x.afterRett u.cycle.toNat t f))

/-! ## Words that are no instruction (R160, R190, R406, R453) -/

/-- A trap at the boundary before the word, once every load is inside (R317). -/
def State.trapHere (s : State) (c k cause : Nat) (info info1 : Word64) : State :=
  if (s.strand c k).loads.any (·.val.isNone) then s.idle c else s.takeTrap c k cause info info1

/-- ILLEGAL_COX_WORD (R160, R406): whatever the guard; e is the extension word when it was fetched. -/
def execIllegalCoxWord (w e : Word32) (s : State) : Host.Outcome State Fault Refusal :=
  match s.turn with
  | .strand c k => .next (s.trapHere c k 0x201 (BitVec.ofNat 64 (w.toNat + e.toNat * 2 ^ 32)) 0)
  | _ => .fault .noUnit

/-- INFO1 of the cause that a fetch of a strand or kernel meets: of its word, or of its extension word. -/
def State.fetchInfo1 (s : State) (w : Who) (pc : Word64) (cause : Nat) : Word64 :=
  match s.fetchWord w pc with
  | .error x => if x.code = cause then x.info1 else 0
  | .ok _ =>
    match s.fetchWord w (pc + 4) with
    | .error x => if x.code = cause then x.info1 else 0
    | .ok _ => 0

/-- INSTRUCTION_FETCH_FAULT (R190, R416, R423; a cause below 4 is a fetch that is held: the unit issues nothing), and the trap of an earlier failed access at the first boundary after it (R453). -/
def execInstructionFetchFault (cause : Nat) (info : Word64) (s : State) : Host.Outcome State Fault Refusal :=
  match s.turn with
  | .strand c k =>
    let t := s.strand c k
    if cause < 4 then .next (s.idle c)
    else match t.failed with
    | f :: r =>
      if f.cause = cause ∧ f.info = info then
        (if t.loads.any (·.val.isNone) then .next (s.idle c)
         else .next (((s.disown (· == .words c k)).setStrand c k { t with failed := r }).takeTrapAt c k cause info f.info1 (f.place.getD t.pc.toNat)))
      else .next (s.trapHere c k cause info 0)
    | [] => .next (s.trapHere c k cause info (s.fetchInfo1 (s.whoStrand c k) t.pc cause))
  | .kernel c =>
    match (s.core c).kernel with
    | some x => if cause < 4 then .next s else .next (s.kernelFault c ⟨cause, info, s.fetchInfo1 (s.whoKernel c x) x.next cause⟩)
    | none => .next s
  | _ => .fault .noUnit

/-! ## Firmware requests, HALT, EXIT (R235 to R237) -/

/-- SYS (R235): the request goes to the active firmware complex, and the strand holds for the reply. -/
def execSys (g : Guard) (d a : Nat) (svc : Service) (s : State) : Host.Outcome State Fault Refusal :=
  s.coxRun false g [d, a] fun c k t u =>
    match t.hold with
    | some h =>
      match h.answer with
      | some v => .done (u.setStrand c k (t.writeS d v))
      | none => .wait u h
    | none => .wait { u with sysreqs := u.sysreqs ++ [⟨c, k, svc, t.readS a, u.fw.switching⟩] } ⟨.sys g d a svc, [], 0, none, []⟩

/-- Whether a firmware complex answers (R447, R450). -/
def Firmware.alive (f : Firmware) : Bool := !f.noBoot && !f.lost

/-- SYS_REPLY (R235): ECHO returns its argument; NOTIFY appends it to the notifications of the launch's queue and returns 0. -/
def execSysReply (core slot : Nat) (s : State) : Host.Outcome State Fault Refusal :=
  match s.sysreqs.find? fun r => r.core == core && r.slot == slot with
  | some r =>
    if !s.fw.alive || r.held || !s.keel.booted then .next s
    else
      let p := s.corePart core
      let v := match r.svc with
        | .echo => r.arg
        | .notify => 0
      let s1 := match r.svc with
        | .echo => s
        | .notify => s.notify p.queue 0 (noteBytes 2 0 0 0 r.arg)
      let s2 : State := { s1 with sysreqs := s1.sysreqs.filter fun q => !(q.core == core && q.slot == slot) }
      .next (s2.onStrand core slot fun t => { t with hold := t.hold.map fun (h : Hold) => { h with answer := some v } })
  | none => .next s

/-- HALT (R236): the strand stops at the boundary after it, and its part is saved. -/
def execHalt (g : Guard) (s : State) : Host.Outcome State Fault Refusal :=
  s.coxRun false g [] fun c k t u =>
    let v := u.setStrand c k { t with pc := t.pc + 4, status := .stopped, hold := none, got := [] }
    .over (match (v.core c).part with
      | some p => v.askSave p 3
      | none => v)

/-- EXIT (R217, R237): the strand ends once its earlier instructions have finished; until then it holds (R200). -/
def execExit (g : Guard) (s : State) : Host.Outcome State Fault Refusal :=
  s.coxRun false g [] fun c k t u =>
    if t.loads.any (·.val.isNone) then .wait u ⟨.exit g, [], 0, none, []⟩
    else
      let v := (u.setStrand c k { (t.interlock allUses).landUsed allUses with
        pc := t.pc + 4, status := .exited, hold := none, got := [] }).exitBars c k
      .over (match (v.core c).part with
        | some p => v.yieldDone p
        | none => v)

end Sys2Proof.Machine
end

