-- ==== Sys2Proof/Machine/HostEvents.lean ====
section
/-! DEFINITION. Meanings of what the host does through the BARs and the aperture: BAR2 accesses, register writes, doorbells, queue control, translation invalidation, MODESEL, PREEMPT and the RIT (R338 to R348, R356, R357, R445, R446). -/
namespace Sys2Proof.Machine

/-- Who the host is at HBM (R338, R370): identifier 0; r names a held request. -/
def whoHost (r : ReqFor) : Who := ⟨none, none, 0, 0, 11, true, r⟩

/-! ## Held requests from outside (R92, R345) -/

/-- The request from outside whose turn it is. -/
def State.outsideReq (s : State) : ReqFor :=
  match s.turn with
  | .outside n => .outside n
  | _ => .nothing

/-- A request from outside is held: its first turn puts it behind those that wait, and at a held region, where key is not 0, it takes its place in the order of arrival (R92). -/
def State.holdOutside (s : State) (i : HeldReq) (key : Nat) : State :=
  match s.turn with
  | .outside _ => s
  | _ =>
    let t := { s with outside := s.outside ++ [(s.nextId, i)] }.bumpId
    if key = 0 then t else t.arriveAt (.outside s.nextId) key

/-- A held request from outside is served now. -/
def State.letOutside (s : State) : State :=
  match s.turn with
  | .outside n => { s with outside := s.outside.filter fun q => q.1 != n, arrivals := s.arrivals.filter fun q => q.1 != .outside n }
  | _ => s

/-- Whether a write that PF0 posted through BAR2 before this request is held (R345). -/
def State.postedHeld (s : State) : Bool :=
  (s.outside.takeWhile fun q => !(s.outsideReq == .outside q.1)).any fun q => match q.2 with
    | .bar2Write _ _ => true
    | _ => false

/-- The pieces of an interval of device physical addresses (R85). -/
def State.dpaPieces (s : State) (dpa n : Nat) : Option (List Piece) :=
  (blocksOf dpa n).mapM fun b => (s.hbmKey false b.1).map fun k => ⟨.hbm b.1 k, b.1, b.2⟩

/-- Reads HBM by device physical address, or answers the cause met: NOREGION, or one of R423 and R426. -/
def State.readDpa (s : State) (w : Who) (dpa n : Nat) : Except Cause ByteList :=
  match s.dpaPieces dpa n with
  | none => .error ⟨0x606, BitVec.ofNat 64 dpa, walkWord 7 .read w.unit⟩
  | some ps =>
    match s.stops w false false ps with
    | some c => .error c
    | none => .ok (ps.map (s.readPiece w.req)).flatten

/-- The record of a bad host access (R436, R446). -/
def hostRecord (x : Cause) : ErrRec := ⟨x.code, 0, 6, 0, 0, false, none, 0, x.info, x.info1, 0⟩

/-- BAR2_READ (R338, R446): bytes of HBM under identifier 0, an Unsupported Request completion, or poisoned data; at a held region it waits (R92). -/
def execBar2Read (tag addr len : Nat) (s : State) : Host.Outcome State Fault Refusal :=
  if !s.keel.booted then .next (s.send (.bar2Data tag (List.replicate len 0#8)))
  else if len = 0 ∨ len > 4096 ∨ addr + len > 2 ^ 40 then .next ((s.errorRecord (hostRecord ⟨0x908, BitVec.ofNat 64 addr, 0⟩)).send (.bar2Error tag 0x908))
  else match s.readDpa (whoHost s.outsideReq) addr len with
  | .ok b => .next (((((s.dpaPieces addr len).getD []).foldl State.serve s).letOutside).send (.bar2Data tag b))
  | .error c =>
    if c.code = 3 then .next (s.holdOutside (.bar2Read tag addr len) c.info.toNat)
    else .next ((if c.code = 0x606 then s.letOutside else s.letOutside.errorRecord (hostRecord c)).send (.bar2Error tag c.code))

/-- Writes one piece of a BAR2 write; a partial write of a line that fails a check writes nothing of the piece and records the cause (R423). -/
def State.bar2Piece (s : State) (p : Piece) (b : ByteList) : State :=
  match s.pieceCause (whoHost .nothing) true false p with
  | some c => s.errorRecord (hostRecord c)
  | none => (s.serve p).writePiece (whoHost .nothing) false p b

/-- Bytes split over pieces. -/
def splitPieces : List Piece → ByteList → List (Piece × ByteList)
  | [], _ => []
  | p :: r, b => (p, b.take p.len) :: splitPieces r (b.drop p.len)

/-- BAR2_WRITE (R338): bytes to HBM under identifier 0; an unbacked region takes none; at a held region it waits (R92). -/
def execBar2Write (addr : Nat) (data : ByteList) (s : State) : Host.Outcome State Fault Refusal :=
  if !s.keel.booted ∨ data = [] then .next s
  else if addr + data.length > 2 ^ 40 then .next (s.errorRecord (hostRecord ⟨0x908, BitVec.ofNat 64 addr, 1⟩))
  else match s.dpaPieces addr data.length with
  | none => .next s.letOutside
  | some ps =>
    match s.blockedAt s.outsideReq (pieceRegions ps) with
    | some key => .next (s.holdOutside (.bar2Write addr data) key)
    | none => .next ((splitPieces ps data).foldl (fun t p => t.bar2Piece p.1 p.2) s.letOutside)

/-- The queue that page k of a VF's BAR0 reaches (R338). -/
def State.vfQueue (s : State) (v k : Nat) : Option Nat := (s.ownedBy v)[k]?

/-- Whether the MMIO of a VF is accepted (R374, R460): not in ERROR, and in RUN only on the TDI's IDE stream. -/
def State.mmioOk (s : State) (n : Nat) (ide : Option Nat) : Bool :=
  decide (n ≠ 0) && (s.vf n).tdi != .error && ((s.vf n).tdi != .run || ide == some (s.vf n).stream)

/-- Whether an access of an origin reaches queue page q (R338, R368, R374, R460). -/
def State.reaches (s : State) (org : RegOrigin) (q : Nat) : Bool :=
  decide (q < 2048) && match org with
  | .pf => s.keel.booted
  | .vf n ide => s.keel.booted && (s.queue q).owner == n && s.mmioOk n ide
  | .device _ => s.keel.booted

/-- The unit that a DOORBELL record of an origin names (R436). -/
def originUnit : RegOrigin → Nat
  | .pf => 6
  | .vf _ _ => 6
  | .device _ => 0

/-- A host write of a register by its aperture offset; a wrong size, alignment or offset is discarded and recorded (R446). off is the offset to be reported. -/
def State.hostWrite (s : State) (priv : Bool) (report off size : Nat) (v : Word64) : State :=
  if size ≠ 8 ∨ (s.apertureRead true off).isNone then s.errorRecord (hostRecord ⟨0x908, BitVec.ofNat 64 report, 1⟩)
  else s.apertureWrite priv priv 6 off v

/-- A host read of a register through BAR0 (R338, R339, R374, R446, R460): the view of its origin, zero beyond a VF's last queue page, all ones from a TDI that refuses its MMIO (log 85), none for an Unsupported Request, which is recorded. -/
def State.hostRead (s : State) (org : RegOrigin) (off size : Nat) : State × Option Word64 :=
  let at_ := fun (priv : Bool) (a : Nat) =>
    match if size = 8 then s.apertureRead priv a else none with
    | some v => (s, some v)
    | none => (s.errorRecord (hostRecord ⟨0x908, BitVec.ofNat 64 off, 0⟩), none)
  match org with
  | .pf => at_ true off
  | .device priv => at_ priv off
  | .vf n ide =>
    if !s.mmioOk n ide then (s, some (BitVec.allOnes 64))
    else match s.vfQueue n (off / 4096) with
    | some q => at_ false (q * 4096 + off % 4096)
    | none => (s, some 0)

/-- A host read of a register as a move of its own (log 85): the opcode table has no event for it. -/
def State.readRegister (s : State) (tag : Nat) (org : RegOrigin) (off size : Nat) : State :=
  if !s.keel.booted then s else (s.hostRead org off size).1.send (.registerData tag (s.hostRead org off size).2)

/-- Whether a written queue page's register is WRIDX. -/
def atDoorbell (off : Nat) : Bool := decide (off < 0x800000) && off % 4096 == 0x10

/-- REGISTER_WRITE (R338, R339, R341, R344, R374, R446); a write of WRIDX by PF0 waits for what it has posted through BAR2 (R345). -/
def execRegisterWrite (org : RegOrigin) (off size : Nat) (v : Word64) (s : State) : Host.Outcome State Fault Refusal :=
  if !s.keel.booted then .next s
  else match org with
  | .pf =>
    if atDoorbell off && s.postedHeld then .next (s.holdOutside (.registerWrite org off size v) 0)
    else .next (s.letOutside.hostWrite true off off size v)
  | .vf n ide =>
    if !s.mmioOk n ide then .next s
    else match s.vfQueue n (off / 4096) with
    | some q => .next (s.hostWrite false off (q * 4096 + off % 4096) size v)
    | none => .next s
  | .device priv =>
    if size = 8 ∧ (s.apertureRead true off).isSome then .next (s.apertureWrite priv false 0 off v) else .next s

/-- DOORBELL (R345, R445): one of PF0 waits for what PF0 has posted through BAR2. -/
def execDoorbell (org : RegOrigin) (q : Nat) (v : Word32) (s : State) : Host.Outcome State Fault Refusal :=
  if !s.reaches org q then .next s
  else if org = .pf ∧ s.postedHeld then .next (s.holdOutside (.doorbell org q v) 0)
  else .next (s.letOutside.opDoorbell q v (originUnit org))

/-- QUEUE_ENABLE (R342, R437). -/
def execQueueEnable (q : Nat) (s : State) : Host.Outcome State Fault Refusal :=
  if s.reaches .pf q then .next (s.opQueueEnable q) else .next s

/-- QUEUE_DISABLE (R342). -/
def execQueueDisable (q : Nat) (s : State) : Host.Outcome State Fault Refusal :=
  if s.reaches .pf q then .next (s.opQueueDisable q) else .next s

/-- QCKREL (R341, R355). -/
def execQckrel (q mask : Nat) (s : State) : Host.Outcome State Fault Refusal :=
  if s.reaches .pf q then .next (s.opQckrel q mask) else .next s

/-- QERR_RETRY (R439). -/
def execQerrRetry (q : Nat) (s : State) : Host.Outcome State Fault Refusal :=
  if s.reaches .pf q then .next (s.opQerrRetry q) else .next s

/-- QERR_SKIP (R439). -/
def execQerrSkip (q : Nat) (s : State) : Host.Outcome State Fault Refusal :=
  if s.reaches .pf q then .next (s.opQerrSkip q) else .next s

/-- TLB_INVALIDATE_ALL (R348): KIND 0 or 3. -/
def execTlbInvalidateAll (kind : Nat) (s : State) : Host.Outcome State Fault Refusal :=
  if s.keel.booted ∧ (kind = 0 ∨ kind = 3) then .next (s.opTlbInv kind) else .next s
/-- TLB_INVALIDATE_ROOT (R348): KIND 1. -/
def execTlbInvalidateRoot (s : State) : Host.Outcome State Fault Refusal :=
  if s.keel.booted then .next (s.opTlbInv 1) else .next s
/-- TLB_INVALIDATE_PAGE (R348): KIND 2. -/
def execTlbInvalidatePage (s : State) : Host.Outcome State Fault Refusal :=
  if s.keel.booted then .next (s.opTlbInv 2) else .next s

/-- Whether an invalidation drops a cached translation (R348). -/
def invalidates (r : Nat × Nat × Nat) (e : TlbEntry) : Bool :=
  r.1 == 0 || r.1 == 3 || (e.root == r.2.1 && (r.1 == 1 || e.va == r.2.2 / e.size * e.size))

/-- Drops the translations an invalidation names from every TLB. -/
def State.dropTlb (s : State) (r : Nat × Nat × Nat) : State :=
  let keep := fun l : List TlbEntry => l.filter fun e => !invalidates r e
  { s with
    cores := s.cores.map fun p => (p.1, { p.2 with tlb := keep p.2.tlb })
    crewTlb := s.crewTlb.map fun p => (p.1, keep p.2)
    mseTlb := s.mseTlb.map fun p => (p.1, keep p.2) }

/-- Whether an access translated earlier is still outstanding: a request outside the module, a causal store not yet applied, a causal load not yet served (log 23). -/
def State.accessesOpen (s : State) : Bool :=
  !s.requests.isEmpty || s.dies.any (fun p => !p.2.causal.isEmpty)
  || s.cores.any fun p => p.2.strands.toList.any fun t => t.loads.any fun l => l.home.isSome && l.val.isNone

/-- TLBINV_COMPLETE (R348, R444): BUSY clears when no other invalidation is queued, and held fetches are tried again. -/
def execTlbinvComplete (s : State) : Host.Outcome State Fault Refusal :=
  match s.tlbQueue with
  | [] => .next s
  | r :: rest =>
    if s.accessesOpen then .next s
    else .next { (s.dropTlb r).retryFetches with tlbQueue := rest, tlbBusy := !rest.isEmpty }

/-- PREEMPT (R356). -/
def execPreempt (q : Nat) (s : State) : Host.Outcome State Fault Refusal :=
  if s.reaches .pf q then .next (s.opPreempt q) else .next s

/-- MODESEL_WRITE (R357). -/
def execModeselWrite (v : Word64) (s : State) : Host.Outcome State Fault Refusal :=
  if s.keel.booted then .next (s.opModesel v) else .next s

/-- RIT_WRITE (R340). -/
def execRitWrite (die lri : Nat) (v : Word64) (s : State) : Host.Outcome State Fault Refusal :=
  if s.keel.booted ∧ die < 8 ∧ lri < 65536 then .next (s.opRitWrite die lri v) else .next s

/-- NOTIFICATION_WRITE (R354): the oldest notification that waits is written once the ring has room. -/
def execNotificationWrite (q : Nat) (s : State) : Host.Outcome State Fault Refusal :=
  match (s.queue q).notes with
  | [] => .next s
  | (addr, b) :: r =>
    if (s.queue q).notesFull then .next s
    else .next ((s.onQueue q fun x => { x with notes := r }).putNote q addr b)

end Sys2Proof.Machine
end

