-- ==== Sys2Proof/Machine/Packets.lean ====
section
/-! DEFINITION. Fetchers and packets: reading, checking and starting a packet, and what each packet does (R346, R349 to R354, R437, R438, R441 to R444). LAUNCH and RESUME are in Launch.lean and Resume.lean. -/
namespace Sys2Proof.Machine

/-! ## Fields and checks of a packet -/

def Packet.word (k : Packet) (off n : Nat) : Nat := field k.bytes off n
def Packet.addrAt (k : Packet) (off : Nat) : Word64 := BitVec.ofNat 64 (k.word off 8)

/-- Bytes that a body names (R349). -/
def bodyNames (type : Nat) : List (Nat × Nat) :=
  match type with
  | 1 => [(0x10, 10), (0x20, 16)]
  | 2 => [(0x10, 8)]
  | 3 => [(0x10, 10), (0x20, 8)]
  | 4 => [(0x10, 9), (0x1A, 2), (0x20, 8)]
  | 5 => [(0x10, 9), (0x1A, 2), (0x20, 8)]
  | 6 => [(0x10, 9), (0x1A, 6), (0x20, 8)]
  | 7 => [(0x10, 8), (0x18, 4)]
  | 8 => [(0x10, 24)]
  | 9 => [(0x10, 1)]
  | _ => []

/-- Offset 0x10 up: the first reserved body byte that is not zero. -/
def badBody (type : Nat) (b : ByteList) : Option Nat :=
  ((List.range 48).map (· + 16)).find? fun o =>
    !((bodyNames type).any fun p => decide (p.1 ≤ o) && decide (o < p.1 + p.2)) && field b o 1 != 0

/-- The checks of a packet by offset (R441). vectors is the number of MSI-X vectors of the function that owns its queue. -/
def packetChecks (vectors : Nat) (b : ByteList) : List (Nat × Bool) :=
  let f := field b
  [(0, decide (f 0 1 > 10)), (1, decide (f 1 1 > 3)), (2, f 2 2 != 0), (8, f 8 8 % 8 != 0)]
  ++ (match f 0 1 with
  | 1 => [(0x10, f 0x10 8 % 256 != 0)]
  | 2 => [(0x10, f 0x10 8 % 4096 != 0)]
  | 3 => [(0x10, f 0x10 8 % 64 != 0), (0x18, f 0x18 1 == 0 || decide (f 0x18 1 > 8)), (0x19, decide (f 0x19 1 > 3))]
  | 4 => [(0x10, f 0x10 8 % 8 != 0), (0x18, decide (f 0x18 1 > 1)),
      (0x1A, f 0x1A 2 / 2048 % 16 != 0 || (f 0x1A 2 / 32768 == 1 && decide (f 0x1A 2 % 2048 ≥ vectors)))]
  | 5 => [(0x10, f 0x10 8 % 8 != 0), (0x18, decide (f 0x18 1 > 3))]
  | 6 => [(0x10, f 0x10 8 % 8 != 0), (0x18, decide (f 0x18 1 > 3)), (0x1A, f 0x1A 2 == 0)]
  | 7 => [(0x10, f 0x10 8 % 64 != 0), (0x18, f 0x18 4 == 0 || decide (f 0x18 4 > 2 ^ 20))]
  | 8 => [(0x20, f 0x20 8 == 0 || decide (f 0x20 8 > 2 ^ 32))]
  | 9 => [(0x10, !([4, 5, 6].contains (f 0x10 1)))]
  | _ => [])
  ++ (match badBody (f 0 1) b with
  | some o => [(o, true)]
  | none => [])

/-- The offset of the first faulty field (R435, R441). -/
def packetForm (vectors : Nat) (b : ByteList) : Option Nat :=
  (((packetChecks vectors b).filter (·.2)).map (·.1)).min?

/-! ## The next packet -/

/-- A queue from which a fetcher may take a packet (R342, R346, R350, R437), before the packet is read. -/
def Queue.fetchable (x : Queue) : Bool :=
  x.en && !x.stopped && !x.inError && !x.parked && !x.barHeld && !x.choosing && x.skip == 0 && x.nextAddr.isSome

/-- LAUNCH, RESUME and COPY start only while fewer than 16 of them are open (R350). -/
def State.heavyHeld (s : State) (q : Nat) (a : Word64) : Bool :=
  let x := s.queue q
  decide (x.infl ≥ 16) && match s.readForm (s.whoQueue q (.queue q)) a 64 with
  | .ok b => [1, 2, 8].contains (field b 0 1)
  | .error _ => false

/-- Whether the front end starts packets (R359, R368, R447, R450, R457). -/
def State.frontRuns (s : State) : Bool :=
  s.keel.booted && !s.keel.halted && !s.fw.switching && !s.fw.noBoot && !s.fw.lost

/-- Whether the front end awaits an answer to a read or a translation for a queue. -/
def State.queueAwaits (s : State) (q : Nat) : Bool :=
  (s.requests.any fun r => r.whose == .queue q && r.kind == 0) || s.xlat.waits.any fun p => p.2 == .queue q

/-- Whether a queue's next packet may start. -/
def State.mayStart (s : State) (q : Nat) : Bool :=
  let x := (s.queue q).dropEnded
  x.fetchable && !s.dmaRefused q && !s.queueAwaits q && match x.nextAddr with
  | some a => !(s.heavyHeld q a)
  | none => false

/-- Moves past the packet that has been read: RDIDX for a ring packet (R350), the buffer's index otherwise. -/
def Queue.advance (x : Queue) : Queue :=
  match x.levels with
  | l :: r => { x with levels := { l with idx := l.idx + 1 } :: r, ffault := none }
  | [] => { x with rd := x.rd + 1, ffault := none }

/-- The packet as it will stand among the started ones. -/
def Queue.packetOf (x : Queue) (pid : Nat) (a : Word64) (b : ByteList) : Packet :=
  ⟨pid, b, match x.levels.getLast?.bind (fun l => x.packets.find? fun k => k.pid == l.pid) with
    | some k => k.ring
    | none => x.rd.toNat, x.levels.isEmpty, a.toNat, false, 0, 0, none, false, false, x.levels.head?.map (·.pid), [], none⟩

/-- The addresses of the INDIRECT packets of the open levels. -/
def Queue.openAddrs (x : Queue) : List Nat := (x.packets.filter fun k => x.openIds.contains k.pid).map (·.addr)

/-- What refuses a packet that has been read (R441, R442): the cause, or the signals its WAIT lists. -/
def State.checkPacket (s : State) (q : Nat) (a : Word64) (b : ByteList) : Except Cause (List Word64) :=
  let x := s.queue q
  let f := field b
  let bad := fun (code info1 : Nat) => (⟨code, a, BitVec.ofNat 64 info1⟩ : Cause)
  match packetForm (if x.owner = 0 then 2048 else 32) b with
  | some o => .error (bad 0x901 o)
  | none =>
    if f 0 1 = 7 then
      let lo := f 0x10 8
      if (a.toNat :: x.openAddrs).any fun p => decide (lo ≤ p) && decide (p < lo + 64 * f 0x18 4) then .error (bad 0x904 lo)
      else if x.levels.length ≥ 4 then .error (bad 0x903 0)
      else .ok []
    else if f 0 1 = 6 then
      match x.levels with
      | [] => .error (bad 0x905 (f 0x1A 2))
      | l :: _ => if f 0x1A 2 > l.idx then .error (bad 0x905 (f 0x1A 2)) else .ok []
    else if f 0 1 = 3 then
      match s.readForm (s.whoQueue q (.queue q)) (BitVec.ofNat 64 (f 0x10 8)) (8 * f 0x18 1) with
      | .error c => if c.waits then .error c else .error ⟨0x907, BitVec.ofNat 64 (f 0x10 8), BitVec.ofNat 64 c.code⟩
      | .ok l =>
        let sigs := (chunks 8 (f 0x18 1) l).map fun w => BitVec.ofNat 64 (leNat w)
        if sigs.any fun w => w.toNat % 8 != 0 then .error (bad 0x901 0x10) else .ok sigs
    else .ok []

/-- A fetch that meets a cause (R444): a translation cause parks the queue, and is recorded once; another cause puts it in the error state. A held one waits (R83, R92, R347). -/
def State.fetchFault (s : State) (q : Nat) (a : Word64) (c : Cause) : State :=
  if c.waits then s.await (s.whoQueue q (.queue q)) c
  else
  let s := (s.meetRefusal c.code c.info1).spend (.queue q)
  if c.code / 256 = 6 then
    let again := decide ((s.queue q).ffault = some (a.toNat, c.code))
    let t := s.onQueue q fun x => { x with ffault := some (a.toNat, c.code), parked := true }
    if again then t
    else t.errorRecord ⟨c.code, 0, 6, 0, 0, false, some (q, (s.queue q).keyid), a.toNat, c.info, c.info1, 0⟩
  else s.packetFault q a.toNat ⟨0x907, a, BitVec.ofNat 64 c.code⟩

/-- Reads, checks and starts the next packet of a queue (R350, R441). -/
def State.startNext (s : State) (q : Nat) : State :=
  let s := s.onQueue q Queue.dropEnded
  let x := s.queue q
  match x.nextAddr with
  | none => s
  | some a =>
    match s.readForm (s.whoQueue q (.queue q)) a 64 with
    | .error c => s.fetchFault q a c
    | .ok b =>
      match s.checkPacket q a b with
      | .error c =>
        if c.waits then s.await (s.whoQueue q (.queue q)) c
        else ((s.onQueue q fun y => { y with ffault := none }).packetFault q a.toNat c).spend (.queue q)
      | .ok l => ((s.setQueue q { x.advance with packets := x.packets ++ [{ x.packetOf s.nextId a b with list := l }] }).bumpId).spend (.queue q)

/-- The place in lastServed of the rotation that a fetcher keeps: one for each PRIO in hardware mode, one for all queues otherwise (R346). -/
def State.rotation (s : State) (f prio : Nat) : Nat := 16 * f + if s.modesel.getLsbD 0 then 8 else prio

/-- The queue a fetcher serves next (R346): in hardware mode the highest PRIO, in turn among equals; otherwise all in turn. -/
def State.pickQueue (s : State) (f : Nat) : Option Nat :=
  let l := (List.range 128).filter fun i => (tabFind s.queues (128 * f + i)).isSome && s.mayStart (128 * f + i)
  let top := (l.map fun i => (s.queue (128 * f + i)).prio).foldl max 0
  let last := tabGet 127 s.lastServed (s.rotation f top)
  ((List.range 128).map fun i => (last + 1 + i) % 128).findSome? fun i =>
    if l.contains i && (s.modesel.getLsbD 0 || (s.queue (128 * f + i)).prio == top) then some (128 * f + i) else none

/-- Queues of a fetcher whose SKIP has not read its packet yet go on with it (R439). -/
def State.goOnSkips (s : State) (f : Nat) : State :=
  (s.queues.filter fun p => p.1 / 128 == f && p.2.skipping && !s.queueAwaits p.1).foldl (fun t p => t.skipPacket p.1) s

/-- Starts packets of one queue, as many as its weight allows (R346). -/
def State.startMany (s : State) (q : Nat) : Nat → State
  | 0 => s
  | n + 1 => if s.mayStart q then State.startMany (s.startNext q) q n else s

/-- FETCHER_TURN (R346, R350). -/
def execFetcherTurn (f : Nat) (s : State) : Host.Outcome State Fault Refusal :=
  if !s.frontRuns ∨ f ≥ 16 then .next s
  else match (s.goOnSkips f).pickQueue f with
  | none => .next (s.goOnSkips f)
  | some q =>
    let s := s.goOnSkips f
    let t := { s with lastServed := tabPut s.lastServed (s.rotation f (s.queue q).prio) (q % 128) }
    if s.modesel.getLsbD 0 then .next (t.startMany q (max 1 (bitsOf (s.queue q).qctl 39 32)))
    else .next (t.startNext q)

/-! ## What packets do -/

def State.packet (s : State) (q pid : Nat) : Option Packet := (s.queue q).packets.find? fun k => k.pid == pid

/-- Changes a started packet. -/
def State.onPacket (s : State) (q pid : Nat) (f : Packet → Packet) : State :=
  s.onQueue q fun x => { x with packets := x.packets.map fun k => if k.pid = pid then f k else k }

/-- Runs a packet's own row once: its type fits and it has not begun. -/
def State.beginPacket (s : State) (q pid type : Nat) (f : Packet → State → State) : Host.Outcome State Fault Refusal :=
  match s.packet q pid with
  | some k =>
    if k.type = type ∧ !k.begun ∧ !k.ready then .next (f k (s.onPacket q pid fun p => { p with begun := true })) else .next s
  | none => .next s

/-- A packet's data access meets a cause (R438): PKTFAULT at an address. One that is held lets the packet begin again (R83, R92, R347); a WAIT stays begun. -/
def State.packetData (s : State) (q pid : Nat) (a : Word64) (c : Cause) : State :=
  if c.waits then (s.await (s.whoQueue q (.packet q pid)) c).onPacket q pid fun k => { k with begun := k.type == 3 }
  else ((s.meetRefusal c.code c.info1).abortPacket q pid ⟨0x907, a, BitVec.ofNat 64 c.code⟩ none).spend (.packet q pid)

/-- Reads bytes that a packet's data access names: host memory, device virtual memory, the aperture (R339, R349). -/
def State.readData (s : State) (w : Who) (a : Word64) (n : Nat) : Except Cause ByteList :=
  if a.getLsbD 63 then s.readForm w a n else (s.readV w .read (bitsOf a 62 0) n).map (·.1)

/-- Issues the read that pushes what a packet has just written to host memory (R114, R351; log 84). -/
def State.pushHost (s : State) (w : Who) : State :=
  match s.requests.find? fun r => r.whose == w.req && r.tier == 2 && r.kind == 1 with
  | some r => s.ask w.req w.key 2 (r.addr / 8 * 8) (BitVec.ofNat 64 (r.addr / 8 * 8)) 0 8 []
  | none => s

/-- Writes bytes that a packet's data access names. -/
def State.writeData (s : State) (w : Who) (a : Word64) (b : ByteList) : Except Cause State :=
  (if a.getLsbD 63 then .ok (s.ask w.req w.key 2 (bitsOf a 62 0) a 1 b.length b) else s.writeV w false (bitsOf a 62 0) b).map fun t => t.pushHost w

/-- CMP of a packet (R349): a signed value against REF. -/
def cmpWord (cmp : Nat) (v ref : Word64) : Bool :=
  match cmp with
  | 0 => v == ref
  | 1 => v != ref
  | 2 => v.sle ref
  | _ => ref.sle v

/-- A signal or word of the packet form. -/
def State.readWord (s : State) (w : Who) (a : Word64) : Except Cause Word64 :=
  (s.readData w a 8).map fun b => BitVec.ofNat 64 (leNat b)

/-- NOP_PACKET (R351). -/
def execNopPacket (q pid : Nat) (s : State) : Host.Outcome State Fault Refusal :=
  s.beginPacket q pid 0 fun _ t => t.finishPacket q pid 0 0

/-- One evaluation of a WAIT (R351, R443); while a read of it is outside, it goes on when the answer is there. -/
def State.evalWait (s : State) (q : Nat) (k : Packet) : State :=
  let w := s.whoQueue q (.packet q k.pid)
  let vals := k.list.map fun a => (a, s.readWord w a)
  match vals.findSome? (fun p => match p.2 with
    | .error c => some (p.1, c)
    | .ok _ => none) with
  | some (a, c) => s.packetData q k.pid a c
  | none =>
    let vs : List (Word64 × Word64) := vals.filterMap fun p => p.2.toOption.map fun v => (p.1, v)
    let t := s.spend (.packet q k.pid)
    match vs.find? fun p => p.2.slt 0 with
    | some (a, v) => t.abortPacket q k.pid ⟨0x906, a, v⟩ none
    | none => if vs.all fun p => cmpWord (k.word 0x19 1) p.2 (k.addrAt 0x20) then t.finishPacket q k.pid 0 0 else t

/-- Whether a packet is a WAIT that goes on evaluating. -/
def Packet.polls (k : Packet) : Bool := k.type == 3 && k.begun && !k.ready

/-- The front end has updated a signal: every WAIT that lists it is evaluated (R351, R361). -/
def State.wakeWaits (s : State) (l : Option Loc) : State :=
  if l = none then s
  else
    let polling : List (Nat × Packet) := s.queues.flatMap fun p => (p.2.packets.filter Packet.polls).map fun k => (p.1, k)
    polling.foldl (fun t p => if p.2.list.any (fun a => s.signalLoc (s.whoQueue p.1 (.packet p.1 p.2.pid)) a == l) then t.evalWait p.1 p.2 else t) s

/-- WAIT (R351): its first evaluation. -/
def execWait (q pid : Nat) (s : State) : Host.Outcome State Fault Refusal :=
  s.beginPacket q pid 3 fun k t => t.evalWait q k

/-- WAIT_POLL (R351, R443): a later evaluation. -/
def execWaitPoll (q pid : Nat) (s : State) : Host.Outcome State Fault Refusal :=
  match s.packet q pid with
  | some k => if k.polls then .next (s.evalWait q k) else .next s
  | none => .next s

/-- Where the update of a signal took effect at once: inside the module. -/
def State.updatedLoc (s : State) (w : Who) (a : Word64) : Option Loc :=
  match s.signalLoc w a with
  | some (.hbm d k) => some (.hbm d k)
  | _ => none

/-- SIGNAL (R351): SET stores, ADD adds as one atomic; then the MSI-X message. -/
def execSignal (q pid : Nat) (s : State) : Host.Outcome State Fault Refusal :=
  s.beginPacket q pid 4 fun k t =>
    let w := s.whoQueue q (.packet q pid)
    let a := k.addrAt 0x10
    let v := k.addrAt 0x20
    match (if k.word 0x18 1 = 0 then t.writeData w a (leBytes 8 v.toNat) else t.updateSignal w a 16 v (· + v)) with
    | .error c => t.packetData q pid a c
    | .ok u =>
      ((if k.word 0x1A 2 / 32768 = 1 then u.sendMsix q (k.word 0x1A 2 % 2048) else u).finishPacket q pid 0 0).wakeWaits (u.updatedLoc w a)

/-- Passes over packets (R353): within a buffer, up to its end; in the ring, when the doorbell covers them. -/
def Queue.passOver (x : Queue) (n : Nat) : Option Queue :=
  match x.levels with
  | l :: r => some { x with levels := { l with idx := min l.npkt (l.idx + n) } :: r }
  | [] => if n ≤ (x.wr - x.rd).toNat then some { x with rd := x.rd + BitVec.ofNat 32 n } else none

/-- A COND that passes over n packets, or holds with them recorded. -/
def State.condSkip (s : State) (q pid n : Nat) : State :=
  match (s.queue q).passOver n with
  | some x => (s.setQueue q { x with skip := 0 }).finishPacket q pid 0 0
  | none => s.onQueue q fun x => { x with skip := n }

/-- COND (R353); one that holds for the doorbell goes on once that covers its packets. -/
def execCond (q pid : Nat) (s : State) : Host.Outcome State Fault Refusal :=
  match s.packet q pid with
  | some k =>
    if k.type = 5 ∧ !k.ready then
      if k.begun then .next (if (s.queue q).skip = 0 then s.finishPacket q pid 0 0 else s.condSkip q pid (s.queue q).skip)
      else
        let t := s.onPacket q pid fun p => { p with begun := true }
        match t.readWord (s.whoQueue q (.packet q pid)) (k.addrAt 0x10) with
        | .error c => .next (t.packetData q pid (k.addrAt 0x10) c)
        | .ok v =>
          if cmpWord (k.word 0x18 1) v (k.addrAt 0x20) then .next (t.finishPacket q pid 0 0)
          else .next (t.condSkip q pid (k.word 0x1A 2))
    else .next s
  | none => .next s

/-- Branches back from a LOOP (R353). -/
def Queue.loopBack (x : Queue) (back : Nat) : Queue :=
  match x.levels with
  | l :: r =>
    let at_ := l.idx - 1
    { x with levels := { l with idx := at_ - back, loops := tabPut l.loops at_ (tabGet 0 l.loops at_ + 1) } :: r }
  | [] => x

/-- Times the LOOP just fetched has branched since its buffer was entered. -/
def Queue.loopCount (x : Queue) : Nat :=
  match x.levels with
  | l :: _ => tabGet 0 l.loops (l.idx - 1)
  | [] => 0

/-- LOOP_PACKET (R353). -/
def execLoopPacket (q pid : Nat) (s : State) : Host.Outcome State Fault Refusal :=
  s.beginPacket q pid 6 fun k t =>
    match t.readWord (s.whoQueue q (.packet q pid)) (k.addrAt 0x10) with
    | .error c => t.packetData q pid (k.addrAt 0x10) c
    | .ok v =>
      let max := k.word 0x1C 4
      let go := cmpWord (k.word 0x18 1) v (k.addrAt 0x20) && (max == 0 || decide ((s.queue q).loopCount < max))
      (if go then t.onQueue q (·.loopBack (k.word 0x1A 2)) else t).finishPacket q pid 0 0

/-- INDIRECT (R353): opens a level. -/
def execIndirect (q pid : Nat) (s : State) : Host.Outcome State Fault Refusal :=
  s.beginPacket q pid 7 fun k t =>
    t.onQueue q fun x => { x with levels := ⟨k.word 0x10 8, k.word 0x18 4, 0, [], pid⟩ :: x.levels }

/-- COPY (R351): every byte of SRC to DST, under R438 when an access meets a cause. -/
def execCopy (q pid : Nat) (s : State) : Host.Outcome State Fault Refusal :=
  s.beginPacket q pid 8 fun k t =>
    let w := s.whoQueue q (.packet q pid)
    let src := k.addrAt 0x10
    let dst := k.addrAt 0x18
    match t.readData w src (k.word 0x20 8) with
    | .error c => t.packetData q pid src c
    | .ok b =>
      match t.writeData w dst b with
      | .error c => t.packetData q pid dst c
      | .ok u => u.finishPacket q pid 0 0

/-- Whether every packet before one has completed; the INDIRECT packets whose buffers hold it are not before it in this sense. -/
def Queue.firstLeft (x : Queue) (pid : Nat) : Bool :=
  (x.packets.takeWhile fun k => k.pid != pid).all fun k => x.openIds.contains k.pid

/-- Whether tier-1 writes that earlier packets of a queue made, or that nobody waits for any more, are outstanding. -/
def State.writesOut (s : State) (q : Nat) : Bool :=
  s.requests.any fun r => r.tier == 1 && r.kind != 0 && (match r.whose with
    | .packet n _ => n == q
    | .queue n => n == q
    | .nothing => true
    | _ => false)

/-- FENCE_PACKET (R351, R114): scope 4 needs the packets before it done; scopes 5 and 6 also tier-1 completions; scope 6 sends a read to the host and awaits it. -/
def execFencePacket (q pid : Nat) (s : State) : Host.Outcome State Fault Refusal :=
  match s.packet q pid with
  | some k =>
    if k.type = 9 ∧ !k.ready ∧ (s.queue q).firstLeft pid then
      match k.word 0x10 1 with
      | 4 => .next (s.finishPacket q pid 0 0)
      | 5 => if s.writesOut q then .next s else .next (s.finishPacket q pid 0 0)
      | _ =>
        if k.begun then
          if s.writesOut q || s.requests.any fun r => r.whose == .packet q pid then .next s else .next (s.finishPacket q pid 0 0)
        else .next ((s.ask (.packet q pid) (s.queue q).keyid 2 0 0 0 8 []).onPacket q pid fun p => { p with begun := true })
    else .next s
  | none => .next s

/-- END_PACKET (R351, R353): ready once every packet before it has completed. -/
def execEndPacket (q pid : Nat) (s : State) : Host.Outcome State Fault Refusal :=
  match s.packet q pid with
  | some k =>
    if k.type = 10 ∧ !k.ready ∧ (s.queue q).firstLeft pid then
      .next ((s.onPacket q pid fun p => { p with begun := true }).finishPacket q pid 0 0)
    else .next s
  | none => .next s

/-- Whether a packet's completion may take effect now (R351, R437). -/
def State.mayComplete (s : State) (q : Nat) (k : Packet) : Bool :=
  let x := s.queue q
  !(s.requests.any fun r => r.whose == .packet q k.pid)
  && (if k.type = 7 then (k.begun || k.ready) && !x.openIds.contains k.pid && !(x.packets.any fun p => p.parent == some k.pid) else k.ready)

/-- What an END does as it completes (R353). -/
def Queue.endAt (x : Queue) (k : Packet) : Queue :=
  if k.inRing then { x with stopped := true, qctl := setBits x.qctl 0 0 0 }
  else match k.parent with
  | some p => if x.openIds.contains p then { x with levels := (x.levels.dropWhile fun l => l.pid != p).tail } else x
  | none => x

/-- Steps 2 to 4 of a completion (R352, R437, R438): CPIDX and the notification; an END then stops its level or its queue, and an aborted packet puts its queue in the error state. -/
def State.endPacket (s : State) (q : Nat) (k : Packet) : State :=
  let aborted := k.status == 3
  let s1 := (s.spend (.packet q k.pid)).onQueue q fun x => ({ x with packets := x.packets.filter fun p => p.pid != k.pid }).passCp
  let kind := if k.type = 10 ∧ k.inRing ∧ !aborted then 3 else 1
  let s2 := if field k.bytes 1 1 / 2 % 2 = 1
    then s1.notify q k.addr (noteBytes kind k.status (if k.status = 1 ∨ k.status = 2 then k.slot else 0) (field k.bytes 4 4) (BitVec.ofNat 64 k.ring))
    else s1
  let s3 := if k.type = 10 ∧ !aborted then s2.onQueue q (·.endAt k) else s2
  match k.abort with
  | some (cause, _, _, some seq) => if cause = 0 then s3 else s3.queueError q cause seq
  | some (cause, i0, i1, none) =>
    if cause = 0 then s3
    else (s3.queueError q cause s3.errseq.toNat).errorRecord ⟨cause, 1, 6, 0, 0, false, some (q, (s3.queue q).keyid), k.addr, i0, i1, 0⟩
  | none => s3

/-- CSIG of a packet. -/
def Packet.csig (k : Packet) : Word64 := k.addrAt 8

/-- Step 1 of a completion (R352, R438): CSIG goes down by one, or an aborted packet swaps the abort value into it. -/
def State.signalDone (s : State) (q : Nat) (k : Packet) : Except Cause State :=
  let w := s.whoQueue q (.packet q k.pid)
  if k.status = 3 then s.updateSignal w k.csig 24 abortValue (fun _ => abortValue)
  else s.updateSignal w k.csig 16 (BitVec.allOnes 64) (· - 1)

/-- A packet's completion (R352, R438): its signal, and once that is updated the other steps. An update that meets a cause is lost and recorded; one that is held waits. -/
def State.completePacket (s : State) (q : Nat) (k : Packet) : State :=
  if k.csig = 0 ∨ k.signalled then s.endPacket q k
  else
    let w := s.whoQueue q (.packet q k.pid)
    match s.signalDone q k with
    | .error c =>
      if c.waits then s.await w c
      else ((s.meetRefusal c.code c.info1).errorRecord (sideRecord q w.key k.addr c)).endPacket q k
    | .ok u =>
      let t := (u.onPacket q k.pid fun p => { p with signalled := true }).wakeWaits (u.updatedLoc w k.csig)
      if t.requests.any fun r => r.whose == .packet q k.pid then t else t.endPacket q k

/-- PACKET_COMPLETION (R352, R353, R437, R438); for a signal outside the module it comes again when that has been updated. -/
def execPacketCompletion (q pid : Nat) (s : State) : Host.Outcome State Fault Refusal :=
  let t := s.onQueue q Queue.dropEnded
  match t.packet q pid with
  | some k => if t.mayComplete q k then .next (t.completePacket q k) else .next s
  | none => .next s

end Sys2Proof.Machine
end

