-- ==== Sys2Proof/Machine/Firmware.lean ====
section
/-! DEFINITION. Meanings of module reset, of the firmware complexes (LOAD, SWITCH, heartbeats, failover), and of what becomes of units that stopped without a handler (R321, R358, R359, R368, R417, R418, R421, R447 to R450, R461). -/
namespace Sys2Proof.Machine

/-- A record of the firmware complexes (R436). -/
def fwRecord (cause sev info info1 : Nat) : ErrRec := ⟨cause, sev, 7, 0, 0, false, none, 0, BitVec.ofNat 64 info, BitVec.ofNat 64 info1, 0⟩

/-! ## Module reset (R368, R447) -/

/-- The state after reset; what stands for the world outside goes on. -/
def State.rebooted (s : State) : State :=
  { State.reset with steps := s.steps, agenda := s.agenda, shared := s.shared, pace := s.pace, turn := s.turn, port := s.port, nextId := s.nextId }

/-- The verdict on an image (R368, R435): its signature as Keel finds it, and its SVN against the fused minimum. -/
def imageVerdict (o : ImageCheck) (img : FwImage) : ImageCheck :=
  match o with
  | .accepted => if img.svn < Config.minSvn then .refused 2 img.svn else .accepted
  | r => r

/-- MODULE_RESET (R368, R447): Keel's own firmware, the device identity, then the complexes' image. -/
def execModuleReset (o : BootOutcome) (s : State) : Host.Outcome State Fault Refusal :=
  let t := s.rebooted
  if !o.keelOk then .next t
  else
    let u : State := { t with keel := { t.keel with booted := true, identity := true } }
    match imageVerdict o.check o.img with
    | .accepted => .next { u with fw := { u.fw with imgA := o.img, imgB := o.img } }
    | .refused reason svn =>
      .next (({ u with fw := { u.fw with sbst := 0, noBoot := true } } : State).errorRecord (fwRecord 0x909 0 reason svn))

/-! ## LOAD (R359, R447) -/

/-- Whether a command runs: FWCTL.BUSY with a CMD. -/
def State.fwBusy (s : State) (cmd : Nat) : Bool := s.fwctl.getLsbD 3 && bitsOf s.fwctl 1 0 == cmd

/-- A verified image boots: as FC-A when neither complex had booted, else as the standby. -/
def Firmware.boot (f : Firmware) (img : FwImage) (tick : Word64) : Firmware :=
  if f.noBoot then { f with act := false, imgA := img, imgB := ⟨0, 0, [], 0, 0, 0⟩, sbst := 0, noBoot := false, lastBeat := tick }
  else if f.act then { f with imgA := img, sbst := 2, committed := false }
  else { f with imgB := img, sbst := 2, committed := false }

/-- The complex that a LOAD fills: the standby, or FC-A when neither has booted (R359, R447). -/
def Firmware.loads (f : Firmware) : Nat := if f.noBoot || f.act then 0 else 1

/-- The bytes of a complex's private SRAM of 2 MiB (R20). -/
def fwKey (n : Nat) : Nat := 2 ^ 44 + n * 2 ^ 21

/-- A LOAD has copied an image into a complex's SRAM (R20, R359). -/
def State.fillSram (s : State) (n : Nat) (b : ByteList) : State := { s with mem := memSetList (tabClear s.mem (fwKey n) (2 ^ 21)) (fwKey n) b }

/-- FW_LOAD (R20, R359, R447): the image at FWIMG is copied, under identifier 0, and Keel gives its verdict; an image that cannot be read is refused (R435). A held region lets the copy wait (R92). -/
def execFwLoad (o : ImageCheck) (img : FwImage) (s : State) : Host.Outcome State Fault Refusal :=
  if !s.fwBusy 1 || !s.keel.booted || s.keel.halted then .next s
  else
    let t : State := { s with fwctl := 1 }
    let refuse := fun (reason svn : Nat) => ({ t with fw := { t.fw with sbst := 0 } } : State).errorRecord (fwRecord 0x909 0 reason svn)
    match s.readDpa (whoHost .nothing) s.fwimg.toNat (min img.len (2 ^ 21)) with
    | .error c => if c.waits then .next s else .next (refuse 3 img.svn)
    | .ok b =>
      match imageVerdict o img with
      | .accepted => .next (({ t with fw := t.fw.boot img t.tick } : State).fillSram s.fw.loads b)
      | .refused reason svn => .next (refuse reason svn)

/-! ## SWITCH (R359, R448) -/

/-- FW_SWITCH (R359, R448): GO with CMD 2. -/
def execFwSwitch (s : State) : Host.Outcome State Fault Refusal :=
  if s.keel.booted && !s.keel.halted then .next (s.opFwctl 6) else .next s

/-- A quiescent packet boundary (R359): no fetcher is partway through a packet, and no request, no report and no save waits for the active complex. -/
def State.quiescent (s : State) : Bool :=
  s.queues.all (fun p => !s.queueAwaits p.1) && s.sysreqs.all (·.held) && s.traps.all (fun t => t.held || t.late) && s.parts.all fun p => p.2.phase != .saving

/-- The hold of a SWITCH ends: starts resume and what was held passes on. -/
def State.releaseHolds (s : State) : State :=
  { s with
    fwctl := if s.fw.switching then 2 else s.fwctl
    fw := { s.fw with switching := false }
    sysreqs := s.sysreqs.map fun r => { r with held := false }
    traps := s.traps.map fun t => { t with late := false } }

/-- FW_SWITCH_HANDOVER (R359, R448): at the quiescent boundary the import of the state table begins, with SBST = 3; the next event brings its outcome, with SBST = 4; the one after it toggles ACT and lets what was held go on. -/
def execFwSwitchHandover (o : SwitchOutcome) (s : State) : Host.Outcome State Fault Refusal :=
  if !s.fw.switching || !s.quiescent || !s.fw.alive then .next s
  else
    let major := s.fw.active.major
    let t := s.releaseHolds
    if s.fw.sbst = 4 then .next { t with fw := { t.fw with act := !t.fw.act, sbst := 2, committed := false, lastBeat := t.tick } }
    else if s.fw.sbst = 3 then
      match o with
      | .failed => .next (({ t with fw := { t.fw with sbst := 0 } } : State).errorRecord (fwRecord 0x90A 0 3 major))
      | .imported => .next { s with fw := { s.fw with sbst := 4 } }
    else if !s.fw.standby.imports.contains major then .next (t.errorRecord (fwRecord 0x90A 0 2 major))
    else .next { s with fw := { s.fw with sbst := 3 } }

/-! ## Heartbeats and failover (R449, R450, R461) -/

/-- HEARTBEAT (R449): the active complex answers. -/
def execHeartbeat (s : State) : Host.Outcome State Fault Refusal :=
  if s.fw.alive && s.keel.booted then .next { s with fw := { s.fw with lastBeat := s.tick } } else .next s

/-- STATE_TABLE_COMMIT (R449). -/
def execStateTableCommit (s : State) : Host.Outcome State Fault Refusal :=
  if s.fw.sbst = 2 ∧ s.fw.alive ∧ s.quiescent ∧ s.keel.booted then .next { s with fw := { s.fw with committed := true } } else .next s

/-- Every queue enters the error state with a cause (R450, R457). -/
def State.allQueuesError (s : State) (cause seq : Nat) : State := (List.range 2048).foldl (fun t q => t.queueError q cause seq) s

/-- The active complex has failed (R449, R450): the standby takes over, or the module has no firmware. A SWITCH in progress is abandoned; its standby has booted (R461; log 106). -/
def State.firmwareFails (s : State) (reason : Nat) : State :=
  let f := s.fw
  let rec0 := fwRecord 0x90B 3 (if f.act then 1 else 0) reason
  let t := if f.switching then s.releaseHolds.errorRecord (fwRecord 0x90A 0 3 f.active.major) else s
  if f.sbst ≥ 2 ∧ f.standby.imports.contains f.active.major then
    ({ t with fw := { t.fw with act := !f.act, sbst := 0, committed := false, lastBeat := t.tick } } : State).errorRecord rec0
  else
    let seq := t.errseq.toNat
    ((({ t with fw := { t.fw with lost := true } } : State).allQueuesError 0x90B seq)).errorRecord rec0

/-- HEARTBEAT_TIMEOUT (R449, R450): no answer for 1 ms, which is 800,000 ticks, or CTRLUE in the complex's SRAM. -/
def execHeartbeatTimeout (ctrlue : Bool) (s : State) : Host.Outcome State Fault Refusal :=
  if s.keel.booted && s.fw.alive && (ctrlue || decide ((s.tick - s.fw.lastBeat).toNat ≥ 800000))
  then .next (s.firmwareFails (if ctrlue then 2 else 1)) else .next s

/-! ## Units that stopped without a handler (R321, R417, R418, R421) -/

/-- The copy of a channel, other than a task, that has stopped with a cause. -/
def Core.heldCopy (x : Core) (ch : Nat) : Option ChanEntry :=
  (x.chan ch).find? fun e => e.held && (match e.src with
    | .task _ => false
    | _ => true)

/-- Ends a unit with the cause it met (R421, R455). -/
def State.endUnit (s : State) (u : UnitRef) (cause : Nat) (info : Word64) : State :=
  match u with
  | .kernel c => match (s.core c).kernel with
    | some k => ((s.onTask c k.entry fun t => { t with flags := t.flags.join k.flags }).endTask c k.entry).forgetUnit u .nothing
    | none => s.forgetUnit u .nothing
  | .task c n => (s.abandonRound c n cause info).endTask c n
  | .chan c ch => match (s.core c).heldCopy ch with
    | some e => s.endCopy c ch e
    | none => s.forgetUnit u .nothing
  | .ctx m x => match s.ctx m x with
    | some t => (s.setCtx m x { t with stopping := true, halted := true, held := false, rest := 0 }).forgetUnit u .nothing
    | none => s.forgetUnit u .nothing

/-- Whether the core or MSE of a unit is frozen (R422). -/
def State.unitFrozen (s : State) : UnitRef → Bool
  | .kernel c => (s.core c).frozen
  | .task c _ => (s.core c).frozen
  | .chan c _ => (s.core c).frozen
  | .ctx m _ => s.frozenMse.contains m

/-- Takes a report out of the list. -/
def State.dropTrap (s : State) (seq : Nat) : State := { s with traps := s.traps.filter (·.seq != seq) }

/-- UNIT_TRAP_RESOLUTION (R321, R400, R417): the firmware ends a unit whose cause it does not resolve, and one that TRIAGE = 0 does not hold. -/
def execUnitTrapResolution (seq : Nat) (s : State) : Host.Outcome State Fault Refusal :=
  match s.traps.find? fun t => t.seq == seq && !t.held && !t.late with
  | some t =>
    if !s.fw.alive || !s.keel.booted || s.unitFrozen t.unit then .next s
    else .next ((s.dropTrap seq).endUnit t.unit t.cause t.info)
  | none => .next s

/-- A held unit goes on with its unperformed accesses (R417). -/
def State.retryUnit (s : State) (u : UnitRef) : State :=
  match u with
  | .kernel c => s.onCore c fun x => { x with kernel := x.kernel.map fun k => { k with held := false } }
  | .task c n =>
    let started := fun (t : TaskRec) => if recCls t.bytes = 1 ∧ ((s.core c).kernel.map (·.entry)) ≠ some n then TaskSt.staged else .running
    (s.onTask c n fun t => { t with st := started t }).onCore c fun x =>
      { x with chans := x.chans.map fun l => l.map fun e => if e.src = .task n then { e with held := false } else e }
  | .chan c ch => match (s.core c).heldCopy ch with
    | some e => s.onEntry c ch e.eid fun y => { y with held := false }
    | none => s
  | .ctx m x => match s.ctx m x with
    | some t => s.setCtx m x { t with held := false }
    | none => s

/-- An action of UNITRES that is being delivered (R417). -/
def State.unitAction (s : State) (seq : Nat) (ends : Bool) : Bool := s.unitActs.contains (seq, ends)

/-- The held unit that a record number names. -/
def State.heldTrap (s : State) (seq : Nat) : Option UnitTrap := s.traps.find? fun t => t.seq == seq && t.held

/-- An action has been delivered: BUSY clears with the last one. -/
def State.unitDone (s : State) (seq : Nat) (ends : Bool) : State := { s with unitActs := s.unitActs.erase (seq, ends) }

/-- UNIT_RETRY (R417, R418): GO with END = 0; a number that names no held unit has no effect. -/
def execUnitRetry (seq : Nat) (s : State) : Host.Outcome State Fault Refusal :=
  if !s.unitAction seq false then .next s
  else match s.heldTrap seq with
  | some t => if s.unitFrozen t.unit then .next s else .next (((s.dropTrap seq).retryUnit t.unit).unitDone seq false)
  | none => .next (s.unitDone seq false)

/-- UNIT_END (R417, R421): GO with END = 1. -/
def execUnitEnd (seq : Nat) (s : State) : Host.Outcome State Fault Refusal :=
  if !s.unitAction seq true then .next s
  else match s.heldTrap seq with
  | some t => if s.unitFrozen t.unit then .next s else .next (((s.dropTrap seq).endUnit t.unit t.cause t.info).unitDone seq true)
  | none => .next (s.unitDone seq true)

/-- Whether MODESEL.TRIAGE = 0 ends a stopped unit at once: a cause of translation, or DEVAPER (R417, R446). -/
def UnitTrap.endsAtOnce (t : UnitTrap) : Bool := !t.held && (t.cause / 256 == 6 || t.cause == 0x908)

/-- Such units end (R417); a frozen one ends with its freeze (R422). -/
def State.endStopped (s : State) : State :=
  (s.traps.filter fun t => t.endsAtOnce && !s.unitFrozen t.unit).foldl (fun u t => (u.dropTrap t.seq).endUnit t.unit t.cause t.info) s

end Sys2Proof.Machine
end

