-- ==== Sys2Proof/Machine/MemEvents.lean ====
section
/-! DEFINITION. Meanings of what memory and the fabric do to accesses in flight: loads that return, accesses that become performed, causal stores and loads, completions and timeouts of requests outside the module, and requests and records that arrive from peers (R100 to R102, R106, R107, R114, R131, R132, R203, R365, R422, R423, R435, R453, R454), and the turns of held requests from outside (R92, R345). -/
namespace Sys2Proof.Machine

/-! ## Accesses of strands (R100, R102, R203) -/

/-- Whether an access of a core has not reached memory: its load has no value, its causal store is not applied at its home die, its request has no completion, or no later read has pushed it to the host's memory (R114). -/
def State.accessOpen (s : State) (c item : Nat) : Bool :=
  (s.core c).strands.toList.any (fun t => t.loads.any fun l => l.item == item && l.val.isNone)
  || s.dies.any (fun p => p.2.causal.any fun x => x.core == c && x.item == item && !x.data.isEmpty)
  || (s.requests.any fun r => match r.whose with
    | .load d _ i => d == c && i == item
    | .store d _ i => d == c && i == item
    | _ => false)
  || s.posted.any fun p => p.core == c && p.item == item

/-- The wider of a scope reached before and a new one. -/
def widerScope (old : Option Scope) (new : Scope) : Scope :=
  match old with
  | some t => if scopeNum t < scopeNum new then new else t
  | none => new

/-- An access of a strand is performed at a scope (R100); at gang scope it is counted no more (R102). -/
def Core.perform (x : Core) (item : Nat) (sc : Scope) : Core :=
  match sc with
  | .gang => { x.dropItem item with active := true, fresh := true }
  | _ => { x with items := x.items.map fun i => if i.id = item then { i with scope := some (widerScope i.scope sc) } else i, active := true, fresh := true }

/-- Whether an item is an access of a strand. -/
def ItemKind.isAccess : ItemKind → Bool
  | .access _ _ => true
  | _ => false

/-- The widest scope that an access performed at a scope has reached: outside a gang launch gang scope equals package scope (R100). -/
def State.reached (s : State) (c : Nat) (sc : Scope) : Scope := if sc = .package ∧ !(s.corePart c).gang then .gang else sc

/-- ACCESS_PERFORMED (R100, R102). -/
def execAccessPerformed (core item : Nat) (scope : Scope) (s : State) : Host.Outcome State Fault Refusal :=
  let x := s.core core
  if x.items.any (fun i => i.id == item && i.kind.isAccess) && !x.frozen && !s.accessOpen core item
  then .next (s.setCore core (x.perform item (s.reached core scope))) else .next s

/-- LOAD_RETURN (R203): a value that memory has given returns into its destination. -/
def execLoadReturn (core slot : Nat) (s : State) : Host.Outcome State Fault Refusal :=
  let t := s.strand core slot
  if (s.core core).frozen then .next s
  else match t.loads.find? (·.val.isSome) with
  | some l => .next (s.setStrand core slot (t.land l))
  | none => .next s

/-! ## Causal stores and loads (R106, R107) -/

/-- Rule 4 of R107: whether a die may apply a store. -/
def Die.mayApply (x : Die) (e : CausalStore) : Bool :=
  (List.range 8).all fun i =>
    let a := x.applied[i]?.getD 0
    let v := e.clock[i]?.getD 0
    if i = e.src then a == v - 1 else decide (v ≤ a)

/-- The local offset that maps to a place of a core's pool, as its visible pages stand. -/
def Core.offsetOf (x : Core) (at_ : Nat) : Nat :=
  if x.inSp at_ then
    match x.spm.find? fun p => p.2.v && p.2.frame == (at_ - x.spBase) / 8192 with
    | some p => x.spBase + p.1 * 8192 + (at_ - x.spBase) % 8192
    | none => at_
  else at_

/-- The core whose pool a memory key lies in. -/
def poolCore (key : Nat) : Option Nat := if 2 ^ 41 ≤ key ∧ key < 2 ^ 42 then some ((key - 2 ^ 41) / 2 ^ 21) else none

/-- Whether a location lies in the pool of a frozen core (R422). -/
def State.poolFrozen (s : State) (key : Nat) : Bool := ((poolCore key).map fun c => (s.core c).frozen) == some true

/-- Where n bytes of a causal access lie now: a device physical address is translated anew (R85). -/
def State.causalKey (s : State) (dpa : Option Nat) (key : Nat) : Option Nat :=
  match dpa with
  | some a => s.hbmKey false a
  | none => some key

/-- The cause that a causal access of n bytes meets where it is served (R423, R426): an unbacked region, the checks of HBM lines, a failing pool word; a store that covers its word whole meets none in the pool. -/
def State.causalCause (s : State) (owner : Nat) (write : Bool) (dpa : Option Nat) (key n : Nat) : Option Cause :=
  match dpa with
  | some a =>
    match s.hbmKey false a with
    | none => some ⟨0x606, BitVec.ofNat 64 a, walkWord 7 (if write then .write else .read) 0⟩
    | some k => s.pieceCause ⟨none, none, 0, owner, 0, true, .nothing⟩ write false ⟨.hbm a k, a, n⟩
  | none =>
    if write ∧ n = 8 ∧ key % 8 = 0 then none
    else
      let c := (poolCore key).getD 0
      s.poolCause c ((s.core c).offsetOf (key - poolKey c 0)) ((List.range n).map (key + ·))

/-- The data of a store reach their location at its home die. -/
def State.applyData (s : State) (e : CausalStore) : State :=
  match s.causalKey e.dpa e.key with
  | none => s
  | some key =>
    let t := match e.dpa with
      | some dpa => s.touchLines e.owner dpa key e.data.length false ((dpa + e.data.length - 1) / 64 + 1 - dpa / 64)
      | none => s.cleanWords ((List.range e.data.length).map (key + ·))
    { t with mem := memSetList t.mem key e.data }

/-- A store that failed (R453): it counts as performed and is recorded; a fence of its strand that waits for it traps after the fence. -/
def State.storeFailed (s : State) (c k item : Nat) (x : Cause) (place : Nat) : State :=
  let p := s.corePart c
  let s1 := (s.onCore c fun y => { y.dropItem item with active := true, fresh := true }).errorRecord ⟨x.code, 0, 0, c, k, false, some (p.queue, p.key), place, x.info, x.info1, 0⟩
  s1.onStrand c k fun t =>
    match t.hold with
    | some h => (match h.instr with
      | .fence _ _ => if h.ids.contains item then { t with failed := t.failed ++ [⟨x.code, x.info, x.info1, none⟩] } else t
      | .fenceR _ _ _ => if h.ids.contains item then { t with failed := t.failed ++ [⟨x.code, x.info, x.info1, none⟩] } else t
      | _ => t)
    | none => t

/-- What the application of a store does at its home die: its data arrive, or it fails as a write does (R423; log 104). -/
def State.landStore (s : State) (e : CausalStore) : State :=
  if e.data.isEmpty then s
  else match s.causalCause e.owner true e.dpa e.key e.data.length with
  | some x => s.storeFailed e.core e.slot e.item x e.place
  | none => s.applyData e

/-- CAUSAL_STORE_APPLY (R107, R422): a die applies the store of a source die that its clock admits. -/
def execCausalStoreApply (die src : Nat) (s : State) : Host.Outcome State Fault Refusal :=
  let x := s.die die
  match x.causal.find? fun e => e.src == src && x.mayApply e with
  | none => .next s
  | some e =>
    if !e.data.isEmpty && s.poolFrozen e.key then .next s
    else .next ((s.landStore e).onDie die fun y => { y with causal := y.causal.erase e, applied := bumpClock y.applied src })

/-- A causal load that fails where it is served (R423): its destination is unchanged, and its strand traps at its next boundary (log 104). -/
def Strand.loseLoad (t : Strand) (l : Load) (x : Cause) : Strand :=
  { t with loads := t.loads.filter (·.item != l.item), failed := t.failed ++ [⟨x.code, x.info, x.info1, some l.place⟩] }

/-- A causal load takes its value, and its strand the home die's clock (R107). -/
def Strand.served (t : Strand) (l : Load) (b : ByteList) (clock : Vector Word32 8) : Strand :=
  { t with
    loads := t.loads.map fun m => if m.item = l.item then { m with val := some (loadVal l.nbytes l.sgn b) } else m
    seen := maxClock t.seen clock }

/-- CAUSAL_LOAD_SERVE (R107, R422): the home die serves the strand's causal load once its applied clock covers the seen clock. -/
def execCausalLoadServe (core slot : Nat) (s : State) : Host.Outcome State Fault Refusal :=
  let t := s.strand core slot
  match t.loads.find? fun l => l.home.isSome && l.val.isNone with
  | none => .next s
  | some l =>
    let a := (s.die (l.home.getD 0)).applied
    if (s.core core).frozen || s.poolFrozen l.key then .next s
    else if (List.range 8).all fun i => decide ((t.seen[i]?.getD 0) ≤ (a[i]?.getD 0)) then
      match s.causalCause (s.corePart core).key false l.dpa l.key l.nbytes with
      | some x => .next (s.setStrand core slot (t.loseLoad l x))
      | none => .next (s.setStrand core slot (t.served l (memList s.mem ((s.causalKey l.dpa l.key).getD l.key) l.nbytes) a))
    else .next s

/-! ## Requests outside the module (R114, R453, R454) -/

/-- The answer to a held POSTR: 0 refused, 1 queued, 2 failed. -/
def State.answerPost (s : State) (c k : Nat) (v : Word64) : State :=
  s.onStrand c k fun t => { t with hold := t.hold.map fun (h : Hold) => { h with answer := some v } }

/-- The writes to the host that a read pushes: those of its function asked for before it (R114). -/
def RemoteReq.pushes (r q : RemoteReq) : Bool := q.tier == 2 && q.kind == 1 && q.fn == r.fn && decide (q.id < r.id)

/-- A read of a PCIe function has completed (R114): the writes of that function asked for before it are performed. -/
def State.pushedBy (s : State) (r : RemoteReq) : State :=
  { s with
    requests := s.requests.filter fun q => !r.pushes q
    posted := s.posted.filter fun p => !(p.fn == r.fn && decide (p.id < r.id)) }

/-- The stores of a core that the read of a fence was to push fail with it (log 84). -/
def State.flushFailed (s : State) (c : Nat) (r : RemoteReq) (x : Cause) : State :=
  let open_ := s.requests.filterMap fun q => match q.whose with
    | .store d k i => if d = c ∧ r.pushes q then some (k, i) else none
    | _ => none
  let taken := (s.posted.filter fun p => p.core == c && p.fn == r.fn && decide (p.id < r.id)).map fun p => (p.slot, p.item)
  (open_ ++ taken).foldl (fun t p => t.storeFailed c p.1 p.2 x r.place) (s.pushedBy r)

/-- The address that a packet names and that a request of it served (R435): the listed signal of a WAIT, the end of a COPY, else the operand or the completion signal. -/
def Packet.named (k : Packet) (r : RemoteReq) : Word64 :=
  let lo := fun (a : Word64) => bitsOf a 62 0
  if k.type = 3 then (k.list.find? fun a => lo a == r.info.toNat).getD (k.addrAt 0x10)
  else if k.type = 8 then
    (if r.kind = 0 ∧ lo (k.addrAt 0x10) ≤ r.info.toNat ∧ r.info.toNat < lo (k.addrAt 0x10) + k.word 0x20 8 then k.addrAt 0x10 else k.addrAt 0x18)
  else k.addrAt 0x10

/-- A request of a started packet fails (R352, R437, R453): the update of its completion signal is lost and recorded, another access is PKTFAULT. -/
def State.packetFailed (s : State) (q pid : Nat) (r : RemoteReq) (x : Cause) : State :=
  match s.packet q pid with
  | none => s
  | some k =>
    if k.signalled then s.errorRecord (sideRecord q (s.queue q).keyid k.addr x)
    else s.packetData q pid (k.named r) x

/-- A read for a queue fails (R439, R444): that of a SKIP is recorded and its packet passed over, that of a list is PKTFAULT of the WAIT, another one a fault of the fetch. The write of a notification is lost and recorded (R352). -/
def State.queueFailed (s : State) (q : Nat) (r : RemoteReq) (x : Cause) : State :=
  let y := s.queue q
  if r.kind ≠ 0 then s.errorRecord (sideRecord q y.keyid 0 x)
  else if y.skipping then
    let t := s.onQueue q fun y => ({ y with rd := y.rd + 1, skipping := false } : Queue).passCp
    let u := t.errorRecord ⟨x.code, 0, 6, 0, 0, false, some (q, y.keyid), (y.ringAddr y.rd.toNat).toNat, x.info, x.info1, 0⟩
    (u.onQueue q fun y => { y with qerr := 0, parked := false }).spend (.queue q)
  else match y.dropEnded.nextAddr with
  | none => s.spend (.queue q)
  | some a =>
    if decide (bitsOf a 62 0 ≤ r.info.toNat) && decide (r.info.toNat < bitsOf a 62 0 + 64) then s.fetchFault q a x
    else (s.packetFault q a.toNat ⟨0x907, r.info, BitVec.ofNat 64 x.code⟩).spend (.queue q)

/-- What a launch part reads while it is set up or resumed fails: the part ends (R438). -/
def State.partFailed (s : State) (p : Nat) (x : Cause) : State :=
  let y := s.part p
  s.recordEnd p ⟨x.code, 1, 6, 0, 0, false, some (y.queue, y.key), s.partPlace y, x.info, x.info1, 0⟩ x

/-- What the failure of a request leaves at its issuer (R453, R454). -/
def State.failRequest (s : State) (r : RemoteReq) (x : Cause) : State :=
  match r.whose with
  | .load c k item => (s.disown (· == .load c k item)).loadFailed c k item x r.place
  | .store c k item => (s.disown (· == .store c k item)).storeFailed c k item x r.place
  | .post c k => (s.answerPost c k 2).onStrand c k fun t => { t with failed := t.failed ++ [⟨x.code, x.info, x.info1, none⟩] }
  | .task c n => (s.disown (· == .task c n)).stopRunning c n x
  | .copy c ch eid => match ((s.core c).chan ch).find? fun e => e.eid == eid with
    | some e => (s.disown (· == .copy c ch eid)).stopCopy c ch e x
    | none => s
  | .context m n => (s.disown (· == .context m n)).ctxFault m n x
  | .packet q pid => s.packetFailed q pid r x
  | .save p => s.saveFail p 4 r.info (BitVec.ofNat 64 x.code)
  | .words c k => s.onStrand c k fun t => { t with failed := t.failed ++ [⟨x.code, x.info, x.info1, some r.place⟩] }
  | .flush c _ => s.flushFailed c r x
  | .queue q => s.queueFailed q r x
  | .part p => s.partFailed p x
  | .outside _ => s
  | .nothing => s

/-- The value of a returned load, AMO or CAS (R202, R208, R209). -/
def Load.receive (l : Load) (b : ByteList) : Load :=
  let v := loadVal l.nbytes l.sgn (slice b 0 l.nbytes)
  { l with val := some v, ok := (l.expect.map (· == v)).getD l.ok, expect := none }

/-- A load, AMO or CAS receives its bytes. -/
def State.loadReceives (s : State) (c k item : Nat) (b : ByteList) : State :=
  s.onStrand c k fun t => { t with loads := t.loads.map fun l => if l.item = item then l.receive b else l }

/-- Keeps the bytes that a read has brought to a unit. -/
def State.addReply (s : State) (r : RemoteReq) (b : ByteList) : State :=
  { s with replies := s.replies ++ [(r.whose, ⟨r.tier, r.addr, slice b 0 r.len⟩)] }

/-- The bytes of one piece of a load that reaches outside the module: with the last one the load has its value (R83). -/
def State.pieceReceived (s : State) (c k item : Nat) (r : RemoteReq) (b : ByteList) : State :=
  let w := r.whose
  if s.replies.any fun q => q.1 == w then
    let t : State := { s with replies := s.replies.map fun (q : ReqFor × Reply) => if q.1 = w ∧ q.2.tier = r.tier ∧ q.2.addr = r.addr ∧ q.2.data = [] then (q.1, { q.2 with data := slice b 0 r.len }) else q }
    let l := t.repliesTo w
    if l.any fun p => p.data.isEmpty then t else (t.loadReceives c k item (l.flatMap (·.data))).spend w
  else s.loadReceives c k item b

/-- Where an update outside the module has taken effect. -/
def RemoteReq.loc (r : RemoteReq) : Loc := if r.tier = 1 then .peer r.addr else .host r.addr

/-- A packet's read has brought bytes: a WAIT goes on evaluating (R351). -/
def State.packetGoesOn (s : State) (q pid : Nat) : State :=
  match s.packet q pid with
  | some k => if k.polls then s.evalWait q k else s
  | none => s

/-- What a completion leaves at its issuer (R83, R114, R351): bytes of a read, a store that the host has taken, an answer, an updated signal. -/
def State.finishRequest (s : State) (r : RemoteReq) (b : ByteList) : State :=
  match r.whose with
  | .load c k item => s.pieceReceived c k item r b
  | .store c k item => if r.tier = 2 then { s with posted := s.posted ++ [⟨r.id, r.fn, c, k, item, r.addr⟩] } else s
  | .post c k => s.answerPost c k (if field b 0 1 = 0 then 0 else 1)
  | .words c k => s.onStrand c k fun t => { t with got := t.got ++ [⟨r.tier, r.addr, slice b 0 r.len⟩] }
  | .packet q pid => if r.kind = 0 then (s.addReply r b).packetGoesOn q pid else s.wakeWaits (some r.loc)
  | .flush _ _ => s
  | .outside _ => s
  | .nothing => s
  | _ => if r.kind = 0 then s.addReply r b else s

/-- Whether the issuer of a request is frozen (R422). -/
def State.issuerFrozen (s : State) : ReqFor → Bool
  | .load c _ _ => (s.core c).frozen
  | .store c _ _ => (s.core c).frozen
  | .post c _ => (s.core c).frozen
  | .task c _ => (s.core c).frozen
  | .copy c _ _ => (s.core c).frozen
  | .words c _ => (s.core c).frozen
  | .flush c _ => (s.core c).frozen
  | .context m _ => s.frozenMse.contains m
  | _ => false

/-- A request that is outstanding and whose issuer can take its end. -/
def State.openRequest (s : State) (req : Nat) : Option RemoteReq :=
  s.requests.find? fun r => r.id == req && !s.issuerFrozen r.whose

def State.dropRequest (s : State) (req : Nat) : State := { s with requests := s.requests.filter (·.id != req) }

/-- How a request fails (R435, R453): one that found no way out meets NOROUTE. -/
def RemoteReq.cause (q : RemoteReq) (code : Nat) (info1 : Word64) : Cause :=
  if q.tier = 0 then ⟨0xA04, q.info, BitVec.ofNat 64 q.peer⟩ else ⟨code, q.info, info1⟩

/-- A completion returns for a request (R114, R209, R453). -/
def State.complete (s : State) (req : Nat) (r : RemoteResult) : State :=
  match s.openRequest req with
  | none => s
  | some q =>
    match r with
    | .ok b =>
      if q.tier = 0 then (s.dropRequest req).failRequest q (q.cause 0 0)
      else if q.tier = 2 ∧ q.kind = 0 then ((s.dropRequest req).pushedBy q).finishRequest q b
      else (s.dropRequest req).finishRequest q b
    | .error c => (s.dropRequest req).failRequest q (q.cause 0xA03 (BitVec.ofNat 64 (c % 2 ^ 12 + q.peer * 2 ^ 16)))

/-- REMOTE_COMPLETION (R114, R209, R453). -/
def execRemoteCompletion (req : Nat) (r : RemoteResult) (s : State) : Host.Outcome State Fault Refusal := .next (s.complete req r)

/-- COMPLETION_TIMEOUT (R452 to R454). -/
def execCompletionTimeout (req : Nat) (s : State) : Host.Outcome State Fault Refusal :=
  match s.openRequest req with
  | none => .next s
  | some q => .next ((s.dropRequest req).failRequest q (q.cause 0xA02 (BitVec.ofNat 64 q.peer)))

/-! ## What arrives from peers (R131, R132, R365) -/

/-- A record arrives at a core's ingress queue: the state, and whether it was queued. -/
def State.arrive (s : State) (c : Nat) (r : ByteList) : State × Bool :=
  if (s.core c).part.isSome && s.takesIngress (s.corePart c) c then (s.onCore c (·.queueIngress (slice r 0 128)), true) else (s, false)

/-- INGRESS_ARRIVAL (R131, R132): queued, or refused; a frozen core lets it wait (R422). -/
def execIngressArrival (core : Nat) (rec : ByteList) (s : State) : Host.Outcome State Fault Refusal :=
  if (s.core core).frozen then .next s else .next (s.arrive core rec).1

/-- Who a peer's request is served as (R365, R370). -/
def whoPeer (key : Nat) : Who := ⟨none, none, 0, key, 6, true, .nothing⟩

/-- Serves a peer's access (R92, R364, R365, R423, R453): it waits while its region is held, and an error completion carries its cause. -/
def State.servePeer (s : State) (r : PeerReq) (tag key addr n : Nat) (write : Bool) (f : State → List Piece → State × ByteList) : State :=
  let d := addr % 2 ^ 41
  let bad := fun (code : Nat) => s.letOutside.send (.peerReply tag (leBytes 2 code) false)
  if d + n > 2 ^ 40 then bad 0x908
  else match s.dpaPieces d n with
  | none => bad 0x606
  | some ps =>
    match s.blockedAt s.outsideReq (pieceRegions ps) with
    | some k => s.holdOutside (.peer r) k
    | none =>
      match ps.findSome? (s.pieceCause (whoPeer key) write false) with
      | some c => bad c.code
      | none => let q := f s.letOutside ps; (ps.foldl State.serve q.1).send (.peerReply tag q.2 true)

/-- Writes bytes over pieces under a peer's key. -/
def State.peerPut (s : State) (key : Nat) (ps : List Piece) (b : ByteList) : State :=
  (splitPieces ps b).foldl (fun t p => t.writePiece (whoPeer key) false p.1 p.2) s

def State.peerGet (s : State) (ps : List Piece) : ByteList := (ps.map (s.readPiece .nothing)).flatten

/-- Whether a POSTR of a peer waits: the target core is frozen (R422), or an earlier one to it waits (R364). -/
def State.postrHeld (s : State) (core : Nat) : Bool :=
  (s.core core).frozen || (s.outside.takeWhile fun q => !(s.outsideReq == .outside q.1)).any fun q => match q.2 with
    | .peer (.postr _ c _) => c == core
    | _ => false

/-- Serves a request of a peer (R365, R364, R207, R208). -/
def State.peerRequest (r : PeerReq) (s : State) : State :=
  match r with
  | .read tag addr len key => s.servePeer r tag key addr len false fun t ps => (t, t.peerGet ps)
  | .write tag addr key data => s.servePeer r tag key addr data.length true fun t ps => (t.peerPut key ps data, [])
  | .amo tag addr key op sz v =>
    let n := amoBytes sz
    s.servePeer r tag key addr n true fun t ps =>
      let old := leNat (t.peerGet ps)
      (t.peerPut key ps (leBytes n (amoFun op (8 * n) old (v.toNat % 2 ^ (8 * n)))), leBytes n old)
  | .cas tag addr key sz exp new =>
    let n := amoBytes sz
    s.servePeer r tag key addr n true fun t ps =>
      let old := leNat (t.peerGet ps)
      ((if old = exp.toNat % 2 ^ (8 * n) then t.peerPut key ps (leBytes n new.toNat) else t), leBytes n old)
  | .postr tag core rec =>
    if s.postrHeld core then s.holdOutside (.peer r) 0
    else
      let p := s.letOutside.arrive core rec
      p.1.send (.peerReply tag [if p.2 then 1#8 else 0#8] true)

/-- PEER_REQUEST (R363, R365). -/
def execPeerRequest (r : PeerReq) (s : State) : Host.Outcome State Fault Refusal :=
  if s.keel.booted ∧ s.linked then .next (s.peerRequest r) else .next s

/-! ## Held requests from outside (R92, R345) -/

/-- A held request from outside has its turn again. -/
def State.runHeld (s : State) (n : Nat) : Host.Outcome State Fault Refusal :=
  match s.outside.find? fun q => q.1 == n with
  | some (_, .bar2Read tag addr len) => execBar2Read tag addr len s
  | some (_, .bar2Write addr data) => execBar2Write addr data s
  | some (_, .registerWrite org off size v) => execRegisterWrite org off size v s
  | some (_, .doorbell org q v) => execDoorbell org q v s
  | some (_, .peer r) => execPeerRequest r s
  | none => .next s

end Sys2Proof.Machine
end

