-- ==== Sys2Proof/Machine/Link.lean ====
section
/-! DEFINITION. Meanings of the Nerior Link ports, of the fabric's time and of throttling (R362, R366, R367, R377, R451). -/
namespace Sys2Proof.Machine

/-! ## Ports (R362, R366, R451) -/

/-- A counter that saturates at 2^32 - 1 (R366). -/
def satInc (n : Nat) : Nat := min (n + 1) (2 ^ 32 - 1)

/-- A write of PCTL (R366, R451): a downed port trains again only once EN has been 0. -/
def State.opPctl (s : State) (n : Nat) (v : Word64) : State :=
  let p := s.nport n
  s.setPort n { p with pctl := v &&& 1, reason := if v.getLsbD 0 then p.reason else 0 }

/-- PORT_ENABLE (R366). -/
def execPortEnable (port : Nat) (s : State) : Host.Outcome State Fault Refusal :=
  if port < 36 then .next (s.opPctl port 1) else .next s

/-- Sends messages again on a port, in new flits and in their order. -/
def State.sendFlits (s : State) (port : Nat) (l : List Flit) : State :=
  let q := s.nport port
  let fs := l.mapIdx fun i (f : Flit) => { f with seq := q.txSeq + i }
  fs.foldl (fun t f => t.send (.flit port f)) (s.setPort port { q with txSeq := q.txSeq + l.length, unacked := q.unacked ++ fs })

/-- The address by which a message was spread over the ports (R364). -/
def FabricMsg.addr : FabricMsg → Nat
  | .request _ _ a _ _ _ => a
  | _ => 0

/-- LINK_UP (R363, R366, R367, R451): training has finished and has measured the path delay, a free value (log 103); messages that no other port could take leave now. -/
def execLinkUp (port lanes peer : Nat) (s : State) : Host.Outcome State Fault Refusal :=
  let p := s.nport port
  if port < 36 ∧ p.pctl = 1 ∧ !p.up ∧ p.reason = 0 ∧ 1 ≤ lanes ∧ lanes ≤ 4 ∧ peer < 2048
  then .next (s.setPort port { p with up := true, lanes := lanes, peer := peer, downs := 0, rxSeq := 0, txSeq := 0, unacked := [], delay := Config.pathDelay s.steps port, moved := 0 }).flushUnsent
  else .next s

/-- Clears the counters of PCNT, or those of PCNT2 (R366). -/
def State.clearCounters (s : State) (port : Nat) (second : Bool) : State :=
  let p := s.nport port
  s.setPort port (if second then { p with corr := 0 } else { p with crc := 0, replay := 0 })

/-- COUNTER_CLEAR (R366). -/
def execCounterClear (port : Nat) (second : Bool) (s : State) : Host.Outcome State Fault Refusal :=
  if port < 36 then .next (s.clearCounters port second) else .next s

/-- A port goes down (R451): the record, and the flits not acknowledged are sent again in their order on another up port of the die, before every later message; with none up they wait. -/
def State.linkDown (s : State) (port reason : Nat) : State :=
  let p := s.nport port
  let s1 := s.setPort port { p with up := false, lanes := 0, reason := if p.pctl = 0 then 0 else reason, downs := 0, unacked := [], moved := 0 }
  let others := s1.upPorts (portDie port)
  let s2 := match others with
    | [] => { s1 with unsent := (p.unacked.map fun (f : Flit) => (portDie port, f.dest, f.msg.addr, f.msg)) ++ s1.unsent }
    | n :: _ =>
      if p.unacked.isEmpty then s1
      else
        let t := s1.sendFlits n p.unacked
        t.setPort n { t.nport n with moved := (t.nport n).txSeq }
  s2.errorRecord ⟨0xA01, if others.isEmpty then 3 else 0, 9, port, 0, false, none, 0, BitVec.ofNat 64 port, BitVec.ofNat 64 reason, 0⟩

/-- LINK_DOWN (R451): training lost (1), or the replay limit (2). -/
def execLinkDown (port reason : Nat) (s : State) : Host.Outcome State Fault Refusal :=
  if port < 36 ∧ (s.nport port).up ∧ (reason = 1 ∨ reason = 2) then .next (s.linkDown port reason) else .next s

/-- A flit whose CRC fails (R362, R366): it is counted and asked for again. -/
def State.badFlit (s : State) (port seq : Nat) : State :=
  let p := s.nport port
  (s.setPort port { p with crc := satInc p.crc }).send (.retransmit port seq)

/-- The partner asks for the flits from a sequence number on (R362, R366, R451): they are sent and counted again; a port that replays one flit 16 times in a row goes down. -/
def State.replayFlits (s : State) (port from_ : Nat) : State :=
  let p := s.nport port
  let l := p.unacked.filter fun f => decide (from_ ≤ f.seq)
  if l.isEmpty then s
  else
    let t := l.foldl (fun u f => u.send (.flit port f)) (s.setPort port { p with replay := min (p.replay + l.length) (2 ^ 32 - 1), downs := p.downs + 1 })
    if p.downs + 1 ≥ 16 then t.linkDown port 2 else t

/-- The partner acknowledges the flits below a sequence number: their replays are over, and messages that waited for the flits of a lost port leave (R451). -/
def State.ackFlits (s : State) (port below : Nat) : State :=
  let p := s.nport port
  (s.setPort port { p with
    unacked := p.unacked.filter fun f => decide (below ≤ f.seq)
    downs := if p.unacked.any fun f => decide (f.seq < below) then 0 else p.downs
    moved := if p.moved ≤ below then 0 else p.moved }).flushUnsent

/-- Beats that FEC has corrected in a received flit are counted (R366). -/
def State.countFec (s : State) (port fec : Nat) : State :=
  s.setPort port { s.nport port with corr := min ((s.nport port).corr + fec) (2 ^ 32 - 1) }

/-! ## Time (R367) -/

/-- Writes the fields of TSYNC that a write can not (R366): LOCK, CONFLICT, OFS, RID. -/
def tsyncWord (old : Word32) (lock conflict : Bool) (ofs rid : Nat) : Word32 :=
  (old &&& 1) ||| BitVec.ofNat 32 ((if lock then 2 else 0) + (if conflict then 4 else 0) + ofs % 256 * 2 ^ 8 + rid % 2 ^ 11 * 2 ^ 16)

def State.isRoot (s : State) : Bool := s.tsync.getLsbD 0 && !s.tsync.getLsbD 2
def State.ownId (s : State) : Nat := bitsOf s.modid 10 0

/-- A write of TSYNC.ROOT (R366, R367): a time root agrees with itself; a module that is none follows what it hears. -/
def State.opTsync (s : State) (v : Word64) : State :=
  if v.getLsbD 0 = s.tsync.getLsbD 0 then s
  else if v.getLsbD 0 then
    { s with tsync := tsyncWord 1 true false 0 s.ownId, root := none, tickLag := 0, synced := true }
  else { s with tsync := tsyncWord 0 false false (bitsOf s.tsync 15 8) (bitsOf s.tsync 26 16), root := none, tickLag := 0 }

/-- ROOT_ANNOUNCEMENT_SEND (R367): on every up port, while this module is the root. -/
def execRootAnnouncementSend (s : State) : Host.Outcome State Fault Refusal :=
  if s.isRoot then .next (((List.range 36).filter fun n => (s.nport n).up).foldl (fun t n => t.send (.announce n s.ownId s.tick)) s) else .next s

/-- The offset from the root, held to 8 signed bits (R366). -/
def rootOffset (own root : Word64) : Nat := ((max (-128) (min 127 (own.toInt - root.toInt))) % 256).toNat

/-- Two tick counts that differ by no more than one (R367). -/
def nearTicks (a b : Word64) : Bool := a == b || a == b + 1 || b == a + 1

/-- What the counter does when its module hears where its root's counter stands (R367): at the first lock it steps once to that value; at a later one it steps forward, or counts one tick of two until they agree; while locked it repeats or drops one tick, at most one in 1,024, and agrees within one. -/
def State.followTick (s : State) (id : Nat) (rt : Word64) : State :=
  let ofs := rootOffset s.tick rt
  let ahead := decide (s.tick.toNat > rt.toNat)
  let set := fun (lock : Bool) (tick : Word64) (lag : Nat) (fix : Word64) =>
    { s with tsync := tsyncWord s.tsync lock (s.tsync.getLsbD 2) ofs id, root := some id, rootSeen := tick, tick := tick, tickLag := lag, rootFix := fix, synced := s.synced || lock }
  if s.root = some id ∧ s.tsync.getLsbD 1 ∧ nearTicks s.tick rt then
    (if s.tick = rt ∨ (s.tick - s.rootFix).toNat < 1024 then set true s.tick s.tickLag s.rootFix
     else if ahead then set true s.tick 2 s.tick
     else set true (s.tick + 1) 0 s.tick)
  else if !s.synced ∨ !ahead then set true rt 0 rt
  else set false s.tick (2 * (s.tick.toNat - rt.toNat)) s.rootFix

/-- ROOT_ANNOUNCEMENT_RECEIVE (R367): a root sets CONFLICT at a lower identifier; others follow the lowest root they hear, and pass its announcements on with the path delay added that this port has measured. -/
def execRootAnnouncementReceive (port id : Nat) (rootTick : Word64) (s : State) : Host.Outcome State Fault Refusal :=
  if port ≥ 36 ∨ !(s.nport port).up ∨ id ≥ 2048 then .next s
  else if s.isRoot && decide (id ≥ s.ownId) then .next s
  else if (s.root.map fun r => decide (r < id)) == some true then .next s
  else
    let rt := rootTick + BitVec.ofNat 64 (s.nport port).delay
    let t : State := if s.isRoot then { s with tsync := s.tsync ||| 4 } else s
    let u := t.followTick id rt
    .next (((List.range 36).filter fun n => n != port && (s.nport n).up).foldl (fun w n => w.send (.announce n id rt)) u)

/-- ROOT_LOST (R367): 1 ms, 800,000 ticks, without an announcement of the followed root; RID keeps its value. -/
def execRootLost (s : State) : Host.Outcome State Fault Refusal :=
  if s.root.isSome ∧ (s.tick - s.rootSeen).toNat ≥ 800000 then
    .next { s with root := none, tickLag := 0, tsync := tsyncWord s.tsync false (s.tsync.getLsbD 2) (bitsOf s.tsync 15 8) (bitsOf s.tsync 26 16) }
  else .next s

/-! ## Throttling (R377) -/

/-- THERMAL_THROTTLE (R377): the block lowers its own clock, which changes timing only. -/
def execThermalThrottle (block : Block) (s : State) : Host.Outcome State Fault Refusal :=
  if s.throttled.contains block then .next s else .next { s with throttled := s.throttled ++ [block] }

/-- THERMAL_RECOVERY (R377). -/
def execThermalRecovery (block : Block) (s : State) : Host.Outcome State Fault Refusal :=
  .next { s with throttled := s.throttled.filter (· != block) }

end Sys2Proof.Machine
end

