-- ==== Sys2Proof/Machine/Shake.lean ====
section
/-! DEFINITION. SHAKE256 with 64 bytes of output, the digest of checkpoint images, reports and measurements (R325, R369, R376). The spec names the function; its definition is the published one (FIPS 202; log 11). -/
namespace Sys2Proof.Machine

/-- The 25 lanes of the permutation, lane x + 5y. -/
abbrev Lanes25 := Vector Word64 25

/-- Lane x, y. -/
def laneAt (a : Lanes25) (x y : Nat) : Word64 := a[x % 5 + 5 * (y % 5)]?.getD 0

/-- Rotations of the lanes. -/
def keccakRot : NatList := [0, 1, 62, 28, 27, 36, 44, 6, 55, 20, 3, 10, 43, 25, 39, 41, 45, 15, 21, 8, 18, 2, 61, 56, 14]

/-- Round constants. -/
def keccakRc : List Word64 :=
  [0x1, 0x8082, 0x800000000000808a, 0x8000000080008000,
   0x808b, 0x80000001, 0x8000000080008081, 0x8000000000008009,
   0x8a, 0x88, 0x80008009, 0x8000000a,
   0x8000808b, 0x800000000000008b, 0x8000000000008089, 0x8000000000008003,
   0x8000000000008002, 0x8000000000000080, 0x800a, 0x800000008000000a,
   0x8000000080008081, 0x8000000000008080, 0x80000001, 0x8000000080008008]

/-- One round. -/
def keccakRound (a : Lanes25) (rc : Word64) : Lanes25 :=
  let par : Vector Word64 5 := Vector.ofFn fun x => laneAt a x.val 0 ^^^ laneAt a x.val 1 ^^^ laneAt a x.val 2 ^^^ laneAt a x.val 3 ^^^ laneAt a x.val 4
  let cAt := fun (x : Nat) => par[x % 5]?.getD 0
  let t : Lanes25 := Vector.ofFn fun i => laneAt a i.val (i.val / 5) ^^^ cAt (i.val + 4) ^^^ (cAt (i.val + 1)).rotateLeft 1
  let b : Lanes25 := Vector.ofFn fun i =>
    let x := (i.val + 3 * (i.val / 5)) % 5
    let y := i.val % 5
    (laneAt t x y).rotateLeft (keccakRot.getD (x + 5 * y) 0)
  Vector.ofFn fun i =>
    let y := i.val / 5
    laneAt b i.val y ^^^ (~~~(laneAt b (i.val + 1) y) &&& laneAt b (i.val + 2) y) ^^^ (if i.val = 0 then rc else 0)

def keccak (a : Lanes25) : Lanes25 := keccakRc.foldl keccakRound a

/-- Takes one block of 136 bytes in. -/
def absorbBlock (a : Lanes25) (b : ByteList) : Lanes25 :=
  keccak (Vector.ofFn fun i => (a[i.val]?.getD 0) ^^^ (if i.val < 17 then BitVec.ofNat 64 (field b (8 * i.val) 8) else 0))

/-- The bytes with their padding: 0x1F, zeros, and the top bit of the last byte of a block. -/
def shakePad (b : ByteList) : ByteList :=
  let n := 136 - b.length % 136
  b ++ (if n = 1 then [0x9F#8] else [0x1F#8] ++ List.replicate (n - 2) 0#8 ++ [0x80#8])

/-- SHAKE256 of some bytes, 64 bytes long. -/
def shake256 (b : ByteList) : ByteList :=
  let p := shakePad b
  let a := (chunks 136 (p.length / 136) p).foldl absorbBlock (Vector.replicate 25 0)
  ((List.range 8).map fun i => leBytes 8 (a[i]?.getD 0).toNat).flatten

end Sys2Proof.Machine
end

