-- ==== Sys2Proof/Machine/Security.lean ====
section
/-! DEFINITION. Meanings of Keel's part: key identifiers, erasure and alarms, SPDM and TDISP messages, IDE failures, and configuration writes (R40, R366, R368 to R370, R374 to R376, R452, R456 to R460). -/
namespace Sys2Proof.Machine

/-! ## Key identifiers (R40, R370) -/

/-- Zeroes the W-store slice of a core (R40). -/
def State.zeroSlice (s : State) (c : Nat) : State :=
  ({ s with
    mem := tabClear s.mem (wKey c 0) (2 ^ 21)
    poisoned := s.poisoned.filter fun w => !(decide (wKey c 0 / 8 ≤ w) && decide (w < wKey c 0 / 8 + 2 ^ 18)) } : State).onCore c fun x => { x with wkey := none }

/-- Zeroes the slices last written under the identifiers that meet a test. -/
def State.zeroSlices (s : State) (f : Nat → Bool) : State :=
  (s.cores.filter fun p => (p.2.wkey.map f).getD false).foldl (fun t p => t.zeroSlice p.1) s

/-- Whether the DOE mailbox answers (R368, R447, R457). -/
def State.doeOpen (s : State) : Bool := s.keel.booted && !s.keel.halted

/-- Answers of the DOE mailbox, in the model's own numbers (log 33): 0 an error or a refusal, 1 done, 2 a measurement, 3 a certificate, 4 a session, 5 an interface report, 6 an interface state, 7 the negotiated algorithms. -/
def State.answer (s : State) (code : Nat) (words : NatList) : State := s.send (.spdm code words)

/-- A message that needs a secured session; outside one, and after an erasure of all keys, an error answers it. -/
def State.inSession (s : State) (f : State → State) : Host.Outcome State Fault Refusal :=
  if !s.keel.booted then .next s
  else if s.keel.halted || s.keel.sessions.isEmpty then .next (s.answer 0 [])
  else .next (f s)

/-- A key identifier gets a new pair. -/
def Keel.allocate (k : Keel) (n : Nat) : Keel :=
  { k with alloc := (k.alloc ++ [n]).mergeSort (· ≤ ·), gens := tabPut k.gens n k.genNext, genNext := k.genNext + 1 }

/-- KEY_ALLOC (R370). -/
def execKeyAlloc (k : Nat) (s : State) : Host.Outcome State Fault Refusal :=
  s.inSession fun t =>
    if k = 0 ∨ k > 127 ∨ t.keel.alloc.contains k then t.answer 0 []
    else ({ t with keel := t.keel.allocate k } : State).answer 1 [k]

/-- Whether a launch part with state on the module carries an identifier. -/
def State.keyInUse (s : State) (f : Nat → Bool) : List Nat :=
  (s.parts.filter fun p => f p.2.key && p.2.phase != .complete && p.2.phase != .ended).map (·.1)

/-- Ends a retirement (R40, R370): the slices are zeroed first. -/
def State.retireKey (s : State) (k : Nat) : State :=
  let t := s.zeroSlices (· == k)
  { t with keel := { t.keel with alloc := t.keel.alloc.filter (· != k), retiring := t.keel.retiring.filter (· != k) } }

/-- Retirements that have waited for their last launch part are completed (R370). -/
def State.endRetirements (s : State) : State :=
  s.keel.retiring.foldl (fun t k => if (t.keyInUse (· == k)).isEmpty then (t.retireKey k).answer 1 [k] else t) s

/-- KEY_RETIRE (R40, R370): it stays pending while a resident launch part carries the identifier. -/
def execKeyRetire (k : Nat) (s : State) : Host.Outcome State Fault Refusal :=
  s.inSession fun t =>
    if k = 0 ∨ k > 127 ∨ !t.keel.alloc.contains k then t.answer 0 []
    else if (t.keyInUse (· == k)).isEmpty then (t.retireKey k).answer 1 [k]
    else { t with keel := { t.keel with retiring := if t.keel.retiring.contains k then t.keel.retiring else t.keel.retiring ++ [k] } }

/-! ## Alarms and erasure (R456, R457) -/

/-- A record of Keel (R436). -/
def keelRecord (cause sev info info1 : Nat) : ErrRec := ⟨cause, sev, 10, 0, 0, false, none, 0, BitVec.ofNat 64 info, BitVec.ofNat 64 info1, 0⟩

/-- The records that the TDIs will write as they move to ERROR. -/
def State.tdiCount (s : State) : Nat := (s.vfs.filter fun p => p.2.tdi == .locked || p.2.tdi == .run).length

/-- An erasure (R457): of the tenant keys, or of all keys, after which the module holds until reset. -/
def State.erase (s : State) (all : Bool) : State :=
  let gone := fun (k : Nat) => all || k != 0
  let seq := s.errseq.toNat + s.tdiCount
  let c : Cause := ⟨0xB04, if all then 3 else 1, 0⟩
  let s1 : State := { s with keel := { s.keel with
      alloc := s.keel.alloc.filter fun k => !gone k, retiring := [], erased := true, sessions := if all then [] else s.keel.sessions } }
  let s2 := (s1.keyInUse gone).foldl (fun t p => t.endPart p c seq) s1
  let s3 := s2.zeroSlices gone
  let s4 := (if all then List.range 2048 else (s3.queues.filter fun p => p.2.keyid != 0).map (·.1)).foldl (fun t q => t.queueError q 0xB04 seq) s3
  let s5 := s4.tdiErrorAll 3 0
  let s6 := s5.errorRecord (keelRecord 0xB04 3 c.info.toNat 0)
  { s6 with keel := { s6.keel with halted := s6.keel.halted || all } }

/-- An alarm (R456): its record, and the response that its two bits of the fused policy choose. -/
def State.alarm (s : State) (cause info : Nat) (policy : Nat) : State :=
  let t := s.errorRecord (keelRecord cause (if policy = 0 then 0 else 3) info policy)
  if policy = 0 then t else t.erase (decide (policy ≥ 2))

/-- TAMPER (R456). -/
def execTamper (sensor : Nat) (s : State) : Host.Outcome State Fault Refusal :=
  if s.doeOpen then .next (s.alarm 0xB01 sensor (bitsOf Config.fusedPolicy 1 0)) else .next s
/-- GLITCH (R456). -/
def execGlitch (detector : Nat) (s : State) : Host.Outcome State Fault Refusal :=
  if s.doeOpen then .next (s.alarm 0xB02 detector (bitsOf Config.fusedPolicy 3 2)) else .next s

/-- IDE_FAILURE (R458): the stream is Insecure, and the TDIs whose traffic it carries move to ERROR. -/
def execIdeFailure (stream : Nat) (s : State) : Host.Outcome State Fault Refusal :=
  let t : State := { (s.errorRecord (keelRecord 0xB05 0 stream 0)) with ide := if s.ide.contains stream then s.ide else s.ide ++ [stream] }
  if !s.keel.booted then .next s
  else .next ((t.vfs.filter fun p => p.2.tdi == .run && p.2.stream == stream).foldl (fun u p => u.tdiError p.1 2 stream) t)

/-! ## TDISP (R374 to R376, R460) -/

/-- A VF that exists (R337). -/
def isVf (v : Nat) : Bool := decide (1 ≤ v) && decide (v ≤ 63)

/-- The values that R375 freezes for a VF, one after another (R376; log 34): of the Command register Memory Space Enable and Bus Master Enable, of a queue's QCTL PRIO, PRIV, KEYID and OWNER. -/
def State.frozenBytes (s : State) (v : Nat) : ByteList :=
  let x := s.vf v
  leBytes 2 s.numVfs ++ leBytes 1 (if s.vfEnable then 1 else 0) ++ leBytes 8 s.vfBar0.toNat
  ++ leBytes 2 (x.command &&& 6).toNat ++ leBytes 8 x.msix.toNat ++ (tabList 0 x.msixTab 0 64).flatMap (fun w => leBytes 8 w.toNat) ++ leBytes 8 x.vtab.toNat
  ++ ((s.ownedBy v).map fun q =>
    let y := s.queue q
    leBytes 8 (y.qctl &&& 0x3F0000000FFE#64).toNat ++ leBytes 8 y.ptroot.toNat ++ leBytes 8 y.ckbase.toNat ++ leBytes 8 (y.ckcfg &&& 0xFFFFFFFF000F#64).toNat).flatten

/-- The one allocated identifier other than 0 that every queue of a VF carries (R374). -/
def State.vfKey (s : State) (v : Nat) : Option Nat :=
  match (s.ownedBy v).map fun q => (s.queue q).keyid with
  | [] => none
  | k :: r => if k ≠ 0 ∧ s.keel.alloc.contains k ∧ r.all (· == k) then some k else none

/-- LOCK_INTERFACE_REQUEST (R374, R375). -/
def execLockInterfaceRequest (vf : Nat) (s : State) : Host.Outcome State Fault Refusal :=
  s.inSession fun t =>
    match t.vfKey vf with
    | some k =>
      if isVf vf ∧ (t.vf vf).tdi = .unlocked then
        (t.setVf vf { t.vf vf with tdi := .locked, key := k, digest := leNat (shake256 (t.frozenBytes vf)) }).answer 1 []
      else t.answer 0 []
    | none => t.answer 0 []

/-- START_INTERFACE_REQUEST (R374). -/
def execStartInterfaceRequest (vf stream : Nat) (s : State) : Host.Outcome State Fault Refusal :=
  s.inSession fun t =>
    let x := t.vf vf
    if isVf vf ∧ x.tdi = .locked ∧ !x.stopping then (t.setVf vf { x with tdi := .run, stream := stream }).answer 1 [] else t.answer 0 []

/-- STOP_INTERFACE_REQUEST (R374, R460): the owned queues are disabled; INTERFACE_UNLOCK follows. -/
def execStopInterfaceRequest (vf : Nat) (s : State) : Host.Outcome State Fault Refusal :=
  s.inSession fun t =>
    let x := t.vf vf
    if isVf vf ∧ x.tdi ≠ .unlocked then
      ((t.ownedBy vf).foldl (fun u q => u.opQueueDisable q) (t.setVf vf { x with stopping := true })).answer 1 []
    else t.answer 0 []

/-- INTERFACE_UNLOCK (R374, R460): every owned queue is IDLE. -/
def execInterfaceUnlock (vf : Nat) (s : State) : Host.Outcome State Fault Refusal :=
  let x := s.vf vf
  if x.stopping && (s.ownedBy vf).all fun q => (s.queue q).qstat.getLsbD 0 then
    .next (s.setVf vf { x with tdi := .unlocked, key := 0, stream := 0, stopping := false })
  else .next s

/-- GET_DEVICE_INTERFACE_REPORT (R376): DMA without PASID, the MMIO range, the MSI-X vectors, the identifier, the owned queues, the digest. -/
def execGetDeviceInterfaceReport (vf : Nat) (s : State) : Host.Outcome State Fault Refusal :=
  s.inSession fun t =>
    if isVf vf then
      let l := t.ownedBy vf
      t.answer 5 ([0, t.vfBar0.toNat + 524288 * (vf - 1), 524288, 32, (t.vf vf).key, l.length] ++ l ++ [leNat (shake256 (t.frozenBytes vf))])
    else t.answer 0 []

/-- Codes of the states of a TDI. -/
def TdiState.code : TdiState → Nat
  | .unlocked => 0
  | .locked => 1
  | .run => 2
  | .error => 3

/-- GET_DEVICE_INTERFACE_STATE (R374, R467). -/
def execGetDeviceInterfaceState (vf : Nat) (s : State) : Host.Outcome State Fault Refusal :=
  s.inSession fun t => if isVf vf then t.answer 6 [(t.vf vf).tdi.code] else t.answer 0 []

/-! ## SPDM (R369) -/

/-- The registers of the link DVSEC and of the SR-IOV capability (R366, R375, R452; log 34). -/
def State.dvsecBytes (s : State) : ByteList :=
  leBytes 8 s.modid.toNat ++ leBytes 8 s.tsync.toNat ++ leBytes 8 s.rtmo.toNat
  ++ ((List.range 36).map fun n =>
    let p := s.nport n
    leBytes 8 p.pctl.toNat ++ leBytes 8 ((if p.up then 1 else 0) + p.lanes * 2 + p.peer * 2 ^ 16) ++ leBytes 4 p.crc ++ leBytes 4 p.replay ++ leBytes 8 p.corr).flatten
  ++ leBytes 2 s.numVfs ++ leBytes 1 (if s.vfEnable then 1 else 0) ++ leBytes 8 s.vfBar0.toNat

/-- A measurement block (R369); none for an index that names none. -/
def State.measurement (s : State) (idx : Nat) : Option NatList :=
  match idx with
  | 1 => some [Config.digest 0, Config.digest 1]
  | 2 => some [s.fw.active.digest, s.fw.active.svn]
  | 3 => some (if s.fw.sbst = 0 then [0, 0] else [s.fw.standby.digest, s.fw.standby.svn])
  | 4 => some [Config.fusedPolicy.toNat]
  | 5 => some [leNat (shake256 s.dvsecBytes)]
  | 6 => some [0x801B1D008]
  | _ => none

/-- What Keel derives the device identity key pair from (R368). -/
def deviceKey : ByteList := shake256 Config.fusedSeed

/-- Secured sessions provide the keys of an IDE stream (R369): the latest pair counts. -/
def Keel.keyStream (k : Keel) (stream session : Nat) : Keel :=
  { k with streamKeys := (k.streamKeys.filter fun p => p.1 != stream) ++ [(stream, session)] }

/-- SPDM_REQUEST (R369, R457): the negotiation answers the signature algorithm Falcon-1024 and the hash SHAKE256; slot 0 holds the chain of the derived device identity. -/
def execSpdmRequest (r : SpdmReq) (s : State) : Host.Outcome State Fault Refusal :=
  if !s.keel.booted then .next s
  else if s.keel.halted then .next (s.answer 0 [])
  else match r with
  | .measurement idx => .next (match s.measurement idx with
    | some l => s.answer 2 (idx :: l)
    | none => s.answer 0 [])
  | .negotiate => .next (s.answer 7 [1024, 256])
  | .streamKeys session stream =>
    .next (if s.keel.sessions.contains session then ({ s with keel := s.keel.keyStream stream session } : State).answer 1 [stream] else s.answer 0 [])
  | .certificate slot => .next (if slot = 0 && s.keel.identity then s.answer 3 [Config.certificate deviceKey] else s.answer 0 [])
  | .openSession id => .next (({ s with keel := { s.keel with sessions := if s.keel.sessions.contains id then s.keel.sessions else s.keel.sessions ++ [id] } } : State).answer 4 [id])

/-! ## Configuration writes (R366, R375, R452, R459) -/

/-- A write of a frozen item of the physical function (R459); one that changes nothing is none. -/
def State.writePfItem (s : State) (item : Nat) (changes : Bool) (f : State → State) : State :=
  if changes && s.anyFrozen then s.tdiErrorAll 1 (Config.configOffset item) else f s

/-- A write of an item of a virtual function. -/
def State.writeVfItem (s : State) (v item : Nat) (changes : Bool) (f : Vf → Vf) : State :=
  if !isVf v then s
  else if changes && s.frozenVf v then s.tdiError v 1 (Config.configOffset item) else s.setVf v (f (s.vf v))

/-- CONFIGURATION_WRITE (R366, R375, R447, R452, R459). -/
def execConfigurationWrite (item : ConfigItem) (v : Word64) (s : State) : Host.Outcome State Fault Refusal :=
  match item with
  | .modid => .next ({ s with modid := (v.truncate 32) &&& 0x87FF } : State).flushUnsent
  | .tsync => .next (s.opTsync v)
  | .rtmo => .next { s with rtmo := BitVec.ofNat 32 (max 1 (bitsOf v 15 0)) }
  | .pctl n => .next (if n < 36 then s.opPctl n v else s)
  | .pcnt n second => .next (if n < 36 ∧ v = BitVec.allOnes 64 then s.clearCounters n second else s)
  | .numVfs => .next (s.writePfItem 0 (s.numVfs != min 63 (bitsOf v 15 0)) fun t => { t with numVfs := min 63 (bitsOf v 15 0) })
  | .vfEnable => .next (s.writePfItem 1 (s.vfEnable != v.getLsbD 0) fun t => { t with vfEnable := v.getLsbD 0 })
  | .vfBar0 => .next (s.writePfItem 2 (s.vfBar0 != v) fun t => { t with vfBar0 := v })
  | .vfCommand n => .next (s.writeVfItem n (64 + n) (((s.vf n).command ^^^ v.truncate 16) &&& 6 != 0) fun x => { x with command := v.truncate 16 })
  | .vfMsixTable n w => .next (if w < 64 then s.writeVfItem n (192 + n) (tabGet 0 (s.vf n).msixTab w != v) fun x => { x with msixTab := tabPut x.msixTab w v } else s)
  | .vfMsix n => .next (s.writeVfItem n (128 + n) ((s.vf n).msix != v) fun x => { x with msix := v })
  | .other _ => .next s

end Sys2Proof.Machine
end

