-- ==== Sys2Proof/Machine/Errors.lean ====
section
/-! DEFINITION. Meanings of errors in on-die storage and in HBM lines, of freezes, and of host translations (R347, R416, R419 to R423, R426). -/
namespace Sys2Proof.Machine

/-! ## On-die storage (R419 to R422) -/

/-- The location word (R419). -/
def sramWord (arr word : Nat) : Word64 := BitVec.ofNat 64 (arr % 256 + word % 2 ^ 24 * 256)

/-- UNIT of the record of an array of a core (R397; log 35). -/
def arrayUnit (arr : Nat) : Nat := if arr = 4 then 12 else 0

/-- The record of an error at a core, in an MSE, or in a complex (R397). -/
def sramRecord (cause sev unit loc arr word : Nat) (origin : Option (Nat × Nat)) : ErrRec :=
  ⟨cause, sev, unit, loc, 0, false, origin, 0, sramWord arr word, 0, 0⟩

/-- SRAM_CORRECTED_ERROR (R420, R422): the record, and the freeze of the core or of the MSE's contexts. -/
def execSramCorrectedError (loc : SramLoc) (s : State) : Host.Outcome State Fault Refusal :=
  match loc with
  | .core n arr word =>
    .next ((s.errorRecord (sramRecord 0x701 0 (arrayUnit arr) n arr word none)).onCore n fun x => { x with frozen := true })
  | .mse n arr word =>
    let t := s.errorRecord (sramRecord 0x701 0 5 n arr word none)
    .next { t with frozenMse := if t.frozenMse.contains n then t.frozenMse else t.frozenMse ++ [n] }
  | .firmware word => .next (s.errorRecord (sramRecord 0x701 0 7 0 11 word none))

/-- Saves that were asked for inside a freeze are decided, where it has ended (R422). -/
def State.decideAsked (s : State) : State :=
  (s.parts.filter fun p => p.2.phase == .running && p.2.asked.isSome).foldl (fun t p => t.askedSave p.1) s

/-- FREEZE_END (R422, R428): the core is active as its freeze ends. -/
def execFreezeEnd (loc : FreezeLoc) (s : State) : Host.Outcome State Fault Refusal :=
  match loc with
  | .core n =>
    if (s.core n).frozen then .next (s.onCore n fun x => { x with frozen := false, active := true, fresh := true }).decideAsked else .next s
  | .mse n => .next ({ s with frozenMse := s.frozenMse.filter (· != n) } : State).decideAsked

/-- Marks a 64-bit word poisoned. -/
def State.poisonWord (s : State) (w : Nat) : State := if s.poisoned.contains w then s else { s with poisoned := s.poisoned ++ [w] }

/-- CTRLUE ends the part whose state is lost (R420); a save of it in progress fails (R433); with no part it is recorded. -/
def State.lostState (s : State) (part : Option Nat) (unit loc arr word : Nat) : State :=
  match part with
  | some p =>
    let y := s.part p
    if y.phase = .saving then s.saveFail p 3 0 0x703
    else s.recordEnd p (sramRecord 0x703 2 unit loc arr word (some (y.queue, y.key))) ⟨0x703, sramWord arr word, 0⟩
  | none => s.errorRecord (sramRecord 0x703 0 unit loc arr word none)

/-- The part that owns a word of an MSE's arrays: the program whose bytes it holds, or, from word 2,048 on, one of the eight contexts. -/
def State.mseOwner (s : State) (m word : Nat) : Option Nat :=
  if word ≥ 2048 then (s.ctx m ((word - 2048) % 8)).map (·.part)
  else (s.parts.find? fun p => p.2.progs.any fun g => g.mse == m && !p.2.cores.isEmpty && decide (g.base ≤ 8 * word + 7) && decide (8 * word < g.base + g.len)).map (·.1)

/-- SRAM_UNCORRECTABLE_ERROR (R420, R449). -/
def execSramUncorrectableError (loc : SramLoc) (s : State) : Host.Outcome State Fault Refusal :=
  match loc with
  | .core n arr word =>
    if arr = 1 then .next (s.poisonWord (poolKey n 0 / 8 + word % 2 ^ 18))
    else if arr = 2 then .next (s.poisonWord (wKey n 0 / 8 + word % 2 ^ 18))
    else if arr = 3 ∨ arr = 4 ∨ arr = 5 ∨ arr = 6 ∨ arr = 9 then .next (s.lostState (s.core n).part (arrayUnit arr) n arr word)
    else if arr = 7 then
      .next ((s.onCore n fun x => x.setTag word { x.tagAt word with st := .invalid, pins := 0 }).errorRecord (sramRecord 0x703 0 0 n arr word none))
    else if arr = 8 then
      let t := if word < 64 then s.onCore n fun x => { x with tlb := x.tlb.eraseIdx word }
        else { s with crewTlb := tabPut s.crewTlb (coreCrew n) ((tabGet [] s.crewTlb (coreCrew n)).eraseIdx (word - 64)) }
      .next (t.errorRecord (sramRecord 0x703 0 0 n arr word none))
    else .next s
  | .mse n arr word =>
    if arr = 8 then .next (({ s with mseTlb := tabPut s.mseTlb n ((tabGet [] s.mseTlb n).eraseIdx word) } : State).errorRecord (sramRecord 0x703 0 5 n arr word none))
    else if arr = 10 then .next (s.lostState (s.mseOwner n word) 5 n arr word)
    else .next s
  | .firmware _ => if s.fw.alive && s.keel.booted then .next (s.firmwareFails 2) else .next s

/-! ## HBM lines (R423, R426, R456) -/

/-- Changes what stands in the sideband of a line of HBM. -/
def State.onLine (s : State) (key : Nat) (f : LineMeta → LineMeta) : State := { s with lines := tabPut s.lines (key / 64) (f (s.lineAt key)) }

/-- Keel's integrity-tree alarm (R426, R456). -/
def State.treeAlarm (s : State) (dpa : Nat) : State :=
  if s.doeOpen then s.alarm 0xB03 (dpa / 64 * 64) (bitsOf Config.fusedPolicy 5 4) else s

/-- Whether a counter block or node covers the line that a sideband belongs to (R372). -/
def LineMeta.under (m : LineMeta) (node : Nat) : Bool := m.tag != 0 && treeNode (node % 16) (m.la * 64) == node

/-- An uncorrectable error in the counter cache of a die (R426): the entry is dropped; with modified counters, which are lost, every line under it fails its MAC from now on, and TREEFAIL is written once. -/
def State.dropCached (s : State) (dpa level : Nat) : State :=
  let d := dpa / 2 ^ 37
  let n := treeNode level dpa
  match (s.die d).ctrCache.find? fun q => q.1 == n with
  | none => s
  | some e =>
    let t := s.onDie d fun x => { x with ctrCache := x.ctrCache.filter fun q => q.1 != n }
    if e.2 then
      let u : State := { t with lines := t.lines.map fun p => (p.1, if p.2.under n then { p.2 with ctr := p.2.ctr + 1 } else p.2) }
      (u.errorRecord (memRecord d 0 0x70A (BitVec.ofNat 64 (dpa / 64 / 8 ^ (level + 1) * 8 ^ (level + 1) * 64)) (BitVec.ofNat 64 level))).treeAlarm dpa
    else t

/-- TIER0_LINE_READ (R423, R426, R456): what the checks of a line find. A consumer of the line meets its outcome; a MAC that does not verify belongs to another line (log 10); a block or node is verified only below the first one found in the counter cache. -/
def execTier0LineRead (dpa _key : Nat) (o : LineOutcome) (s : State) : Host.Outcome State Fault Refusal :=
  match (if dpa < 2 ^ 40 then s.hbmKey false dpa else none) with
  | none => .next s
  | some k =>
    match o with
    | .clean => .next s
    | .corrected => .next (s.errorRecord (memRecord (dpa / 2 ^ 37) (regionStack (k / 2 ^ 21 % 2 ^ 16)) 0x704 (BitVec.ofNat 64 (k / 64 * 64)) 0))
    | .uncorrectable => .next (s.onLine k fun m => { m with poison := true })
    | .macBad => .next (s.onLine k fun m => { m with tag := max 1 m.tag, la := dpa / 64 + 1 })
    | .treeBad level =>
      if (s.uncached dpa).contains level then
        .next (({ s with cacheBad := if s.cacheBad.contains (treeNode level dpa) then s.cacheBad else s.cacheBad ++ [treeNode level dpa] } : State).treeAlarm dpa)
      else .next s
    | .cacheError level => .next (s.dropCached dpa level)

/-! ## Host translations (R347, R416) -/

/-- Nobody waits for a page any more (R429). -/
def State.pageCame (s : State) (p : Nat) : State := { s with xlat := { s.xlat with waits := s.xlat.waits.filter fun q => q.1 != p } }

/-- A page is refused: the next access to it meets the refusal (R416). -/
def State.refusePage (s : State) (p : Nat) : State := { s with xlat := { s.xlat with refused := s.xlat.refused ++ [p] } }.pageCame p

/-- ATS_COMPLETION (R347, R416): the page is cached, or its PRI request is sent, or the access that waits is refused. -/
def execAtsCompletion (iova : Nat) (r : AtsResult) (s : State) : Host.Outcome State Fault Refusal :=
  let p := iova / 4096
  if !s.xlat.pending.contains p then .next s
  else
    let t : State := { s with xlat := { s.xlat with pending := s.xlat.pending.filter (· != p) } }
    match r with
    | .present => .next ((t.cachePage p).pageCame p)
    | .absent => .next (({ t with xlat := { t.xlat with paged := t.xlat.paged ++ [p] } } : State).send (.pri (p * 4096)))
    | .refused => .next (t.refusePage p)

/-- PRI_RESPONSE (R347, R416). -/
def execPriResponse (iova : Nat) (ok : Bool) (s : State) : Host.Outcome State Fault Refusal :=
  let p := iova / 4096
  if !s.xlat.paged.contains p then .next s
  else
    let t : State := { s with xlat := { s.xlat with paged := s.xlat.paged.filter (· != p) } }
    if ok then .next ((t.cachePage p).pageCame p) else .next (t.refusePage p)

/-- ATS_INVALIDATION_REQUEST (R347): the matching entries are dropped. -/
def execAtsInvalidationRequest (iova len : Nat) (s : State) : Host.Outcome State Fault Refusal :=
  .next { s with xlat := { s.xlat with
    cache := s.xlat.cache.filter fun p => !(decide (p * 4096 < iova + len) && decide (iova < (p + 1) * 4096))
    invals := s.xlat.invals ++ [(iova, len)] } }

/-- ATS_INVALIDATION_COMPLETE (R347): no access to host memory is outstanding. -/
def execAtsInvalidationComplete (s : State) : Host.Outcome State Fault Refusal :=
  match s.xlat.invals with
  | [] => .next s
  | _ :: r =>
    if s.requests.any fun q => q.tier == 2 then .next s
    else .next (({ s with xlat := { s.xlat with invals := r } } : State).send .atsInvalidated)

end Sys2Proof.Machine
end

