-- ==== Sys2Proof/Machine/Flits.lean ====
section
/-! DEFINITION. Flits that arrive at a port: their messages are delivered in sequence, acknowledged and replayed (R362, R363, R451). -/
namespace Sys2Proof.Machine

/-- Whether a message is the completion of a request; the others are taken only while the module's ports carry requests (R363). -/
def completesRequest : FlitMsg → Bool
  | .completion _ _ => true
  | _ => false

/-- One message of a flit; none while it cannot be taken (log 98). -/
def State.takeMsg (s : State) (m : FlitMsg) : Option State :=
  if !s.linked && !completesRequest m then none
  else match m with
  | .request r => some (if s.keel.booted then s.peerRequest r else s)
  | .completion req r => some (s.complete req r)
  | .collective group round rank key data => s.takeContribution group round rank key data
  | .abandon group round key cause => some (s.takeAbandon group round key cause)
  | .barrier part level team gen member => some (s.arriveAtBar part level team gen member)

/-- The messages of a flit, all of them or none. -/
def State.takeMsgs (s : State) : List FlitMsg → Option State
  | [] => some s
  | m :: r => (s.takeMsg m).bind fun t => t.takeMsgs r

/-- Delivers a flit in its sequence position, once, when it is addressed to this module (R362). -/
def State.takeFlit (s : State) (port seq dest : Nat) (msgs : List FlitMsg) : State :=
  if seq ≠ (s.nport port).rxSeq then s
  else match if dest = s.ownId then s.takeMsgs msgs else some s with
  | none => s
  | some t => t.setPort port { t.nport port with rxSeq := seq + 1 }

/-- FLIT_RECEIVE (R362, R366, R451; log 32): a flit whose CRC fails is asked for again; a good one is delivered, acknowledges others, or asks for a replay. -/
def execFlitReceive (port : Nat) (good : Bool) (flit : FlitIn) (s : State) : Host.Outcome State Fault Refusal :=
  if port ≥ 36 ∨ !(s.nport port).up then .next s
  else
    let t := s.countFec port flit.fec
    if !good then .next (t.badFlit port flit.seq)
    else match flit.what with
    | .data dest _ msgs => .next (t.takeFlit port flit.seq dest msgs)
    | .ack below => .next (t.ackFlits port below)
    | .replay from_ => .next (t.replayFlits port from_)

end Sys2Proof.Machine
end

