-- ==== Sys2Proof/Machine/Special.lean ====
section
/-! DEFINITION. The special functions of the vector engine (R288 to R290): the results that the spec fixes, and, elsewhere, a free value that keeps the bounds of R290 (log 8). -/
namespace Sys2Proof.Machine

/-- The functions of R288. -/
inductive SFn where
  | exp2 | log2 | rcp | rsq | sqrt | sig | tanh
  deriving DecidableEq, Repr

/-- The opcode of a function's word (R162). -/
def sfnCode (f : SFn) : Nat :=
  match f with
  | .exp2 => 0x1C
  | .log2 => 0x1D
  | .rcp => 0x1E
  | .rsq => 0x1F
  | .sqrt => 0x20
  | .sig => 0x21
  | .tanh => 0x22

/-- The latency L in positions (R288). -/
def sfnLat (f : SFn) : Nat :=
  match f with
  | .rcp => 5
  | .rsq => 5
  | .exp2 => 6
  | .log2 => 6
  | .sqrt => 6
  | .sig => 8
  | .tanh => 8

/-! ## The exact values, to more bits than any bound of R290 needs -/

/-- ln 2 and log2 e in units of 2^-160. -/
def ln2Fix : Nat := 0xb17217f7d1cf79abc9e3b39803f2f6af40f34326
def log2eFix : Nat := 0x171547652b82fe1777d0ffda0d23a7d11d6aef551

/-- A finite value in units of 2^-160. -/
def fixOf (s : Bool) (m : Nat) (e : Int) : Int :=
  let v : Int := if e + 160 ≥ 0 then (m * 2 ^ (e + 160).toNat : Nat) else (m / 2 ^ (-(e + 160)).toNat : Nat)
  if s then -v else v

/-- The rest of the exponential series from a term on. -/
def expSeries (t : Nat) : Nat → Nat → Nat → Nat
  | 0, _, _ => 0
  | n + 1, k, term => term + expSeries t n (k + 1) (term * t / 2 ^ 160 / (k + 1))

/-- 2 to the power of a number in units of 2^-160. -/
def exp2Fp (y : Int) : Fp :=
  .fin false (expSeries ((y % 2 ^ 160).toNat * ln2Fix / 2 ^ 160) 48 0 (2 ^ 160)) (y / 2 ^ 160 - 160)

/-- The odd series of the inverse hyperbolic tangent, z in units of 2^-160. -/
def atanhSeries (z2 : Nat) : Nat → Nat → Nat → Nat
  | 0, _, _ => 0
  | n + 1, k, pw => pw / (2 * k + 1) + atanhSeries z2 n (k + 1) (pw * z2 / 2 ^ 160)

/-- The base-2 logarithm of m × 2^e. -/
def log2Fp (m : Nat) (e : Int) : Fp :=
  let k := Nat.log2 m
  let z := (m - 2 ^ k) * 2 ^ 160 / (m + 2 ^ k)
  let v : Int := (e + k) * 2 ^ 160 + ((2 * atanhSeries (z * z / 2 ^ 160) 64 0 z * 2 ^ 160 / ln2Fix : Nat) : Int)
  .fin (decide (v < 0)) v.natAbs (-160)

/-- e to the power of the negated magnitude of a value. -/
def expNeg (m : Nat) (e : Int) : Fp := exp2Fp (-(((fixOf false m e).toNat * log2eFix / 2 ^ 160 : Nat) : Int))

def fpOne : Fp := .fin false 1 0
def fpTwo (e : Int) : Fp := .fin false 1 e

/-- The function's exact value at a finite nonzero operand. -/
def sfnExact (f : SFn) (s : Bool) (m : Nat) (e : Int) : Fp :=
  let x : Fp := .fin s m e
  match f with
  | .exp2 => exp2Fp (fixOf s m e)
  | .log2 => log2Fp m e
  | .rcp => fpDiv fpOne x
  | .rsq => fpSqrt (fpDiv fpOne x)
  | .sqrt => fpSqrt x
  | .sig =>
    let p := expNeg m e
    fpDiv (if s then p else fpOne) (fpAdd fpOne p)
  | .tanh =>
    let p := expNeg m (e + 1)
    let r := fpDiv (fpAdd fpOne (fpNeg p)) (fpAdd fpOne p)
    if s then fpNeg r else r

/-! ## Bounds (R290) -/

/-- Whether a value is below another. -/
def fpBelow (x y : Fp) : Bool := fpLt x y

/-- n units of the FP32 spacing at a value. -/
def ulps (n : Nat) : Fp → Fp
  | .fin _ m e => .fin false n (max ((Nat.log2 m : Int) + e) (-126) - 23)
  | x => x

/-- The maximum error of R290. -/
def sfnBound (f : SFn) (x v : Fp) : Fp :=
  match f with
  | .log2 => if !fpBelow x (.fin false 3 (-2)) && fpBelow x (.fin false 3 (-1)) then fpTwo (-22) else ulps 1 v
  | .sig => if fpBelow x (fpTwo 4) then ulps 2 v else ulps 1 v
  | .tanh => if fpBelow (fpAbs x) (fpTwo (-4)) then ulps 1 v else ulps 2 v
  | _ => ulps 1 v

/-- Whether the mantissa is a power of two; and whether the value is an even power of two. -/
def powerOfTwo (m : Nat) : Bool := 2 ^ Nat.log2 m == m
def evenPower (m : Nat) (e : Int) : Bool := powerOfTwo m && decide (((Nat.log2 m : Int) + e) % 2 = 0)
/-- Whether a value is an integer. -/
def fpIsInt (m : Nat) (e : Int) : Bool := decide (e ≥ 0) || m % 2 ^ (-e).toNat == 0

/-- Whether R290 gives the exact value, rounded once. -/
def sfnIsExact (f : SFn) (m : Nat) (e : Int) (x : Fp) : Bool :=
  match f with
  | .exp2 => fpIsInt m e && !fpBelow x (.fin true 126 0)
  | .log2 => powerOfTwo m
  | .rcp => powerOfTwo m && fpLe (fpAbs x) (fpTwo 126)
  | .rsq => evenPower m e
  | .sqrt => evenPower m e
  | .sig => false
  | .tanh => false

def f32Inf : Nat := 0x7F800000
def f32One : Nat := 0x3F800000
def f32Neg (b : Nat) : Nat := b + 2 ^ 31

/-- The result at an infinity (R289). -/
def sfnInf (f : SFn) (neg : Bool) : Nat :=
  match f with
  | .exp2 => if neg then 0 else f32Inf
  | .log2 => if neg then fmtF32.nanBits else f32Inf
  | .rcp => if neg then f32Neg 0 else 0
  | .rsq => if neg then fmtF32.nanBits else 0
  | .sqrt => if neg then fmtF32.nanBits else f32Inf
  | .sig => if neg then 0 else f32One
  | .tanh => if neg then f32Neg f32One else f32One

/-- The result at a zero (R289). -/
def sfnZero (f : SFn) (neg : Bool) : Nat :=
  match f with
  | .exp2 => f32One
  | .log2 => f32Neg f32Inf
  | .rcp => if neg then f32Neg f32Inf else f32Inf
  | .rsq => if neg then f32Neg f32Inf else f32Inf
  | .sqrt => if neg then f32Neg 0 else 0
  | .sig => 0x3F000000
  | .tanh => if neg then f32Neg 0 else 0

/-- Results that R289 and R290 fix for a range of finite nonzero operands. -/
def sfnRange (f : SFn) (b : Nat) (s : Bool) (x : Fp) : Option Nat :=
  match f with
  | .exp2 => if fpLe x (.fin true 150 0) then some 0 else if fpBelow x (fpTwo 7) then none else some f32Inf
  | .log2 => if s then some fmtF32.nanBits else none
  | .rcp => if fpLe (fpAbs x) (fpTwo (-128)) then some (if s then f32Neg f32Inf else f32Inf) else none
  | .rsq => if s then some fmtF32.nanBits else none
  | .sqrt => if s then some fmtF32.nanBits else none
  | .sig => if fpBelow x (.fin true 104 0) then some 0 else if fpBelow x (.fin false 35 (-1)) then none else some f32One
  | .tanh =>
    if fpBelow (fpAbs x) (fpTwo (-12)) then some b
    else if fpBelow (fpAbs x) (.fin false 19 (-1)) then none
    else some (if s then f32Neg f32One else f32One)

/-- A free result where it keeps the bound of R290, else the exact value rounded once. -/
def sfnBounded (f : SFn) (x v : Fp) (free : Nat) : Nat :=
  let c := fpVal fmtF32 free
  if fpLe (fpAbs (fpAdd c (fpNeg v))) (sfnBound f x v) then free else ieeeF32 v

/-- The free value of a function at an operand; that of the hyperbolic tangent is odd (R290). -/
def sfnFree (f : SFn) (b : Nat) : Nat :=
  let g := fun x => (Config.special (sfnCode f) (BitVec.ofNat 32 x)).toNat
  if f = .tanh then (if b ≥ 2 ^ 31 then g (b - 2 ^ 31) ^^^ 2 ^ 31 else g b) else g b

/-- A special function of an FP32 encoding. -/
def special (f : SFn) (b : Nat) : Nat :=
  match fpVal fmtF32 b with
  | .nan => fmtF32.nanBits
  | .inf s => sfnInf f s
  | .fin s m e =>
    if m = 0 then sfnZero f s
    else match sfnRange f b s (.fin s m e) with
    | some r => r
    | none =>
      let v := sfnExact f s m e
      if sfnIsExact f m e (.fin s m e) then ieeeF32 v else sfnBounded f (.fin s m e) v (sfnFree f b)

end Sys2Proof.Machine
end

