-- ==== Sys2Proof/Machine/Vector.lean ====
section
/-! DEFINITION. The vector engine: how a kernel starts, issues its words and ends, and every vector kernel word but those that reach memory, which are in VectorMemory.lean (R36, R37, R255, R270 to R298, R404, R405). -/
namespace Sys2Proof.Machine

/-! ## Lanes (R271) -/

/-- The lane width of a type in bytes, and its format. -/
def vWidth (t : VTy) : Nat :=
  match t with
  | .f32 => 4
  | .bf16 => 2
  | .i32 => 4
  | .i16 => 2
def vFmt (t : VTy) : Option FFmt :=
  match t with
  | .f32 => some fmtF32
  | .bf16 => some fmtBf16
  | .i32 => none
  | .i16 => none
def ofITy (t : ITy) : VTy :=
  match t with
  | .i32 => .i32
  | .i16 => .i16
def ofFTy (t : FTy) : VTy :=
  match t with
  | .f32 => .f32
  | .bf16 => .bf16

/-- The lanes of a register's bytes. -/
def rowLanes (w : Nat) (b : ByteList) : List Nat := (chunks w (512 / w) b).map leNat

/-- What a word gives to a register or latch: lane by lane from lane 0 on, none where it writes nothing (R271, R274). -/
abbrev Lanes := List (Option Nat)

/-- The lanes a mask enables. -/
def maskLanes (m : Mask) (l : List Nat) : Lanes := l.mapIdx fun i v => if m.getLsbD i then some v else none

/-- A register's bytes with the lanes a word gives. -/
def mergeRow (old : ByteList) (w : Nat) (l : Lanes) : ByteList :=
  (l.mapIdx fun i v => match v with
    | some x => leBytes w x
    | none => slice old (w * i) w).flatten ++ old.drop (w * l.length)

/-! ## Registers, latches, masks (R161, R271, R272, R274) -/

/-- The local offset of register n (R272). -/
def Core.vregOff (x : Core) (vbase n : Nat) : Nat := x.acBase + 512 * (vbase + n)

/-- A mask; m0 reads as all ones (R161). -/
def Kernel.mask (k : Kernel) (m : Nat) : Mask := if m = 0 then BitVec.allOnes 256 else k.masks[m]?.getD 0
/-- Writes a mask; writes to m0 are discarded (R281, R295). -/
def Kernel.setMask (k : Kernel) (m : Nat) (v : Mask) : Kernel := if m = 0 then k else { k with masks := k.masks.setIfInBounds m v }

def Kernel.latch (k : Kernel) (i : Nat) : Latch := k.latches[i]?.getD ⟨none, false⟩
def Kernel.setLatch (k : Kernel) (i : Nat) (l : Latch) : Kernel := { k with latches := k.latches.setIfInBounds i l }
def Kernel.param (k : Kernel) (n : Nat) : Nat := (k.kpar[n]?.getD 0).toNat

/-- The bytes of register n; a poisoned word traps (R423, log 36). -/
def State.readVreg (s : State) (c : Nat) (k : Kernel) (n : Nat) : Acc ByteList :=
  match s.readLocalChecked c ((s.core c).vregOff k.vbase n) 512 with
  | .ok b => .ok b
  | .error x => .bad x

/-- What a latch reads as: a free value before any word has written it (R274, log 9). -/
def State.latchBytes (s : State) (k : Kernel) (i : Nat) : ByteList :=
  leBytes 512 ((k.latch i).val.getD (Config.latchFree s.steps i)).toNat

/-- read_sel: the 512 bytes of a source (R161, R271). -/
def State.readSel (s : State) (c : Nat) (k : Kernel) (w sel : Nat) : Acc ByteList :=
  if sel < 64 then s.readVreg c k sel
  else if sel < 68 then .ok (s.latchBytes k (sel - 64))
  else .ok ((List.replicate (512 / w) (leBytes w (k.param (sel - 68)))).flatten)

/-- The selector of what a word writes and reads as D: register D, or latch D[1:0] under W = 1 (R274). -/
def destSel (w : Bool) (d : Nat) : Nat := if w then 64 + d % 4 else d

/-- write_v: lands a result in a register or a latch, which it arms (R274, R275). -/
def State.putV (s : State) (c : Nat) (k : Kernel) (dst w : Nat) (l : Lanes) : State × Kernel :=
  if dst < 64 then
    let key := poolKey c ((s.core c).vregOff k.vbase dst)
    (({ s with mem := memSetList s.mem key (mergeRow (memList s.mem key 512) w l) }).cleanWords
      ((List.range 512).filter (fun b => ((l[b / w]?).getD none).isSome) |>.map (key + ·)), k)
  else
    (s, k.setLatch (dst - 64) ⟨some (BitVec.ofNat 4096 (leNat (mergeRow (s.latchBytes k (dst - 64)) w l))), true⟩)

/-! ## Special-function results (R273, R275, R288) -/

/-- The lanes of a special function of a source (R288): a BF16 lane is widened, computed, and rounded to BF16. -/
def specialLanes (f : SFn) (t : FTy) (m : Mask) (b : ByteList) : Lanes :=
  match t with
  | .f32 => maskLanes m ((rowLanes 4 b).map (special f))
  | .bf16 => maskLanes m ((rowLanes 2 b).map fun v =>
      roundIeee fmtBf16 0 0 (fpVal fmtF32 (special f (ieeeF32 (fpVal fmtBf16 v)))))

/-- The function, destination, operand selector, mask number and type of a special-function word. -/
def specialWord (i : Instr) : Option (SFn × Bool × Nat × FTy) :=
  match i with
  | .vexp2 w d _ _ t => some (.exp2, w, d, t)
  | .vlog2 w d _ _ t => some (.log2, w, d, t)
  | .vrcp w d _ _ t => some (.rcp, w, d, t)
  | .vrsq w d _ _ t => some (.rsq, w, d, t)
  | .vsqrt w d _ _ t => some (.sqrt, w, d, t)
  | .vsig w d _ _ t => some (.sig, w, d, t)
  | .vtanh w d _ _ t => some (.tanh, w, d, t)
  | _ => none

/-- The word that a replay entry records. -/
def VReplay.word1 (r : VReplay) : Option (SFn × Bool × Nat × FTy) := (decodeVector r.word.toNat).bind specialWord

/-- Lands one result. -/
def State.landOne (c : Nat) (p : State × Kernel) (r : VReplay) : State × Kernel :=
  match r.word1 with
  | some (f, w, d, t) => p.1.putV c p.2 (destSel w d) (vWidth (ofFTy t)) (specialLanes f t r.mask (leBytes 512 r.opA.toNat))
  | none => p

/-- Lands the results that meet a test, those due first before the others, and of two due together the earlier word's first (R273). -/
def State.landSome (c : Nat) (p : State × Kernel) (f : VReplay → Bool) : State × Kernel :=
  ((p.2.rq.filter f).mergeSort fun a b => decide (a.duePos ≤ b.duePos)).foldl (State.landOne c)
    (p.1, { p.2 with rq := p.2.rq.filter fun r => !f r })

/-- The first local offset of the register that an entry will write, none for a latch. -/
def VReplay.off (r : VReplay) (x : Core) (vbase : Nat) : Option Nat :=
  match r.word1 with
  | some (_, false, d, _) => some (x.vregOff vbase d)
  | _ => none

/-! ## Issue (R270, R273 to R275) -/

/-- Takes the arms off the latches that a word reads (R275). -/
def Kernel.disarm (k : Kernel) (reads : List Nat) : Kernel :=
  reads.foldl (fun q r => if 64 ≤ r ∧ r < 68 then q.setLatch (r - 64) { q.latch (r - 64) with armed := false } else q) k

/-- Issues the word of the kernel whose turn it is: results due at its position land, the word computes, its own result lands where the next word reads it, after results due with it (R270, R273). reads are the selectors it reads, dst what it writes. A word that waits or traps leaves nothing (R275). f sees the kernel with its next word's address and answers no kernel when the kernel has ended. -/
def State.vecRun (s : State) (reads : List Nat) (dst : Nat)
    (f : Nat → Kernel → State → Acc (State × Option Kernel × Option (Nat × Lanes))) : Host.Outcome State Fault Refusal :=
  match s.turn with
  | .kernel c =>
    match (s.core c).kernel with
    | some k0 =>
      let p := State.landSome c (s, k0) fun r => decide (r.duePos ≤ k0.posn)
      match f c { p.2 with next := k0.next + 4 } p.1 with
      | .bad x => .next (s.kernelFault c x)
      | .part _ x => .next (s.kernelFault c x)
      | .wait h => .next (s.wait h)
      | .ok (u, none, _) => .next ((u.onCore c fun x => { x with kernel := none, active := true, fresh := true }).spend (.task c k0.entry))
      | .ok (u, some k, out) =>
        let q := match out with
          | none => (u, k.disarm reads)
          | some (w, l) =>
            let r := State.landSome c (u, k.disarm reads) fun r =>
              r.duePos == k0.posn + 1 && (r.word1.map fun (y : SFn × Bool × Nat × FTy) => destSel y.2.1 y.2.2.1) == some dst
            r.1.putV c r.2 dst w l
        .next ((q.1.onCore c fun x => { x with kernel := some { q.2 with posn := k0.posn + 1 }, active := true, fresh := true }).spend (.task c k0.entry))
    | none => .fault .noUnit
  | _ => .fault .noUnit

/-- A word that gives its destination lanes computed from one source. -/
def State.vec1 (s : State) (wb : Bool) (d a m : Nat) (t : VTy) (f : Nat → Nat) : Host.Outcome State Fault Refusal :=
  s.vecRun [a] (destSel wb d) fun c k u =>
    (u.readSel c k (vWidth t) a).next fun ra =>
      .ok (u, some k, some (vWidth t, maskLanes (k.mask m) ((rowLanes (vWidth t) ra).map f)))

/-- The same from two sources. -/
def State.vec2 (s : State) (wb : Bool) (d a b m : Nat) (t : VTy) (f : Nat → Nat → Nat) : Host.Outcome State Fault Refusal :=
  s.vecRun [a, b] (destSel wb d) fun c k u =>
    (u.readSel c k (vWidth t) a).next fun ra => (u.readSel c k (vWidth t) b).next fun rb =>
      .ok (u, some k, some (vWidth t, maskLanes (k.mask m) (List.zipWith f (rowLanes (vWidth t) ra) (rowLanes (vWidth t) rb))))

/-! ## Element-wise arithmetic (R278 to R280) -/

/-- An operation of R278: exact and rounded once on floating-point lanes, wrapping on integer lanes. -/
def laneOp (t : VTy) (ff : Fp → Fp → Fp) (fi : Int → Int → Int) (a b : Nat) : Nat :=
  match vFmt t with
  | some g => roundIeee g 0 0 (ff (fpVal g a) (fpVal g b))
  | none => (fi a b % 2 ^ (8 * vWidth t)).toNat

/-- VNOP (R277): takes a position. -/
def execVnop (s : State) : Host.Outcome State Fault Refusal := s.vecRun [] 0 fun _ k u => .ok (u, some k, none)
/-- VADD (R278). -/
def execVadd (w : Bool) (d a b m : Nat) (t : VTy) (s : State) : Host.Outcome State Fault Refusal :=
  s.vec2 w d a b m t (laneOp t fpAdd (· + ·))
/-- VSUB (R278). -/
def execVsub (w : Bool) (d a b m : Nat) (t : VTy) (s : State) : Host.Outcome State Fault Refusal :=
  s.vec2 w d a b m t (laneOp t (fun x y => fpAdd x (fpNeg y)) (· - ·))
/-- VMUL (R278). -/
def execVmul (w : Bool) (d a b m : Nat) (t : VTy) (s : State) : Host.Outcome State Fault Refusal :=
  s.vec2 w d a b m t (laneOp t fpMul (· * ·))

/-- One lane of VFMA: one rounding (R278). -/
def laneFma (t : VTy) (a b d : Nat) : Nat :=
  match vFmt t with
  | some g => roundIeee g 0 0 (fpAdd (fpMul (fpVal g a) (fpVal g b)) (fpVal g d))
  | none => (a * b + d) % 2 ^ (8 * vWidth t)
/-- VFMA (R274, R278): D is read as well, as the latch under W = 1. -/
def execVfma (w : Bool) (d a b m : Nat) (t : VTy) (s : State) : Host.Outcome State Fault Refusal :=
  s.vecRun [a, b, destSel w d] (destSel w d) fun c k u =>
    (u.readSel c k (vWidth t) a).next fun ra => (u.readSel c k (vWidth t) b).next fun rb =>
      (u.readSel c k (vWidth t) (destSel w d)).next fun rd =>
        .ok (u, some k, some (vWidth t, maskLanes (k.mask m)
          (List.zipWith (fun p z => laneFma t p.1 p.2 z) ((rowLanes (vWidth t) ra).zip (rowLanes (vWidth t) rb)) (rowLanes (vWidth t) rd))))

/-- Minimum or maximum of two lanes (R279). -/
def laneMinMax (t : VTy) (wantMax : Bool) (a b : Nat) : Nat :=
  match vFmt t with
  | some g => fpMinMax g wantMax a b
  | none => if decide (sextInt a (8 * vWidth t) < sextInt b (8 * vWidth t)) = wantMax then b else a
/-- VMIN (R279). -/
def execVmin (w : Bool) (d a b m : Nat) (t : VTy) (s : State) : Host.Outcome State Fault Refusal := s.vec2 w d a b m t (laneMinMax t false)
/-- VMAX (R279). -/
def execVmax (w : Bool) (d a b m : Nat) (t : VTy) (s : State) : Host.Outcome State Fault Refusal := s.vec2 w d a b m t (laneMinMax t true)

/-- Magnitude of a lane (R279). -/
def laneAbs (t : VTy) (a : Nat) : Nat :=
  match vFmt t with
  | some g => if (fpVal g a).isNan then g.nanBits else a % g.signBit
  | none => (sextInt a (8 * vWidth t)).natAbs
/-- Negation of a lane (R279). -/
def laneNeg (t : VTy) (a : Nat) : Nat :=
  match vFmt t with
  | some g => if (fpVal g a).isNan then g.nanBits else a ^^^ g.signBit
  | none => (-(a : Int) % 2 ^ (8 * vWidth t)).toNat
/-- VABS (R279). -/
def execVabs (w : Bool) (d a m : Nat) (t : VTy) (s : State) : Host.Outcome State Fault Refusal := s.vec1 w d a m t (laneAbs t)
/-- VNEG (R279). -/
def execVneg (w : Bool) (d a m : Nat) (t : VTy) (s : State) : Host.Outcome State Fault Refusal := s.vec1 w d a m t (laneNeg t)

/-- VAND (R280). -/
def execVand (w : Bool) (d a b m : Nat) (t : VTy) (s : State) : Host.Outcome State Fault Refusal := s.vec2 w d a b m t fun x y => x &&& y
/-- VOR (R280). -/
def execVor (w : Bool) (d a b m : Nat) (t : VTy) (s : State) : Host.Outcome State Fault Refusal := s.vec2 w d a b m t fun x y => x ||| y
/-- VXOR (R280). -/
def execVxor (w : Bool) (d a b m : Nat) (t : VTy) (s : State) : Host.Outcome State Fault Refusal := s.vec2 w d a b m t fun x y => x ^^^ y

/-- The amount of a lane shift (R280). -/
def laneAmount (t : ITy) (b : Nat) : Nat := b % (8 * vWidth (ofITy t))
/-- VSHL (R280). -/
def execVshl (w : Bool) (d a b m : Nat) (t : ITy) (s : State) : Host.Outcome State Fault Refusal :=
  s.vec2 w d a b m (ofITy t) fun x y => x * 2 ^ laneAmount t y % 2 ^ (8 * vWidth (ofITy t))
/-- VSHR (R280). -/
def execVshr (w : Bool) (d a b m : Nat) (t : ITy) (s : State) : Host.Outcome State Fault Refusal :=
  s.vec2 w d a b m (ofITy t) fun x y => x / 2 ^ laneAmount t y
/-- VSRA (R280). -/
def execVsra (w : Bool) (d a b m : Nat) (t : ITy) (s : State) : Host.Outcome State Fault Refusal :=
  s.vec2 w d a b m (ofITy t) fun x y =>
    (sextInt x (8 * vWidth (ofITy t)) / 2 ^ laneAmount t y % 2 ^ (8 * vWidth (ofITy t))).toNat

/-! ## Compare, select and move (R281 to R283) -/

/-- The conditions of VCMP (R281). -/
def laneCmp (cc : VCond) (t : VTy) (a b : Nat) : Bool :=
  match vFmt t with
  | some g =>
    let x := fpVal g a
    let y := fpVal g b
    match cc with
    | .eq => fpEq x y
    | .ne => !fpEq x y
    | .lt => fpLt x y
    | .le => fpLe x y
    | .gt => fpLt y x
    | .ge => fpLe y x
    | .un => x.isNan || y.isNan
    | .ltu => decide (a < b)
  | none =>
    let x := sextInt a (8 * vWidth t)
    let y := sextInt b (8 * vWidth t)
    match cc with
    | .eq => decide (x = y)
    | .ne => decide (x ≠ y)
    | .lt => decide (x < y)
    | .le => decide (x ≤ y)
    | .gt => decide (y < x)
    | .ge => decide (y ≤ x)
    | .un => false
    | .ltu => decide (a < b)

/-- A number from its bits, lowest first. -/
def bitsNat : List Bool → Nat
  | [] => 0
  | b :: r => (if b then 1 else 0) + 2 * bitsNat r

/-- VCMP (R281): the bits of enabled lanes are written, every other bit stays. -/
def execVcmp (cc : VCond) (d a b m : Nat) (t : VTy) (s : State) : Host.Outcome State Fault Refusal :=
  s.vecRun [a, b] 0 fun c k u =>
    (u.readSel c k (vWidth t) a).next fun ra => (u.readSel c k (vWidth t) b).next fun rb =>
      let r := BitVec.ofNat 256 (bitsNat (List.zipWith (laneCmp cc t) (rowLanes (vWidth t) ra) (rowLanes (vWidth t) rb)))
      let en := k.mask m &&& BitVec.ofNat 256 (2 ^ (512 / vWidth t) - 1)
      .ok (u, some (k.setMask d ((k.mask d &&& ~~~en) ||| (r &&& en))), none)

/-- VSEL (R282): every lane is written. -/
def execVsel (w : Bool) (d a b m : Nat) (t : VTy) (s : State) : Host.Outcome State Fault Refusal :=
  s.vecRun [a, b] (destSel w d) fun c k u =>
    (u.readSel c k (vWidth t) a).next fun ra => (u.readSel c k (vWidth t) b).next fun rb =>
      .ok (u, some k, some (vWidth t, ((rowLanes (vWidth t) ra).zip (rowLanes (vWidth t) rb)).mapIdx fun i p =>
        some (if (k.mask m).getLsbD i then p.1 else p.2)))

/-- VMOV (R282). -/
def execVmov (w : Bool) (d a m : Nat) (t : VTy) (s : State) : Host.Outcome State Fault Refusal := s.vec1 w d a m t id

/-- VBCST (R282): lane j of A to every enabled lane, j being lane 0 of B modulo the lane count. -/
def execVbcst (w : Bool) (d a b m : Nat) (t : VTy) (s : State) : Host.Outcome State Fault Refusal :=
  s.vecRun [a, b] (destSel w d) fun c k u =>
    (u.readSel c k (vWidth t) a).next fun ra => (u.readSel c k (vWidth t) b).next fun rb =>
      let n := 512 / vWidth t
      let v := (rowLanes (vWidth t) ra).getD (field rb 0 (vWidth t) % n) 0
      .ok (u, some k, some (vWidth t, maskLanes (k.mask m) (List.replicate n v)))

/-- VPRM (R283). -/
def execVprm (w : Bool) (d a b m : Nat) (t : VTy) (s : State) : Host.Outcome State Fault Refusal :=
  s.vecRun [a, b] (destSel w d) fun c k u =>
    (u.readSel c k (vWidth t) a).next fun ra => (u.readSel c k (vWidth t) b).next fun rb =>
      .ok (u, some k, some (vWidth t, maskLanes (k.mask m) ((rowLanes (vWidth t) rb).map ((rowLanes (vWidth t) ra).getD · 0))))

/-! ## Conversion and scale (R64, R284 to R286, R298) -/

/-- Advances SRSV and gives each lane's random word (R64, R285). -/
def State.drawV (s : State) (c : Nat) : (Nat → Nat) × State :=
  let x := srAdvance (s.core c).srsv.toNat
  (srLane x, s.onCore c fun y => { y with srsv := BitVec.ofNat 32 x })

/-- Flags that a kernel has accrued (R298, R404). -/
def Kernel.accrue (k : Kernel) (sat inf nanb badt : Bool) : Kernel :=
  { k with flags := k.flags.join ⟨sat, inf, false, nanb, badt, false, 0⟩ }

/-- What a widening kind, 0 to 7, decodes as element i of its source (R284). -/
def vcvtWide (kind : Nat) (b : ByteList) (i : Nat) : Nat :=
  let int := fun v w => (sextInt v w % 2 ^ 32).toNat
  match kind with
  | 0 => ieeeF32 (fpVal fmtBf16 (field b (2 * i) 2))
  | 1 => ieeeF32 (fpVal fmtF16 (field b (2 * i) 2))
  | 2 => ieeeF32 (fpVal fmtE4M3 (field b i 1))
  | 3 => ieeeF32 (fpVal fmtE5M2 (field b i 1))
  | 4 => int (field b i 1) 8
  | 5 => int (field b (i / 2) 1 / 16 ^ (i % 2)) 4
  | 6 => int (field b (i / 4) 1 / 4 ^ (i % 4)) 2
  | _ => int (field b (2 * i) 2) 16

/-- What a kind from 8 on encodes: the format, the bytes of its element, whether the source lanes are INT32 (R284). -/
def vcvtTo (kind : Nat) : Fmt × Nat × Bool :=
  match kind with
  | 8 => (.fl fmtBf16, 2, false)
  | 9 => (.fl fmtF16, 2, false)
  | 10 => (.fl fmtE4M3, 1, false)
  | 11 => (.fl fmtE5M2, 1, false)
  | 12 => (.int 8, 1, false)
  | 13 => (.int 32, 4, false)
  | 14 => (.fl fmtF32, 4, true)
  | _ => (.int 16, 2, true)

/-- Whether a kind keeps bytes of its destination, and so reads it (R284). -/
def vcvtNarrow (kind : Nat) : Bool := decide (8 ≤ kind) && kind != 13 && kind != 14

/-- VCVT (R284, R285). -/
def execVcvt (w : Bool) (d a kind mode m : Nat) (s : State) : Host.Outcome State Fault Refusal :=
  s.vecRun ([a] ++ if vcvtNarrow kind then [destSel w d] else []) (destSel w d) fun c k u =>
    (u.readSel c k 4 a).next fun ra =>
      (if vcvtNarrow kind then u.readSel c k 4 (destSel w d) else .ok []).next fun _ =>
        match u.drawV c with
        | (ws, u1) =>
          if kind < 8 then .ok (u1, some k, some (4, maskLanes (k.mask m) ((List.range 128).map (vcvtWide kind ra))))
          else
            let f := vcvtTo kind
            let el := (rowLanes 4 ra).mapIdx fun i v =>
              if (k.mask m).getLsbD i then some (encodeElem f.1 mode (ws i) (if f.2.2 then fpOfInt (sextInt v 32) else fpVal fmtF32 v)) else none
            .ok (u1, some (k.accrue (el.any fun e => (e.map (·.2.1)).getD false) (el.any fun e => (e.map (·.2.2)).getD false) false false),
              some (f.2.1, el.map fun e => e.map (·.1)))

/-- VSCL (R286): decodes four blocks, or encodes four with masked-off lanes as +0. -/
def execVscl (w : Bool) (d a mw : Nat) (enc : Bool) (mode m : Nat) (s : State) : Host.Outcome State Fault Refusal :=
  s.vecRun [a] (destSel w d) fun c k u =>
    (u.readSel c k 4 a).next fun ra =>
      if enc then
        match u.drawV c with
        | (ws, u1) =>
          let vs := (rowLanes 4 ra).mapIdx fun i v => if (k.mask m).getLsbD i then fpVal fmtF32 v else .fin false 0 0
          let r := (Fmt.bfp (mw + 2)).encodeAll mode ws vs
          .ok (u1, some (k.accrue r.2.1 r.2.2 false false), some (1, r.1.map fun b => some b.toNat))
      else
        let bl := (List.range 4).map fun q => slice ra (q * (1 + 4 * (mw + 2))) (1 + 4 * (mw + 2))
        let vs := bl.flatMap (bfpDecode (mw + 2))
        .ok (u,
          some (k.accrue false ((vs.mapIdx fun i v => (k.mask m).getLsbD i && fpOverflows fmtF32 0 0 v).any id) (bl.any fun b => field b 0 1 == 255) false),
          some (4, maskLanes (k.mask m) (vs.map ieeeF32)))

/-! ## Reductions (R70, R287) -/

/-- The tree of R70. -/
def treeSum (add : Nat → Nat → Nat) : Nat → List Nat → List Nat
  | 0, l => l
  | n + 1, l => treeSum add n (List.zipWith add (l.take (2 ^ n)) (l.drop (2 ^ n)))

/-- A reduction: what a lane that takes no part enters as, and the result over all lanes. -/
def State.vecReduce (s : State) (w : Bool) (d a m : Nat) (t : VTy) (out : Nat) (f : List Nat → Nat) : Host.Outcome State Fault Refusal :=
  s.vecRun [a] (destSel w d) fun c k u =>
    (u.readSel c k (vWidth t) a).next fun ra =>
      let l := (rowLanes (vWidth t) ra).mapIdx fun i v => if (k.mask m).getLsbD i then v else out
      .ok (u, some k, some (vWidth t, List.replicate (512 / vWidth t) (some (f l))))

/-- The encoding of an infinity or zero of a lane type, negative or not. -/
def laneInf (g : FFmt) (neg : Bool) : Nat := roundIeee g 0 0 (.inf neg)

/-- VREDS (R287). -/
def execVreds (w : Bool) (d a m : Nat) (t : VTy) (s : State) : Host.Outcome State Fault Refusal :=
  s.vecReduce w d a m t (match vFmt t with
    | some g => g.signBit
    | none => 0)
    fun l => (treeSum (laneOp t fpAdd (· + ·)) (if vWidth t = 4 then 7 else 8) l).headD 0
/-- VREDM (R287). -/
def execVredm (w : Bool) (d a m : Nat) (t : VTy) (s : State) : Host.Outcome State Fault Refusal :=
  s.vecReduce w d a m t (match vFmt t with
    | some g => laneInf g true
    | none => 2 ^ (8 * vWidth t - 1))
    fun l => l.foldl (laneMinMax t true) (l.headD 0)
/-- VREDN (R287). -/
def execVredn (w : Bool) (d a m : Nat) (t : VTy) (s : State) : Host.Outcome State Fault Refusal :=
  s.vecReduce w d a m t (match vFmt t with
    | some g => laneInf g false
    | none => 2 ^ (8 * vWidth t - 1) - 1)
    fun l => l.foldl (laneMinMax t false) (l.headD 0)

/-! ## Special functions (R273, R288) -/

/-- Queues a special function's result for its due position. -/
def State.vecSpecial (s : State) (f : SFn) (i : Instr) (a m : Nat) (t : FTy) : Host.Outcome State Fault Refusal :=
  s.vecRun [a] 0 fun c k u =>
    (u.readSel c k (vWidth (ofFTy t)) a).next fun ra =>
      .ok (u, some { k with rq := k.rq ++ [⟨BitVec.ofNat 32 ((encode i).getD 0 0), k.posn + sfnLat f, k.mask m, BitVec.ofNat 4096 (leNat ra)⟩] }, none)

/-- VEXP2 (R288). -/
def execVexp2 (w : Bool) (d a m : Nat) (t : FTy) (s : State) : Host.Outcome State Fault Refusal := s.vecSpecial .exp2 (.vexp2 w d a m t) a m t
/-- VLOG2 (R288). -/
def execVlog2 (w : Bool) (d a m : Nat) (t : FTy) (s : State) : Host.Outcome State Fault Refusal := s.vecSpecial .log2 (.vlog2 w d a m t) a m t
/-- VRCP (R288). -/
def execVrcp (w : Bool) (d a m : Nat) (t : FTy) (s : State) : Host.Outcome State Fault Refusal := s.vecSpecial .rcp (.vrcp w d a m t) a m t
/-- VRSQ (R288). -/
def execVrsq (w : Bool) (d a m : Nat) (t : FTy) (s : State) : Host.Outcome State Fault Refusal := s.vecSpecial .rsq (.vrsq w d a m t) a m t
/-- VSQRT (R288). -/
def execVsqrt (w : Bool) (d a m : Nat) (t : FTy) (s : State) : Host.Outcome State Fault Refusal := s.vecSpecial .sqrt (.vsqrt w d a m t) a m t
/-- VSIG (R288). -/
def execVsig (w : Bool) (d a m : Nat) (t : FTy) (s : State) : Host.Outcome State Fault Refusal := s.vecSpecial .sig (.vsig w d a m t) a m t
/-- VTANH (R288). -/
def execVtanh (w : Bool) (d a m : Nat) (t : FTy) (s : State) : Host.Outcome State Fault Refusal := s.vecSpecial .tanh (.vtanh w d a m t) a m t

/-! ## Ternary unpacking (R59, R294, R405) -/

/-- VUNP3 (R294): byte s + i / 5 of A gives lane i its digit; bytes beyond the register read as 121, and so do the codes that are no code, which set BADT. -/
def execVunp3 (w : Bool) (d a off m : Nat) (t : VTy) (s : State) : Host.Outcome State Fault Refusal :=
  s.vecRun [a] (destSel w d) fun c k u =>
    (u.readSel c k (vWidth t) a).next fun ra =>
      let byte := fun i => if off + i / 5 < 512 then field ra (off + i / 5) 1 else 121
      let enc := fun (v : Int) => match vFmt t with
        | some g => roundFp g 0 0 (fpOfInt v)
        | none => (v % 2 ^ (8 * vWidth t)).toNat
      let n := 512 / vWidth t
      .ok (u, some (k.accrue false false false ((List.range n).any fun i => (k.mask m).getLsbD i && !t3p5Ok (byte i))),
        some (vWidth t, maskLanes (k.mask m) ((List.range n).map fun i =>
          enc (t3p5Trit (if t3p5Ok (byte i) then byte i else 121) (i % 5)))))

/-! ## Masks (R295) -/

/-- MAND (R295). -/
def execMand (d a b : Nat) (s : State) : Host.Outcome State Fault Refusal :=
  s.vecRun [] 0 fun _ k u => .ok (u, some (k.setMask d (k.mask a &&& k.mask b)), none)
/-- MOR (R295). -/
def execMor (d a b : Nat) (s : State) : Host.Outcome State Fault Refusal :=
  s.vecRun [] 0 fun _ k u => .ok (u, some (k.setMask d (k.mask a ||| k.mask b)), none)
/-- MNOT (R295). -/
def execMnot (d a : Nat) (s : State) : Host.Outcome State Fault Refusal :=
  s.vecRun [] 0 fun _ k u => .ok (u, some (k.setMask d (~~~(k.mask a))), none)

/-! ## Loops and the end of a kernel (R296, R297, R412) -/

/-- The address after the VEND that matches, within n words from an address on; depth counts open loops. -/
def State.loopEnd (s : State) (w : Who) : Nat → Nat → Word64 → Except Cause (Option Word64)
  | 0, _, _ => .ok none
  | n + 1, depth, pc =>
    match s.fetchWord w pc with
    | .error x => .error x
    | .ok (v, _) =>
      match decodeVector v with
      | some (.vloop _) => State.loopEnd s w n (depth + 1) (pc + 4)
      | some .vend => if depth = 0 then .ok (some (pc + 4)) else State.loopEnd s w n (depth - 1) (pc + 4)
      | _ => State.loopEnd s w n depth (pc + 4)

/-- VLOOP (R296, R412): f's kernel holds the address of the body. -/
def execVloop (a : Nat) (s : State) : Host.Outcome State Fault Refusal :=
  s.vecRun [a] 0 fun c k u =>
    (u.readSel c k 4 a).next fun ra =>
      let n := field ra 0 4
      let bad : Cause := ⟨0x313, k.next - 4, 0⟩
      if n = 0 then
        (Acc.of (u.whoKernel c k) (u.loopEnd (u.whoKernel c k) 4096 0 k.next)).next fun e =>
          match e with
          | none => .bad bad
          | some pc => .ok (u, some { k with next := pc }, none)
      else if k.loops.length ≥ 4 then .bad bad
      else .ok (u, some { k with loops := (k.next, n) :: k.loops }, none)

/-- VEND (R296, R297): closes an iteration, or, once every access of the kernel has completed, lands what is not due yet and ends the kernel, whose task is then done. -/
def execVend (s : State) : Host.Outcome State Fault Refusal :=
  s.vecRun [] 0 fun c k u =>
    match k.loops with
    | (body, left) :: r =>
      if left > 1 then .ok (u, some { k with next := body, loops := (body, left - 1) :: r }, none)
      else .ok (u, some { k with loops := r }, none)
    | [] =>
      if u.asksOpen (.task c k.entry) then .wait .turn
      else
      let p := State.landSome c (u, k) fun _ => true
      .ok (p.1.onTask c k.entry fun t => { t with st := .done, flags := t.flags.join k.flags }, none, none)

/-- ILLEGAL_VECTOR_WORD (R162, R406): the kernel strand traps at the boundary before the word. -/
def execIllegalVectorWord (w : Word32) (s : State) : Host.Outcome State Fault Refusal :=
  s.vecRun [] 0 fun _ _ _ => .bad ⟨0x202, BitVec.ofNat 64 w.toNat, 0⟩

/-! ## Starting a kernel (R36, R37, R134, R255, R410) -/

/-- The first reserved field of a kernel block that breaks R410, and an ENTRY that is not 4-byte aligned. -/
def kernelBlockBad (b : ByteList) : Option Nat :=
  if field b 0 8 % 4 ≠ 0 then some 0
  else if field b 0x0A 6 ≠ 0 then some 0x0A
  else if field b 0x50 16 ≠ 0 then some 0x50
  else none

/-- The vector engine accepts a released VK task: it reads the kernel block (R255); a block that breaks R410 ends the task. -/
def State.acceptKernel (s : State) (c n : Nat) : State :=
  match tabFind (s.core c).window n with
  | none => s
  | some t =>
    if t.st ≠ .staged ∨ recOper t.bytes ≠ 0x20 ∨ (s.core c).staged.isSome ∨ !s.coreLive c then s
    else match s.readLocalChecked c (recPar t.bytes 20 0) 96 with
    | .error x => s.stopTask c n 0 x
    | .ok b =>
      match kernelBlockBad b with
      | some o => s.stopTask c n 0 ⟨0x401, BitVec.ofNat 64 (recPar t.bytes 20 0), BitVec.ofNat 64 o⟩
      | none =>
        s.onCore c fun x =>
          { x with staged := some (Kernel.start n (BitVec.ofNat 64 (field b 0 8)) t.vbase
              (Vector.ofFn fun i : Fin 16 => BitVec.ofNat 32 (field b (0x10 + 4 * i.val) 4))) }

/-- VK (R255). -/
def execVk (core entry : Nat) (s : State) : Host.Outcome State Fault Refusal := .next (s.acceptKernel core entry)

/-- VECTOR_KERNEL_START (R37): with no kernel running, the accepted one starts. -/
def execVectorKernelStart (core : Nat) (s : State) : Host.Outcome State Fault Refusal :=
  let s1 := match (s.core core).staged, (s.core core).window.find? fun p => p.2.st == .staged && recOper p.2.bytes == 0x20 with
    | none, some p => s.acceptKernel core p.1
    | _, _ => s
  let x := s1.core core
  match x.kernel, x.staged with
  | none, some k =>
    if !s1.coreLive core then .next s1
    else .next ((s1.onCore core fun y => { y with kernel := some k, staged := none, active := true, fresh := true }).onTask core k.entry fun t => { t with st := .running })
  | _, _ => .next s1

end Sys2Proof.Machine
end

