-- ==== Sys2Proof/Machine/Image.lean ====
section
/-! DEFINITION. The checkpoint image of a launch part: what it holds and how long it is (R233, R320, R325 to R334). -/
namespace Sys2Proof.Machine

def zeros (n : Nat) : ByteList := List.replicate n 0#8
/-- A set of numbers as a mask. -/
def maskOf (l : NatList) : Nat := l.foldl (fun m n => m ||| 2 ^ n) 0
/-- The numbers below n that a mask holds. -/
def ofMask (n m : Nat) : NatList := (List.range n).filter fun i => m.testBit i
def flag (b : Bool) (n : Nat) : Nat := if b then 2 ^ n else 0

/-! ## Sizes (R233, R326, R432) -/

/-- Tiles that an interval of local offsets touches. -/
def Core.tilesIn (x : Core) (lo hi : Nat) : NatList :=
  (List.range x.ac).filter fun t => decide (lo < x.acBase + 65536 * (t + 1)) && decide (x.acBase + 65536 * t < hi)

/-- Tiles that a core's record stores (R233): live ones, and those that a released task writes; the window of a kernel is a write region of its record (R256). -/
def Core.savedTiles (x : Core) : NatList :=
  let tasks := x.window.flatMap fun p =>
    if p.2.st == .admitted then []
    else (x.writeRegs p.2.bytes p.2.vbase).flatMap fun g =>
      if x.regSpace g.2 == 0 && !x.regEmpty g.2 then x.tilesIn (x.regSpan g.2).1 (x.regSpan g.2).2 else []
  (List.range x.ac).filter fun t => x.livem.getLsbD t || tasks.contains t

/-- Length of a core record (R326): nt tiles are stored. -/
def recordLen (ac nt : Nat) : Nat := 0x249000 + (32 - ac + nt) * 0x10000

/-- Offset of the first core record of n (R325). -/
def firstRecord (n : Nat) : Nat := (0x100 + 16 * n + 0xFFF) / 0x1000 * 0x1000

/-- Contexts of a part that an image holds, by logical core and stream number. -/
def State.savedCtxs (s : State) (p : Nat) : List Ctx :=
  ((s.ctxs.map (·.2)).filter fun t => t.part == p && !t.stopping).mergeSort fun a b =>
    decide ((s.core a.core).lcore * 8 + a.stream ≤ (s.core b.core).lcore * 8 + b.stream)

/-- Cores of a part by logical core number. -/
def State.coresInOrder (s : State) (p : Nat) : NatList :=
  (s.part p).cores.mergeSort fun a b => decide ((s.core a).lcore ≤ (s.core b).lcore)

/-- SIZE of the image of a part (R325, R432). -/
def State.imageSize (s : State) (p : Nat) : Nat :=
  let l := (s.part p).cores
  firstRecord l.length + (l.map fun c => recordLen (s.core c).ac (s.core c).savedTiles.length).sum + 1024 * (s.savedCtxs p).length

/-! ## Core header (R75, R327) -/

def RSpace.code : RSpace → Nat
  | .l => 0
  | .c => 1
  | .g => 2
  | .w => 3

/-- A tracking slot (R327): kind 0 is a range named by its handle. -/
def Core.trackBytes (x : Core) (n : Nat) : ByteList :=
  match tabFind x.track n with
  | none => zeros 32
  | some r =>
    leBytes 32 (1 + flag (r.handle == 0) 1 + r.space.code * 4 + r.handle * 16 + r.lo * 2 ^ 64 + r.hi * 2 ^ 128
      + (x.items.filter fun i => i.trk.getLsbD n).length * 2 ^ 192 + (x.items.filter fun i => i.res.getLsbD n).length * 2 ^ 224)

def Core.headerBytes (x : Core) : ByteList :=
  leBytes 4 x.lcore ++ leBytes 4 x.partw.toNat ++ leBytes 4 x.livem.toNat ++ leBytes 4 (maskOf x.savedTiles)
  ++ leBytes 8 x.srsv.toNat ++ leBytes 8 x.srsc.toNat ++ leBytes 8 x.sttcfg.toNat ++ leBytes 4 x.items.length
  ++ leBytes 1 (flag x.lval 0) ++ leBytes 1 x.lfmt ++ zeros 2 ++ leBytes 32 (maskOf x.reserved) ++ leBytes 4 x.ingress.length ++ zeros 172
  ++ ((List.range 256).flatMap fun n => leBytes 4 (x.spmAt n).word)
  ++ ((List.range 32).flatMap x.trackBytes) ++ zeros 0x700

/-! ## Strands (R328, R329) -/

/-- PUBR: kind 0 is a range named by its handle. -/
def pubBytes (x : Core) (t : Strand) (r : RangeRef) : ByteList :=
  match rangeOf x t r with
  | .error _ => zeros 24
  | .ok y =>
    leBytes 24 (y.space.code * 2 + (match r with
      | .handle h => h * 256
      | .regs n _ => 1 + n * 256) + y.lo * 2 ^ 64 + y.hi * 2 ^ 128)

/-- The level and generation that a strand holding in TBAR recorded. -/
def Hold.tbgen (h : Hold) : Nat :=
  match h.instr with
  | .tbar _ lvl => lvl + h.gen * 65536
  | _ => 0

/-- A strand record; now is the cycle of the save decision (R329). -/
def strandBytes (x : Core) (t : Strand) (now : Nat) : ByteList :=
  let u := (t.rebased now).retire now
  u.frame now ((u.hold.map Hold.tbgen).getD 0) ((u.hold.map fun h => match h.instr with
    | .pub _ r => pubBytes x u r
    | _ => []).getD []) ++ zeros 0x270

/-! ## The kernel (R330) -/

def TaskFlags.bits (f : TaskFlags) : Nat := flag f.sat 1 + flag f.inf 2 + flag f.merge 3 + flag f.nanb 4 + flag f.badt 5

def VReplay.bytes (posn : Nat) (r : VReplay) : ByteList :=
  leBytes 4 r.word.toNat ++ leBytes 1 (r.duePos + 1 - posn) ++ zeros 27 ++ leBytes 32 r.mask.toNat ++ leBytes 512 r.opA.toNat

/-- The vector kernel record; loop levels are listed from the outermost on. -/
def kernelBytes : Option Kernel → ByteList
  | none => zeros 0x1400
  | some k =>
    leBytes 8 k.next.toNat ++ leBytes 8 k.posn ++ leBytes 2 k.vbase ++ leBytes 1 k.loops.length
    ++ leBytes 1 (1 + flag k.flags.sat 1 + flag k.flags.inf 2 + flag k.flags.nanb 3 + flag k.flags.badt 4)
    ++ leBytes 4 k.rq.length ++ leBytes 8 k.entry
    ++ slice (k.loops.reverse.flatMap fun l => leBytes 8 l.1.toNat ++ leBytes 8 l.2) 0 64
    ++ (k.kpar.toList.flatMap fun w => leBytes 4 w.toNat)
    ++ (k.masks.toList.drop 1).flatMap (fun m => leBytes 32 m.toNat) ++ zeros 128
    ++ slice (k.rq.flatMap (VReplay.bytes k.posn)) 0 4608

/-! ## Counters, collectives, catch barriers (R326, R331) -/

/-- How many rounds of a level and tag a core has admitted more than the participant of this module that has admitted fewest (R267). -/
def State.roundsAhead (s : State) (c key : Nat) : Nat :=
  ((s.teamCores c (key / 256)).map fun d =>
    let n := (tabGet 0 (s.core c).rounds key + 65536 - tabGet 0 (s.core d).rounds key) % 65536
    if n ≤ 256 then n else 0).foldl max 0

/-- The rounds admitted (log 25): of level 0, which may span modules, modulo 512 by tag; of the other levels, whose participants are saved together, each round ahead by its level and tag. -/
def State.roundBytes (s : State) (c : Nat) : ByteList :=
  let l := (s.core c).rounds
  leBytes 288 ((List.range 256).foldl (fun v n => v + tabGet 0 l n % 512 * 2 ^ (9 * n)) 0)
  ++ slice ((l.filter fun p => decide (p.1 ≥ 256)).flatMap fun p => (List.replicate (s.roundsAhead c p.1) (leBytes 2 p.1)).flatten) 0 512

/-- The window entries of PSUM tasks that have begun, with their running sums. -/
def Core.psumSums (x : Core) : List (Nat × Word32) :=
  x.window.filterMap fun p => if recOper p.2.bytes = 0x47 ∧ p.2.prog ≠ 0 ∧ p.2.st ≠ .done then some (p.1, p.2.acc) else none

/-- The contributions that the image keeps: all of a core, or none where they have no room (log 25). -/
def Core.keptContribs (x : Core) : List Contrib := if x.contribsFit then x.contribs else []

/-- A contribution in the image: its window entry, its rank with a mark at the participant's own, its length, its bytes. -/
def Contrib.bytes (q : Contrib) (own : Bool) : ByteList := leBytes 1 q.entry ++ leBytes 3 (q.rank + flag own 23) ++ leBytes 1 q.data.length ++ q.data

/-- Whether a contribution is the participant's own. -/
def State.ownContrib (s : State) (c : Nat) (q : Contrib) : Bool :=
  ((tabFind (s.core c).window q.entry).map fun t => s.rankOf c (recPar t.bytes 2 0)) == some q.rank

/-- The collective exchange state in the model's own layout (log 25): the physical core, the numbers of sums and of contributions, the rounds, the sums of PSUM tasks, the contributions. -/
def State.exchangeBytes (s : State) (c : Nat) : ByteList :=
  let x := s.core c
  leBytes 4 c ++ leBytes 1 x.psumSums.length ++ leBytes 1 x.keptContribs.length ++ zeros 10 ++ s.roundBytes c
  ++ slice (x.psumSums.flatMap fun p => leBytes 1 p.1 ++ leBytes 4 p.2.toNat) 0 40
  ++ slice (x.keptContribs.flatMap fun q => q.bytes (s.ownContrib c q)) 0 168

def CatchSlot.bytes (y : CatchSlot) : ByteList :=
  leBytes 16 (y.expected + y.arrived * 2 ^ 24 + flag y.phase 48 + flag y.awaiting 49 + flag y.pending.isSome 50 + flag y.latched 51
    + (y.pending.getD 0) * 2 ^ 64)

/-- A catch-barrier block; cslot is the current slot of the context bound to it. -/
def CatchBar.bytes (b : CatchBar) (cslot : Nat) : ByteList :=
  leBytes 16 (b.slots.length + flag b.stream.isSome 8 + (b.stream.getD 0) * 2 ^ 9 + cslot * 2 ^ 12)
  ++ slice (b.slots.flatMap CatchSlot.bytes) 0 256

/-- The current slot of the context bound to a barrier of a core. -/
def State.boundSlot (s : State) (c n : Nat) : Nat := (((s.boundTo c).find? fun p => p.2.bar == n && !p.2.stopping).map (·.2.cslot)).getD 0

/-! ## Window, ingress, templates, channels, tags (R332, R333) -/

/-- ST of a window entry: a task whose work is done is recorded as released and stopped, at the end of its work. -/
def TaskRec.stCode (t : TaskRec) : Nat :=
  match t.st with
  | .admitted => if t.ready then 2 else 1
  | .staged => 3
  | _ => 4

/-- PROG (log 101): of a VK record, 1 tells that its kernel has ended; of a collective, the next box row of its result; of a task that stops after passes, the pass, with the units done in it in bits 8 up. -/
def TaskRec.progCode (t : TaskRec) (x : Core) : Nat :=
  let oper := recOper t.bytes
  let g := x.stopUnits t.bytes
  if oper = 0x20 then (if t.st = .done then 1 else 0)
  else if oper = 0x49 ∨ oper = 0x4A then t.prog - 1
  else if g = 1 then t.prog
  else t.prog / g + 256 * (t.prog % g)

/-- TRKM and RESM of a counted item. -/
def Core.itemMasks (x : Core) (k : ItemKind) : BitVec 32 × BitVec 32 :=
  match x.items.find? fun i => i.kind == k with
  | some i => (i.trk, i.res)
  | none => (0, 0)

def State.entryBytes (s : State) (c n : Nat) : ByteList :=
  let x := s.core c
  match tabFind x.window n with
  | none => zeros 128
  | some t =>
    let m := x.itemMasks (.task n)
    leBytes 1 t.stCode
    ++ leBytes 1 (flag t.wcOk 0 + flag t.csOk 1 + flag (t.pubPending || s.taskPubOpen c n) 2 + flag t.bound 3 + flag t.ren3 4 + flag t.ren4 5)
    ++ leBytes 2 (x.window.filter fun p => decide (p.2.age < t.age)).length ++ leBytes 4 (t.progCode x) ++ leBytes 4 m.1.toNat ++ leBytes 4 m.2.toNat
    ++ leBytes 32 (maskOf t.edges) ++ leBytes 32 (maskOf t.rdeps) ++ leBytes 2 t.vbase ++ zeros 6
    ++ leBytes 8 (t.flags.bits + t.flags.count % 2 ^ 32 * 2 ^ 32) ++ leBytes 32 (maskOf t.frames)

def Core.recordBytes (x : Core) (n : Nat) : ByteList := ((tabFind x.window n).map fun t => slice t.bytes 0 128).getD (zeros 128)

def ChanSrc.code : ChanSrc → Nat × Nat × Nat
  | .sta => (0, 0, 0)
  | .task n => (1, n, 0)
  | .fill n => (2, 0, n)

def Core.chanEntryBytes (x : Core) (e : ChanEntry) : ByteList :=
  let m := x.itemMasks (match e.src with
    | .task n => .task n
    | _ => .copy e.eid)
  slice e.tpl 0 64 ++ leBytes 4 e.row ++ leBytes 4 m.1.toNat ++ leBytes 4 m.2.toNat
  ++ leBytes 1 e.src.code.1 ++ leBytes 1 e.src.code.2.1 ++ leBytes 2 e.src.code.2.2 ++ zeros 48

/-- A tag; rank 0 is the least recently used. -/
def Core.tagBytes (x : Core) (n : Nat) : ByteList :=
  match tabFind x.tags n with
  | none => zeros 16
  | some t =>
    leBytes 16 (t.block + (match t.st with
      | .invalid => 0
      | .filling => 1
      | .valid => 2) * 2 ^ 64 + t.pins * 2 ^ 72 + (x.tags.filter fun p => decide (p.2.stamp < t.stamp)).length * 2 ^ 80)

/-- A byte table as bytes. -/
def tabBytes (t : Tab (BitVec 8)) (n : Nat) : ByteList := (List.range n).map (tabGet 0 t)

/-! ## The image (R325, R326, R334) -/

/-- Bytes 0 to 0x48FFF of a core record. -/
def State.fixedPart (s : State) (c now : Nat) : ByteList :=
  let x := s.core c
  x.headerBytes ++ (x.strands.toList.flatMap fun t => strandBytes x t now) ++ kernelBytes x.kernel ++ zeros 0xC00
  ++ ((List.range 512).flatMap fun n => leBytes 4 (x.dc n)) ++ s.exchangeBytes c ++ zeros 0x400
  ++ ((List.range 64).flatMap fun n => (x.bar n).bytes (s.boundSlot c n)) ++ zeros 0xC00
  ++ ((List.range 256).flatMap x.recordBytes) ++ ((List.range 256).flatMap (s.entryBytes c))
  ++ slice (x.ingress.flatMap fun r => slice r 0 128) 0 0x2000
  ++ ((List.range 2048).flatMap fun n => leBytes 8 (tabGet 0 x.templates n).toNat)
  ++ (x.chans.toList.flatMap fun l => leBytes 32 l.length) ++ zeros 0xF00
  ++ (x.chans.toList.flatMap fun l => slice (l.flatMap x.chanEntryBytes) 0 16384)
  ++ ((List.range 1024).flatMap x.tagBytes) ++ tabBytes x.lmant 8192 ++ tabBytes x.lexp 256 ++ zeros 0xF00

/-- The runs of the byte memory that follow the fixed part: A-file and frames, the stored tiles, the W-store slice. -/
def Core.memParts (x : Core) (c : Nat) (tiles : NatList) : List (Nat × Nat) :=
  [(poolKey c 0, x.acBase)] ++ (tiles.map fun t => (poolKey c (x.acBase + 65536 * t), 65536)) ++ [(wKey c 0, 2 ^ 21)]

def State.coreRecord (s : State) (c now : Nat) : ByteList :=
  let x := s.core c
  s.fixedPart c now ++ (x.memParts c x.savedTiles).flatMap fun p => memList s.mem p.1 p.2

/-- An access-context record (R334). -/
def State.ctxBytes (s : State) (t : Ctx) : ByteList :=
  leBytes 2 t.prog ++ leBytes 2 (s.core t.core).lcore ++ leBytes 1 t.stream ++ leBytes 1 t.bar ++ leBytes 1 (flag (t.held || t.waits) 0)
  ++ leBytes 1 t.cq.length ++ leBytes 2 t.apc ++ leBytes 2 t.cslot ++ leBytes 4 (t.issued % 2 ^ 24)
  ++ (t.regs.toList.flatMap fun w => leBytes 8 w.toNat)
  ++ (t.lc.toList.flatMap fun w => leBytes 2 w.toNat) ++ (t.hd.toList.flatMap fun w => leBytes 2 w.toNat)
  ++ slice (t.cq.flatMap fun w => leBytes 8 w.toNat) 0 128 ++ zeros 736

/-- Offsets of the core records. -/
def recordOffsets : Nat → NatList → NatList
  | _, [] => []
  | o, n :: r => o :: recordOffsets (o + n) r

/-- Header bytes 0 to 0x3F (R325). -/
def State.imageHeader (s : State) (p size adir : Nat) : ByteList :=
  let y := s.part p
  leBytes 4 0xD8C45A7E ++ leBytes 2 1 ++ leBytes 2 y.reason ++ leBytes 8 y.lrec ++ leBytes 8 size
  ++ leBytes 2 y.cores.length ++ leBytes 2 (s.savedCtxs p).length ++ leBytes 1 y.key ++ zeros 1 ++ leBytes 2 (if y.gang then y.gidx else 0)
  ++ leBytes 8 y.savedTick.toNat ++ leBytes 8 adir ++ leBytes 8 (if y.gang then y.gmap else 0) ++ zeros 8

/-- The whole image of a part (R325). -/
def State.imageBytes (s : State) (p : Nat) : ByteList :=
  let y := s.part p
  let cs := s.coresInOrder p
  let lens := cs.map fun c => recordLen (s.core c).ac (s.core c).savedTiles.length
  let first := firstRecord cs.length
  let adir := first + lens.sum
  let head := s.imageHeader p (s.imageSize p) adir
  let dir := (cs.zip (recordOffsets first lens)).flatMap fun q => leBytes 8 (s.core q.1).lcore ++ leBytes 8 q.2
  let body := slice dir 0 (first - 0x100) ++ (cs.flatMap fun c => s.coreRecord c y.savedCycle) ++ (s.savedCtxs p).flatMap s.ctxBytes
  head ++ shake256 (head ++ body) ++ zeros 128 ++ body

end Sys2Proof.Machine
end

