-- ==== Sys2Proof/Machine/Launch.lean ====
section
/-! DEFINITION. Launches: the launch record and its checks, placement, victims, set-up, start and completion (R27 to R49, R66, R74, R322, R323, R355, R356, R395, R396, R401, R402, R432, R468). -/
namespace Sys2Proof.Machine

/-! ## The launch record (R27, R29, R30, R33, R401) -/

/-- The lowest offset among the checks that fail. -/
def firstBad (l : List (Nat × Bool)) : Option Nat := ((l.filter (·.2)).map (·.1)).min?

/-- Whether n bytes from an offset on hold one that is not zero. -/
def anyByte (b : ByteList) (off n : Nat) : Bool := field b off n != 0

def recNlev (r : ByteList) : Nat := field r 6 1
def recGang (r : ByteList) : Bool := field r 7 1 % 2 == 1
def recLevels (r : ByteList) : List Level :=
  (List.range (min 8 (recNlev r))).map fun i => ⟨field r (0x80 + 16 * i) 1, field r (0x81 + 16 * i) 1, field r (0x82 + 16 * i) 2⟩
def recEntries (r : ByteList) : List Word64 := (List.range 4).map fun k => BitVec.ofNat 64 (field r (0x40 + 8 * k) 8)

/-- Strand slots of one team of a level: prev is the domain of the level above, size the slots of one of its teams (R30, R31). -/
def teamSize (prev : Option Nat) (size : Nat) (l : Level) : Nat :=
  if l.domain = 0 then 4096 else if prev = some l.domain then size / l.fanout else domainSlots l.domain

/-- Minimum scope of a footprint of n slots within a module (R30, rule 6). -/
def minScope (n : Nat) : Nat := if n ≤ 1 then 0 else if n ≤ 4 then 1 else if n ≤ 256 then 2 else if n ≤ 512 then 3 else 4

/-- Minimum scope of a level whose teams have n slots on each of their modules (R30, rule 6): gang for one that spans modules (log 24). -/
def Level.minScope (l : Level) (n : Nat) : Nat := if l.domain = 0 ∧ l.fanout > 1 then 5 else Sys2Proof.Machine.minScope n

/-- Whether FANOUT breaks R29 or rules 3 to 5 of R30. -/
def fanoutBad (prev : Option Nat) (size : Nat) (l : Level) : Bool :=
  l.fanout == 0 || (l.domain == 1 && l.fanout != 1)
  || (if l.domain = 0 then false
      else if prev = some l.domain then size % l.fanout != 0
      else decide (l.fanout * domainSlots l.domain > size))

/-- The offset of the first field of a level descriptor that breaks R29 or R30, for the levels from i on. -/
def levelFault (r : ByteList) (i : Nat) (prev : Option Nat) (size : Nat) : List Level → Option Nat
  | [] => none
  | l :: rest =>
    let o := 0x80 + 16 * i
    match firstBad [(o, decide (l.domain > 6) || decide (l.domain < prev.getD 0) || (l.domain == 0) != (i == 0 && recGang r)),
      (o + 1, decide (l.scope > 5)), (o + 2, fanoutBad prev size l), (o + 4, anyByte r (o + 4) 12)] with
    | some e => some e
    | none =>
      if l.scope < l.minScope (teamSize prev size l) then some (o + 1)
      else levelFault r (i + 1) (some l.domain) (teamSize prev size l) rest

/-- The innermost teams of a launch in a module whose units are taken in ascending order (R31, R34): team indices, first slot, number of slots. -/
def layout (gidx : Nat) : Option Nat → List Level → NatList × Nat × Nat → List (NatList × Nat × Nat)
  | _, [], t => [t]
  | prev, l :: r, (xs, lo, n) =>
    if l.domain = 0 then layout gidx (some 0) r (xs ++ [gidx], 0, 4096)
    else (List.range l.fanout).flatMap fun j =>
      layout gidx (some l.domain) r (xs ++ [j], lo + j * teamSize prev n l, teamSize prev n l)

/-- The innermost teams of levels that obey R30. -/
def layoutOf (gidx : Nat) (l : List Level) : List (NatList × Nat × Nat) := layout gidx none l ([], 0, 4096)

/-- The cores of a layout in the order of their logical numbers (R131). -/
def layoutCores (t : List (NatList × Nat × Nat)) : NatList :=
  (t.flatMap fun q => (List.range ((q.2.1 + q.2.2 - 1) / 4 + 1 - q.2.1 / 4)).map (· + q.2.1 / 4)).eraseDups

/-- Team indices of a slot of a layout, none where it lies in no team. -/
def teamAt (t : List (NatList × Nat × Nat)) (slot : Nat) : NatList :=
  ((t.find? fun q => decide (q.2.1 ≤ slot) && decide (slot < q.2.1 + q.2.2)).map (·.1)).getD []

/-- The first ENTRY that breaks R33. -/
def entryFault (r : ByteList) (l : List Level) : Option Nat :=
  let zero := fun k => field r (0x40 + 8 * k) 8 == 0
  if (l.getLast?.map (·.domain)) = some 6 then
    let t := layoutOf 0 l
    ((List.range 4).find? fun k => zero k && t.any fun q => q.2.1 % 4 == k).map fun k => 0x40 + 8 * k
  else if (List.range 4).all zero then some 0x40 else none

/-- The offset of the first field of a launch record that breaks R401. -/
def recordFaultAt (r : ByteList) : Option Nat :=
  let f := field r
  let fixed :=
    [(0, f 0 4 != 0xD80C1A57), (4, f 4 2 != 1), (6, f 6 1 == 0 || decide (f 6 1 > 8)), (7, f 7 1 / 4 != 0), (0x0C, f 0x0C 1 / 128 != 0),
     (0x0D, anyByte r 0x0D 1), (0x0E, f 0x0E 2 == 0 || decide (f 0x0E 2 > 256)), (0x10, decide (f 0x10 2 > 128)), (0x12, decide (f 0x12 2 > 64)),
     (0x14, decide (f 0x14 2 > 512)), (0x16, anyByte r 0x16 10), (0x20, f 0x20 8 % 64 != 0), (0x28, f 0x10 2 != 0 && f 0x28 8 % 32 != 0),
     (0x30, f 0x12 2 != 0 && f 0x30 8 % 8 != 0), (0x38, f 0x14 2 != 0 && f 0x38 8 % 8 != 0), (0x68, anyByte r 0x68 24)]
    ++ (List.range 4).map fun k => (0x40 + 8 * k, f (0x40 + 8 * k) 8 % 4 != 0)
  let levels := match levelFault r 0 none 4096 (recLevels r) with
    | some o => some o
    | none => if f 6 1 = 0 ∨ f 6 1 > 8 then none else entryFault r (recLevels r)
  firstBad (fixed ++ [(levels.getD 0, levels.isSome)])

/-! ## The tables (R39, R41, R42, R44, R401) -/

/-- The first failing field of a table of n entries of some size. -/
def tableFault (n size : Nat) (b : ByteList) (f : Nat → ByteList → Option Nat) : Option Nat :=
  (List.range n).findSome? fun k => (f k (slice b (size * k) size)).map (· + size * k)

/-- Offsets of the fields of a handle entry. -/
def handleFields : NatList := [0, 1, 2, 3, 8, 16, 18, 20, 22, 24, 28, 32, 36, 40, 48, 64]

def handleFault (k : Nat) (e : ByteList) : Option Nat :=
  if k = 0 then ((handleFields.zip handleFields.tail).find? fun p => anyByte e p.1 (p.2 - p.1)).map (·.1)
  else
    let nd := field e 2 1
    firstBad ([(0, decide (field e 0 1 > 2)), (1, (fmtOf (field e 1 1)).isNone), (2, nd == 0 || decide (nd > 4)), (3, anyByte e 3 5),
        (36, anyByte e 36 4), (48, anyByte e 48 16)]
      ++ (List.range 4).map (fun d => (16 + 2 * d, decide (d ≥ nd) && anyByte e (16 + 2 * d) 2))
      ++ (List.range 3).map fun d => (24 + 4 * d, decide (d + 1 ≥ nd) && anyByte e (24 + 4 * d) 4))

def handleOf (e : ByteList) : Handle :=
  ⟨field e 0 1, field e 1 1, field e 2 1, field e 8 8, (List.range 4).map fun d => field e (16 + 2 * d) 2,
    (List.range 3).map fun d => field e (24 + 4 * d) 4, field e 40 8⟩

/-- An entry of the access-program table, not placed yet. -/
def progOf (e : ByteList) : Prog := ⟨8 * field e 0 1 + field e 1 1, field e 2 1, field e 4 2, field e 8 8, 0, []⟩

def progsOf (n : Nat) (b : ByteList) : List Prog := (List.range n).map fun k => progOf (slice b (32 * k) 32)

/-- Contexts and bytes that entries take on an MSE. -/
def mseUse (l : List Prog) (m : Nat) : Nat × Nat :=
  (((l.filter (·.mse == m)).map (·.nctx)).sum, ((l.filter (·.mse == m)).map (·.len)).sum)

def progFault (b : ByteList) (k : Nat) (e : ByteList) : Option Nat :=
  let u := mseUse (progsOf (k + 1) b) (progOf e).mse
  firstBad [(0, decide (field e 0 1 > 15)), (1, decide (field e 1 1 > 7)), (2, field e 2 1 == 0 || decide (field e 2 1 > 8) || decide (u.1 > 8)),
    (3, anyByte e 3 1), (4, decide (field e 4 2 < 4) || decide (field e 4 2 > 16384) || field e 4 2 % 4 != 0 || decide (u.2 > 16384)),
    (6, anyByte e 6 2), (8, field e 8 8 % 4 != 0), (16, anyByte e 16 16)]

def catchFault (_ : Nat) (e : ByteList) : Option Nat :=
  firstBad [(0, field e 0 2 / 64 % 4 != 0 || field e 0 2 / 4096 != 0), (2, anyByte e 2 2), (4, field e 4 4 / 2 ^ 24 != 0 || field e 4 4 == 0)]

def counterFault (_ : Nat) (e : ByteList) : Option Nat :=
  firstBad [(0, field e 0 2 / 512 != 0), (2, anyByte e 2 2), (4, field e 4 4 / 2 ^ 20 != 0)]

/-- The first entry of a gang map that breaks R44: modid is the module's own identifier. -/
def gangFault (n gidx modid : Nat) (b : ByteList) : Option Nat :=
  let at_ := fun i => field b (2 * i) 2
  firstBad ((List.range n).map (fun i => (2 * i, at_ i / 2 ^ 11 != 0 || at_ i == 0x7FF || (List.range i).any fun j => at_ j == at_ i))
    ++ [(2 * gidx, decide (gidx ≥ n) || at_ gidx != modid)])

/-- Whether a partition word breaks R72. -/
def partwBad (w : Word32) : Bool :=
  let a := bitsOf w 5 0
  let sp := bitsOf w 13 8
  let c := bitsOf w 21 16
  a + sp + c != 32 || a == 0 || c == 0 || decide (a > 30) || decide (sp > 30) || decide (c > 30)
  || decide (bitsOf w 31 24 > 8 * sp) || (w &&& 0x00C0C0C0) != 0

/-! ## Step 1: reading and checking (R28, R43, R396, R401, R468) -/

/-- A cause met while an object of a launch is read names the address of the object (R468); a held read stays what it is. -/
def objectCause (a : Word64) (x : Cause) : Cause := if x.waits then x else { x with info := a }

/-- Reads an object of a launch at a device virtual address (R27, R41), the aperture among it (R339). -/
def State.launchRead (s : State) (w : Who) (a : Word64) (n : Nat) : Except Cause ByteList :=
  if n = 0 then .ok []
  else match s.readV w .read a.toNat n with
  | .ok b => .ok b.1
  | .error x => .error (objectCause a x)

/-- Reads an object that a packet names, the launch record or the gang map (R349, log 29). -/
def State.namedRead (s : State) (w : Who) (a : Word64) (n : Nat) : Except Cause ByteList :=
  match s.readForm w a n with
  | .ok b => .ok b
  | .error x => .error (objectCause a x)

/-- The pointers of a launch and the bytes that lie at each: the tables of the record, and the gang map when it lies in device memory. -/
def tablePointers (r : ByteList) (gmap : Nat) : List (Nat × Nat) :=
  let f := field r
  [(f 0x20 8, 64 * f 0x0E 2), (f 0x28 8, 32 * f 0x10 2), (f 0x30 8, 8 * f 0x12 2), (f 0x38 8, 8 * f 0x14 2)]
  ++ (if recGang r && decide (gmap < 2 ^ 63) then [(gmap, 2 * f 0x82 2)] else [])

/-- ADDRFORM of a pointer that leaves the address space: its code is the lowest that a launch can meet (R396). -/
def pointerCause (r : ByteList) (gmap : Nat) : Option Cause :=
  ((tablePointers r gmap).find? fun p => p.2 != 0 && decide (p.1 + p.2 > 2 ^ 57)).map fun p => ⟨0x301, BitVec.ofNat 64 p.1, 0⟩

/-- LREC with its INFO1 (R395). -/
def lrecCause (lrec table off : Nat) : Cause := ⟨0x501, BitVec.ofNat 64 lrec, BitVec.ofNat 64 (table + off * 2 ^ 16)⟩

/-- The tables of a launch record: code, contents, and the first failing field of what was read. -/
def State.launchTables (s : State) (w : Who) (p : Part) (r : ByteList) : List (Nat × Except Cause ByteList × (ByteList → Option Nat)) :=
  let tab := fun off n size => s.launchRead w (BitVec.ofNat 64 (field r off 8)) (n * size)
  let nh := field r 0x0E 2
  let na := field r 0x10 2
  let nc := field r 0x12 2
  let nd := field r 0x14 2
  let n := field r 0x82 2
  [(1, tab 0x20 nh 64, fun b => tableFault nh 64 b handleFault), (2, tab 0x28 na 32, fun b => tableFault na 32 b (progFault b)),
   (3, tab 0x30 nc 8, fun b => tableFault nc 8 b catchFault), (4, tab 0x38 nd 8, fun b => tableFault nd 8 b counterFault)]
  ++ (if !recGang r then []
      else if p.gmap % 8 ≠ 0 then [(5, .ok [], fun _ => some 0)]
      else [(5, s.namedRead w (BitVec.ofNat 64 p.gmap) (2 * n), gangFault n p.gidx (bitsOf s.modid 10 0))])

/-- The table of a code, as read. -/
def tableOf (l : List (Nat × Except Cause ByteList × (ByteList → Option Nat))) (code : Nat) : ByteList :=
  match l.find? fun t => t.1 == code with
  | some t => (t.2.1.toOption).getD []
  | none => []

/-- A part with what its record and tables give. -/
def Part.fill (p : Part) (r : ByteList) (l : List (Nat × Except Cause ByteList × (ByteList → Option Nat))) : Part :=
  { p with
    key := field r 0x0C 1 % 128, gang := recGang r, wkeep := field r 7 1 / 2 % 2 == 1, levels := recLevels r
    partw := BitVec.ofNat 32 (field r 8 4), entries := recEntries r, arg := BitVec.ofNat 64 (field r 0x60 8)
    handles := ⟨0, 0, 0, 0, [], [], 0⟩ :: (List.range (field r 0x0E 2 - 1)).map fun k => handleOf (slice (tableOf l 1) (64 * (k + 1)) 64)
    progs := progsOf (field r 0x10 2) (tableOf l 2), cbtab := tableOf l 3, dctab := tableOf l 4
    modules := (List.range ((tableOf l 5).length / 2)).map fun i => field (tableOf l 5) (2 * i) 2 }

/-- Checks the record and the tables of a part; the lowest code is reported, and causes of reads only when there is none of the classes 3 and 5 (R396). -/
def State.checkLaunch (s : State) (w : Who) (qkey : Nat) (p : Part) : Except Cause Part :=
  match s.namedRead w (BitVec.ofNat 64 p.lrec) 256 with
  | .error x => .error x
  | .ok r =>
    match (pointerCause r p.gmap).or ((recordFaultAt r).map (lrecCause p.lrec 0)) with
    | some x => .error x
    | none =>
      let l := s.launchTables w p r
      let q := p.fill r l
      match l.findSome? fun t => match t.2.1 with
        | .ok b => (t.2.2 b).map fun o => lrecCause p.lrec t.1 o
        | .error _ => none with
      | some x => .error x
      | none =>
        if partwBad q.partw then .error ⟨0x502, q.partw.zeroExtend 64, 0⟩
        else if q.key ≠ qkey ∨ !s.keel.alloc.contains q.key then .error ⟨0x503, BitVec.ofNat 64 q.key, 0⟩
        else match l.findSome? fun t => match t.2.1 with
          | .error x => some x
          | .ok _ => none with
        | some x => .error x
        | none => .ok q

/-! ## Step 2: room for a part (R31, R32, R41, R356, R432) -/

/-- Whether a part holds cores. -/
def Part.isResident (p : Part) : Bool := p.phase == .setUp || p.phase == .running || p.phase == .saving || p.phase == .resuming

/-- A core that no part holds, those of the ignored parts apart. -/
def State.freeCore (s : State) (gone : NatList) (c : Nat) : Bool :=
  decide (c < 1024) && match (s.core c).part with
    | none => true
    | some p => gone.contains p

/-- Access programs of the parts that hold cores, without some. -/
def State.residentProgs (s : State) (gone : NatList) : List Prog :=
  (s.parts.filter fun p => p.2.isResident && !gone.contains p.1).flatMap fun p => p.2.progs

/-- Whether the MSEs have contexts and program space for entries (R41). -/
def State.mseRoom (s : State) (gone : NatList) (l : List Prog) : Bool :=
  l.all fun q =>
    let u := mseUse (l ++ s.residentProgs gone) q.mse
    decide (u.1 ≤ 8) && decide (u.2 ≤ 16384)

/-- Cores of the teams that the levels from here on give inside a footprint in which no unit is left to choose. -/
def fixedCores (prev : Option Nat) (lv : List Level) (lo n : Nat) : NatList := layoutCores (layout 0 prev lv ([], lo, n))

/-- Whether nothing is left to choose below a level: strands, pieces of cores, and the end of the levels (R31). -/
def settled (prev : Option Nat) (n : Nat) : List Level → Bool
  | [] => true
  | l :: _ => l.domain == 6 || decide (teamSize prev n l < 4)

/-- Whether the levels from here on find room in a footprint whose usable cores meet a test (R30, R31). -/
def roomIn (free : Nat → Bool) : Option Nat → List Level → Nat → Nat → Bool
  | prev, [], lo, n => (fixedCores prev [] lo n).all free
  | prev, l :: r, lo, n =>
    let m := teamSize prev n l
    if settled prev n (l :: r) then (fixedCores prev (l :: r) lo n).all free
    else if l.domain = 0 then roomIn free (some 0) r lo n
    else if prev = some l.domain then (List.range l.fanout).all fun j => roomIn free (some l.domain) r (lo + j * m) m
    else decide (l.fanout ≤ ((List.range (n / m)).filter fun u => roomIn free (some l.domain) r (lo + u * m) m).length)

/-- The pieces of a list of n equal parts. -/
def equalParts (n : Nat) (l : NatList) : List NatList := chunks (l.length / n) n l

/-- Whether cores, in the order of their logical numbers, are a placement of the levels from here on inside a footprint (R31, R131). -/
def placedIn : Option Nat → List Level → Nat → Nat → NatList → Bool
  | prev, [], lo, n, cs => cs == fixedCores prev [] lo n
  | prev, l :: r, lo, n, cs =>
    let m := teamSize prev n l
    if settled prev n (l :: r) then cs == fixedCores prev (l :: r) lo n
    else if l.domain = 0 then placedIn (some 0) r lo n cs
    else if cs.isEmpty || cs.length % l.fanout != 0 then false
    else
      let q := equalParts l.fanout cs
      if prev = some l.domain then (q.zipIdx.all fun p => placedIn (some l.domain) r (lo + p.2 * m) m p.1)
      else
        let us := q.map fun p => p.headD 0 * 4 / m
        (us.eraseDups.length == us.length)
        && (q.zip us).all fun p => decide (lo ≤ p.2 * m) && decide (p.2 * m + m ≤ lo + n) && placedIn (some l.domain) r (p.2 * m) m p.1

/-- Whether cores keep the CORE numbers of the cores a part was saved on, and the crews these shared (R31). -/
def keepsHomes (homes cs : NatList) : Bool :=
  homes.length == cs.length && (homes.zip cs).all fun p =>
    p.2 % 64 == p.1 % 64 && (homes.zip cs).all fun q => coreCrew p.1 != coreCrew q.1 || coreCrew p.2 == coreCrew q.2

/-- Ways to give each of some crews a crew of its own. -/
def crewMaps : NatList → List (List (Nat × Nat))
  | [] => [[]]
  | a :: r => (crewMaps r).flatMap fun m => ((List.range 16).filter fun b => !m.any fun p => p.2 == b).map fun b => (a, b) :: m

/-- Cores to which a choice of crews moves those a part was saved on. -/
def movedCores (homes : NatList) (m : List (Nat × Nat)) : NatList :=
  homes.map fun h => ((m.find? fun p => p.1 == coreCrew h).map (·.2)).getD 0 * 64 + h % 64

/-- Whether a part finds cores and contexts while some parts are ignored. -/
def State.fits (s : State) (gone : NatList) (p : Part) : Bool :=
  s.mseRoom gone p.progs
  && (if p.image.isNone then roomIn (s.freeCore gone) none p.levels 0 4096
      else (crewMaps (p.homes.map coreCrew).eraseDups).any fun m =>
        (movedCores p.homes m).all (s.freeCore gone) && placedIn none p.levels 0 4096 (movedCores p.homes m))

/-- The lowest free slot of a queue that takes an image of a size (R432). -/
def Queue.slotFor (x : Queue) (size : Nat) : Option Nat :=
  if size ≤ bitsOf x.ckcfg 47 16 * 2 ^ 20 then x.freeSlot else none

/-- Whether a part in set-up or running has been asked to go, and its save is not decided yet (R49, R323, R422). -/
def Part.asksToGo (p : Part) : Bool := (p.phase == .setUp || p.phase == .running) && (p.yreq || p.asked.isSome)

/-- Checkpoint slots of a queue that nothing holds and no part that goes already will take (R355, R356). -/
def State.slotsLeft (s : State) (q : Nat) : Nat :=
  ((List.range (bitsOf (s.queue q).ckcfg 3 0)).filter fun n => !(s.queue q).used.testBit n).length
  - (s.parts.filter fun p => p.2.queue == q && p.2.asksToGo).length

/-- The parts of a list that find a slot of their queue beside those before them: no part whose queue has none is a victim (R356). -/
def State.withSlots (s : State) : NatList → NatList → NatList
  | _, [] => []
  | taken, p :: r =>
    let q := (s.part p).queue
    if (taken.filter (· == q)).length < s.slotsLeft q then p :: State.withSlots s (q :: taken) r else State.withSlots s taken r

/-- Victims in the order in which they are taken (R356): lowest queue priority first, then the most recently started; a part in set-up goes once it has started (R49). -/
def State.candidates (s : State) (prio : Nat) : NatList :=
  s.withSlots [] (((s.parts.filter fun p => (p.2.phase == .running || p.2.phase == .setUp) && !p.2.asksToGo && decide ((s.queue p.2.queue).prio < prio)
      && ((s.queue p.2.queue).slotFor (s.imageSize p.1)).isSome).mergeSort fun a b =>
    decide ((s.queue a.2.queue).prio < (s.queue b.2.queue).prio)
    || ((s.queue a.2.queue).prio == (s.queue b.2.queue).prio && decide (a.2.started ≥ b.2.started))).map (·.1))

/-- Asks a victim to go (R323, R356): a yield request, or the save decision at once, which a part in set-up meets at its start (R49). -/
def State.evict (s : State) (p : Nat) : State :=
  let x := s.queue (s.part p).queue
  if x.yield ≠ 0 then s.onPart p fun y => { y with yreq := true, dltick := (s.tick + x.yield).truncate 32 }
  else (s.onPart p fun y => { y with hosted := false }).askSave p 0

/-- Parts that are leaving already. -/
def State.leavingParts (s : State) : NatList := (s.parts.filter fun p => p.2.phase == .saving || p.2.asksToGo).map (·.1)

/-- Chooses victims for a part that waits for cores (R356): as few as its placement needs, none when all of them would not do. -/
def State.seekVictims (s : State) (p : Nat) : State :=
  let y := s.part p
  let going := s.leavingParts
  if s.modesel.getLsbD 3 || s.fits going y then s
  else
    let l := s.candidates (s.queue y.queue).prio
    match (List.range l.length).find? fun n => s.fits (going ++ l.take (n + 1)) y with
    | some n => (l.take (n + 1)).foldl State.evict s
    | none => s

/-! ## LAUNCH (R43, R355) -/

/-- A front-end failure of a started packet (R399, R401, R468): the record with SEV 2, and the packet completes aborted. -/
def State.packetFails (s : State) (q : Nat) (k : Packet) (x : Cause) : State :=
  let s := s.meetRefusal x.code x.info1
  let seq := s.errseq.toNat
  (s.keepRecord ⟨x.code, 2, 6, 0, 0, false, some (q, (s.queue q).keyid), k.addr, x.info, x.info1, 0⟩).abortPacket q k.pid x (some seq)

/-- The part that a LAUNCH packet asks for. -/
def State.newPart (s : State) (q : Nat) (k : Packet) : Part :=
  { Part.none with
    queue := q, pid := k.pid, lrec := k.word 0x10 8, gidx := k.word 0x18 2, atick := BitVec.ofNat 64 (k.word 0x20 8), gmap := k.word 0x28 8
    ptroot := (s.queue q).ptroot, priv := (s.queue q).qctl.getLsbD 4, phase := .waiting }

/-- A LAUNCH or RESUME whose checks meet a cause fails, or waits and begins again. -/
def State.launchStops (s : State) (q : Nat) (k : Packet) (x : Cause) : State :=
  if x.waits then s.packetData q k.pid 0 x else s.packetFails q k x

/-- The part of a LAUNCH or RESUME that has passed its checks asks for cores (R43, R356). -/
def State.partAsks (s : State) (q pid : Nat) (y : Part) : State :=
  (((s.setPart pid y).onPacket q pid fun p => { p with part := some pid }).spend (.packet q pid)).seekVictims pid

/-- LAUNCH (R43 step 1, R355, R356, R401): checks the record and its tables, and asks for cores. -/
def execLaunch (q pid : Nat) (s : State) : Host.Outcome State Fault Refusal :=
  s.beginPacket q pid 1 fun k t =>
    match t.checkLaunch (t.whoQueue q (.packet q pid)) (t.queue q).keyid (t.newPart q k) with
    | .error x => t.launchStops q k x
    | .ok y => t.partAsks q pid y

/-! ## Steps 3 to 5 (R38 to R42, R66, R74) -/

/-- Zeroes the pool of a core. -/
def State.clearPool (s : State) (c : Nat) : State :=
  { s with
    mem := tabClear s.mem (poolKey c 0) (2 ^ 21)
    poisoned := s.poisoned.filter fun w => !(decide (poolKey c 0 / 8 ≤ w) && decide (w < poolKey c 0 / 8 + 2 ^ 18)) }

/-- The scratchpad map at launch start (R74). -/
def startMap (w : Word32) : Tab SpmEntry :=
  (List.range (8 * bitsOf w 13 8 - bitsOf w 31 24)).map fun n => (n, ⟨n, 0, true, false, false⟩)

/-- A core of a part at launch start, before the set-up tables (R38, R66, R74). -/
def Core.started (x : Core) (pid : Nat) (p : Part) (l c : Nat) : Core :=
  { x.freed with
    part := some pid, lcore := l, partw := p.partw, handles := p.handles, spm := startMap p.partw, wkey := some p.key
    srsv := 0x6D2B79F5 ^^^ BitVec.ofNat 32 (c * 256), srsc := 0x6D2B79F5 ^^^ BitVec.ofNat 32 (c * 256) ^^^ 1 }

/-- The set-up tables (R42): a later entry wins. -/
def Core.setTables (x : Core) (cb dc : ByteList) : Core :=
  let y := (List.range (cb.length / 8)).foldl (fun x k =>
    let e := slice cb (8 * k) 8
    x.setBar (field e 0 2 % 64) ⟨List.replicate (field e 0 2 / 256 % 16 + 1) (CatchSlot.fresh (field e 4 3)), none⟩) x
  (List.range (dc.length / 8)).foldl (fun x k =>
    let e := slice dc (8 * k) 8
    x.setDc (field e 0 2 % 512) (field e 4 4)) y

/-- Clears what set-up clears on a core: the pool, and the W-store slice unless R40 keeps it. -/
def State.clearCore (s : State) (p : Part) (c : Nat) : State :=
  let t := s.clearPool c
  if p.wkeep && (s.core c).wkey == some p.key then t else t.zeroSlice c

/-- Set-up of one core with its logical number. -/
def State.setUpCore (s : State) (pid : Nat) (p : Part) (l c : Nat) : State :=
  (s.clearCore p c).onCore c fun x => ((x.started pid p l c).setTables p.cbtab p.dctab)

/-- The lowest place for n bytes in a program store beside what lies there (R41, log 26). -/
def firstFit (taken : List (Nat × Nat)) (n : Nat) : Option Nat :=
  ((0 :: taken.map fun t => t.1 + t.2).filter fun a => decide (a + n ≤ 16384) && !(taken.any fun t => meets (a, a + n) (t.1, t.1 + t.2))).min?

/-- Places the programs of a part with the contexts reserved for each; others are the programs already there. -/
def placeProgs (ctxs : List (Nat × Nat)) : Nat → List Prog → List Prog → Option (List Prog)
  | _, _, [] => some []
  | n, others, q :: r =>
    match firstFit ((others.filter (·.mse == q.mse)).map fun o => (o.base, o.len)) q.len with
    | none => none
    | some a =>
      let q1 := { q with base := a, ctxs := ((ctxs.filter (·.1 == n)).map (·.2)) }
      (placeProgs ctxs (n + 1) (q1 :: others) r).map (q1 :: ·)

/-- Whether the contexts a program has been given are as many as it reserves, exist, and are nobody else's. -/
def ctxsOk (others : List Prog) (l : List Prog) : Bool :=
  l.zipIdx.all fun p =>
    p.1.ctxs.length == p.1.nctx && p.1.ctxs.eraseDups.length == p.1.nctx
    && p.1.ctxs.all fun x => decide (x < 8) && !((others ++ l.eraseIdx p.2).any fun o => o.mse == p.1.mse && o.ctxs.contains x)

/-- The programs of a part as a placement gives them, none when it breaks R41. -/
def State.placement (s : State) (p : Part) (pl : Placement) : Option (List Prog) :=
  match placeProgs pl.ctxs 0 (s.residentProgs []) p.progs with
  | some l => if ctxsOk (s.residentProgs []) l then some l else none
  | none => none

/-- Loads access programs into the MSE stores (R43, step 4), or answers the cause that reading an image meets (R468). -/
def State.loadProgs (s : State) (w : Who) : List Prog → Except Cause State
  | [] => .ok s
  | q :: r =>
    match s.launchRead w (BitVec.ofNat 64 q.image) q.len with
    | .error x => .error x
    | .ok b => State.loadProgs { s with mem := memSetList s.mem (mseKey q.mse q.base) b } w r

/-- Who the front end is for a part (R355, R370). -/
def State.partWho (s : State) (pid : Nat) (p : Part) : Who := { s.whoQueue p.queue (.part pid) with key := p.key }

/-- A part ends before it starts (R402, R468): the record, then the end of R400. -/
def State.partFails (s : State) (pid : Nat) (x : Cause) : State :=
  let p := s.part pid
  let s := s.meetRefusal x.code x.info1
  s.recordEnd pid ⟨x.code, 2, 6, 0, 0, false, some (p.queue, p.key), s.partPlace p, x.info, x.info1, 0⟩ x

/-- LAUNCH_SETUP (R43 steps 2 to 5, R468): once the cores and contexts that the front end chooses are free; while they are not, victims are chosen for the part (R356). -/
def execLaunchSetup (part : Nat) (place : Placement) (s : State) : Host.Outcome State Fault Refusal :=
  let p := s.part part
  if p.phase != .waiting || p.image.isSome then .next s
  else if !place.cores.all (s.freeCore []) || !placedIn none p.levels 0 4096 place.cores then .next (s.seekVictims part)
  else match s.placement p place with
  | none => .next (s.seekVictims part)
  | some l =>
    let s1 := (place.cores.zipIdx).foldl (fun t q => t.setUpCore part p q.2 q.1) s
    match s1.loadProgs (s.partWho part p) l with
    | .error x =>
      if x.waits then .next (s.await (s.partWho part p) x)
      else .next ((s1.setPart part { p with cores := place.cores, phase := .setUp }).partFails part x)
    | .ok s2 => .next ((s2.setPart part { p with cores := place.cores, progs := l, phase := .setUp, setTick := s.tick }).spend (.part part))

/-! ## Steps 6 and 7 (R33, R43, R44, R402) -/

/-- A strand slot at launch start (R33, R38): it starts when it lies in a team and its ENTRY is not zero. -/
def Part.startStrand (p : Part) (lay : List (NatList × Nat × Nat)) (vc k : Nat) : Strand :=
  let t := teamAt lay (4 * vc + k)
  let e := p.entries.getD k 0
  if t = [] ∨ e = 0 then Strand.reset
  else { Strand.reset with status := .runnable, pc := e, team := t, regs := Strand.reset.regs.setIfInBounds 1 p.arg }

/-- Starts the strands of every core of a part (R33, R43 step 7). -/
def State.startStrands (s : State) (p : Part) : State :=
  let lay := layoutOf p.gidx p.levels
  (p.cores.zip (layoutCores lay)).foldl (fun t q =>
    t.onCore q.1 fun x => { x with strands := Vector.ofFn fun k => p.startStrand lay q.2 k.val, quiet := t.tick.toNat }) s

/-- LAUNCH_START (R43, R44, R402): a save that was asked for during set-up finds a running part (R49). -/
def execLaunchStart (part : Nat) (s : State) : Host.Outcome State Fault Refusal :=
  let p := s.part part
  if p.phase != .setUp then .next s
  else if p.gang && decide (p.atick.toNat < p.setTick.toNat) then .next (s.partFails part ⟨0x504, p.atick, p.setTick⟩)
  else if p.gang && !s.tsync.getLsbD 1 then .next (s.partFails part ⟨0x505, p.atick, 0⟩)
  else if p.gang && decide (s.tick.toNat < p.atick.toNat) then .next s
  else .next (((s.startStrands p).setPart part { p with phase := .running, started := s.steps }).askedSave part)

/-! ## The end of a launch (R46, R351) -/

/-- Whether a core has nothing left to do and nothing counted (R46, R351). -/
def Core.isDone (x : Core) : Bool :=
  (x.strands.toList.all fun t => t.status == .notStarted || t.status == .exited) && x.window.isEmpty && x.items.isEmpty
  && x.chans.toList.all (·.isEmpty) && x.kernel.isNone && x.staged.isNone

/-- Whether a launch is complete on the module (R46). -/
def State.partDone (s : State) (p : Nat) : Bool :=
  ((s.part p).cores.all fun c => (s.core c).isDone) && !(s.ctxs.any fun t => t.2.part == p)

/-- LAUNCH_COMPLETE (R46, R351): the front end frees the cores and contexts, and the packet is ready. -/
def execLaunchComplete (part : Nat) (s : State) : Host.Outcome State Fault Refusal :=
  let p := s.part part
  if p.phase == .running && s.partDone part then
    .next (((s.freePart part).onPart part fun y => { y with phase := .complete, cores := [], progs := [] }).finishPacket p.queue p.pid 0 0)
  else .next s

end Sys2Proof.Machine
end

