-- ==== Sys2Proof/Machine/Matrix.lean ====
section
/-! DEFINITION. Matrix-class task operations: the latch, products, ranking and generated matrices (R56 to R60, R67, R68, R240 to R254). -/
namespace Sys2Proof.Machine

/-! ## The latch (R240 to R243) -/

/-- The latched weights (R67, R241): format, mantissa of K row k of column c at 64c + k, exponent of block b of column c at 2c + b. -/
structure Latched where
  fmt : Nat
  mant : Array Int
  exp : Array Nat

def Core.latched (x : Core) : Latched where
  fmt := x.lfmt
  mant := x.lmant.foldl (fun a p => a.setIfInBounds (64 * (p.1 % 128) + p.1 / 128) p.2.toInt) (Array.replicate 8192 0)
  exp := x.lexp.foldl (fun a p => a.setIfInBounds p.1 p.2.toNat) (Array.replicate 256 0)

/-- Keeps weights in the latch as the saved context numbers them (R326). -/
def Core.setLatch (x : Core) (l : Latched) : Core :=
  { x with
    lval := true, lfmt := l.fmt
    lmant := ((List.range 8192).map fun i => (i, BitVec.ofInt 8 (l.mant.getD (64 * (i % 128) + i / 128) 0))).filter fun p => p.2 != 0
    lexp := ((List.range 256).map fun i => (i, BitVec.ofNat 8 (l.exp.getD i 0))).filter fun p => p.2 != 0 }

/-- What 32 elements become as operands of the array: a shared exponent and mantissas, with NANB and BADT (R57, R67, R404). -/
structure OpBlock where
  e : Nat
  q : List Int
  nanb : Bool
  badt : Bool
  deriving DecidableEq, Repr

/-- Values aligned to a BFP8 block (R57). -/
def alignBlock (xs : List Fp) : OpBlock :=
  let b := bfpQuantBlock 8 0 (fun _ => 0) xs
  ⟨b.1, b.2, b.1 == 255, false⟩

/-- A stored BFP block as an operand: exponent and mantissa string. -/
def bfpOp (m e s : Nat) : OpBlock := ⟨e, (List.range 32).map (bfpMant m s), e == 255, false⟩

/-- Field k of w bits of a packed row (R54). -/
def packedInt (w : Nat) (b : ByteList) (k : Nat) : Int := sextInt (leNat b / 2 ^ (w * k)) w

/-- Trit k of T3P5 bytes; a byte of 243 to 255 decodes as 121 (R405). -/
def tritOf (b : ByteList) (k : Nat) : Int :=
  let c := field b (k / 5) 1
  t3p5Trit (if t3p5Ok c then c else 121) (k % 5)

/-- The two operand blocks of one column of weights (R243): its 64 bytes in the frame, those in the next frame, its exponents. -/
def weightCol (f : Fmt) (b b2 : ByteList) (e0 e1 : Nat) : List OpBlock :=
  match f with
  | .int w => [0, 1].map fun h => ⟨127, (List.range 32).map fun i => packedInt w b (32 * h + i), false, false⟩
  | .t3p5 => [0, 1].map fun h => ⟨127, (List.range 32).map fun i => tritOf b (32 * h + i), false, (b.take 13).any fun c => !t3p5Ok c.toNat⟩
  | .bfp m => [bfpOp m e0 (field b 0 (4 * m)), bfpOp m e1 (field b (4 * m) (4 * m))]
  | .fl g =>
    if g.ebits + g.fbits + 1 = 16 then [b, b2].map fun c => alignBlock ((List.range 32).map fun i => fpVal g (field c (2 * i) 2))
    else [0, 1].map fun h => alignBlock ((List.range 32).map fun i => fpVal g (field b (32 * h + i) 1))

/-- Latch frames that a weight format takes (R243, R247). -/
def latchFrames (f : Fmt) : Nat :=
  match f with
  | .fl g => if g.ebits + g.fbits + 1 = 16 then 2 else 1
  | _ => 1

/-- Reads one latch of weights from the W-store (R243, R246): format code, latch frame, exponent frame, exponent slot. -/
def State.loadLatch (s : State) (j : Job) (code lf xf xs : Nat) : Acc State :=
  let f := (fmtOf code).getD (.int 8)
  let n := 8192 * latchFrames f
  (s.inRegion j 2 (8192 * lf) (8192 * lf + n) false).next fun _ =>
  (s.engRead j 2 (8192 * lf) n).next fun w =>
  let exps := if isBfp code then (List.range 128).map fun c => 8192 * xf + 64 * c + 2 * xs else []
  match exps.find? fun a => !((s.core j.core).regionFor j.bytes j.vbase 2 a (a + 2) false).isSome with
  | some a => .bad ((s.core j.core).regionFault j.bytes j.vbase 2 a false)
  | none =>
    (State.engReads j 2 (exps.map fun a => (a, 2)) w.2).next fun e =>
      let frame := w.1.toArray
      let col := fun (p c : Nat) => (List.range 64).map fun i => frame.getD (8192 * p + 64 * c + i) 0#8
      let cols := (List.range 128).map fun c => weightCol f (col 0 c) (col 1 c) (field e.1 (2 * c) 1) (field e.1 (2 * c + 1) 1)
      let all := cols.flatten
      .ok ((e.2.onCore j.core fun x =>
          x.setLatch ⟨code, (all.flatMap (·.q)).toArray, (all.map (·.e)).toArray⟩).accrue j
        { TaskFlags.none with nanb := all.any (·.nanb), badt := all.any (·.badt) })

/-- What is left when a unit of work meets a cause after it has done part of it: that part (R321). -/
def Acc.keep (s : State) (a : Acc State) : Acc State :=
  match a with
  | .bad x => .part s x
  | a => a

/-- What WLD does (R246). -/
def wldUnit (j : Job) (_k : Nat) (u : State) : Acc State :=
  u.loadLatch j (recWfmt j.bytes) (recPar j.bytes 7 0) (recPar j.bytes 15 8) (recPar j.bytes 20 16)
/-- WLD (R246). -/
def execWld (core entry : Nat) (s : State) : Host.Outcome State Fault Refusal :=
  s.runTask core entry 0x01 (fun _ _ => 1) wldUnit

/-! ## Rows (R242, R245) -/

/-- The sum of index times step over the loop levels, level 0 innermost. -/
def loopSum (r : ByteList) : Nat → Nat → Nat → Int
  | 0, _, _ => 0
  | k + 1, l, n => ((n % recCount r l : Nat) : Int) * recStep r l + loopSum r k (l + 1) (n / recCount r l)

/-- The local offset of the A-file row that iteration n reads in pass p (R245). -/
def Core.rowIn (x : Core) (r : ByteList) (p n : Nat) : Int :=
  (x.regLo (recRegion r 0) : Int) + 128 * ((p * recPar r 15 4 : Nat) + loopSum r (recNloop r) 0 n)

/-- The local offset of the accumulator row that iteration n writes. -/
def Core.rowOut (x : Core) (r : ByteList) (n : Nat) : Nat := x.regLo (recRegion r 3) + 512 * n

/-- Reads the activation row of an iteration (R119, R245). DESIGN CHOICE (log 89): an RG0 outside the A-file, or an RG3 outside accumulator storage, is taken as it is: its rows lie at these addresses of the space that it names. -/
def State.readRow (s : State) (j : Job) (p n : Nat) : Acc (ByteList × State) :=
  let x := s.core j.core
  let a := x.rowIn j.bytes p n
  if a < 0 then .bad ⟨0x318, w64 a, BitVec.allOnes 64⟩
  else (s.inRegion j (x.regSpace (j.region 0)) a.toNat (a.toNat + 128) false).next fun _ =>
    s.engRead j (x.regSpace (j.region 0)) a.toNat 128

/-- The two operand blocks of an activation row (R242, R248). -/
def actBlocks (f : Fmt) (b : ByteList) : List OpBlock :=
  match f with
  | .int w => [0, 1].map fun h => ⟨127, (List.range 32).map fun i => packedInt w b (32 * h + i), false, false⟩
  | .bfp m => [0, 1].map fun h => bfpOp m (field b (h * (1 + 4 * m)) 1) (field b (h * (1 + 4 * m) + 1) (4 * m))
  | .fl g =>
    let n := (g.ebits + g.fbits + 1) / 8
    [0, 1].map fun h => alignBlock ((List.range 32).map fun i => fpVal g (field b (n * (32 * h + i)) n))
  | .t3p5 => []

/-- Whether a row's blocks are all zero (R248). -/
def zeroRow (isInt : Bool) (l : List OpBlock) : Bool := l.all fun b => if isInt then b.q.all (· == 0) else b.e == 0

/-! ## Accumulation (R67, R68) -/

/-- One lane under accumulation, with the sticky flags of its sums. -/
structure LaneAcc where
  v : Nat
  sat : Bool
  inf : Bool
  deriving DecidableEq, Repr

/-- Adds an exact integer to an INT32 lane (R68). -/
def addInt (a : LaneAcc) (p : Int) : LaneAcc :=
  let t := sextInt a.v 32 + p
  let r := satSigned t 32
  { a with v := (r % 2 ^ 32).toNat, sat := a.sat || r != t }

/-- Adds P × 2^(ew + ea − 254) to an FP32 lane (R67). -/
def addBlock (a : LaneAcc) (ew ea : Nat) (p : Int) : LaneAcc :=
  if ew = 255 ∨ ea = 255 then { a with v := 0x7FC00000 }
  else if ew = 0 ∨ ea = 0 then a
  else
    let t := fpAdd (fpVal fmtF32 a.v) (.fin (decide (p < 0)) p.natAbs ((ew + ea : Int) - 254))
    { a with v := roundF32 t, inf := a.inf || fpOverflows fmtF32 0 0 t }

/-- P of one block (R67). -/
def dotBlock (w : Array Int) (base : Nat) : List Int → Int
  | [] => 0
  | q :: r => w.getD base 0 * q + dotBlock w (base + 1) r

/-- The two steps of one output lane of a product (R248). -/
def dotLane (l : Latched) (isInt : Bool) (c : Nat) (a : LaneAcc) : Nat → List OpBlock → LaneAcc
  | _, [] => a
  | b, x :: r =>
    let p := dotBlock l.mant (64 * c + 32 * b) x.q
    dotLane l isInt c (if isInt then addInt a p else addBlock a (l.exp.getD (2 * c + b) 0) x.e p) (b + 1) r

/-- The 128 words of an accumulator row. -/
def rowWords (b : ByteList) : List Nat := (chunks 4 128 b).map leNat
def wordsRow (l : List Nat) : ByteList := l.flatMap (leBytes 4)

/-- Writes one accumulator row after an update of its lanes (R245): fresh lanes start from zero, others from what is stored. -/
def State.updateRow (s : State) (j : Job) (n : Nat) (fresh : Bool) (f : Nat → LaneAcc → LaneAcc) : Acc State :=
  let x := s.core j.core
  let o := x.rowOut j.bytes n
  let sp := x.regSpace (j.region 3)
  (s.inRegion j sp o (o + 512) true).next fun slot =>
  (if fresh then .ok (List.replicate 512 0#8, s) else s.engRead j sp o 512).next fun r =>
    let lanes := (rowWords r.1).mapIdx fun c v => f c ⟨v, false, false⟩
    (r.2.engPut j slot o (wordsRow (lanes.map (·.v)))).next fun t =>
      .ok (t.accrue j { TaskFlags.none with sat := lanes.any (·.sat), inf := lanes.any (·.inf) })

/-- Does something for iterations n, n + 1, … -/
def forRows (f : Nat → State → Acc State) : Nat → Nat → State → Acc State
  | 0, _, s => .ok s
  | k + 1, n, s => (f n s).next fun t => forRows f k (n + 1) t

/-! ## Products (R247, R248) -/

/-- A task that walks rows in passes, as units: each pass is its start and then its rows (R245, R321). -/
def passUnit (start : Job → Nat → State → Acc State) (row : Job → Nat → Nat → State → Acc State) (j : Job) (k : Nat) (s : State) : Acc State :=
  let g := recIters j.bytes + 1
  if k % g = 0 then start j (k / g) s else row j (k / g) (k % g - 1) s

/-- The units of such a task. -/
def passUnits (_s : State) (j : Job) : Nat := recNkp j.bytes * (recIters j.bytes + 1)

/-- Counts the rows of a pass when the first begins (R239). -/
def State.countRows (s : State) (j : Job) (p : Nat) : State :=
  if p = 0 then s.accrue j { TaskFlags.none with count := recIters j.bytes } else s

/-- The start of a pass of MM or MMZ (R247, R411): pass 0 takes the latch as it stands, a later one latches its weights. -/
def State.productStart (zeroSkip : Bool) (j : Job) (p : Nat) (s : State) : Acc State :=
  let r := j.bytes
  if !(s.core j.core).lval then .bad ⟨0x402, 0, 0⟩
  else if p = 0 then .ok (if zeroSkip then s else s.countRows j 0)
  else
    let code := (s.core j.core).lfmt
    let fs := latchFrames ((fmtOf code).getD (.int 8))
    s.loadLatch j code (recPar r 23 16 + (p - 1) * fs) (recPar r 31 24) (recPar r 36 32 + p - 1)

/-- A row of a pass of MM or MMZ. DESIGN CHOICE (log 90): a row that MMZ skips is written with what MM gives, also where a weight's exponent is 255, or the stored row holds −0 or a NaN, and that is not what was stored. -/
def State.productRow (zeroSkip : Bool) (j : Job) (p n : Nat) (s : State) : Acc State :=
  let r := j.bytes
  let l := (s.core j.core).latched
  let f := (fmtOf (recAfmt r)).getD (.int 8)
  let isInt := f.isInt && ((fmtOf l.fmt).getD (.int 8)).isInt
  (s.readRow j p n).next fun a =>
    let bs := actBlocks f a.1
    let skip := zeroSkip && zeroRow f.isInt bs
    let v := a.2.accrue j { TaskFlags.none with nanb := l.exp.any (· == 255) || bs.any (·.nanb), count := if skip then 1 else 0 }
    v.updateRow j n (p == 0 && recPar r 0 0 == 0) fun c acc => dotLane l isInt c acc 0 bs

/-- MM (R247, R248). -/
def execMm (core entry : Nat) (s : State) : Host.Outcome State Fault Refusal :=
  s.runTask core entry 0x02 passUnits (passUnit (State.productStart false) (State.productRow false))
/-- MMZ (R248): the results of MM; COUNT is the rows skipped. -/
def execMmz (core entry : Nat) (s : State) : Host.Outcome State Fault Refusal :=
  s.runTask core entry 0x08 passUnits (passUnit (State.productStart true) (State.productRow true))

/-! ## Ranking (R250, R251) -/

/-- Whether one score comes before another (R250): NaN comes after every number. -/
def scoreBefore (dir : Bool) (x y : Fp) : Bool :=
  if x.isNan then false else if y.isNan then true else if dir then fpLt x y else fpLt y x

/-- The ranks of one row (R250). -/
def ranksOf (dir : Bool) (n : Nat) (w : List Nat) : List Nat :=
  let v := w.map (fpVal fmtF32)
  let live := v.take n
  v.mapIdx fun i x =>
    if i ≥ n then i
    else (live.filter (scoreBefore dir · x)).length
      + ((live.take i).filter fun y => !scoreBefore dir y x && !scoreBefore dir x y).length

/-- Leaves the latch invalid (R241). -/
def State.spoilLatch (s : State) (j : Job) : State := s.onCore j.core fun x => { x with lval := false }

/-- Reads row g of the scores. -/
def State.scoreRow (s : State) (j : Job) (g : Nat) : Acc (List Nat × State) :=
  (s.readStream j 0 (512 * g) 512).next fun r => .ok (rowWords r.1, r.2)

/-- A ranking task, as units: its start, at which the latch is lost, and then its rows (R241, R250). -/
def rankUnit (row : Job → Nat → State → Acc State) (j : Job) (k : Nat) (s : State) : Acc State :=
  if k = 0 then .ok (s.spoilLatch j) else row j (k - 1) s

/-- The units of such a task. -/
def rankUnits (s : State) (j : Job) : Nat := (s.core j.core).regBytes (j.region 0) / 512 + 1

/-- A row of MMC (R250). -/
def mmcRow (j : Job) (g : Nat) (s : State) : Acc State :=
  (s.scoreRow j g).next fun q =>
    q.2.writeStream j 3 (512 * g) (wordsRow (ranksOf (recPar j.bytes 8 8 == 1) (recPar j.bytes 7 0) q.1))
/-- MMC (R250). -/
def execMmc (core entry : Nat) (s : State) : Host.Outcome State Fault Refusal :=
  s.runTask core entry 0x03 rankUnits (rankUnit mmcRow)

/-- A row of TOPK (R251). -/
def topkRow (j : Job) (g : Nat) (s : State) : Acc State :=
  let r := j.bytes
  let k := min (recPar r 15 8) (recPar r 7 0)
  (s.scoreRow j g).next fun q =>
    let ranks := ranksOf (recPar r 16 16 == 1) (recPar r 7 0) q.1
    let lanes := (List.range 128).map fun p => if p < k then ranks.findIdx? (· == p) else none
    (q.2.writeStream j 3 (512 * g) (wordsRow (lanes.map fun o => match o with
      | some i => q.1.getD i 0
      | none => 0))).next fun w =>
    (w.writeStream j 4 (512 * g) (wordsRow (lanes.map fun o => match o with
      | some i => i
      | none => 2 ^ 32 - 1))).next fun w2 =>
    .ok (w2.accrue j { TaskFlags.none with count := k })
/-- TOPK (R251). -/
def execTopk (core entry : Nat) (s : State) : Host.Outcome State Fault Refusal :=
  s.runTask core entry 0x04 rankUnits (rankUnit topkRow)

/-! ## Generated matrices (R252 to R254) -/

/-- Element k of an activation row as PERM gives it to a lane (R252): a word, with INF and NANB. -/
def permWord (f : Fmt) (b : ByteList) (k : Nat) : Nat × Bool × Bool :=
  match f with
  | .int w => ((packedInt w b k % 2 ^ 32).toNat, false, false)
  | .bfp m =>
    let o := (k / 32) * (1 + 4 * m)
    let v := bfpVal (field b o 1) (bfpMant m (field b (o + 1) (4 * m)) (k % 32))
    (roundF32 v, fpOverflows fmtF32 0 0 v, v.isNan)
  | .fl g => let n := (g.ebits + g.fbits + 1) / 8; (ieeeF32 (fpVal g (field b (n * k) n)), false, false)
  | .t3p5 => (0, false, false)

/-- The start of a pass of PERM or RSUM: the latch is lost (R241). -/
def generatedStart (j : Job) (p : Nat) (s : State) : Acc State := .ok ((s.countRows j p).spoilLatch j)

/-- Reads the 512 bytes of PERM's index row, which must lie in RG1 (R119, R252). -/
def State.indexRow (s : State) (j : Job) : Acc (List Int × State) :=
  let x := s.core j.core
  let g := j.region 1
  if x.regBytes g < 512 then .bad (x.regionFault j.bytes j.vbase (x.regSpace g) (x.regLo g + x.regBytes g) false)
  else (s.readStream j 1 0 512).next fun r => .ok ((rowWords r.1).map fun v => sextInt v 32, r.2)

/-- A row of a pass of PERM (R252): pass p gives the lanes whose index lies in its 64 elements; pass 0 clears the others. DESIGN CHOICE (log 91): the index row is read with every row. -/
def permRow (j : Job) (p n : Nat) (s : State) : Acc State :=
  let f := (fmtOf (recAfmt j.bytes)).getD (.int 8)
  (s.indexRow j).next fun ix =>
  (ix.2.readRow j p n).next fun a =>
    let el := (List.range 64).map (permWord f a.1)
    let pick := fun (c : Nat) =>
      let i := ix.1.getD c (-1)
      if 64 * (p : Int) ≤ i ∧ i < 64 * (p : Int) + 64 then el[(i - 64 * (p : Int)).toNat]? else none
    let used := (List.range 128).filterMap pick
    (a.2.accrue j { TaskFlags.none with nanb := used.any (·.2.2), inf := used.any (·.2.1) }).updateRow j n (p == 0) fun c acc =>
      match pick c with
      | some e => { acc with v := e.1 }
      | none => acc
/-- PERM (R252). -/
def execPerm (core entry : Nat) (s : State) : Host.Outcome State Fault Refusal :=
  s.runTask core entry 0x05 passUnits (passUnit generatedStart permRow)

/-- P of block b of pass p for lane c of RSUM: the elements of its group (R253). -/
def groupSum (gs c at_ : Nat) : List Int → Int
  | [] => 0
  | q :: r => (if at_ / gs = c then q else 0) + groupSum gs c (at_ + 1) r

/-- A row of a pass of RSUM (R253). -/
def rsumRow (j : Job) (p n : Nat) (s : State) : Acc State :=
  let r := j.bytes
  let f := (fmtOf (recAfmt r)).getD (.int 8)
  let gs := recPar r 27 16
  (s.readRow j p n).next fun a =>
    let bs := actBlocks f a.1
    (a.2.accrue j { TaskFlags.none with nanb := bs.any (·.nanb) }).updateRow j n (p == 0 && recPar r 0 0 == 0) fun c acc =>
      if c * gs ≥ 64 * recNkp r then acc
      else (bs.zipIdx).foldl (fun y q =>
        let t := groupSum gs c (64 * p + 32 * q.2) q.1.q
        if f.isInt then addInt y t else addBlock y 127 q.1.e t) acc
/-- RSUM (R253): a lane with no element in the K range keeps its starting value. -/
def execRsum (core entry : Nat) (s : State) : Host.Outcome State Fault Refusal :=
  s.runTask core entry 0x06 passUnits (passUnit generatedStart rsumRow)

/-- What TRN makes of an element (R254). DESIGN CHOICE (log 92): the spec states no result for the five trits of a T3P5 byte: a free value. -/
def trnWord (f : Fmt) (v : Nat) : Nat :=
  match f with
  | .fl g => ieeeF32 (fpVal g v)
  | .t3p5 => (Config.openTrits v).toNat
  | _ => (sextInt v f.unitBits % 2 ^ 32).toNat

/-- What TRN does (R254): the whole tile is read before a row is written; a row that meets a cause leaves those before it (R321). -/
def trnUnit (j : Job) (_k : Nat) (u : State) : Acc State :=
  let r := j.bytes
  let x := u.core j.core
  let f := (fmtOf (recAfmt r)).getD (.int 8)
  let es := f.unitBits / 8
  let nr := recPar r 6 0 + 1
  let nc := recPar r 13 8 + 1
  let at_ := fun i => x.regLo (j.region 0) + i * recPar r 31 16
  match (List.range nr).find? fun i => !(x.regionFor r j.vbase 0 (at_ i) (at_ i + nc * es) false).isSome with
  | some i => .bad (x.regionFault r j.vbase 0 (at_ i) false)
  | none =>
    (State.engReads j 0 ((List.range nr).map fun i => (at_ i, nc * es)) (u.spoilLatch j)).next fun t =>
      let b := t.1.toArray
      let raw := fun (i k : Nat) => leNat ((List.range es).map fun q => b.getD ((i * nc + k) * es + q) 0#8)
      let bad := f == .t3p5 && b.any fun v => !t3p5Ok v.toNat
      forRows (fun k v =>
        let o := x.rowOut r k
        Acc.keep v ((v.inRegion j 0 o (o + 512) true).next fun slot =>
          v.engPut j slot o (wordsRow ((List.range 128).map fun i => if i < nr then trnWord f (raw i k) else 0)))) nc 0
        (t.2.accrue j { TaskFlags.none with badt := bad })
/-- TRN (R254). -/
def execTrn (core entry : Nat) (s : State) : Host.Outcome State Fault Refusal :=
  s.runTask core entry 0x07 (fun _ _ => 1) trnUnit

end Sys2Proof.Machine
end

