-- ==== Sys2Proof/Machine/ImageCheck.lean ====
section
/-! DEFINITION. The checks that a checkpoint image must pass before a part is resumed from it (R325 to R335, R434). -/
namespace Sys2Proof.Machine

/-! ## The header and the offsets (R325) -/

def imageCores (b : ByteList) : Nat := field b 0x18 2
def imageCtxs (b : ByteList) : Nat := field b 0x1A 2
def imageLength (b : ByteList) : Nat := field b 0x10 8
def imageAdir (b : ByteList) : Nat := field b 0x28 8
/-- The offset of a core record, and behind the last one that of the first context record. -/
def recordAt (b : ByteList) (i : Nat) : Nat := if i < imageCores b then field b (0x108 + 16 * i) 8 else imageAdir b

/-- Whether SIZE, ADIR or an offset is not what NCORE, NACTX and the lengths of the core records give. -/
def offsetsBad (b : ByteList) : Bool :=
  let n := imageCores b
  recordAt b 0 != firstRecord n
  || (List.range n).any (fun i =>
    let len := recordAt b (i + 1) - recordAt b i
    decide (recordAt b (i + 1) < recordAt b i + 0x249000) || (len - 0x249000) % 0x10000 != 0 || decide ((len - 0x249000) / 0x10000 > 32))
  || imageLength b != imageAdir b + 1024 * imageCtxs b

def imageCountsBad (b : ByteList) : Bool := imageCores b == 0 || decide (imageCores b > 1024) || decide (imageCtxs b > 1024)

/-- Fields of the header and the directory: those reserved, REASON, KEYID's top bit, GIDX and GMAP outside a gang launch, the logical core numbers. -/
def headerBad (b : ByteList) (gang : Bool) : Bool :=
  decide (field b 6 2 > 3) || decide (field b 0x1C 1 ≥ 128) || field b 0x1D 1 != 0 || field b 0x38 8 != 0 || field b 0x80 128 != 0
  || (!gang && (field b 0x1E 2 != 0 || field b 0x30 8 != 0))
  || (List.range (imageCores b)).any fun i => field b (0x100 + 16 * i) 8 != i

/-! ## Core records (R75, R93, R326 to R333) -/

/-- A word of the scratchpad map (R75). -/
def spmEntryOf (v : Nat) : SpmEntry := ⟨v % 256, v / 2 ^ 8 % 256, v.testBit 16, v.testBit 17, false⟩

/-- The scratchpad map of a record. -/
def recordMap (r : ByteList) : Tab SpmEntry :=
  ((List.range 256).map fun n => (n, spmEntryOf (field r (0x100 + 4 * n) 4))).filter fun p => p.2 != SpmEntry.reset

/-- The window entries that a record lists. -/
def entryStateAt (r : ByteList) (n : Nat) : ByteList := slice r (0x13000 + 128 * n) 128
def occupied (r : ByteList) : NatList := (List.range 256).filter fun n => field r (0x13000 + 128 * n) 1 != 0

/-- Whether the core header breaks its ranges; partw is the partition word of the launch. -/
def coreHeaderBad (r : ByteList) (l : Nat) (partw : Word32) (handles : Nat) : Bool :=
  let x : Core := { Core.reset with partw := partw, spm := recordMap r }
  let stt := BitVec.ofNat 64 (field r 0x20 8)
  field r 0 4 != l || field r 4 4 != partw.toNat || decide (field r 0x0C 4 ≥ 2 ^ x.ac)
  || field r 0x14 4 != 0 || field r 0x1C 4 != 0 || bitsOf stt 63 47 != 0 || x.sttBad stt
  || decide (field r 0x2C 1 > 1) || (field r 0x2C 1 == 1 && (fmtOf (field r 0x2D 1)).isNone) || field r 0x2E 2 != 0
  || decide (field r 0x30 32 ≥ 2 ^ (8 * x.sp)) || decide (field r 0x50 4 > 64) || field r 0x54 172 != 0 || field r 0x900 0x700 != 0
  || (List.range 256).any (fun n =>
    let v := field r (0x100 + 4 * n) 4
    let e := spmEntryOf v
    decide (v ≥ 2 ^ 18) || (e.v && decide (e.frame ≥ 8 * x.sp)) || (e.shv && decide (e.shf ≥ 8 * x.sp)))
  || (List.range 32).any fun n =>
    let v := field r (0x500 + 32 * n) 8
    decide (v ≥ 2 ^ 16) || (v % 4 == 1 && decide (v / 16 ≥ handles))

/-- Whether a strand record breaks its ranges (R328). -/
def strandBad (x : Core) (q : ByteList) : Bool :=
  field q 8 4 % 4 == 3 || decide (field q 8 4 ≥ 64) || decide (field q 0x0C 4 ≥ 2 ^ 24)
  || field q 0x10 2 / 8 != 0 || field q 0x14 4 != 0 || field q 0x18 1 / 8 != 0 || field q 0x1A 6 != 0 || field q 0x30 16 != 0
  || field q 0x260 8 % 4 != 0 || field q 0x268 8 % 64 != 0 || field q 0x268 8 / 2 ^ 21 != 0 || field q 0x270 8 / 2 ^ 12 != 0
  || decide (field q 0x280 4 > 16) || field q 0x284 12 != 0 || (frameEntries q).any x.replayBad || field q 0x590 0x270 != 0

/-- Whether the vector kernel record breaks its ranges (R330). -/
def kernelBad (ac : Nat) (r k : ByteList) : Bool :=
  field k 0x13 1 / 32 != 0
  || (field k 0x13 1 % 2 == 1 &&
    (field k 0x10 2 / 2 ^ 11 != 0 || decide (field k 0x10 2 + 63 ≥ ac * 128) || decide (field k 0x12 1 > 4) || decide (field k 0x14 4 > 8)
    || !(occupied r).contains (field k 0x18 8) || recOper (slice r (0xB000 + 128 * field k 0x18 8) 128) != 0x20 || field k 0x180 128 != 0
    || (List.range (field k 0x12 1)).any (fun i => field k (0x2C + 16 * i) 4 != 0)
    || (List.range (field k 0x14 4)).any fun i =>
      let o := 0x200 + 576 * i
      field k (o + 4) 1 == 0 || decide (field k (o + 4) 1 > 8) || field k (o + 5) 27 != 0
      || (VReplay.word1 ⟨BitVec.ofNat 32 (field k o 4), 0, 0, 0⟩).isNone))

/-- Whether a catch-barrier block breaks its ranges (R331). -/
def catchBlockBad (b : ByteList) : Bool :=
  let h := field b 0 16
  decide (h % 32 > 16) || h / 2 ^ 5 % 8 != 0 || h / 2 ^ 16 != 0 || (h.testBit 8 && decide (h / 2 ^ 12 % 16 ≥ h % 32))
  || (List.range 16).any fun i =>
    let v := field b (16 + 16 * i) 16
    v / 2 ^ 52 % 2 ^ 12 != 0 || v / 2 ^ 88 != 0

/-- Whether a window entry breaks its ranges (R332). -/
def windowEntryBad (ac sp : Nat) (r : ByteList) (occ : NatList) (n : Nat) : Bool :=
  let e := entryStateAt r n
  let b := slice r (0xB000 + 128 * n) 128
  field e 0 1 != 0 &&
  (decide (field e 0 1 > 4) || field e 1 1 / 64 != 0 || decide (field e 2 2 ≥ occ.length)
  || (occ.any fun m => m != n && field (entryStateAt r m) 2 2 == field e 2 2)
  || ((ofMask 256 (field e 0x10 32 ||| field e 0x30 32)).any fun m => !occ.contains m)
  || field e 0x50 2 / 2 ^ 11 != 0 || (recOper b == 0x20 && decide (field e 0x50 2 + 63 ≥ ac * 128)) || (recOper b != 0x20 && field e 0x50 2 != 0)
  || field e 0x52 6 != 0 || field e 0x58 4 % 2 != 0 || field e 0x58 4 / 64 != 0 || decide (field e 0x60 32 ≥ 2 ^ (8 * sp))
  || ((operRow b).map (·.cls)) != some (recCls b))

/-- The place of entry i of a copy channel. -/
def chanEntryAt (r : ByteList) (ch i : Nat) : ByteList := slice r (0x22000 + 16384 * ch + 128 * i) 128

/-- Whether a copy channel breaks its ranges (R326, R333). -/
def chanBad (r : ByteList) (occ : NatList) (ch : Nat) : Bool :=
  let h := field r (0x21000 + 32 * ch) 32
  decide (h % 256 > 128) || decide (h / 256 % 256 > 127) || h / 2 ^ 16 != 0
  || (List.range (min 128 (h % 256))).any fun i =>
    let e := chanEntryAt r ch ((h / 256 + i) % 128)
    decide (field e 0x4C 1 > 2) || field e 0x50 48 != 0
    || (field e 0x4C 1 == 1 && (!occ.contains (field e 0x4D 1) || recCls (slice r (0xB000 + 128 * field e 0x4D 1) 128) != 3))
    || (field e 0x4C 1 == 2 && decide (field e 0x4E 2 ≥ 1024))

/-- Whether a core record breaks the ranges of its fields or has not the length that PARTW and SAVEDM give; the collective exchange state is not checked. -/
def coreRecordBad (r : ByteList) (l : Nat) (p : Part) : Bool :=
  let x : Core := { Core.reset with partw := p.partw, handles := p.handles, lcore := l }
  let occ := occupied r
  coreHeaderBad r l p.partw p.handles.length || r.length != recordLen x.ac (ofMask 32 (field r 0x0C 4)).length
  || ((List.range 4).any fun k => strandBad x (slice r (0x1000 + 0x800 * k) 0x800)) || kernelBad x.ac r (slice r 0x3000 0x1400)
  || field r 0x4400 0xC00 != 0 || ((List.range 512).any fun n => field r (0x5000 + 4 * n) 4 / 2 ^ 20 != 0) || field r 0x5C00 0x400 != 0
  || ((List.range 64).any fun n => catchBlockBad (slice r (0x6000 + 272 * n) 272)) || field r 0xA400 0xC00 != 0
  || ((List.range 256).any (windowEntryBad x.ac x.sp r occ)) || ((List.range 8).any (chanBad r occ)) || field r 0x21100 0xF00 != 0
  || ((List.range 1024).any fun n => decide (field r (0x42008 + 16 * n) 1 > 2) || field r (0x4200E + 16 * n) 2 != 0) || field r 0x48100 0xF00 != 0

/-! ## Context records (R334) -/

def ctxBad (p : Part) (cores : Nat) (b : ByteList) : Bool :=
  decide (field b 0 2 ≥ p.progs.length) || decide (field b 2 2 ≥ cores) || decide (field b 4 1 > 7) || decide (field b 5 1 > 63)
  || decide (field b 6 1 > 3) || decide (field b 7 1 > 16)
  || decide (field b 8 2 > ((p.progs[field b 0 2]?).map (·.len / 4)).getD 0) || decide (field b 0x0A 2 > 15) || field b 0x0F 1 != 0
  || ((List.range 16).any fun i => field b (0x16 + 8 * i) 2 != 0) || ((List.range 8).any fun i => decide (field b (0x90 + 2 * i) 2 ≥ 2 ^ 12))
  || field b 0x120 736 != 0

/-- The context records of an image. -/
def ctxRecords (b : ByteList) : List ByteList := (List.range (imageCtxs b)).map fun i => slice b (imageAdir b + 1024 * i) 1024
/-- Those of contexts that have not ended. -/
def liveCtxs (b : ByteList) : List ByteList := (ctxRecords b).filter fun r => !(field r 6 1).testBit 1

/-- Whether the contexts of an image break their ranges, share a stream number, or are more than their programs reserve. -/
def ctxsBad (b : ByteList) (p : Part) : Bool :=
  let l := liveCtxs b
  (ctxRecords b).any (ctxBad p (imageCores b))
  || ((l.map fun r => (field r 2 2, field r 4 1)).eraseDups.length != l.length)
  || p.progs.zipIdx.any fun q => decide ((l.filter fun r => field r 0 2 == q.2).length > q.1.nctx)

/-- The core records of an image. -/
def coreRecords (b : ByteList) : List ByteList :=
  (List.range (imageCores b)).map fun i => slice b (recordAt b i) (recordAt b (i + 1) - recordAt b i)

/-- Whether a field anywhere in an image is outside its range, for a part as its launch record and tables give it (R434, check 5). -/
def imageBad (b : ByteList) (p : Part) (cores : Nat) : Bool :=
  headerBad b p.gang || imageCores b != cores || ctxsBad b p || (coreRecords b).zipIdx.any fun q => coreRecordBad q.1 q.2 p

end Sys2Proof.Machine
end

