-- ==== Sys2Proof/Machine/Save.lean ====
section
/-! DEFINITION. Saves of a launch part: the forced decision, the boundary at which every unit has stopped, the image and its failures, and what follows (R322 to R326, R336, R355, R356, R418, R432, R433). -/
namespace Sys2Proof.Machine

/-- YIELD_DEADLINE (R322, R323): the deadline has come, and the save decision is forced. -/
def execYieldDeadline (part : Nat) (s : State) : Host.Outcome State Fault Refusal :=
  let p := s.part part
  let now : Word32 := s.tick.truncate 32
  if p.phase == .running && p.yreq && decide ((now - p.dltick).toNat < 2 ^ 31) then .next (s.askSave part 2) else .next s

/-! ## The collector (R324) -/

/-- Whether a unit belongs to a part. -/
def State.ownsUnit (s : State) (p : Nat) : UnitRef → Bool
  | .kernel c => (s.part p).cores.contains c
  | .task c _ => (s.part p).cores.contains c
  | .chan c _ => (s.part p).cores.contains c
  | .ctx m x => ((s.ctx m x).map (·.part)) == some p

/-- A strand at a boundary with its loads inside (R317, R324). -/
def Strand.atStop (t : Strand) : Bool := !t.finishing && t.loads.all (·.val.isSome)

/-- A core whose strands, kernel, engines and collectives have reached their points (R267, R269, R275, R324). -/
def State.coreStopped (s : State) (c : Nat) : Bool :=
  let x := s.core c
  !x.frozen && x.strands.toList.all Strand.atStop
  && ((x.kernel.map fun k => k.held || k.latches.toList.all fun l => !l.armed).getD true)
  && !(x.window.any fun p => s.exchanging c p.1 || (p.2.st == .running && p.2.midway x))

/-- Whether every unit of a part has acknowledged (R324): stores and copies are performed, pushes have landed, contributions that have left the module are acknowledged, and no report of a unit waits for the firmware. -/
def State.allStopped (s : State) (p : Nat) : Bool :=
  let y := s.part p
  y.cores.all s.coreStopped
  && !(s.requests.any fun r => s.partOwns p r.whose) && !(s.posted.any fun q => y.cores.contains q.core) && !s.contribsOut y.key
  && !(s.dies.any fun d => d.2.causal.any fun e => y.cores.contains e.core && !e.data.isEmpty)
  && (s.ctxs.all fun t => t.2.part != p || t.2.pushes.isEmpty)
  && !(s.traps.any fun t => s.ownsUnit p t.unit && !t.held)

/-- The writes of a part's strands to host memory that nothing has pushed yet are pushed (R114, R324; log 84). -/
def State.pushPosted (s : State) (p : Nat) : State :=
  (s.part p).cores.foldl (fun t c => (List.range 4).foldl (fun u k => u.pushWrites c k fun slot _ => slot == k) t) s

/-- A strand whose held TBAR or PUB has had its event stands past that instruction (R336). -/
def State.pastHold (s : State) (c : Nat) (t : Strand) : Strand :=
  match t.hold with
  | some h => (match h.instr with
    | .tbar _ lvl =>
      let p := s.corePart c
      if (p.barAt lvl (p.teamKey lvl t.team)).gen.toNat = h.gen then t else { t with hold := none, pc := t.pc + 4 }
    | .pub _ _ => if h.ids.any s.pubOpen then t else { t with hold := none, pc := t.pc + 8 }
    | _ => t)
  | none => t

/-- A strand comes to rest: its loads return, an event it holds for is seen, and an access of its that has failed traps at this boundary (R317, R336, R453). -/
def State.restStrand (s : State) (c k : Nat) : State :=
  let t := s.pastHold c (s.strand c k).landAll
  match t.failed with
  | f :: r =>
    if (t.hold.map Hold.kept).getD false then s.setStrand c k t
    else (s.setStrand c k { t with failed := r }).takeTrapAt c k f.cause f.info f.info1 (f.place.getD t.pc.toNat)
  | [] => s.setStrand c k t

/-- Accesses of a core that have reached memory are performed, and a value waiting for STTCFG is withdrawn with its instruction (R93, R200). -/
def Core.rest (x : Core) : Core := { x with items := x.items.filter fun i => !i.kind.isAccess, sttPend := none }

/-- Ends the contexts of a part that were stopping (R146). -/
def State.dropEnded (s : State) (p : Nat) : State :=
  s.ctxs.foldl (fun t q =>
    if q.2.part == p && q.2.stopping then
      { t.onCore q.2.core (fun x => x.setBar q.2.bar { x.bar q.2.bar with stream := none }) with ctxs := tabDel t.ctxs q.1 }
    else t) s

/-- Every unit of a part at rest. -/
def State.restPart (s : State) (p : Nat) : State :=
  ((s.part p).cores.foldl (fun t c => ((List.range 4).foldl (fun u k => u.restStrand c k) t).onCore c Core.rest) s).dropEnded p

/-- The dies no longer know what units of a part have asked for; it is asked for again at resume (R116, R200). -/
def State.withdraw (s : State) (p : Nat) : State :=
  let cs := (s.part p).cores
  let ids := cs.flatMap fun c => (s.core c).strands.toList.flatMap fun t => (t.hold.map (·.ids)).getD []
  { s with
    dies := s.dies.map fun d => (d.1,
      { d.2 with
        bindAsk := d.2.bindAsk.filter fun q => !s.ownsUnit p q.2
        pubHeld := d.2.pubHeld.filter fun q => !(match q.entry with
          | some e => cs.contains (e / 256)
          | none => ids.contains q.id) }) }

/-! ## Writing the image (R325, R433) -/

/-- The address of a checkpoint slot (R341). -/
def Queue.slotAddr (x : Queue) (n : Nat) : Nat := x.ckbase.toNat + n * bitsOf x.ckcfg 47 16 * 2 ^ 20

/-- Offsets in the image of the poisoned words that its memory parts hold. -/
def State.poisonOffsets (s : State) (p : Nat) : NatList :=
  let cs := s.coresInOrder p
  let lens := cs.map fun c => recordLen (s.core c).ac (s.core c).savedTiles.length
  (cs.zip (recordOffsets (firstRecord cs.length) lens)).flatMap fun q =>
    let parts := (s.core q.1).memParts q.1 (s.core q.1).savedTiles
    (parts.zip (recordOffsets (q.2 + 0x49000) (parts.map (·.2)))).flatMap fun m =>
      (s.poisoned.filter fun w => decide (m.1.1 ≤ 8 * w) && decide (8 * w < m.1.1 + m.1.2)).map fun w => m.2 + (8 * w - m.1.1)

/-- The first block of a write that meets a cause, with the cause. -/
def State.stopAt (s : State) (w : Who) : List (Nat × Nat) → Option (Nat × Cause)
  | [] => none
  | (a, n) :: r =>
    match s.pieces w .write false a n with
    | .error x => some (a, x)
    | .ok ps =>
      match s.stops w true false (ps.map (·.1)) with
      | some x => some (a, x)
      | none => State.stopAt s w r

/-- Where a write of n bytes stops, and why: a cause on the way, or the end of the address space. -/
def State.imageStop (s : State) (w : Who) (a n : Nat) : Option (Nat × Cause) :=
  let m := min n (2 ^ 57 - a)
  match s.stopAt w (if m = 0 then [] else blocksOf a m) with
  | some x => some x
  | none => if m < n then some (a + m, ⟨0x301, BitVec.ofNat 64 (a + m), 0⟩) else none

/-- The subcode of SAVEFAIL for a cause on the buffer (R433). -/
def saveSub (code : Nat) : Nat := if code / 256 = 7 ∨ code / 256 = 10 ∨ code / 256 = 11 then 4 else 2

/-- Bytes written before a write stopped hold no image; what they hold is free (R433, log 20). -/
def State.spoil (s : State) (w : Who) (a n : Nat) : State :=
  match s.writeG w false a ((List.range n).map fun i => Config.savedByte s.steps (a + i)) with
  | .ok t => t
  | .error _ => s

/-- Stores the image of a part at rest, and frees its cores and contexts (R47, R324). -/
def State.storeImage (s : State) (p : Nat) (w : Who) (a : Nat) : State :=
  let t := ((s.withdraw p).freePart p).onPart p fun y => { y with cores := [], homes := s.coresInOrder p, bars := [], image := some a }
  match t.writeG w false a (s.imageBytes p) with
  | .ok u => u
  | .error _ => t

/-- A write of the image met a cause at an address (R433): the save fails, or waits (R92, R347). -/
def State.imageFails (s : State) (p : Nat) (w : Who) (a at_ : Nat) (c : Cause) : State :=
  if c.waits then s.await w c
  else ((s.meetRefusal c.code c.info1).spoil w a (at_ - a)).saveFail p (saveSub c.code) (BitVec.ofNat 64 at_) (BitVec.ofNat 64 c.code)

/-- Writes the image of a part at rest; or the save fails (R433). -/
def State.writeImage (s : State) (p : Nat) : State :=
  let y := s.part p
  let x := s.queue y.queue
  let a := x.slotAddr y.slot
  let w := { s.partWho p y with req := .save p }
  if s.imageSize p > bitsOf x.ckcfg 47 16 * 2 ^ 20 then s.saveFail p 1 0 0
  else match s.imageStop w a (((s.poisonOffsets p).min?).getD (s.imageSize p)), (s.poisonOffsets p).min? with
  | some (at_, c), _ => s.imageFails p w a at_ c
  | none, some o => (s.spoil w a o).saveFail p 3 (BitVec.ofNat 64 (a + o)) 0x702
  | none, none => s.storeImage p w a

/-- SAVE_STOPPED (R324): the collector holds every acknowledgement, and the image is written. -/
def execSaveStopped (part : Nat) (s : State) : Host.Outcome State Fault Refusal :=
  let p := s.part part
  if p.phase != .saving || p.image.isSome then .next s
  else if !s.allStopped part then .next (s.pushPosted part)
  else
    let t := s.restPart part
    .next (if (t.part part).phase == .saving then t.writeImage part else t)

/-! ## After the image (R324, R336, R355, R356) -/

/-- Parts that wait for cores, the highest queue priority first. -/
def State.waitingParts (s : State) : NatList :=
  ((s.parts.filter fun p => p.2.phase == .waiting).mergeSort fun a b =>
    decide ((s.queue a.2.queue).prio ≥ (s.queue b.2.queue).prio)).map (·.1)

/-- PREEMPTION_COMPLETE (R324, R336, R354 to R356): the packet of a halted part completes with STATUS 1, that of one which PREEMPT saved with STATUS 2; any other part waits to be resumed. Then the highest waiting request is decided. -/
def execPreemptionComplete (part : Nat) (s : State) : Host.Outcome State Fault Refusal :=
  let p := s.part part
  if p.phase != .saving || p.image.isNone || (s.requests.any fun r => r.whose == .save part) then .next s
  else
    let ends := p.reason == 3 || p.hosted
    let t := s.onPart part fun y => { y with phase := if ends then .complete else .saved }
    let u := if ends then t.finishPacket p.queue p.pid (if p.reason = 3 then 1 else 2) p.slot else t
    .next (match u.waitingParts with
      | q :: _ => u.seekVictims q
      | [] => u)

end Sys2Proof.Machine
end

