-- ==== Sys2Proof/Machine/Resume.lean ====
section
/-! DEFINITION. Resuming a launch part from a checkpoint image: the checks, the restored units, and the events of a resume (R31, R45, R74, R95, R111, R116, R132, R200, R326 to R336, R355, R356, R418, R434). -/
namespace Sys2Proof.Machine

/-! ## Reading and checking an image (R325, R335, R434) -/

/-- RESUMEBAD with its subcode and the image address. -/
def resumeCause (sub : Nat) (a : Word64) : Cause := ⟨0x804, BitVec.ofNat 64 sub, a⟩

/-- A cause met while an image is read: RESUMEBAD, subcode 5; a held read stays one. -/
def readCause (a : Word64) (x : Cause) : Cause := if x.waits then x else resumeCause 5 a

/-- Reads an image whose header and offsets are right; key is the identifier that its bytes must name. -/
def State.readImage (s : State) (w : Who) (key : Nat) (a : Word64) : Except Cause ByteList :=
  match s.readForm w a 256 with
  | .error x => .error (readCause a x)
  | .ok h =>
    if field h 0 4 ≠ 0xD8C45A7E ∨ field h 4 2 ≠ 1 then .error (resumeCause 1 a)
    else if field h 0x1C 1 % 128 ≠ key then .error (resumeCause 2 a)
    else if imageCountsBad h then .error (resumeCause 4 a)
    else match s.readForm w a (0x100 + 16 * imageCores h) with
    | .error x => .error (readCause a x)
    | .ok d =>
      if offsetsBad d then .error (resumeCause 4 a)
      else match s.readForm w a (imageLength d) with
      | .error x => .error (readCause a x)
      | .ok b => .ok b

/-- A part as the image and its launch record, read again, give it (R45, R335): it waits for cores. -/
def Part.fromImage (p : Part) (b : ByteList) (a : Word64) : Part :=
  { p with
    image := some a.toNat, phase := .waiting, lrec := field b 8 8, gidx := field b 0x1E 2, gmap := field b 0x30 8
    homes := (coreRecords b).map fun r => field r 0x5800 4 % 1024 }

/-- The part that an image names, or the cause that refuses it (R434): the checks in their order. -/
def State.checkImage (s : State) (w : Who) (key : Nat) (p : Part) (a : Word64) : Except Cause Part :=
  match s.readImage w key a with
  | .error x => .error x
  | .ok b =>
    if slice b 0x40 64 ≠ shake256 (slice b 0 64 ++ b.drop 0x100) then .error (resumeCause 3 a)
    else match s.checkLaunch w key (p.fromImage b a) with
    | .error x => .error (if x.waits then x else resumeCause (if x.code / 256 = 5 ∨ x.code / 256 = 3 then 4 else 5) a)
    | .ok q => if imageBad b q (layoutCores (layoutOf 0 q.levels)).length then .error (resumeCause 4 a) else .ok q

/-- Frees the checkpoint slot in which an image lies (R355). -/
def State.freeSlotOf (s : State) (q : Nat) (a : Nat) : State :=
  let x := s.queue q
  { s with queues := s.queues.map fun p => (p.1,
      if p.2.keyid = x.keyid ∧ p.2.ptroot = x.ptroot then
        (List.range (bitsOf p.2.ckcfg 3 0)).foldl (fun (y : Queue) n =>
          if y.used.testBit n && y.slotAddr n == a then { y with used := y.used ^^^ 2 ^ n } else y) p.2
      else p.2) }

/-- RESUME (R335, R355, R356, R434): checks the image, and asks for cores. -/
def execResume (q pid : Nat) (s : State) : Host.Outcome State Fault Refusal :=
  s.beginPacket q pid 2 fun k t0 =>
    let a := k.addrAt 0x10
    let t := t0.freeSlotOf q a.toNat
    match t.checkImage (t.whoQueue q (.packet q pid)) (t.queue q).keyid (t.newPart q k) a with
    | .error x => t.launchStops q k x
    | .ok y => t.partAsks q pid y

/-! ## Restoring a core (R74, R326, R327, R331 to R333, R335) -/

/-- Sets the entries of a table that are not the value an unlisted key has. -/
def tabOf {α : Type} [DecidableEq α] (d : α) (n : Nat) (f : Nat → α) : Tab α :=
  ((List.range n).map fun i => (i, f i)).filter fun p => p.2 ≠ d

def spaceOf (v : Nat) : RSpace :=
  match v with
  | 0 => .l
  | 1 => .c
  | 2 => .g
  | _ => .w

/-- The tracking slots of a record. -/
def recordTrack (r : ByteList) : Tab Range :=
  (List.range 32).filterMap fun n =>
    let e := slice r (0x500 + 32 * n) 32
    if field e 0 1 % 2 = 0 then none
    else some (n, ⟨if (field e 0 1).testBit 1 then 0 else field e 0 2 / 16, spaceOf (field e 0 1 / 4 % 4), field e 8 8, field e 16 8⟩)

def catchSlotOf (v : Nat) : CatchSlot :=
  ⟨v % 2 ^ 24, v / 2 ^ 24 % 2 ^ 24, v.testBit 48, v.testBit 49, if v.testBit 50 then some (v / 2 ^ 64 % 2 ^ 24) else none, v.testBit 51⟩

def catchBarOf (b : ByteList) : CatchBar :=
  let h := field b 0 16
  ⟨(List.range (h % 32)).map fun i => catchSlotOf (field b (16 + 16 * i) 16), if h.testBit 8 then some (h / 2 ^ 9 % 8) else none⟩

def tagOfBytes (b : ByteList) : Tag :=
  ⟨field b 0 8, match field b 8 1 with
    | 0 => .invalid
    | 1 => .filling
    | _ => .valid, field b 9 1, field b 10 4⟩

def flagsOf (v : Nat) : TaskFlags := ⟨v.testBit 1, v.testBit 2, v.testBit 3, v.testBit 4, v.testBit 5, false, v / 2 ^ 32⟩

/-- Whether the kernel record of a core holds a window entry's kernel. -/
def kernelOf (r : ByteList) (n : Nat) : Bool := field r 0x3013 1 % 2 == 1 && field r 0x3018 8 == n

/-- Life of a restored entry: work that is done ends at once, and a VK record without a kernel record starts or has ended. -/
def lifeOf (r : ByteList) (n st prog : Nat) (b : ByteList) : TaskSt :=
  if st ≤ 2 then .admitted
  else if st = 3 then .staged
  else if recOper b ≠ 0x20 ∨ kernelOf r n then .running
  else if prog = 0 then .staged else .done

/-- Window entry n of a record; its collective round is set afterwards. -/
def entryOf (r : ByteList) (n : Nat) : TaskRec :=
  let e := entryStateAt r n
  let b := slice r (0xB000 + 128 * n) 128
  let f := field e 1 1
  { bytes := b, st := lifeOf r n (field e 0 1) (field e 4 4) b, age := field e 2 2, passed := 0
    wcOk := f.testBit 0, csOk := f.testBit 1, prog := if recOper b = 0x20 then 0 else field e 4 4
    edges := ofMask 256 (field e 0x10 32), rdeps := ofMask 256 (field e 0x30 32), pdeps := []
    ren3 := f.testBit 4, ren4 := f.testBit 5, frames := ofMask 256 (field e 0x60 32), bound := f.testBit 3, pubPending := f.testBit 2
    vbase := field e 0x50 2, flags := flagsOf (field e 0x58 8), round := 0, shadows := [], touched := [], since := none, acc := 0 }

/-- The running sum of a PSUM task of a record (log 25). -/
def recordSum (r : ByteList) (n : Nat) : Word32 :=
  (((List.range (field r 0x5804 1)).find? fun i => field r (0x5B30 + 5 * i) 1 == n).map fun i => BitVec.ofNat 32 (field r (0x5B31 + 5 * i) 4)).getD 0

def recordWindow (r : ByteList) : Tab TaskRec := (occupied r).map fun n => (n, { entryOf r n with acc := recordSum r n })

/-- Numbers of restored items: id + n for window entry n, id + 256 + 128 × channel + i for entry i of a channel. -/
def chanId (id ch i : Nat) : Nat := id + 256 + 128 * ch + i

/-- Entry i of a channel of a record, in arrival order. -/
def chanEntryOf (r : ByteList) (id ch i : Nat) : ChanEntry :=
  let e := chanEntryAt r ch ((field r (0x21001 + 32 * ch) 1 + i) % 128)
  match field e 0x4C 1 with
  | 1 => ⟨id + field e 0x4D 1, [], field e 0x40 4, .task (field e 0x4D 1), false, false, [], []⟩
  | 2 => ⟨chanId id ch i, slice e 0 64, field e 0x40 4, .fill (field e 0x4E 2), false, false, [], []⟩
  | _ => ⟨chanId id ch i, slice e 0 64, field e 0x40 4, .sta, false, false, [], []⟩

def recordChan (r : ByteList) (id ch : Nat) : List ChanEntry := (List.range (field r (0x21000 + 32 * ch) 1)).map (chanEntryOf r id ch)

/-- Counted items of a record: released tasks, and the copies that are no tasks (R102, R332, R333). -/
def recordItems (r : ByteList) (id : Nat) : List Item :=
  ((occupied r).filter fun n => decide (field (entryStateAt r n) 0 1 ≥ 3)).map (fun n =>
    ⟨id + n, .task n, none, BitVec.ofNat 32 (field (entryStateAt r n) 8 4), BitVec.ofNat 32 (field (entryStateAt r n) 0x0C 4)⟩)
  ++ (List.range 8).flatMap fun ch => (List.range (field r (0x21000 + 32 * ch) 1)).filterMap fun i =>
    let e := chanEntryAt r ch ((field r (0x21001 + 32 * ch) 1 + i) % 128)
    if field e 0x4C 1 = 1 then none
    else some ⟨chanId id ch i, .copy (chanId id ch i), none, BitVec.ofNat 32 (field e 0x44 4), BitVec.ofNat 32 (field e 0x48 4)⟩

/-- The rounds admitted by level and tag, as the exchange state holds them (log 25). -/
def recordRounds (r : ByteList) : Tab Nat :=
  let v := field r 0x5810 288
  (List.range 256).foldl (fun t i =>
    let k := field r (0x5930 + 2 * i) 2
    if k = 0 then t else tabPut t k (tabGet 0 t k + 1)) (tabOf 0 256 fun n => v / 2 ^ (9 * n) % 512)

/-- n contributions from the front of some bytes, each with its mark at the participant's own. -/
def contribsOf : Nat → ByteList → List (Contrib × Bool)
  | 0, _ => []
  | n + 1, b =>
    (⟨field b 0 1, field b 1 3 % 2 ^ 23, slice b 5 (field b 4 1)⟩, (field b 1 3).testBit 23) :: contribsOf n (b.drop (5 + field b 4 1))

/-- The contributions of a record. -/
def recordContribs (r : ByteList) : List (Contrib × Bool) := contribsOf (field r 0x5805 1) (slice r 0x5B58 168)

/-- The units that a task has done, from its PROG (log 101): a collective whose own contribution the record keeps has done its exchange. -/
def Core.unitsOf (x : Core) (r : ByteList) (n code : Nat) (b : ByteList) : Nat :=
  let oper := recOper b
  let g := x.stopUnits b
  if oper = 0x20 then 0
  else if oper = 0x49 ∨ oper = 0x4A then (if (recordContribs r).any fun q => q.2 && q.1.entry == n then code + 1 else 0)
  else if g = 1 then code
  else code % 256 * g + code / 256

/-- The vector kernel of a record (R330): results due REM positions from its next word on. -/
def kernelRecord (r : ByteList) : Option Kernel :=
  let k := slice r 0x3000 0x1400
  let posn := field k 8 8
  let v := field k 0x13 1
  if v % 2 = 0 then none
  else some {
    entry := field k 0x18 1, next := BitVec.ofNat 64 (field k 0 8), posn := posn, vbase := field k 0x10 2
    loops := ((List.range (field k 0x12 1)).map fun i => (BitVec.ofNat 64 (field k (0x20 + 16 * i) 8), field k (0x28 + 16 * i) 4)).reverse
    kpar := Vector.ofFn fun i => BitVec.ofNat 32 (field k (0x60 + 4 * i.val) 4)
    masks := Vector.ofFn fun i => if i.val = 0 then BitVec.allOnes 256 else BitVec.ofNat 256 (field k (0xA0 + 32 * (i.val - 1)) 32)
    latches := Vector.replicate 4 ⟨none, false⟩
    rq := (List.range (field k 0x14 4)).map fun i =>
      let o := 0x200 + 576 * i
      ⟨BitVec.ofNat 32 (field k o 4), field k (o + 4) 1 + posn - 1, BitVec.ofNat 256 (field k (o + 0x20) 32), BitVec.ofNat 4096 (field k (o + 0x40) 512)⟩
    flags := { flagsOf 0 with sat := v.testBit 1, inf := v.testBit 2, nanb := v.testBit 3, badt := v.testBit 4 }
    held := false }

/-- A core with what its record holds, its strands apart (R335, steps 2 to 5); id numbers its counted items. -/
def Core.restored (x : Core) (r : ByteList) (id : Nat) : Core :=
  { x with
    spm := recordMap r, reserved := ofMask 256 (field r 0x30 32)
    livem := BitVec.ofNat 32 (field r 8 4), srsv := BitVec.ofNat 32 (field r 0x10 4), srsc := BitVec.ofNat 32 (field r 0x18 4)
    sttcfg := BitVec.ofNat 64 (field r 0x20 8), lval := field r 0x2C 1 == 1, lfmt := field r 0x2D 1
    track := recordTrack r, items := recordItems r id
    dcs := tabOf 0 512 fun n => field r (0x5000 + 4 * n) 4
    rounds := recordRounds r, contribs := (recordContribs r).map (·.1)
    bars := tabOf ⟨[], none⟩ 64 fun n => catchBarOf (slice r (0x6000 + 272 * n) 272)
    window := recordWindow r, ageNext := 256
    ingress := (List.range (field r 0x50 4)).map fun i => slice r (0x1B000 + 128 * i) 128
    templates := tabOf 0 2048 fun n => BitVec.ofNat 64 (field r (0x1D000 + 8 * n) 8)
    chans := Vector.ofFn fun n => recordChan r id n.val
    tags := tabOf ⟨0, .invalid, 0, 0⟩ 1024 (fun n => tagOfBytes (slice r (0x42000 + 16 * n) 16)), stampNext := 1024
    lmant := tabOf 0 8192 fun n => BitVec.ofNat 8 (field r (0x46000 + n) 1)
    lexp := tabOf 0 256 fun n => BitVec.ofNat 8 (field r (0x48000 + n) 1)
    kernel := kernelRecord r }

/-- What a record does not carry but its contents give: the units that a task has done, the earlier readers of a publishing task (R125), the round of a collective (R267), the frames bound to renamed pages (R332). -/
def Core.rebuilt (x : Core) (r : ByteList) : Core :=
  let y : Core := { x with
    window := x.window.map fun p => (p.1,
      { p.2 with
        prog := x.unitsOf r p.1 p.2.prog p.2.bytes
        pdeps := if recPubc p.2.bytes then
            ((x.writeRegs p.2.bytes p.2.vbase).filter (·.2.sh)).flatMap (fun g =>
              (x.readersOf g.2).filter fun m => ((tabFind x.window m).map fun t => decide (t.age < p.2.age)) == some true) |>.eraseDups
          else []
        round :=
          let later := (x.window.filter fun q => (recOper q.2.bytes == 0x49 || recOper q.2.bytes == 0x4A)
            && roundKey q.2.bytes == roundKey p.2.bytes && decide (q.2.age ≥ p.2.age)).length
          if recOper p.2.bytes = 0x49 ∨ recOper p.2.bytes = 0x4A then (tabGet 0 x.rounds (roundKey p.2.bytes) + 512 - later % 512) % 512 else 0 }) }
  (y.window.filter fun p => p.2.bound).foldl (fun z p =>
    ((y.renamedPages p.2).zip p.2.frames).foldl (fun w q =>
      { w with spm := tabPut w.spm q.1 { w.spmAt q.1 with shf := q.2, shv := true, ren := true } }) z) y

/-- Writes the memory parts of a record into a core: A-file, frames, stored tiles, W-store slice. -/
def State.restoreMem (s : State) (c : Nat) (x : Core) (r : ByteList) : State :=
  let parts := x.memParts c (ofMask 32 (field r 0x0C 4))
  (parts.zip (recordOffsets 0x49000 (parts.map (·.2)))).foldl (fun t q =>
    { t with mem := memSetList t.mem q.1.1 (slice r q.2 q.1.2) }) s

/-! ## Strands, barriers, publishes, contexts (R111, R116, R200, R328, R329, R334) -/

/-- What a strand that is saved as holding holds in: its TBAR with the generation recorded, or its PUB with the publish to be asked for again. -/
def holdOf (q : ByteList) : Option Hold :=
  let v := field q 8 4
  if v % 4 ≠ 1 then none
  else if v.testBit 3 then some ⟨.tbar ⟨0, false⟩ (field q 0x10 1 % 8), [], field q 0x12 2, none, []⟩
  else if v.testBit 4 then
    let n := field q 0x19 1
    some ⟨.pub ⟨0, false⟩ (if (field q 0x18 1).testBit 0 then .regs (n % 64) .g else .handle n), [], 0, none, []⟩
  else none

/-- A strand of a record: it runs on from its PC unless it has not started or has exited, and its replay entries are re-injected, their cycles counting from its first instruction on (R329, R335). SPMSEL is not in the record; what it holds is free (log 20). -/
def Core.strandOf (x : Core) (n : Nat) (team : NatList) (q : ByteList) : Strand :=
  let t : Strand := { Strand.reset with
    regs := regsOf q, preds := predsOf (field q 0x0C 4), pc := BitVec.ofNat 64 (field q 0 8)
    status := match field q 8 4 % 4 with
      | 0 => .notStarted
      | 2 => .exited
      | _ => .runnable
    inh := (field q 8 4).testBit 2
    tvec := BitVec.ofNat 64 (field q 0x260 8), tframe := BitVec.ofNat 64 (field q 0x268 8)
    tcause := BitVec.ofNat 12 (field q 0x270 8), tinfo := BitVec.ofNat 64 (field q 0x278 8)
    seen := Vector.ofFn fun i => BitVec.ofNat 32 (field q (0x240 + 4 * i.val) 4)
    spmsel := Config.savedByte n 0, team := team, hold := holdOf q, rebase := true }
  (frameEntries q).foldl (x.reinject 0) t

/-- The arrivals that strand records give a part's barriers (R329): holders arrive for the generation they recorded, and members of teams that span modules are announced again. -/
def State.rearrive (s : State) (pid c k : Nat) : State :=
  let t := s.strand c k
  let p := s.part pid
  let n := s.memberNo c k
  let s1 := match t.hold with
    | some h => (match h.instr with
      | .tbar _ lvl =>
        let key := p.teamKey lvl t.team
        let u := s.setPart pid (p.setBar ({ p.barAt lvl key with gen := BitVec.ofNat 16 h.gen }.arrive h.gen n))
        if p.spans lvl then u.tellPeers c lvl (.barrier lvl key h.gen n) else u
      | _ => s)
    | none => s
  if t.status = .exited then
    (List.range p.levels.length).foldl (fun u lvl => if p.spans lvl then u.tellPeers c lvl (.barrier lvl (p.teamKey lvl t.team) 65536 n) else u) s1
  else s1

/-- A publish that a strand holds in is asked for again, under a new number (R116, R200); one that nothing is left of has taken effect, and one whose range meets a cause is executed again. -/
def State.reaskPub (s : State) (c k : Nat) (q : ByteList) : State :=
  let t := s.strand c k
  let lo := field q 0x20 8
  let hi := field q 0x28 8
  let held := fun (v : State) => (v.onStrand c k fun y => { y with hold := y.hold.map fun (h : Hold) => { h with ids := [s.nextId] } }).bumpId
  let done := s.setStrand c k { t with hold := none, pc := t.pc + 8 }
  let ask := fun (d : Nat) (pages : List Nat) =>
    if pages.isEmpty then done else held (s.onCore d fun x => { x with pubs := x.pubs ++ [⟨s.nextId, pages, none⟩] })
  match t.hold with
  | some h => (match h.instr with
    | .pub _ _ =>
      (match spaceOf (field q 0x18 1 / 2 % 4) with
      | .l => ask c ((s.core c).shadowPages lo hi)
      | .c =>
        let d := coreCrew c * 64 + lo / 2 ^ 21 % 64
        if (s.core d).part = (s.core c).part then ask d ((s.core d).shadowPages (lo % 2 ^ 21) (lo % 2 ^ 21 + (hi - lo))) else done
      | .g =>
        match s.shadowRegions (s.whoStrand c k) lo hi with
        | .error _ => s.setStrand c k { t with hold := none }
        | .ok l => if l.isEmpty then done else held (s.askRegions s.nextId none l)
      | .w => done)
    | _ => s)
  | none => s

/-- The pages and HBM regions with a bound shadow that S write regions of a unit touch (R421). -/
def State.boundShadows (s : State) (c : Nat) (gs : List Region) : NatList :=
  let x := s.core c
  ((gs.filter fun g => g.wr && g.sh).flatMap fun g =>
    ((x.regPages g).filter fun p => (x.spmAt p).shv && !(x.spmAt p).ren)
    ++ (if x.regSpace g = 1 ∧ !x.regEmpty g then
        match s.shadowRegions (s.whoCore c 1) (x.regSpan g).1 (x.regSpan g).2 with
        | .ok l => l.map fun q => regionKey q.1 q.2
        | .error _ => []
      else [])).eraseDups

/-- The pages and HBM regions in which regions of a unit lie; a begun unit of an image counts as having touched them all (R116; log 20). -/
def State.placesOf (s : State) (c : Nat) (gs : List Region) : NatList :=
  let x := s.core c
  (gs.flatMap fun g =>
    x.regPages g ++
    (if x.regSpace g = 1 ∧ !x.regEmpty g then
        match s.pieces (s.whoCore c 1) .read false (x.regSpan g).1 ((x.regSpan g).2 - (x.regSpan g).1) with
        | .ok ps => (pieceRegions (ps.map (·.1))).map fun q => regionKey q.1 q.2
        | .error _ => []
      else [])).eraseDups

/-- What begun tasks and copies of a core have touched, and the shadows that they have bound. -/
def State.restoreShadows (s : State) (c : Nat) : State :=
  s.onCore c fun x =>
    { x with
      window := x.window.map fun p => (p.1,
        if p.2.st = .admitted then p.2
        else { p.2 with
          shadows := s.boundShadows c ((x.writeRegs p.2.bytes p.2.vbase).map (·.2))
          touched := if p.2.st = .staged ∨ p.2.prog = 0 ∧ recOper p.2.bytes ≠ 0x20 then [] else s.placesOf c ((x.regionsOf p.2.bytes p.2.vbase).map (·.2)) })
      chans := x.chans.map fun l => l.map fun e =>
        match e.src with
        | .task _ => e
        | _ => { e with
          shadows := s.boundShadows c (templateRegions e.tpl)
          touched := if e.row = 0 then [] else s.placesOf c (templateRegions e.tpl) } }

/-- Bytes of a push that a context has counted and not pushed (R418): all others have landed (R324). -/
def CatchBar.unpushed (b : CatchBar) (cslot issued : Nat) : Nat :=
  if issued ≠ 0 then issued - ((b.slots[cslot]?).map (·.arrived)).getD 0
  else match b.slots[(cslot + (b.slots.length - 1)) % b.slots.length]? with
  | some y => if y.latched && !y.awaiting then y.expected - y.arrived else 0
  | none => 0

/-- Binds the contexts of an image to the cores of a part (R334): each takes the lowest free one that its program reserves; a held word is issued again. -/
def State.restoreCtx (s : State) (pid : Nat) (r : ByteList) : State :=
  let p := s.part pid
  match p.progs[field r 0 2]? with
  | none => s
  | some q =>
    match (q.ctxs.mergeSort (· ≤ ·)).find? fun n => (s.ctx q.mse n).isNone with
    | none => s
    | some n => s.setCtx q.mse n
        { part := pid, prog := field r 0 2, core := p.cores.getD (field r 2 2) 0, stream := field r 4 1, bar := field r 5 1
          regs := Vector.ofFn fun i => BitVec.ofNat 48 (field r (0x10 + 8 * i.val) 6)
          lc := Vector.ofFn fun i => BitVec.ofNat 12 (field r (0x90 + 2 * i.val) 2)
          hd := Vector.ofFn fun i => BitVec.ofNat 12 (field r (0x98 + 2 * i.val) 2)
          apc := field r 8 2, cslot := field r 0x0A 2, issued := field r 0x0C 3
          cq := (List.range (field r 7 1)).map fun i => BitVec.ofNat 64 (field r (0xA0 + 8 * i) 8)
          pushes := [], held := false, waits := false, stopping := false, halted := false
          rest := ((s.core (p.cores.getD (field r 2 2) 0)).bar (field r 5 1)).unpushed (field r 0x0A 2) (field r 0x0C 3) }

/-! ## Restoring a part (R335) -/

/-- Restores core c, the part's logical core l at layout core vc, from its record. -/
def State.restoreCore (s : State) (pid : Nat) (p : Part) (lay : List (NatList × Nat × Nat)) (l c vc : Nat) (r : ByteList) : State :=
  let t := ((s.clearPool c).zeroSlice c).onCore c fun x =>
    let y := ((x.started pid p l c).restored r s.nextId).rebuilt r
    { y with
      strands := Vector.ofFn fun k => y.strandOf (s.steps + k.val) (teamAt lay (4 * vc + k.val)) (slice r (0x1000 + 0x800 * k.val) 0x800)
      quiet := s.tick.toNat }
  { t.restoreMem c (t.core c) r with nextId := t.nextId + 2048 }

/-- Every unit of a part at its recorded point, from the bytes of its image; the part has its cores and programs already. -/
def State.restoreUnits (s : State) (pid : Nat) (b : ByteList) : State :=
  let p := s.part pid
  let lay := layoutOf p.gidx p.levels
  let cores := p.cores.zipIdx.zip ((layoutCores lay).zip (coreRecords b))
  let s1 := cores.foldl (fun t q => t.restoreCore pid p lay q.1.2 q.1.1 q.2.1 q.2.2) s
  let s2 := cores.foldl (fun t q => (List.range 4).foldl (fun u k =>
    (u.rearrive pid q.1.1 k).reaskPub q.1.1 k (slice q.2.2 (0x1000 + 0x800 * k) 0x800)) (t.restoreShadows q.1.1)) s1
  (liveCtxs b).foldl (fun t r => t.restoreCtx pid r) s2

/-- Cores and contexts that a failed restore has taken are cleared as at launch start (R38, R434), and the part ends. -/
def State.restoreFails (s : State) (pid : Nat) (p : Part) (cores : NatList) (a : Word64) : State :=
  let s1 := (cores.zipIdx).foldl (fun t q => t.setUpCore pid p q.2 q.1) s
  (s1.setPart pid { p with cores := cores, phase := .resuming }).partFails pid (resumeCause 5 a)

/-- RESUME_RESTORE (R31, R335): once the cores and contexts that the front end chooses are free, everything is restored and every unit starts at its recorded point; YDL reads 0. While they are not, victims are chosen for the part (R356). -/
def execResumeRestore (part : Nat) (place : Placement) (s : State) : Host.Outcome State Fault Refusal :=
  let p := s.part part
  match p.image with
  | none => .next s
  | some img =>
    if p.phase != .waiting then .next s
    else if !place.cores.all (s.freeCore []) || !placedIn none p.levels 0 4096 place.cores || !keepsHomes p.homes place.cores then .next (s.seekVictims part)
    else match s.placement p place with
    | none => .next (s.seekVictims part)
    | some l =>
      let w := s.partWho part p
      let a := BitVec.ofNat 64 img
      match s.loadProgs w l with
      | .error x => .next (if x.waits then s.await w x else s.restoreFails part p place.cores a)
      | .ok t =>
        match t.readImage w p.key a with
        | .error x => .next (if x.waits then s.await w x else s.restoreFails part p place.cores a)
        | .ok b =>
          let q : Part := { p with
            cores := place.cores, progs := l, phase := .running, image := none, bars := [], started := s.steps, hosted := false
            yreq := false, forced := false, dltick := 0, setTick := s.tick, asked := none }
          .next (((t.setPart part q).restoreUnits part b).spend (.part part))

/-! ## The front end's own resumes (R356) -/

/-- Saved parts in the order in which they are resumed: the highest queue priority first, the oldest save first within one. -/
def State.savedParts (s : State) : NatList :=
  ((s.parts.filter fun p => p.2.phase == .saved).mergeSort fun a b =>
    decide ((s.queue a.2.queue).prio > (s.queue b.2.queue).prio)
    || ((s.queue a.2.queue).prio == (s.queue b.2.queue).prio && decide (a.2.savedTick ≤ b.2.savedTick))).map (·.1)

/-- Cores that a waiting part of higher priority can take are not free for a saved part (R356: it was saved for that part; log 27). -/
def State.forestalled (s : State) (p : Nat) : Bool :=
  s.waitingParts.any fun q => decide ((s.queue (s.part q).queue).prio > (s.queue (s.part p).queue).prio) && s.fits [] (s.part q)

/-- HARDWARE_RESUME (R355, R356): the front end begins to resume the first saved part that finds cores. -/
def execHardwareResume (s : State) : Host.Outcome State Fault Refusal :=
  match s.savedParts.find? fun p => !s.forestalled p && s.fits [] (s.part p) with
  | none => .next s
  | some pid =>
    let y := s.part pid
    let a := BitVec.ofNat 64 (y.image.getD 0)
    let t := s.freeSlotOf y.queue a.toNat
    match t.checkImage (t.partWho pid y) y.key y a with
    | .error x => .next (if x.waits then s.await (t.partWho pid y) x else t.partFails pid x)
    | .ok q => .next ((t.setPart pid q).spend (.part pid))

end Sys2Proof.Machine
end

