-- ==== Sys2Proof/Machine/VectorMemory.lean ====
section
/-! DEFINITION. The vector kernel words that reach memory: VLD, VST and VGTH (R256, R272, R273, R291 to R293, R412). -/
namespace Sys2Proof.Machine

/-- The base that a pair of kernel parameters gives (R291). -/
def Kernel.base (k : Kernel) (pair : Nat) : Nat := k.param (2 * pair) + 2 ^ 32 * k.param (2 * pair + 1)

/-- The task record of a kernel. -/
def Core.kernelTask (x : Core) (k : Kernel) : TaskRec :=
  (tabFind x.window k.entry).getD ⟨[], .running, 0, 0, false, false, 0, [], [], [], false, false, [], false, false, k.vbase, TaskFlags.none, 0, [], [], none, 0⟩
def State.kernelJob (s : State) (c : Nat) (k : Kernel) : Job := ((s.core c).kernelTask k).job c k.entry 0 0

/-- Answers for every element of a list, or the first that stops. -/
def accMap {α β : Type} (f : α → Acc β) : List α → Acc (List β)
  | [] => .ok []
  | a :: r => (f a).next fun b => (accMap f r).next fun l => .ok (b :: l)

/-- The checks of an access, one address a lane, lowest cause first (R396, R412): the address form, the alignment of the addresses in aligned, the region; answers the slot of each lane's region. -/
def State.laneSlots (s : State) (j : Job) (g write : Bool) (w : Nat) (aligned addrs : List Nat) : Acc (List Nat) :=
  let top := if g then 2 ^ 57 else 2 ^ 21
  match addrs.find? fun a => decide (a ≥ top) with
  | some a => .bad ⟨0x301, BitVec.ofNat 64 a, 0⟩
  | none =>
    match aligned.find? fun a => a % w != 0 with
    | some a => .bad ⟨0x302, BitVec.ofNat 64 a, 0⟩
    | none => accMap (fun a => s.inRegion j (if g then 1 else 0) a (a + w) write) addrs

/-- Joins lanes that follow one another and use one region: the first lane, their number, the slot. -/
def laneRuns : List (Nat × Nat) → List (Nat × Nat × Nat)
  | [] => []
  | (i, sl) :: r =>
    match laneRuns r with
    | (i2, n, sl2) :: q => if i2 = i + 1 ∧ sl2 = sl then (i, n + 1, sl) :: q else (i, 1, sl) :: (i2, n, sl2) :: q
    | [] => [(i, 1, sl)]

/-- The lanes of VLD or VST with their address: those that the mask enables and the size reaches (R291). -/
def lanesAt (m : Mask) (w n ea : Nat) : List (Nat × Nat) :=
  ((List.range (n / w)).filter fun i => m.getLsbD i).map fun i => (i, (ea + w * i) % 2 ^ 64)

/-- What a VLD or VST first finds: its address and the runs of its lanes (R291, R412). -/
def State.laneAccess (s : State) (c : Nat) (k : Kernel) (pair : Nat) (g : Bool) (sz : Nat) (rb : ByteList) (m w : Nat) (write : Bool) :
    Acc (Nat × List (Nat × Nat × Nat)) :=
  let ea := (k.base pair + field rb 0 4) % 2 ^ 64
  if !g && decide (ea ≥ 2 ^ 21) then .bad ⟨0x301, BitVec.ofNat 64 ea, 0⟩
  else
    let ls := lanesAt (k.mask m) w (512 / 2 ^ sz) ea
    (s.laneSlots (s.kernelJob c k) g write w [ea] (ls.map (·.2))).next fun sl => .ok (ea, laneRuns ((ls.map (·.1)).zip sl))

/-- Reads runs of lanes; the bytes of each lane by its number. -/
def State.readRuns (j : Job) (space w ea : Nat) : List (Nat × Nat × Nat) → State → Acc (List (Nat × ByteList) × State)
  | [], s => .ok ([], s)
  | (i, n, _) :: r, s =>
    (s.engRead j space ((ea + w * i) % 2 ^ 64) (w * n)).next fun p =>
      (State.readRuns j space w ea r p.2).next fun q =>
        .ok ((List.range n).map (fun q => (i + q, slice p.1 (w * q) w)) ++ q.1, q.2)

/-- The lanes that a list numbers. -/
def numbered (n : Nat) (l : List (Nat × ByteList)) : Lanes :=
  (List.range n).map fun i => (l.find? fun p => p.1 == i).map fun p => leNat p.2

/-- VLD (R291). -/
def execVld (w : Bool) (d pair : Nat) (g : Bool) (sz b m : Nat) (t : VTy) (s : State) : Host.Outcome State Fault Refusal :=
  s.vecRun [b] (destSel w d) fun c k u =>
    (u.readSel c k (vWidth t) b).next fun rb =>
      (u.laneAccess c k pair g sz rb m (vWidth t) false).next fun p =>
        (State.readRuns (u.kernelJob c k) (if g then 1 else 0) (vWidth t) p.1 p.2 u).next fun q =>
          .ok (q.2, some k, some (vWidth t, numbered (512 / vWidth t) q.1))

/-- Writes runs of lanes of a register's bytes. -/
def State.writeRuns (j : Job) (space w ea : Nat) (b : ByteList) : List (Nat × Nat × Nat) → State → Acc State
  | [], s => .ok s
  | (i, n, sl) :: r, s =>
    (s.engWrite j (decide (sl < 5) && j.shadowed sl) space ((ea + w * i) % 2 ^ 64) (slice b (w * i) (w * n))).next fun t =>
      State.writeRuns j space w ea b r t

/-- VST (R272, R273, R291): special-function results due with a store to the kernel's own registers land before it. -/
def execVst (d pair : Nat) (g : Bool) (sz b m : Nat) (t : VTy) (s : State) : Host.Outcome State Fault Refusal :=
  s.vecRun [b] 0 fun c k u =>
    (u.readSel c k (vWidth t) b).next fun rb =>
      (u.laneAccess c k pair g sz rb m (vWidth t) true).next fun p =>
      (u.readVreg c k d).next fun rd =>
        let q := State.landSome c (u, k) fun r => !g && r.duePos == k.posn + 1
          && ((r.off (u.core c) k.vbase).map fun o => meets (o, o + 512) (p.1, p.1 + 512 / 2 ^ sz)).getD false
        (State.writeRuns (u.kernelJob c k) (if g then 1 else 0) (vWidth t) p.1 rd p.2 q.1).next fun v => .ok (v, some q.2, none)

/-- VGTH (R292): an index of all ones gives 0 and reads nothing. -/
def execVgth (w : Bool) (d pair : Nat) (g : Bool) (b m : Nat) (t : VTy) (s : State) : Host.Outcome State Fault Refusal :=
  s.vecRun [b] (destSel w d) fun c k u =>
    (u.readSel c k (vWidth t) b).next fun rb =>
      let l := ((rowLanes (vWidth t) rb).zipIdx.filter fun p => (k.mask m).getLsbD p.2)
      let none1 := 2 ^ (8 * vWidth t) - 1
      let at_ := fun x => (k.base pair + vWidth t * x) % 2 ^ 64
      let reads := l.filter fun p => p.1 != none1
      (u.laneSlots (u.kernelJob c k) g false (vWidth t) (reads.map fun p => at_ p.1) (reads.map fun p => at_ p.1)).next fun _ =>
        (State.engReads (u.kernelJob c k) (if g then 1 else 0) (reads.map fun p => (at_ p.1, vWidth t)) u).next fun q =>
          .ok (q.2, some k, some (vWidth t, numbered (512 / vWidth t)
            (((reads.map (·.2)).zip (chunks (vWidth t) reads.length q.1)) ++ (l.filter fun p => p.1 == none1).map fun p => (p.2, []))))

end Sys2Proof.Machine
end

