-- ==== Sys2Proof/Machine/Waits.lean ====
section
/-! DEFINITION. Meanings of the wait-cycle probes of a launch part (R428 to R431). -/
namespace Sys2Proof.Machine

/-- WAITCFG.THR in ticks of 1.25 ns (R430). -/
def State.quietTicks (s : State) : Nat := bitsOf s.waitcfg 19 0 * 800

/-- Whether a core has gone THR without an active cycle (R428). -/
def State.quietCore (s : State) (c : Nat) : Bool := !(s.core c).fresh && decide (s.tick.toNat - (s.core c).quiet ≥ s.quietTicks)

/-- ACTIVITY_TIMEOUT (R428). -/
def execActivityTimeout (core : Nat) (s : State) : Host.Outcome State Fault Refusal :=
  if s.quietCore core then .next (s.onCore core fun x => { x with active := false }) else .next s

/-- Strands that hold in POSTR or POSTT. -/
def Hold.posts (h : Hold) : Bool :=
  match h.instr with
  | .postr _ _ _ _ _ _ _ => true
  | .postt _ _ _ _ _ _ => true
  | _ => false

/-- What keeps a part from a wait cycle (R429): a gang, a hold in POSTR or POSTT, an access outside the module in flight or held for its translation, a held unit. -/
def State.probeExempt (s : State) (p : Nat) : Bool :=
  let y := s.part p
  (y.gang && decide (y.span 0 > 1))
  || (y.cores.any fun c => (s.core c).strands.toList.any fun t => (t.hold.map Hold.posts).getD false)
  || (s.requests.any fun r => s.partOwns p r.whose)
  || (s.posted.any fun q => y.cores.contains q.core)
  || (s.xlat.waits.any fun q => s.partOwns p q.2)
  || (s.traps.any fun t => match t.unit with
    | .kernel c => y.cores.contains c
    | .task c _ => y.cores.contains c
    | .chan c _ => y.cores.contains c
    | .ctx m x => ((s.ctx m x).map (·.part)) == some p)

/-- Whether a strand or a record of a part is held or waits (R429). -/
def State.someWait (s : State) (p : Nat) : Bool :=
  (s.part p).cores.any fun c => !(s.core c).window.isEmpty || (s.core c).strands.toList.any fun t => t.hold.isSome

/-- The core with logical number 0. -/
def State.core0 (s : State) (p : Nat) : Option Nat := (s.part p).cores.find? fun c => (s.core c).lcore == 0

/-- A probe's way round the part (R429): Q is the inverse of every activity bit, which it clears. -/
def State.sendProbe (s : State) (p round : Nat) : State :=
  let l := (s.part p).cores
  let q := l.all fun c => !(s.core c).active
  (l.foldl (fun t c => t.onCore c fun x => { x with active := false }) s).onPart p fun y => { y with probe := some (round, q) }

/-- Starts timing again at logical core 0. -/
def State.restartProbe (s : State) (p : Nat) : State :=
  let t := s.onPart p fun y => { y with probe := none }
  match t.core0 p with
  | some c => t.onCore c fun x => { x with quiet := t.tick.toNat }
  | none => t

/-- WAIT_PROBE_ORIGINATE (R429, R430). -/
def execWaitProbeOriginate (part : Nat) (s : State) : Host.Outcome State Fault Refusal :=
  match s.core0 part with
  | some c =>
    if (s.part part).phase == .running && (s.part part).probe.isNone && !s.waitcfg.getLsbD 31 && s.quietCore c && s.someWait part
    then .next (s.sendProbe part 1) else .next s
  | none => .next s

/-- A wait cycle (R431): WAITCYCLE, and MODESEL.TRIAGE decides. -/
def State.waitCycle (s : State) (p : Nat) : State :=
  let y := s.part p
  let x : Cause := ⟨0x802, 0, BitVec.ofNat 64 (bitsOf s.waitcfg 19 0)⟩
  (s.restartProbe p).stopPart p ⟨x.code, 2, 6, 0, 0, false, some (y.queue, y.key), s.partPlace y, x.info, x.info1, 0⟩ x

/-- WAIT_PROBE_RETURN (R429, R431): a second probe, the end of the attempt, or a wait cycle. -/
def execWaitProbeReturn (part : Nat) (s : State) : Host.Outcome State Fault Refusal :=
  match (s.part part).probe with
  | some (round, q) =>
    if (s.part part).phase != .running then .next (s.onPart part fun y => { y with probe := none })
    else if !q || s.probeExempt part then .next (s.restartProbe part)
    else if round = 1 then .next (s.sendProbe part 2)
    else .next (s.waitCycle part)
  | none => .next s

end Sys2Proof.Machine
end

