-- ==== Sys2Proof/Machine/Dispatch.lean ====
section
/-! DEFINITION. The dispatch: one arm a constructor of Instr, each one call of its meaning. -/
namespace Sys2Proof.Machine
open Sys2Proof

def exec (i : Instr) (s : State) : Host.Outcome State Fault Refusal :=
  match i with
  | .moduleReset o => Sys2Proof.Machine.execModuleReset o s
  | .bar2Read tag addr len => Sys2Proof.Machine.execBar2Read tag addr len s
  | .bar2Write addr data => Sys2Proof.Machine.execBar2Write addr data s
  | .registerWrite org off size v => Sys2Proof.Machine.execRegisterWrite org off size v s
  | .configurationWrite item v => Sys2Proof.Machine.execConfigurationWrite item v s
  | .doorbell org q v => Sys2Proof.Machine.execDoorbell org q v s
  | .queueEnable q => Sys2Proof.Machine.execQueueEnable q s
  | .queueDisable q => Sys2Proof.Machine.execQueueDisable q s
  | .qckrel q mask => Sys2Proof.Machine.execQckrel q mask s
  | .qerrRetry q => Sys2Proof.Machine.execQerrRetry q s
  | .qerrSkip q => Sys2Proof.Machine.execQerrSkip q s
  | .tlbInvalidateAll kind => Sys2Proof.Machine.execTlbInvalidateAll kind s
  | .tlbInvalidateRoot => Sys2Proof.Machine.execTlbInvalidateRoot s
  | .tlbInvalidatePage => Sys2Proof.Machine.execTlbInvalidatePage s
  | .tlbinvComplete => Sys2Proof.Machine.execTlbinvComplete s
  | .preempt q => Sys2Proof.Machine.execPreempt q s
  | .modeselWrite v => Sys2Proof.Machine.execModeselWrite v s
  | .rampctlWrite die v => Sys2Proof.Machine.execRampctlWrite die v s
  | .ritWrite die lri v => Sys2Proof.Machine.execRitWrite die lri v s
  | .remapRequest die v => Sys2Proof.Machine.execRemapRequest die v s
  | .remapEpochEnd die => Sys2Proof.Machine.execRemapEpochEnd die s
  | .regionSwap die => Sys2Proof.Machine.execRegionSwap die s
  | .swapAbandon die => Sys2Proof.Machine.execSwapAbandon die s
  | .channelRetire v => Sys2Proof.Machine.execChannelRetire v s
  | .retirementMove die => Sys2Proof.Machine.execRetirementMove die s
  | .fwLoad o img => Sys2Proof.Machine.execFwLoad o img s
  | .fwSwitch => Sys2Proof.Machine.execFwSwitch s
  | .fwSwitchHandover o => Sys2Proof.Machine.execFwSwitchHandover o s
  | .unitRetry seq => Sys2Proof.Machine.execUnitRetry seq s
  | .unitEnd seq => Sys2Proof.Machine.execUnitEnd seq s
  | .portEnable port => Sys2Proof.Machine.execPortEnable port s
  | .counterClear port second => Sys2Proof.Machine.execCounterClear port second s
  | .keyAlloc k => Sys2Proof.Machine.execKeyAlloc k s
  | .keyRetire k => Sys2Proof.Machine.execKeyRetire k s
  | .lockInterfaceRequest vf => Sys2Proof.Machine.execLockInterfaceRequest vf s
  | .startInterfaceRequest vf stream => Sys2Proof.Machine.execStartInterfaceRequest vf stream s
  | .stopInterfaceRequest vf => Sys2Proof.Machine.execStopInterfaceRequest vf s
  | .interfaceUnlock vf => Sys2Proof.Machine.execInterfaceUnlock vf s
  | .getDeviceInterfaceReport vf => Sys2Proof.Machine.execGetDeviceInterfaceReport vf s
  | .getDeviceInterfaceState vf => Sys2Proof.Machine.execGetDeviceInterfaceState vf s
  | .spdmRequest r => Sys2Proof.Machine.execSpdmRequest r s
  | .atsCompletion iova r => Sys2Proof.Machine.execAtsCompletion iova r s
  | .priResponse iova ok => Sys2Proof.Machine.execPriResponse iova ok s
  | .atsInvalidationRequest iova len => Sys2Proof.Machine.execAtsInvalidationRequest iova len s
  | .atsInvalidationComplete => Sys2Proof.Machine.execAtsInvalidationComplete s
  | .ideFailure stream => Sys2Proof.Machine.execIdeFailure stream s
  | .tamper sensor => Sys2Proof.Machine.execTamper sensor s
  | .glitch detector => Sys2Proof.Machine.execGlitch detector s
  | .thermalThrottle block => Sys2Proof.Machine.execThermalThrottle block s
  | .rampIntervalEnd die => Sys2Proof.Machine.execRampIntervalEnd die s
  | .flitReceive port good flit => Sys2Proof.Machine.execFlitReceive port good flit s
  | .linkDown port reason => Sys2Proof.Machine.execLinkDown port reason s
  | .rootAnnouncementSend => Sys2Proof.Machine.execRootAnnouncementSend s
  | .rootAnnouncementReceive port id rootTick => Sys2Proof.Machine.execRootAnnouncementReceive port id rootTick s
  | .rootLost => Sys2Proof.Machine.execRootLost s
  | .peerRequest r => Sys2Proof.Machine.execPeerRequest r s
  | .ingressArrival core rec => Sys2Proof.Machine.execIngressArrival core rec s
  | .remoteCompletion req r => Sys2Proof.Machine.execRemoteCompletion req r s
  | .completionTimeout req => Sys2Proof.Machine.execCompletionTimeout req s
  | .collectiveMessage core entry rank data => Sys2Proof.Machine.execCollectiveMessage core entry rank data s
  | .collectiveAbandon core entry cause => Sys2Proof.Machine.execCollectiveAbandon core entry cause s
  | .sramCorrectedError loc => Sys2Proof.Machine.execSramCorrectedError loc s
  | .freezeEnd loc => Sys2Proof.Machine.execFreezeEnd loc s
  | .sramUncorrectableError loc => Sys2Proof.Machine.execSramUncorrectableError loc s
  | .tier0LineRead dpa key o => Sys2Proof.Machine.execTier0LineRead dpa key o s
  | .heartbeat => Sys2Proof.Machine.execHeartbeat s
  | .stateTableCommit => Sys2Proof.Machine.execStateTableCommit s
  | .heartbeatTimeout ctrlue => Sys2Proof.Machine.execHeartbeatTimeout ctrlue s
  | .fetcherTurn f => Sys2Proof.Machine.execFetcherTurn f s
  | .nopPacket q pid => Sys2Proof.Machine.execNopPacket q pid s
  | .launch q pid => Sys2Proof.Machine.execLaunch q pid s
  | .launchSetup part place => Sys2Proof.Machine.execLaunchSetup part place s
  | .launchStart part => Sys2Proof.Machine.execLaunchStart part s
  | .launchComplete part => Sys2Proof.Machine.execLaunchComplete part s
  | .resume q pid => Sys2Proof.Machine.execResume q pid s
  | .resumeRestore part place => Sys2Proof.Machine.execResumeRestore part place s
  | .hardwareResume => Sys2Proof.Machine.execHardwareResume s
  | .wait q pid => Sys2Proof.Machine.execWait q pid s
  | .waitPoll q pid => Sys2Proof.Machine.execWaitPoll q pid s
  | .signal q pid => Sys2Proof.Machine.execSignal q pid s
  | .cond q pid => Sys2Proof.Machine.execCond q pid s
  | .loopPacket q pid => Sys2Proof.Machine.execLoopPacket q pid s
  | .indirect q pid => Sys2Proof.Machine.execIndirect q pid s
  | .copy q pid => Sys2Proof.Machine.execCopy q pid s
  | .fencePacket q pid => Sys2Proof.Machine.execFencePacket q pid s
  | .endPacket q pid => Sys2Proof.Machine.execEndPacket q pid s
  | .packetCompletion q pid => Sys2Proof.Machine.execPacketCompletion q pid s
  | .notificationWrite q => Sys2Proof.Machine.execNotificationWrite q s
  | .sysReply core slot => Sys2Proof.Machine.execSysReply core slot s
  | .unitTrapResolution seq => Sys2Proof.Machine.execUnitTrapResolution seq s
  | .ingressAdmission core => Sys2Proof.Machine.execIngressAdmission core s
  | .taskRelease core cls => Sys2Proof.Machine.execTaskRelease core cls s
  | .taskCompletion core entry => Sys2Proof.Machine.execTaskCompletion core entry s
  | .scratchpadPublish core => Sys2Proof.Machine.execScratchpadPublish core s
  | .hbmShadowBind die lri => Sys2Proof.Machine.execHbmShadowBind die lri s
  | .hbmPublish die => Sys2Proof.Machine.execHbmPublish die s
  | .frameReturn core frame => Sys2Proof.Machine.execFrameReturn core frame s
  | .vectorKernelStart core => Sys2Proof.Machine.execVectorKernelStart core s
  | .copyBoxRow core ch => Sys2Proof.Machine.execCopyBoxRow core ch s
  | .copyCompletion core ch => Sys2Proof.Machine.execCopyCompletion core ch s
  | .pushLand mse ctx => Sys2Proof.Machine.execPushLand mse ctx s
  | .contextEnd mse ctx => Sys2Proof.Machine.execContextEnd mse ctx s
  | .accessPerformed core item scope => Sys2Proof.Machine.execAccessPerformed core item scope s
  | .loadReturn core slot => Sys2Proof.Machine.execLoadReturn core slot s
  | .causalStoreApply die src => Sys2Proof.Machine.execCausalStoreApply die src s
  | .causalLoadServe core slot => Sys2Proof.Machine.execCausalLoadServe core slot s
  | .yieldDeadline part => Sys2Proof.Machine.execYieldDeadline part s
  | .saveStopped part => Sys2Proof.Machine.execSaveStopped part s
  | .preemptionComplete part => Sys2Proof.Machine.execPreemptionComplete part s
  | .activityTimeout core => Sys2Proof.Machine.execActivityTimeout core s
  | .waitProbeOriginate part => Sys2Proof.Machine.execWaitProbeOriginate part s
  | .waitProbeReturn part => Sys2Proof.Machine.execWaitProbeReturn part s
  | .nop g => Sys2Proof.Machine.execNop g s
  | .add g d a b => Sys2Proof.Machine.execAdd g d a b s
  | .addLong g d a e => Sys2Proof.Machine.execAddLong g d a e s
  | .sub g d a b => Sys2Proof.Machine.execSub g d a b s
  | .subLong g d a e => Sys2Proof.Machine.execSubLong g d a e s
  | .mul g d a b => Sys2Proof.Machine.execMul g d a b s
  | .mulLong g d a e => Sys2Proof.Machine.execMulLong g d a e s
  | .mulh g d a b => Sys2Proof.Machine.execMulh g d a b s
  | .mulhLong g d a e => Sys2Proof.Machine.execMulhLong g d a e s
  | .div g d a b => Sys2Proof.Machine.execDiv g d a b s
  | .divLong g d a e => Sys2Proof.Machine.execDivLong g d a e s
  | .rem g d a b => Sys2Proof.Machine.execRem g d a b s
  | .remLong g d a e => Sys2Proof.Machine.execRemLong g d a e s
  | .and g d a b => Sys2Proof.Machine.execAnd g d a b s
  | .andLong g d a e => Sys2Proof.Machine.execAndLong g d a e s
  | .or g d a b => Sys2Proof.Machine.execOr g d a b s
  | .orLong g d a e => Sys2Proof.Machine.execOrLong g d a e s
  | .xor g d a b => Sys2Proof.Machine.execXor g d a b s
  | .xorLong g d a e => Sys2Proof.Machine.execXorLong g d a e s
  | .andn g d a b => Sys2Proof.Machine.execAndn g d a b s
  | .andnLong g d a e => Sys2Proof.Machine.execAndnLong g d a e s
  | .shl g d a b => Sys2Proof.Machine.execShl g d a b s
  | .shlLong g d a e => Sys2Proof.Machine.execShlLong g d a e s
  | .shr g d a b => Sys2Proof.Machine.execShr g d a b s
  | .shrLong g d a e => Sys2Proof.Machine.execShrLong g d a e s
  | .sra g d a b => Sys2Proof.Machine.execSra g d a b s
  | .sraLong g d a e => Sys2Proof.Machine.execSraLong g d a e s
  | .rol g d a b => Sys2Proof.Machine.execRol g d a b s
  | .rolLong g d a e => Sys2Proof.Machine.execRolLong g d a e s
  | .min g d a b => Sys2Proof.Machine.execMin g d a b s
  | .minLong g d a e => Sys2Proof.Machine.execMinLong g d a e s
  | .max g d a b => Sys2Proof.Machine.execMax g d a b s
  | .maxLong g d a e => Sys2Proof.Machine.execMaxLong g d a e s
  | .clz g d a => Sys2Proof.Machine.execClz g d a s
  | .ctz g d a => Sys2Proof.Machine.execCtz g d a s
  | .popc g d a => Sys2Proof.Machine.execPopc g d a s
  | .bfx g d a pos wm1 sgn => Sys2Proof.Machine.execBfx g d a pos wm1 sgn s
  | .bfi g d a pos wm1 => Sys2Proof.Machine.execBfi g d a pos wm1 s
  | .sext g d a wm1 => Sys2Proof.Machine.execSext g d a wm1 s
  | .zext g d a wm1 => Sys2Proof.Machine.execZext g d a wm1 s
  | .li g d imm => Sys2Proof.Machine.execLi g d imm s
  | .liLong g d e => Sys2Proof.Machine.execLiLong g d e s
  | .liH g d e => Sys2Proof.Machine.execLiH g d e s
  | .mov g d a => Sys2Proof.Machine.execMov g d a s
  | .sel g d a b p neg => Sys2Proof.Machine.execSel g d a b p neg s
  | .lea g d imm => Sys2Proof.Machine.execLea g d imm s
  | .leaLong g d e => Sys2Proof.Machine.execLeaLong g d e s
  | .hoff g d a h => Sys2Proof.Machine.execHoff g d a h s
  | .cmp g d a cc second comb => Sys2Proof.Machine.execCmp g d a cc second comb s
  | .pand g d a b => Sys2Proof.Machine.execPand g d a b s
  | .por g d a b => Sys2Proof.Machine.execPor g d a b s
  | .pxor g d a b => Sys2Proof.Machine.execPxor g d a b s
  | .pnot g d a => Sys2Proof.Machine.execPnot g d a s
  | .pget g d => Sys2Proof.Machine.execPget g d s
  | .pset g a b => Sys2Proof.Machine.execPset g a b s
  | .fadd g d a b => Sys2Proof.Machine.execFadd g d a b s
  | .faddLong g d a e => Sys2Proof.Machine.execFaddLong g d a e s
  | .fsub g d a b => Sys2Proof.Machine.execFsub g d a b s
  | .fsubLong g d a e => Sys2Proof.Machine.execFsubLong g d a e s
  | .fmul g d a b => Sys2Proof.Machine.execFmul g d a b s
  | .fmulLong g d a e => Sys2Proof.Machine.execFmulLong g d a e s
  | .ffma g d a b => Sys2Proof.Machine.execFfma g d a b s
  | .fdiv g d a b => Sys2Proof.Machine.execFdiv g d a b s
  | .fdivLong g d a e => Sys2Proof.Machine.execFdivLong g d a e s
  | .fmin g d a b => Sys2Proof.Machine.execFmin g d a b s
  | .fminLong g d a e => Sys2Proof.Machine.execFminLong g d a e s
  | .fmax g d a b => Sys2Proof.Machine.execFmax g d a b s
  | .fmaxLong g d a e => Sys2Proof.Machine.execFmaxLong g d a e s
  | .fcmp g d a b cc comb => Sys2Proof.Machine.execFcmp g d a b cc comb s
  | .fcvt g d a kind mode => Sys2Proof.Machine.execFcvt g d a kind mode s
  | .fsgn g d a b => Sys2Proof.Machine.execFsgn g d a b s
  | .fsgnLong g d a e => Sys2Proof.Machine.execFsgnLong g d a e s
  | .br g off => Sys2Proof.Machine.execBr g off s
  | .brLong g e => Sys2Proof.Machine.execBrLong g e s
  | .call g d imm => Sys2Proof.Machine.execCall g d imm s
  | .callLong g d e => Sys2Proof.Machine.execCallLong g d e s
  | .ret g a => Sys2Proof.Machine.execRet g a s
  | .jr g d a => Sys2Proof.Machine.execJr g d a s
  | .loop g d imm => Sys2Proof.Machine.execLoop g d imm s
  | .loopLong g d e => Sys2Proof.Machine.execLoopLong g d e s
  | .dspt g d a nbm1 tab => Sys2Proof.Machine.execDspt g d a nbm1 tab s
  | .ld g d a sz sp cz sgn => Sys2Proof.Machine.execLd g d a sz sp cz sgn s
  | .ldLong g d a sz sp cz sgn e => Sys2Proof.Machine.execLdLong g d a sz sp cz sgn e s
  | .st g d a sz sp cz => Sys2Proof.Machine.execSt g d a sz sp cz s
  | .stLong g d a sz sp cz e => Sys2Proof.Machine.execStLong g d a sz sp cz e s
  | .probe g d a off => Sys2Proof.Machine.execProbe g d a off s
  | .probeLong g d a e => Sys2Proof.Machine.execProbeLong g d a e s
  | .unpin g a => Sys2Proof.Machine.execUnpin g a s
  | .amo g d a b op sp sz sc => Sys2Proof.Machine.execAmo g d a b op sp sz sc s
  | .cas g d a b sp sz sc pd => Sys2Proof.Machine.execCas g d a b sp sz sc pd s
  | .fence g sc => Sys2Proof.Machine.execFence g sc s
  | .fenceR g sc rs => Sys2Proof.Machine.execFenceR g sc rs s
  | .track g slot r => Sys2Proof.Machine.execTrack g slot r s
  | .untrack g slot => Sys2Proof.Machine.execUntrack g slot s
  | .pub g r => Sys2Proof.Machine.execPub g r s
  | .tbar g lvl => Sys2Proof.Machine.execTbar g lvl s
  | .tid g d ts => Sys2Proof.Machine.execTid g d ts s
  | .cinit g cb wm1 cnt => Sys2Proof.Machine.execCinit g cb wm1 cnt s
  | .cexp g cb slot a => Sys2Proof.Machine.execCexp g cb slot a s
  | .cexpLong g cb slot cnt => Sys2Proof.Machine.execCexpLong g cb slot cnt s
  | .cwait g cb slot p => Sys2Proof.Machine.execCwait g cb slot p s
  | .crel g cb slot => Sys2Proof.Machine.execCrel g cb slot s
  | .ctry g p cb slot => Sys2Proof.Machine.execCtry g p cb slot s
  | .post g a => Sys2Proof.Machine.execPost g a s
  | .postNb g p a => Sys2Proof.Machine.execPostNb g p a s
  | .postr g p a b core creg rel => Sys2Proof.Machine.execPostr g p a b core creg rel s
  | .postt g p a b core creg => Sys2Proof.Machine.execPostt g p a b core creg s
  | .dcset g n a => Sys2Proof.Machine.execDcset g n a s
  | .dcsetLong g n v => Sys2Proof.Machine.execDcsetLong g n v s
  | .dcadd g n a => Sys2Proof.Machine.execDcadd g n a s
  | .dcaddLong g n e => Sys2Proof.Machine.execDcaddLong g n e s
  | .dcwait g n => Sys2Proof.Machine.execDcwait g n s
  | .sta g p a b => Sys2Proof.Machine.execSta g p a b s
  | .staLong g p a b off => Sys2Proof.Machine.execStaLong g p a b off s
  | .sbind g d a b prog cb entry => Sys2Proof.Machine.execSbind g d a b prog cb entry s
  | .cqpush g p a stream => Sys2Proof.Machine.execCqpush g p a stream s
  | .sstop g stream => Sys2Proof.Machine.execSstop g stream s
  | .yield g p => Sys2Proof.Machine.execYield g p s
  | .live g a => Sys2Proof.Machine.execLive g a s
  | .liveLong g e => Sys2Proof.Machine.execLiveLong g e s
  | .trap g code => Sys2Proof.Machine.execTrap g code s
  | .sys g d a svc => Sys2Proof.Machine.execSys g d a svc s
  | .rett g => Sys2Proof.Machine.execRett g s
  | .mfs g d n => Sys2Proof.Machine.execMfs g d n s
  | .mts g n a => Sys2Proof.Machine.execMts g n a s
  | .sttcfgWrite core slot v => Sys2Proof.Machine.execSttcfgWrite core slot v s
  | .sttcfgApply core => Sys2Proof.Machine.execSttcfgApply core s
  | .halt g => Sys2Proof.Machine.execHalt g s
  | .exit g => Sys2Proof.Machine.execExit g s
  | .vnop => Sys2Proof.Machine.execVnop s
  | .vadd w d a b m t => Sys2Proof.Machine.execVadd w d a b m t s
  | .vsub w d a b m t => Sys2Proof.Machine.execVsub w d a b m t s
  | .vmul w d a b m t => Sys2Proof.Machine.execVmul w d a b m t s
  | .vfma w d a b m t => Sys2Proof.Machine.execVfma w d a b m t s
  | .vmin w d a b m t => Sys2Proof.Machine.execVmin w d a b m t s
  | .vmax w d a b m t => Sys2Proof.Machine.execVmax w d a b m t s
  | .vabs w d a m t => Sys2Proof.Machine.execVabs w d a m t s
  | .vneg w d a m t => Sys2Proof.Machine.execVneg w d a m t s
  | .vand w d a b m t => Sys2Proof.Machine.execVand w d a b m t s
  | .vor w d a b m t => Sys2Proof.Machine.execVor w d a b m t s
  | .vxor w d a b m t => Sys2Proof.Machine.execVxor w d a b m t s
  | .vshl w d a b m t => Sys2Proof.Machine.execVshl w d a b m t s
  | .vshr w d a b m t => Sys2Proof.Machine.execVshr w d a b m t s
  | .vsra w d a b m t => Sys2Proof.Machine.execVsra w d a b m t s
  | .vcmp cc d a b m t => Sys2Proof.Machine.execVcmp cc d a b m t s
  | .vsel w d a b m t => Sys2Proof.Machine.execVsel w d a b m t s
  | .vmov w d a m t => Sys2Proof.Machine.execVmov w d a m t s
  | .vbcst w d a b m t => Sys2Proof.Machine.execVbcst w d a b m t s
  | .vcvt w d a kind mode m => Sys2Proof.Machine.execVcvt w d a kind mode m s
  | .vscl w d a mw enc mode m => Sys2Proof.Machine.execVscl w d a mw enc mode m s
  | .vreds w d a m t => Sys2Proof.Machine.execVreds w d a m t s
  | .vredm w d a m t => Sys2Proof.Machine.execVredm w d a m t s
  | .vredn w d a m t => Sys2Proof.Machine.execVredn w d a m t s
  | .vexp2 w d a m t => Sys2Proof.Machine.execVexp2 w d a m t s
  | .vlog2 w d a m t => Sys2Proof.Machine.execVlog2 w d a m t s
  | .vrcp w d a m t => Sys2Proof.Machine.execVrcp w d a m t s
  | .vrsq w d a m t => Sys2Proof.Machine.execVrsq w d a m t s
  | .vsqrt w d a m t => Sys2Proof.Machine.execVsqrt w d a m t s
  | .vsig w d a m t => Sys2Proof.Machine.execVsig w d a m t s
  | .vtanh w d a m t => Sys2Proof.Machine.execVtanh w d a m t s
  | .vld w d pair g sz b m t => Sys2Proof.Machine.execVld w d pair g sz b m t s
  | .vst d pair g sz b m t => Sys2Proof.Machine.execVst d pair g sz b m t s
  | .vgth w d pair g b m t => Sys2Proof.Machine.execVgth w d pair g b m t s
  | .vprm w d a b m t => Sys2Proof.Machine.execVprm w d a b m t s
  | .vunp3 w d a off m t => Sys2Proof.Machine.execVunp3 w d a off m t s
  | .mand d a b => Sys2Proof.Machine.execMand d a b s
  | .mor d a b => Sys2Proof.Machine.execMor d a b s
  | .mnot d a => Sys2Proof.Machine.execMnot d a s
  | .vloop a => Sys2Proof.Machine.execVloop a s
  | .vend => Sys2Proof.Machine.execVend s
  | .anop => Sys2Proof.Machine.execAnop s
  | .amov d x => Sys2Proof.Machine.execAmov d x s
  | .aadd d a x => Sys2Proof.Machine.execAadd d a x s
  | .asub d a x => Sys2Proof.Machine.execAsub d a x s
  | .amul d a x => Sys2Proof.Machine.execAmul d a x s
  | .ashl d a x => Sys2Proof.Machine.execAshl d a x s
  | .ashr d a x => Sys2Proof.Machine.execAshr d a x s
  | .aand d a x => Sys2Proof.Machine.execAand d a x s
  | .amin d a x => Sys2Proof.Machine.execAmin d a x s
  | .acmp d a x => Sys2Proof.Machine.execAcmp d a x s
  | .abr cc a off => Sys2Proof.Machine.execAbr cc a off s
  | .ajmp x => Sys2Proof.Machine.execAjmp x s
  | .aloop n x => Sys2Proof.Machine.execAloop n x s
  | .aend n => Sys2Proof.Machine.execAend n s
  | .ahalt => Sys2Proof.Machine.execAhalt s
  | .spush d a b => Sys2Proof.Machine.execSpush d a b s
  | .spushi d a b => Sys2Proof.Machine.execSpushi d a b s
  | .swin => Sys2Proof.Machine.execSwin s
  | .cqpop d => Sys2Proof.Machine.execCqpop d s
  | .afence => Sys2Proof.Machine.execAfence s
  | .wld core entry => Sys2Proof.Machine.execWld core entry s
  | .mm core entry => Sys2Proof.Machine.execMm core entry s
  | .mmz core entry => Sys2Proof.Machine.execMmz core entry s
  | .mmc core entry => Sys2Proof.Machine.execMmc core entry s
  | .topk core entry => Sys2Proof.Machine.execTopk core entry s
  | .perm core entry => Sys2Proof.Machine.execPerm core entry s
  | .rsum core entry => Sys2Proof.Machine.execRsum core entry s
  | .trn core entry => Sys2Proof.Machine.execTrn core entry s
  | .vk core entry => Sys2Proof.Machine.execVk core entry s
  | .xp core entry => Sys2Proof.Machine.execXp core entry s
  | .cpy core entry => Sys2Proof.Machine.execCpy core entry s
  | .cpyT8 core entry => Sys2Proof.Machine.execCpyT8 core entry s
  | .cpyT16 core entry => Sys2Proof.Machine.execCpyT16 core entry s
  | .gath core entry => Sys2Proof.Machine.execGath core entry s
  | .scat core entry => Sys2Proof.Machine.execScat core entry s
  | .cvt core entry => Sys2Proof.Machine.execCvt core entry s
  | .fill core entry => Sys2Proof.Machine.execFill core entry s
  | .psum core entry => Sys2Proof.Machine.execPsum core entry s
  | .hist core entry => Sys2Proof.Machine.execHist core entry s
  | .ared core entry => Sys2Proof.Machine.execAred core entry s
  | .bcst core entry => Sys2Proof.Machine.execBcst core entry s
  | .wst core entry => Sys2Proof.Machine.execWst core entry s
  | .illegalCoxWord w e => Sys2Proof.Machine.execIllegalCoxWord w e s
  | .illegalVectorWord w => Sys2Proof.Machine.execIllegalVectorWord w s
  | .illegalAccessWord w => Sys2Proof.Machine.execIllegalAccessWord w s
  | .instructionFetchFault cause info => Sys2Proof.Machine.execInstructionFetchFault cause info s
  | .linkUp port lanes peer => Sys2Proof.Machine.execLinkUp port lanes peer s
  | .thermalRecovery block => Sys2Proof.Machine.execThermalRecovery block s
  | .gangBarrierArrival part level team gen member => Sys2Proof.Machine.execGangBarrierArrival part level team gen member s

end Sys2Proof.Machine
end

