-- ==== Sys2Proof/Machine/Step.lean ====
section
/-! DEFINITION. One step of the module (log 2): time passes, one move is taken, and what it fetches or names is executed. withFetchWord places a word where the next step fetches. -/
namespace Sys2Proof.Machine

/-- Whether a strand may issue now (R48): its slot has the turn, and no update of its own belongs to a cycle that units share (R227). -/
def State.mayIssue (s : State) (c k : Nat) : Bool :=
  s.nextSlot c == some k && !((s.core c).dcNow.any fun y => match y.kind with
    | .set j _ _ => j == k
    | .add j _ _ => j == k
    | _ => false)

/-- One move (log 2): an event is executed as it stands, a task operation as far as its move goes; a strand or a context whose turn it is (R48, R300) and a kernel execute what they hold or what they fetch. -/
def runMove (m : Move) (s : State) : Host.Outcome State Fault Refusal :=
  match m with
  | .event i => exec i { s with turn := .none }
  | .units i n => exec i { s with turn := .none, pace := some n }
  | .outside n => ({ s with turn := .outside n } : State).runHeld n
  | .register tag org off size => .next (s.readRegister tag org off size)
  | .strand c k =>
    if s.mayIssue c k then
      match fetchStrand (s.takeTurn c k) c k with
      | (i, t) => exec i t
    else .next s
  | .kernel c =>
    if s.kernelReady c then
      match fetchKernel { s with turn := .kernel c } c with
      | (i, t) => exec i t
    else .next s
  | .context m x =>
    if s.nextCtx m = some x then
      match fetchContext (s.takeCtx m x) m x with
      | (some i, t) => exec i t
      | (none, t) => .next t
    else .next s

/-- What follows a move: the end of a cycle that units share (R227), units that a stop without TRIAGE ends (R417), key retirements that their last part has let go (R370). -/
def State.afterMove (s : State) (ends : Bool) : State :=
  ((if ends && s.shared then { s with pace := none }.closeCycle else { s with pace := none }).endStopped).endRetirements

/-- What comes before a move: time, unless units share the cycle; and the records that have become ready are noted (R138). -/
def State.beforeMove (s : State) : State := (if s.shared then s.sameCycle else s.passTime).stampReady

/-- One step: time passes, the agenda's first move or the scheduler's choice is taken (R48, log 2). -/
def step (s : State) : Host.Outcome State Fault Refusal :=
  match s.beforeMove.nextMove with
  | (m, ends, t) =>
    match runMove m t with
    | .next u => .next (u.afterMove ends)
    | .fault e => .fault e
    | .refused e => .refused e

/-- The state in which the next step fetches a given instruction word first (log 16): Cox words stand in HBM at 64 KiB under a translation that the core's TLB holds, with a resident launch part on core 0; vector kernel words likewise under a running kernel; access words in the program store of MSE 0. -/
def State.withFetchWord (s : State) (nbits w : Nat) : State :=
  let lo := w % 2 ^ Nat.min nbits 64
  if fld lo 31 26 = 0 ∨ ((decodeVector (lo % 2 ^ 32)).or (decodeAccess (lo % 2 ^ 32))).isNone then s.placeCox lo
  else if (decodeVector (lo % 2 ^ 32)).isSome then s.placeKernel lo
  else s.placeAccess lo

end Sys2Proof.Machine
end

