-- ==== Sys2Proof/Safety.lean ====
section
/-! DEFINITION. What a safe run of the module is, and the terms in which claims speak about one instruction: when a word of a strand, a kernel or an access context issues, and where it goes on. -/
namespace Sys2Proof.Machine

/-- A step that answers a next state. -/
def StepSafe (s : State) : Prop := ∃ t, step s = .next t

/-- n steps that all answer a next state. -/
def RunSafe (n : Nat) (s : State) : Prop := ∃ t, Sys2Proof.core.run n s = .next t

/-! ## Strands -/

/-- The turn is at slot k of core c, and its instruction need not wait for its guard (R173, R174, R203, R317). -/
structure State.Ready (s : State) (c k : Nat) (g : Guard) : Prop where
  turn : s.turn = .strand c k
  slot : k < 4
  free : (s.turned c k).mustWait [64 + g.p] = false
  room : (s.turned c k).full = false

/-- An instruction of slot k of core c that uses some registers issues: its guard holds (R173), and it need not wait for a load outside the module (R174, R203). -/
structure State.Issues (s : State) (c k : Nat) (g : Guard) (uses : List Nat) : Prop extends s.Ready c k g where
  guard : (s.guarded c k g).guard g = true
  operands : (s.guarded c k g).mustWait uses = false

/-- The state in which an instruction has its effect. -/
def State.issued (s : State) (c k : Nat) (g : Guard) (uses : List Nat) : State := s.setStrand c k (s.found c k g uses)

/-- Slot k of core c holds with an instruction (R199, R200). -/
def State.holds (s : State) (c k : Nat) (h : Hold) : State := s.onStrand c k fun t => { t with hold := some h }

/-! ## Access contexts and vector kernels -/

/-- The turn is at context x of MSE m, which stands as t (R299). -/
structure State.CtxTurn (s : State) (m x : Nat) (t : Ctx) : Prop where
  turn : s.turn = .context m x
  here : s.ctx m x = some t

/-- The turn is at the kernel of core c, which stands as k (R270). -/
structure State.KernelTurn (s : State) (c : Nat) (k : Kernel) : Prop where
  turn : s.turn = .kernel c
  here : (s.core c).kernel = some k

/-- The module and the kernel that its next word finds: special-function results due at its position have landed (R273). -/
def State.vecFound (s : State) (c : Nat) (k : Kernel) : State × Kernel := State.landSome c (s, k) fun r => decide (r.duePos ≤ k.posn)

/-- The kernel of a core, which runs a window entry, goes on as k, which now stands at a position; what its reads outside the module have brought is used (R83, R270, R428). -/
def State.kernelPast (s : State) (c entry : Nat) (k : Kernel) (posn : Nat) : State :=
  (s.onCore c fun x => { x with kernel := some { k with posn := posn }, active := true, fresh := true }).spend (.task c entry)

/-- A word that wrote nothing has ended: the latches it read are disarmed (R275). -/
def State.vecWord (p : State × Kernel) (c entry posn : Nat) (reads : List Nat) : State := p.1.kernelPast c entry (p.2.disarm reads) posn

/-- A word at a position has written lanes of width w to dst: results due with its own to the same destination land first (R273, R275). -/
def State.vecWrote (p : State × Kernel) (c entry posn : Nat) (reads : List Nat) (dst w : Nat) (l : Lanes) : State :=
  let r := State.landSome c (p.1, p.2.disarm reads) fun r =>
    r.duePos == posn + 1 && (r.word1.map fun (y : SFn × Bool × Nat × FTy) => destSel y.2.1 y.2.2.1) == some dst
  (r.1.putV c r.2 dst w l).1.kernelPast c entry (r.1.putV c r.2 dst w l).2 (posn + 1)

end Sys2Proof.Machine
end

