-- ==== Sys2Proof/Certificates/Slice0/Obligations.lean ====
section
/-! DEFINITION. The statements for the provers. Each docstring names the rules that it formalises; where one rests on a choice of the model it names the entry of the assumption log. The result of an instruction is an equation of the whole next state wherever that is short: everything that the equation does not write stays as it was. -/
open Sys2Proof Sys2Proof.Machine

/-- R173, R176: the two-register forms of the integer instructions that finish at once write sD and nothing else, and the strand goes on at the next word. R173, R176: the same with a sign-extended extension word as second operand; the next word is 8 bytes on. R178, R179, R180, R181, R182: the other instructions that compute from a strand's registers and finish at once. -/
def Obligations.IntegerOperations : Prop :=
  (∀ (s : State) (c k : Nat) (g : Guard) (d a b : Nat), s.Issues c k g [d, a, b] →
    let t := s.found c k g [d, a, b]
    let x := t.readS a
    let y := t.readS b
    let n := (y.toNat % 64 : Nat)
    let gives := fun (v : Word64) => Host.Outcome.next (φ := Fault) (ρ := Refusal) ((s.setStrand c k (t.writeS d v)).past c k (t.pc + 4))
    exec (.add g d a b) s = gives (x + y) ∧ exec (.sub g d a b) s = gives (x - y)
    ∧ exec (.and g d a b) s = gives (x &&& y) ∧ exec (.or g d a b) s = gives (x ||| y)
    ∧ exec (.xor g d a b) s = gives (x ^^^ y) ∧ exec (.andn g d a b) s = gives (x &&& ~~~y)
    ∧ exec (.shl g d a b) s = gives (x <<< n) ∧ exec (.shr g d a b) s = gives (x >>> n)
    ∧ exec (.sra g d a b) s = gives (BitVec.ofInt 64 (x.toInt / 2 ^ n)) ∧ exec (.rol g d a b) s = gives (x.rotateLeft n)
    ∧ exec (.min g d a b) s = gives (if x.toInt ≤ y.toInt then x else y)
    ∧ exec (.max g d a b) s = gives (if x.toInt ≥ y.toInt then x else y)) ∧
  (∀ (s : State) (c k : Nat) (g : Guard) (d a : Nat) (e : Word32), s.Issues c k g [d, a] →
    let t := s.found c k g [d, a]
    let x := t.readS a
    let y := e.signExtend 64
    let n := (y.toNat % 64 : Nat)
    let gives := fun (v : Word64) => Host.Outcome.next (φ := Fault) (ρ := Refusal) ((s.setStrand c k (t.writeS d v)).past c k (t.pc + 8))
    exec (.addLong g d a e) s = gives (x + y) ∧ exec (.subLong g d a e) s = gives (x - y)
    ∧ exec (.andLong g d a e) s = gives (x &&& y) ∧ exec (.orLong g d a e) s = gives (x ||| y)
    ∧ exec (.xorLong g d a e) s = gives (x ^^^ y) ∧ exec (.andnLong g d a e) s = gives (x &&& ~~~y)
    ∧ exec (.shlLong g d a e) s = gives (x <<< n) ∧ exec (.shrLong g d a e) s = gives (x >>> n)
    ∧ exec (.sraLong g d a e) s = gives (BitVec.ofInt 64 (x.toInt / 2 ^ n)) ∧ exec (.rolLong g d a e) s = gives (x.rotateLeft n)
    ∧ exec (.minLong g d a e) s = gives (if x.toInt ≤ y.toInt then x else y)
    ∧ exec (.maxLong g d a e) s = gives (if x.toInt ≥ y.toInt then x else y)) ∧
  (∀ (s : State) (c k : Nat) (g : Guard) (d a b p w pos : Nat) (i : Imm12) (e : Word32) (neg sgn : Bool), w < 64 → pos < 64 →
    (s.Issues c k g [d, a] →
      let t := s.found c k g [d, a]
      let x := t.readS a
      let gives := fun (v : Word64) (n : Word64) =>
        Host.Outcome.next (φ := Fault) (ρ := Refusal) ((s.setStrand c k (t.writeS d v)).past c k (t.pc + n))
      exec (.mov g d a) s = gives x 4
      ∧ exec (.popc g d a) s = gives (BitVec.ofNat 64 ((List.range 64).countP fun n => x.getLsbD n)) 4
      ∧ (∃ n, n ≤ 64 ∧ x.toNat < 2 ^ (64 - n) ∧ (n < 64 → 2 ^ (63 - n) ≤ x.toNat) ∧ exec (.clz g d a) s = gives (BitVec.ofNat 64 n) 4)
      ∧ (∃ n, n ≤ 64 ∧ (∀ j, j < n → x.getLsbD j = false) ∧ (n < 64 → x.getLsbD n = true) ∧ exec (.ctz g d a) s = gives (BitVec.ofNat 64 n) 4)
      ∧ exec (.sext g d a w) s = gives ((x.truncate (w + 1)).signExtend 64) 4
      ∧ exec (.zext g d a w) s = gives ((x.truncate (w + 1)).zeroExtend 64) 4
      ∧ exec (.bfx g d a pos w sgn) s
          = gives (if sgn then ((x >>> pos).truncate (w + 1)).signExtend 64 else ((x >>> pos).truncate (w + 1)).zeroExtend 64) 8
      ∧ (let msk := (BitVec.allOnes (w + 1)).zeroExtend 64 <<< pos
         exec (.bfi g d a pos w) s = gives ((t.readS d &&& ~~~msk) ||| (x <<< pos &&& msk)) 8))
    ∧ (s.Issues c k g [d] →
      let t := s.found c k g [d]
      let gives := fun (v : Word64) (n : Word64) =>
        Host.Outcome.next (φ := Fault) (ρ := Refusal) ((s.setStrand c k (t.writeS d v)).past c k (t.pc + n))
      exec (.li g d i) s = gives (i.signExtend 64) 4 ∧ exec (.liLong g d e) s = gives (e.signExtend 64) 8
      ∧ exec (.liH g d e) s = gives ((e.zeroExtend 64 <<< 32) ||| (t.readS d &&& 0xFFFFFFFF)) 8
      ∧ exec (.lea g d i) s = gives (t.pc + i.signExtend 64) 4 ∧ exec (.leaLong g d e) s = gives (t.pc + e.signExtend 64) 8)
    ∧ (s.Issues c k g [d, a, b, 64 + p] →
      let t := s.found c k g [d, a, b, 64 + p]
      exec (.sel g d a b p neg) s
        = .next ((s.setStrand c k (t.writeS d (if (t.readP p).xor neg then t.readS a else t.readS b))).past c k (t.pc + 8))))

/-- R174, R176, R186, R189: the instructions whose results are due later write them as if at once, and keep the value they replace, their operands and the cycle they are due in (the model's bookkeeping, log 13). -/
def Obligations.LaterResults : Prop :=
  ∀ (s : State) (c k : Nat) (g : Guard) (d a b : Nat) (e : Word32),
    let f32 := fun (v : Word64) => fpVal fmtF32 (v.toNat % 2 ^ 32)
    let enc := fun (v : Fp) => BitVec.ofNat 64 (ieeeF32 v)
    (s.Issues c k g [d, a, b] →
      let t := s.found c k g [d, a, b]
      let x := t.readS a
      let y := t.readS b
      let gives := fun (lat : Nat) (i : Instr) (v : Word64) => Host.Outcome.next (φ := Fault) (ρ := Refusal)
        ((s.setStrand c k (t.issue s.cycle.toNat lat i d v x y 0)).past c k (t.pc + 4))
      exec (.mul g d a b) s = gives 4 (.mul g d a b) (x * y)
      ∧ exec (.mulh g d a b) s = gives 4 (.mulh g d a b) (BitVec.ofInt 64 (x.toInt * y.toInt / 2 ^ 64))
      ∧ exec (.fadd g d a b) s = gives 4 (.fadd g d a b) (enc (fpAdd (f32 x) (f32 y)))
      ∧ exec (.fsub g d a b) s = gives 4 (.fsub g d a b) (enc (fpAdd (f32 x) (fpNeg (f32 y))))
      ∧ exec (.fmul g d a b) s = gives 4 (.fmul g d a b) (enc (fpMul (f32 x) (f32 y)))
      ∧ exec (.fdiv g d a b) s = gives 16 (.fdiv g d a b) (enc (fpDiv (f32 x) (f32 y)))
      ∧ exec (.ffma g d a b) s = .next ((s.setStrand c k (t.issue s.cycle.toNat 4 (.ffma g d a b) d
          (enc (fpAdd (fpMul (f32 x) (f32 y)) (f32 (t.readS d)))) x y (t.readS d))).past c k (t.pc + 4)))
    ∧ (s.Issues c k g [d, a] →
      let t := s.found c k g [d, a]
      let x := t.readS a
      let y := e.signExtend 64
      let gives := fun (lat : Nat) (i : Instr) (v : Word64) => Host.Outcome.next (φ := Fault) (ρ := Refusal)
        ((s.setStrand c k (t.issue s.cycle.toNat lat i d v x y 0)).past c k (t.pc + 8))
      exec (.mulLong g d a e) s = gives 4 (.mulLong g d a e) (x * y)
      ∧ exec (.mulhLong g d a e) s = gives 4 (.mulhLong g d a e) (BitVec.ofInt 64 (x.toInt * y.toInt / 2 ^ 64))
      ∧ exec (.faddLong g d a e) s = gives 4 (.faddLong g d a e) (enc (fpAdd (f32 x) (fpVal fmtF32 e.toNat)))
      ∧ exec (.fsubLong g d a e) s = gives 4 (.fsubLong g d a e) (enc (fpAdd (f32 x) (fpNeg (fpVal fmtF32 e.toNat))))
      ∧ exec (.fmulLong g d a e) s = gives 4 (.fmulLong g d a e) (enc (fpMul (f32 x) (fpVal fmtF32 e.toNat)))
      ∧ exec (.fdivLong g d a e) s = gives 16 (.fdivLong g d a e) (enc (fpDiv (f32 x) (fpVal fmtF32 e.toNat))))

/-- R177: DIV and REM in both forms, their two corner cases, and the identity that always holds. -/
def Obligations.DivisionAndRemainder : Prop :=
  ∀ (s : State) (c k : Nat) (g : Guard) (d a b : Nat) (e : Word32),
    let table := fun (x y q r : Word64) =>
      (y = 0 → q = 0xFFFFFFFFFFFFFFFF ∧ r = x)
      ∧ (x = 0x8000000000000000 ∧ y = 0xFFFFFFFFFFFFFFFF → q = 0x8000000000000000 ∧ r = 0)
      ∧ (y ≠ 0 ∧ ¬(x = 0x8000000000000000 ∧ y = 0xFFFFFFFFFFFFFFFF) →
          q = BitVec.ofInt 64 (x.toInt.tdiv y.toInt) ∧ r = x - q * y)
      ∧ x = q * y + r
    (s.Issues c k g [d, a, b] →
      let t := s.found c k g [d, a, b]
      ∃ q r, table (t.readS a) (t.readS b) q r
        ∧ exec (.div g d a b) s = .next ((s.setStrand c k
            (t.issue s.cycle.toNat 36 (.div g d a b) d q (t.readS a) (t.readS b) 0)).past c k (t.pc + 4))
        ∧ exec (.rem g d a b) s = .next ((s.setStrand c k
            (t.issue s.cycle.toNat 36 (.rem g d a b) d r (t.readS a) (t.readS b) 0)).past c k (t.pc + 4)))
    ∧ (s.Issues c k g [d, a] →
      let t := s.found c k g [d, a]
      ∃ q r, table (t.readS a) (e.signExtend 64) q r
        ∧ exec (.divLong g d a e) s = .next ((s.setStrand c k
            (t.issue s.cycle.toNat 36 (.divLong g d a e) d q (t.readS a) (e.signExtend 64) 0)).past c k (t.pc + 8))
        ∧ exec (.remLong g d a e) s = .next ((s.setStrand c k
            (t.issue s.cycle.toNat 36 (.remLong g d a e) d r (t.readS a) (e.signExtend 64) 0)).past c k (t.pc + 8)))

/-- R187: FMIN and FMAX order −0 below +0; one NaN gives the other operand, two the canonical NaN; equal operands give that value. FSGN (R186) takes the sign of its second operand. -/
def Obligations.FloatMinMaxSign : Prop :=
  ∀ (s : State) (c k : Nat) (g : Guard) (d a b : Nat) (e : Word32),
    let nan := fun (x : Nat) => (fpVal fmtF32 x).isNan
    let below := fun (x y : Nat) => fpLt (fpVal fmtF32 x) (fpVal fmtF32 y) || (x == 0x80000000 && y == 0)
    let order := fun (x y lo hi : Nat) =>
      (nan x = true ∧ nan y = true → lo = 0x7FC00000 ∧ hi = 0x7FC00000)
      ∧ (nan x = true ∧ nan y = false → lo = y ∧ hi = y) ∧ (nan x = false ∧ nan y = true → lo = x ∧ hi = x)
      ∧ (nan x = false ∧ nan y = false →
          (below x y = true → lo = x ∧ hi = y) ∧ (below y x = true → lo = y ∧ hi = x) ∧ (x = y → lo = x ∧ hi = x))
    let sign := fun (x y : Nat) => if nan x then 0x7FC00000 else x % 2 ^ 31 + y / 2 ^ 31 * 2 ^ 31
    (s.Issues c k g [d, a, b] →
      let t := s.found c k g [d, a, b]
      let x := (t.readS a).toNat % 2 ^ 32
      let y := (t.readS b).toNat % 2 ^ 32
      let gives := fun (v : Nat) => Host.Outcome.next (φ := Fault) (ρ := Refusal)
        ((s.setStrand c k (t.writeS d (BitVec.ofNat 64 v))).past c k (t.pc + 4))
      (∃ lo hi, order x y lo hi ∧ exec (.fmin g d a b) s = gives lo ∧ exec (.fmax g d a b) s = gives hi)
      ∧ exec (.fsgn g d a b) s = gives (sign x y))
    ∧ (s.Issues c k g [d, a] →
      let t := s.found c k g [d, a]
      let x := (t.readS a).toNat % 2 ^ 32
      let y := e.toNat
      let gives := fun (v : Nat) => Host.Outcome.next (φ := Fault) (ρ := Refusal)
        ((s.setStrand c k (t.writeS d (BitVec.ofNat 64 v))).past c k (t.pc + 8))
      (∃ lo hi, order x y lo hi ∧ exec (.fminLong g d a e) s = gives lo ∧ exec (.fmaxLong g d a e) s = gives hi)
      ∧ exec (.fsgnLong g d a e) s = gives (sign x y))

/-- R184, R188: the condition of CMP and FCMP, combined with the old predicate, becomes the new one. R185: predicate logic; PGET packs the predicates with bit 0 always 1, PSET writes those that its mask selects, p0 never. -/
def Obligations.PredicateResults : Prop :=
  (∀ (s : State) (c k : Nat) (g : Guard) (d a b : Nat) (comb : Comb),
    let joins := fun (old new : Bool) => match comb with
      | .write => new
      | .and => old && new
      | .or => old || new
    (∀ cc second, s.Issues c k g ([64 + d, a] ++ cmpUses second) →
      let t := s.found c k g ([64 + d, a] ++ cmpUses second)
      let x := t.readS a
      let y := match second with
        | .reg n => t.readS n
        | .imm w => w.signExtend 64
      let holds := match cc with
        | .eq => decide (x = y)
        | .ne => decide (x ≠ y)
        | .lt => decide (x.toInt < y.toInt)
        | .le => decide (x.toInt ≤ y.toInt)
        | .gt => decide (x.toInt > y.toInt)
        | .ge => decide (x.toInt ≥ y.toInt)
        | .ltu => decide (x.toNat < y.toNat)
        | .leu => decide (x.toNat ≤ y.toNat)
        | .gtu => decide (x.toNat > y.toNat)
        | .geu => decide (x.toNat ≥ y.toNat)
      exec (.cmp g d a cc second comb) s = .next ((s.setStrand c k (t.writeP d (joins (t.readP d) holds))).past c k (t.pc + 8)))
    ∧ (∀ cc, d < 24 → s.Issues c k g [64 + d, a, b] →
      let t := s.found c k g [64 + d, a, b]
      let x := fpVal fmtF32 ((t.readS a).toNat % 2 ^ 32)
      let y := fpVal fmtF32 ((t.readS b).toNat % 2 ^ 32)
      let unordered := x.isNan || y.isNan
      let holds := match cc with
        | .eq => !unordered && fpEq x y
        | .ne => unordered || !fpEq x y
        | .lt => !unordered && fpLt x y
        | .le => !unordered && fpLe x y
        | .gt => !unordered && fpLt y x
        | .ge => !unordered && fpLe y x
        | .un => unordered
      ∃ t', exec (.fcmp g d a b cc comb) s = .next t' ∧ (t'.strand c k).readP d = (if d = 0 then true else joins (t.readP d) holds)
        ∧ (t'.strand c k).pc = t.pc + 8 ∧ (t'.strand c k).hold = none ∧ t'.mem = s.mem
        ∧ (∀ n, (t'.strand c k).readS n = t.readS n) ∧ (∀ n, n < 24 → n ≠ d → (t'.strand c k).readP n = t.readP n))) ∧
  (∀ (s : State) (c k : Nat) (g : Guard) (d a b : Nat),
    (s.Issues c k g [64 + d, 64 + a, 64 + b] →
      let t := s.found c k g [64 + d, 64 + a, 64 + b]
      let gives := fun (v : Bool) => Host.Outcome.next (φ := Fault) (ρ := Refusal) ((s.setStrand c k (t.writeP d v)).past c k (t.pc + 4))
      exec (.pand g d a b) s = gives (t.readP a && t.readP b) ∧ exec (.por g d a b) s = gives (t.readP a || t.readP b)
      ∧ exec (.pxor g d a b) s = gives ((t.readP a).xor (t.readP b)))
    ∧ (s.Issues c k g [64 + d, 64 + a, 64 + a] →
      let t := s.found c k g [64 + d, 64 + a, 64 + a]
      exec (.pnot g d a) s = .next ((s.setStrand c k (t.writeP d (!t.readP a))).past c k (t.pc + 4)))
    ∧ (s.Issues c k g (d :: (List.range 24).map (64 + ·)) →
      let t := s.found c k g (d :: (List.range 24).map (64 + ·))
      ∃ v, exec (.pget g d) s = .next ((s.setStrand c k (t.writeS d v)).past c k (t.pc + 4))
        ∧ v.toNat < 2 ^ 24 ∧ ∀ n, n < 24 → v.getLsbD n = t.readP n)
    ∧ (s.Issues c k g ([a, b] ++ (List.range 24).map (64 + ·)) →
      let t := s.found c k g ([a, b] ++ (List.range 24).map (64 + ·))
      ∃ u, exec (.pset g a b) s = .next ((s.setStrand c k u).past c k (t.pc + 4))
        ∧ u.readP 0 = true
        ∧ (∀ n, 1 ≤ n → n < 24 → u.readP n = if (t.readS b).getLsbD n then (t.readS a).getLsbD n else t.readP n)
        ∧ (∀ n, u.readS n = t.readS n) ∧ u.pc = t.pc))

/-- R189: FCVT in each of its kinds, and HOFF (R183) for every handle of the table. -/
def Obligations.ConversionsAndHandleOffsets : Prop :=
  ∀ (s : State) (c k : Nat) (g : Guard) (d a h : Nat), s.Issues c k g [d, a] →
    let t := s.found c k g [d, a]
    let x := t.readS a
    (∀ kind mode,
      let m := FMode.code mode
      let f32 := fpVal fmtF32 (x.toNat % 2 ^ 32)
      let v : Word64 := match kind with
        | .i64F32 => BitVec.ofInt 64 (roundToInt m 0 64 f32)
        | .f32I64 => BitVec.ofNat 64 (roundIeee fmtF32 m 0 (fpOfInt x.toInt))
        | .i32F32 => BitVec.ofInt 64 (roundToInt m 0 32 f32)
        | .f32I32 => BitVec.ofNat 64 (roundIeee fmtF32 m 0 (fpOfInt (x.truncate 32).toInt))
        | .bf16F32 => BitVec.ofNat 64 (roundIeee fmtBf16 m 0 f32)
        | .f32Bf16 => BitVec.ofNat 64 (roundIeee fmtF32 m 0 (fpVal fmtBf16 (x.toNat % 2 ^ 16)))
        | .f16F32 => BitVec.ofNat 64 (roundIeee fmtF16 m 0 f32)
        | .f32F16 => BitVec.ofNat 64 (roundIeee fmtF32 m 0 (fpVal fmtF16 (x.toNat % 2 ^ 16)))
      exec (.fcvt g d a kind mode) s
        = .next ((s.setStrand c k (t.issue s.cycle.toNat 3 (.fcvt g d a kind mode) d v x 0 0)).past c k (t.pc + 4)))
    ∧ (let gives := fun (v : Word64) => Host.Outcome.next (φ := Fault) (ρ := Refusal)
          ((s.setStrand c k (t.issue s.cycle.toNat 3 (.hoff g d a h) d v x 0 0)).past c k (t.pc + 8))
       (h = 0 → exec (.hoff g d a h) s = gives x)
       ∧ (∀ y, h ≠ 0 → (s.core c).handles[h]? = some y →
          let i := fun n => x.toNat / 2 ^ (16 * n) % 2 ^ 16
          exec (.hoff g d a h) s = gives (BitVec.ofNat 64 (y.base
            + (i 0 * y.unitBits / 8 + ((List.range (y.ndim - 1)).map fun n => i (n + 1) * y.stride.getD n 0).sum)
            + if y.space = 0 then (s.core c).af * 65536 else 0)))
       ∧ (h ≠ 0 ∧ (s.core c).handles.length ≤ h → t.loads.any (·.val.isNone) = false →
          exec (.hoff g d a h) s = .next ((s.issued c k g [d, a]).takeTrap c k 0x304 (BitVec.ofNat 64 h) 0)))

/-- R190 to R194, R407: a taken transfer goes to its target with its link written; a target that is not a multiple of 4 or has bits [63:57] set traps with BADTARGET before the word, with no link written. R194: LOOP counts down; at zero the strand goes on at the next word, else it branches. LOOP s0 always branches. R195, R196: DSPT takes the first bucket of its table that holds the count, whether or not capacities ascend; with none it writes the count and falls through. The local and the device virtual form read the same table format, once the strand's own accesses to it have taken effect (R98, R197). -/
def Obligations.ControlTransfers : Prop :=
  (∀ (s : State) (c k : Nat) (g : Guard) (d a : Nat) (i : Imm12) (j : Imm18) (e : Word32),
    let ends := fun (uses : List Nat) (x : Instr) (u : Strand) (target : Word64) =>
      (target.toNat % 4 = 0 ∧ target.toNat < 2 ^ 57 → exec x s = .next ((s.setStrand c k u).past c k target))
      ∧ (¬(target.toNat % 4 = 0 ∧ target.toNat < 2 ^ 57) → (s.found c k g uses).loads.any (·.val.isNone) = false →
          exec x s = .next ((s.issued c k g uses).takeTrap c k 0x102 target 0))
    (s.Issues c k g [] →
      let t := s.found c k g []
      ends [] (.br g j) t (t.pc + 4 * j.signExtend 64) ∧ ends [] (.brLong g e) t (t.pc + 4 * e.signExtend 64))
    ∧ (s.Issues c k g [d] →
      let t := s.found c k g [d]
      ends [d] (.call g d i) (t.writeS d (t.pc + 4)) (t.pc + 4 * i.signExtend 64)
      ∧ ends [d] (.callLong g d e) (t.writeS d (t.pc + 8)) (t.pc + 4 * e.signExtend 64))
    ∧ (s.Issues c k g [a] → ends [a] (.ret g a) (s.found c k g [a]) ((s.found c k g [a]).readS a))
    ∧ (s.Issues c k g [d, a] →
      let t := s.found c k g [d, a]
      ends [d, a] (.jr g d a) (t.writeS d (t.pc + 4)) (t.readS a))) ∧
  (∀ (s : State) (c k : Nat) (g : Guard) (d : Nat) (i : Imm12) (e : Word32), s.Issues c k g [d] →
    let t := s.found c k g [d]
    let n := t.readS d - 1
    let ends := fun (x : Instr) (len off : Word64) =>
      let target := t.pc + 4 * off
      (n = 0 → exec x s = .next ((s.setStrand c k (t.writeS d n)).past c k (t.pc + len)))
      ∧ (n ≠ 0 → target.toNat % 4 = 0 ∧ target.toNat < 2 ^ 57 → exec x s = .next ((s.setStrand c k (t.writeS d n)).past c k target))
    ends (.loop g d i) 4 (i.signExtend 64) ∧ ends (.loopLong g d e) 8 (e.signExtend 64) ∧ (d = 0 → n ≠ 0)) ∧
  (∀ (s : State) (c k : Nat) (g : Guard) (d a nb : Nat) (tab : DsptTable) (bytes : ByteList) (v : State), s.Issues c k g [d, a] →
    let t := s.found c k g [d, a]
    let u := s.issued c k g [d, a]
    (match tab with
      | .rel e =>
        let tb := t.pc + e.signExtend 64
        tb.toNat < 2 ^ 57 ∧ tb.toNat % 8 = 0 ∧ tb.toNat % 65536 + 8 * (nb + 1) ≤ 65536
          ∧ (∃ pl, u.placeOf c k .g tb (8 * (nb + 1)) .read false false = .ok pl ∧ u.ownOrder c k pl.keys = false)
          ∧ u.readV (u.whoStrand c k) .read tb.toNat (8 * (nb + 1)) = .ok (bytes, v)
      | .loc off =>
        off.toNat % 8 = 0 ∧ off.toNat % 8192 + 8 * (nb + 1) ≤ 8192 ∧ v = u ∧ u.readLocalChecked c off.toNat (8 * (nb + 1)) = .ok bytes
          ∧ u.ownOrder c k ((List.range (8 * (nb + 1))).filterMap fun i => u.localKey c false (off.toNat + i)) = false) →
    let cap := fun (n : Nat) => field bytes (8 * n) 4
    let go := fun (n : Nat) => t.pc + (BitVec.ofNat 32 (field bytes (8 * n + 4) 4)).signExtend 64
    let y := match tab with
      | .rel _ => v.strand c k
      | .loc _ => t
    (∀ n, n ≤ nb → (∀ m, m < n → cap m < (y.readS a).toNat) → (y.readS a).toNat ≤ cap n →
      (go n).toNat % 4 = 0 ∧ (go n).toNat < 2 ^ 57 →
        exec (.dspt g d a nb tab) s = .next ((v.setStrand c k (y.writeS d (BitVec.ofNat 64 (cap n)))).past c k (go n)))
    ∧ ((∀ m, m ≤ nb → cap m < (y.readS a).toNat) →
        exec (.dspt g d a nb tab) s = .next ((v.setStrand c k (y.writeS d (y.readS a))).past c k (t.pc + 8))))

/-- R173, R199: a word whose guard is false has no effect but the next PC, and waits for no operand; a held instruction is held no more. -/
def Obligations.GuardedOff : Prop :=
  ∀ (s : State) (c k : Nat) (g : Guard),
    let skips := fun (i : Instr) (len : Word64) => exec i s = .next ((s.setStrand c k (s.guarded c k g)).past c k ((s.guarded c k g).pc + len))
    s.Ready c k g → (s.guarded c k g).guard g = false →
    (∀ d a b, skips (.add g d a b) 4 ∧ skips (.mul g d a b) 4 ∧ skips (.div g d a b) 4 ∧
      skips (.fadd g d a b) 4 ∧ skips (.min g d a b) 4) ∧
    (∀ d a e, skips (.addLong g d a e) 8 ∧ skips (.divLong g d a e) 8 ∧ skips (.faddLong g d a e) 8) ∧
    (∀ d a, skips (.mov g d a) 4 ∧ skips (.clz g d a) 4) ∧
    (∀ d e, skips (.liLong g d e) 8) ∧
    (∀ j e, skips (.br g j) 4 ∧ skips (.brLong g e) 8) ∧
    (∀ d i, skips (.call g d i) 4 ∧ skips (.loop g d i) 4) ∧
    (∀ a, skips (.ret g a) 4) ∧
    (∀ d a sz sp cz sgn, skips (.ld g d a sz sp cz sgn) 4 ∧ skips (.st g d a sz sp cz) 4) ∧
    (∀ d a b op sp sz sc, skips (.amo g d a b op sp sz sc) 8) ∧
    (∀ d a i, skips (.probe g d a i) 4) ∧ (∀ a, skips (.unpin g a) 4) ∧
    (∀ sc, skips (.fence g sc) 4) ∧ (∀ r, skips (.pub g r) 8) ∧
    (∀ n, skips (.untrack g n) 4) ∧
    skips (.exit g) 4 ∧ skips (.rett g) 4 ∧ (∀ lvl, skips (.tbar g lvl) 4)

/-- R167, R173: what the words that compute leave alone: every byte of memory, every register but the destination, the predicates, the exception registers and the other state of the strand, the other strands of the core, the other cores, the launch parts and the queues. -/
def Obligations.FrameOfComputation : Prop :=
  ∀ (s : State) (c k : Nat) (g : Guard) (d a b : Nat) (e : Word32) (i : Imm12),
    let keeps := fun (uses : List Nat) (x : Instr) => ∃ u, exec x s = .next u ∧ (∀ q, memByte u.mem q = memByte s.mem q) ∧
      (∀ n, n ≠ d → (u.strand c k).readS n = (s.found c k g uses).readS n) ∧ (u.strand c k).readS 0 = 0 ∧
      (u.strand c k).preds = (s.found c k g uses).preds ∧ (u.strand c k).status = (s.found c k g uses).status ∧
      (u.strand c k).tcause = (s.found c k g uses).tcause ∧ (u.strand c k).tinfo = (s.found c k g uses).tinfo ∧ (u.strand c k).tvec = (s.found c k g uses).tvec ∧
      (u.strand c k).tframe = (s.found c k g uses).tframe ∧ (u.strand c k).inh = (s.found c k g uses).inh ∧ (u.strand c k).seen = (s.found c k g uses).seen ∧
      (∀ j, j ≠ k → u.strand c j = s.strand c j) ∧ (∀ f, f ≠ c → u.core f = s.core f) ∧
      u.parts = s.parts ∧ u.queues = s.queues ∧ u.dies = s.dies ∧ u.errseq = s.errseq ∧ u.port = s.port
    (s.Issues c k g [d, a, b] → ∀ x ∈ [Instr.add g d a b, .sub g d a b, .mul g d a b, .mulh g d a b, .div g d a b, .rem g d a b, .and g d a b, .or g d a b,
      .xor g d a b, .andn g d a b, .shl g d a b, .shr g d a b, .sra g d a b, .rol g d a b, .min g d a b, .max g d a b, .fadd g d a b, .fsub g d a b,
      .fmul g d a b, .fdiv g d a b, .ffma g d a b, .fmin g d a b, .fmax g d a b, .fsgn g d a b], keeps [d, a, b] x) ∧
    (s.Issues c k g [d, a] → ∀ x ∈ [Instr.mov g d a, .clz g d a, .ctz g d a, .popc g d a, .addLong g d a e, .subLong g d a e, .mulLong g d a e,
      .mulhLong g d a e, .divLong g d a e, .remLong g d a e, .andLong g d a e, .orLong g d a e, .xorLong g d a e, .andnLong g d a e, .shlLong g d a e,
      .shrLong g d a e, .sraLong g d a e, .rolLong g d a e, .minLong g d a e, .maxLong g d a e, .faddLong g d a e, .fsubLong g d a e, .fmulLong g d a e,
      .fdivLong g d a e], keeps [d, a] x) ∧
    (s.Issues c k g [d] → ∀ x ∈ [Instr.li g d i, .liLong g d e, .liH g d e, .lea g d i, .leaLong g d e], keeps [d] x)

/-- R202, R203, R107: LD of bytes inside the module keeps a load whose value is those bytes, little-endian, sign- or zero-extended; a causal one is served later. No byte of memory changes. -/
def Obligations.LoadsInsideTheModule : Prop :=
  ∀ (s : State) (c k : Nat) (g : Guard) (d a : Nat) (sz : Size) (sp : Space) (cz sgn : Bool) (e : Word32), s.Issues c k g [d, a] →
    let t := s.found c k g [d, a]
    let u := s.issued c k g [d, a]
    let n := sizeBytes sz
    let ends := fun (x : Instr) (ea len : Word64) => ∀ pl, u.placeOf c k sp ea n .read cz cz = .ok pl → pl.touchesDevice = false → pl.outside = false →
      u.placeHeld c k pl = none → u.ownOrder c k pl.keys = false → (cz = true → t.causalWaits = false) → u.placeCause c k false false pl = none →
      ∃ l, exec x s = .next ((((u.usePlace c k pl).issueItem c k true (spanOf c sp ea n)).holdLoad c k l).past c k (t.pc + len))
        ∧ l.item = s.nextId ∧ l.dst = d ∧ l.pd = 0
        ∧ (cz = false → l.val = some (if sgn then (BitVec.ofNat (8 * n) (leNat (u.readPlace pl))).signExtend 64
            else BitVec.ofNat 64 (leNat (u.readPlace pl))))
        ∧ (cz = true → l.val = none ∧ l.home = some pl.homeDie)
    ends (.ld g d a sz sp cz sgn) (t.readS a) 4 ∧ ends (.ldLong g d a sz sp cz sgn e) (t.readS a + e.signExtend 64) 8

/-- R202: a plain ST inside the module stores the low bytes of sD, little-endian, at the bytes its address names; every other byte of memory keeps its value. A causal ST (R107) goes to the queues of the dies and changes no byte yet. -/
def Obligations.StoresInsideTheModule : Prop :=
  ∀ (s : State) (c k : Nat) (g : Guard) (d a : Nat) (sz : Size) (sp : Space) (cz : Bool) (e : Word32), Memory.wf s.mem = true →
    s.Issues c k g [d, a] →
    let t := s.found c k g [d, a]
    let u := s.issued c k g [d, a]
    let n := sizeBytes sz
    let ends := fun (x : Instr) (ea len : Word64) => ∀ pl, u.placeOf c k sp ea n .write cz cz = .ok pl → pl.touchesDevice = false → pl.outside = false →
      u.placeHeld c k pl = none → u.ownOrder c k pl.keys = false → (cz = true → t.causalWaits = false) →
      u.placeCause c k true (decide (n = 8 ∧ ea.toNat % 8 = 0)) pl = none →
      ∃ t', exec x s = .next t'
        ∧ (cz = true → t'.mem = s.mem
          ∧ ∀ q, q < 8 → ((t'.die q).causal).length = ((u.usePlace c k pl).die q).causal.length + 1)
        ∧ (cz = false → ∀ q, q ∉ pl.keys → memByte t'.mem q = memByte s.mem q)
        ∧ (cz = false → ∀ home ks, pl = .pool home (bitsOf ea 20 0) ks → ks.Nodup →
            ∀ i, i < n → ∀ q, ks[i]? = some q → memByte t'.mem q = BitVec.ofNat 8 ((t.readS d).toNat / 2 ^ (8 * i)))
        ∧ (t'.strand c k).pc = t.pc + len ∧ (t'.strand c k).hold = none
        ∧ (∀ m, (t'.strand c k).readS m = t.readS m) ∧ (t'.strand c k).preds = t.preds
    ends (.st g d a sz sp cz) (t.readS a) 4 ∧ ends (.stLong g d a sz sp cz e) (t.readS a + e.signExtend 64) 8

/-- R78, R396, R407: LD and ST whose address breaks the form of its space, that are causal and misaligned, or that may not use the space, trap before the word, the lowest cause first; they change no memory and count nothing. -/
def Obligations.AccessFaults : Prop :=
  ∀ (s : State) (c k : Nat) (g : Guard) (d a : Nat) (sz : Size) (sp : Space) (cz sgn : Bool), s.Issues c k g [d, a] →
    let t := s.found c k g [d, a]
    let u := s.issued c k g [d, a]
    let n := sizeBytes sz
    let ea := t.readS a
    let traps := fun (cause : Nat) => exec (.ld g d a sz sp cz sgn) s = .next (u.takeTrap c k cause ea 0)
      ∧ exec (.st g d a sz sp cz) s = .next (u.takeTrap c k cause ea 0)
    t.loads.any (·.val.isNone) = false →
      (u.badForm c sp ea n = true → traps 0x301)
      ∧ (u.badForm c sp ea n = false → cz = true → ea.toNat % n ≠ 0 → traps 0x302)
      ∧ (u.badForm c sp ea n = false → cz = true → ea.toNat % n = 0 → sp = .l → traps 0x303)
      ∧ (u.badForm c sp ea n = false → (cz = true → ea.toNat % n = 0) → u.foreignPeer c sp ea = true → traps 0x303)

/-- R83, R364, R453: LD and ST of tiers 1 and 2 send one request that the completion of the peer or the host answers. -/
def Obligations.AccessesOutsideTheModule : Prop :=
  ∀ (s : State) (c k : Nat) (g : Guard) (d a : Nat) (sz : Size) (sp : Space) (cz sgn : Bool) (pl : Place), s.Issues c k g [d, a] →
    let t := s.found c k g [d, a]
    let u := s.issued c k g [d, a]
    let n := sizeBytes sz
    let ea := t.readS a
    ∀ p q, pl = .glob [(p, q)] → (p.loc.tier = 1 ∨ p.loc.tier = 2) → u.placeHeld c k pl = none → u.ownOrder c k pl.keys = false →
      u.noRoute (coreDie c) = false →
      (u.placeOf c k sp ea n .read cz cz = .ok pl →
        ∃ t', exec (.ld g d a sz sp cz sgn) s = .next t' ∧ t'.mem = s.mem ∧ (t'.strand c k).pc = t.pc + 4
          ∧ (∃ r, t'.requests = s.requests ++ [r] ∧ r.whose = .load c k s.nextId ∧ r.tier = pl.tier ∧ r.info = ea)
          ∧ (∃ l, (t'.strand c k).loads = t.loads ++ [l] ∧ l.item = s.nextId ∧ l.dst = d ∧ l.val = none))
      ∧ (u.placeOf c k sp ea n .write cz cz = .ok pl →
        ∃ t', exec (.st g d a sz sp cz) s = .next t' ∧ t'.mem = s.mem ∧ (t'.strand c k).pc = t.pc + 4
          ∧ ∃ r, t'.requests = s.requests ++ [r] ∧ r.whose = .store c k s.nextId ∧ r.tier = pl.tier ∧ r.info = BitVec.ofNat 64 p.va)

/-- R206 to R208: an atomic inside the module returns the old value, zero-extended; AMO stores f(old, o), CAS stores sB when old equals sD, and its predicate tells. In tier 2 an AMO other than ADD and SWAP traps with SPACEUSE (R209). -/
def Obligations.AtomicsInsideTheModule : Prop :=
  ∀ (s : State) (c k : Nat) (g : Guard) (d a b pd : Nat) (sp : Space) (sz : AmoSize) (sc : Scope) (pl : Place),
    let n := amoBytes sz
    let free := fun (u : State) (ea : Word64) => u.placeOf c k sp ea n .atomic true false = .ok pl ∧ pl.touchesDevice = false ∧ pl.outside = false
      ∧ u.onHost c k sp ea = false ∧ u.placeHeld c k pl = none ∧ u.ownOrder c k pl.keys = false ∧ u.placeCause c k true false pl = none
    (∀ op, s.Issues c k g [d, a, b] →
      let t := s.found c k g [d, a, b]
      let u := s.issued c k g [d, a, b]
      let ea := t.readS a
      free u ea →
        let x := BitVec.ofNat (8 * n) (leNat (u.readPlace pl))
        let o := (t.readS b).truncate (8 * n)
        let f : BitVec (8 * n) := match op with
          | .add => x + o
          | .and => x &&& o
          | .or => x ||| o
          | .xor => x ^^^ o
          | .min => if x.toInt ≤ o.toInt then x else o
          | .max => if x.toInt ≥ o.toInt then x else o
          | .minu => if x.toNat ≤ o.toNat then x else o
          | .maxu => if x.toNat ≥ o.toNat then x else o
          | .swap => o
        ∃ l, exec (.amo g d a b op sp sz sc) s
            = .next (((((u.usePlace c k pl).issueItem c k true (spanOf c sp ea n)).holdLoad c k l).writePlace c (leBytes n f.toNat) pl).past c k (t.pc + 8))
          ∧ l.item = s.nextId ∧ l.dst = d ∧ l.pd = 0 ∧ l.val = some (BitVec.ofNat 64 (leNat (u.readPlace pl))))
    ∧ (s.Issues c k g [d, a, b, 64 + pd] →
      let t := s.found c k g [d, a, b, 64 + pd]
      let u := s.issued c k g [d, a, b, 64 + pd]
      let ea := t.readS a
      free u ea →
        let old := leNat (u.readPlace pl)
        let same := old = (t.readS d).toNat % 2 ^ (8 * n)
        let kept := fun (l : Load) => ((u.usePlace c k pl).issueItem c k true (spanOf c sp ea n)).holdLoad c k l
        ∃ l, l.item = s.nextId ∧ l.dst = d ∧ l.pd = pd ∧ l.val = some (BitVec.ofNat 64 old)
          ∧ (same → exec (.cas g d a b sp sz sc pd) s
              = .next (((kept l).writePlace c (leBytes n ((t.readS b).toNat % 2 ^ (8 * n))) pl).past c k (t.pc + 8)))
          ∧ (¬same → exec (.cas g d a b sp sz sc pd) s = .next ((kept l).past c k (t.pc + 8)))
          ∧ (old < 2 ^ 64 → (l.ok = true ↔ same)))
    ∧ (∀ op, op ≠ .add → op ≠ .swap → s.Issues c k g [d, a, b] →
      let u := s.issued c k g [d, a, b]
      let ea := (s.found c k g [d, a, b]).readS a
      u.badForm c sp ea n = false → ea.toNat % n = 0 → u.onHost c k sp ea = true → (s.found c k g [d, a, b]).loads.any (·.val.isNone) = false →
        exec (.amo g d a b op sp sz sc) s = .next (u.takeTrap c k 0x303 ea 0))

/-- R94, R204: PROBE of a block that a valid tag holds pins its slot once more, gives its local offset and goes on; of one that is being filled it does the same and branches; else it takes a slot, starts the fill and branches. UNPIN (R205) lowers the pin count. STTCFG_WRITE and STTCFG_APPLY (R93): a value that an unusable frame or a bound shadow forbids traps with STTUSE; another waits, and takes effect once no fill is in flight. -/
def Obligations.ScratchCache : Prop :=
  (∀ (s : State) (c k : Nat) (g : Guard) (d a : Nat) (off : Imm6) (e : Word32),
    let x := s.core c
    let blk := fun (va : Word64) => va.toNat / sttBlock x.sttcfg * sttBlock x.sttcfg
    (s.Issues c k g [d, a] →
      let t := s.found c k g [d, a]
      let u := s.issued c k g [d, a]
      let va := t.readS a
      let ends := fun (i : Instr) (len o : Word64) =>
        (∀ n, x.tagOf (blk va) = some n → (x.tagAt n).pins < 255 → sttSlots x.sttcfg ≠ 0 →
          exec i s = .next (((u.setCore c ((u.core c).pinTag n)).onStrand c k fun y => y.writeS d (BitVec.ofNat 64 (x.slotOff n))).past c k
            (if (x.tagAt n).st = .valid then t.pc + len else t.pc + 4 * o)))
        ∧ (∀ n, x.tagOf (blk va) = none → x.sttPend = none → (x.chan (sttChan x.sttcfg)).length < 128 → x.victim = some n → sttSlots x.sttcfg ≠ 0 →
          exec i s = .next ((((u.setCore c ((u.core c).startFill s.shared n (blk va) s.nextId)).bumpId).onStrand c k
            fun y => y.writeS d (BitVec.ofNat 64 (x.slotOff n))).past c k (t.pc + 4 * o)))
        ∧ (sttSlots x.sttcfg = 0 → t.loads.any (·.val.isNone) = false → exec i s = .next (u.takeTrap c k 0x30E va 0))
      ends (.probe g d a off) 4 (off.signExtend 64) ∧ ends (.probeLong g d a e) 8 (e.signExtend 64))
    ∧ (s.Issues c k g [a] →
      let t := s.found c k g [a]
      let u := s.issued c k g [a]
      (∀ n, x.tagOf (blk (t.readS a)) = some n → 0 < (x.tagAt n).pins →
        exec (.unpin g a) s = .next ((u.setCore c ((u.core c).setTag n { x.tagAt n with pins := (x.tagAt n).pins - 1 })).past c k (t.pc + 4)))
      ∧ ((x.tagOf (blk (t.readS a)) = none ∨ ∃ n, x.tagOf (blk (t.readS a)) = some n ∧ (x.tagAt n).pins = 0) →
        t.loads.any (·.val.isNone) = false → exec (.unpin g a) s = .next (u.takeTrap c k 0x30E (t.readS a) 0)))) ∧
  ((∀ (s : State) (c k : Nat) (v : Word64), k < 4 → s.strandReady c k = true →
    ((s.core c).sttBad v = true → ((s.strand c k).loads.any fun l => l.val.isNone) = false →
      exec (.sttcfgWrite c k v) s = .next (s.takeTrap c k 0x30E v 0)) ∧
    ((s.core c).sttBad v = false → (s.core c).sttPend = none →
      exec (.sttcfgWrite c k v) s = .next (s.setCore c { s.core c with sttPend := some (k, v) }))) ∧
  (∀ (s : State) (c k : Nat) (v : Word64), (s.core c).sttPend = some (k, v) → (s.core c).fillsOpen = false → (s.core c).frozen = false →
    exec (.sttcfgApply c) s = .next (s.setCore c ((s.core c).applyStt v))))

/-- R101, R105, R210, R212: FENCE waits for every item the core counts, FENCE.R for those of its ranges' slots and the strand's own reads; each goes on once that set is performed at its scope, and holds until then. At package scope and wider what it holds on begins with a read that pushes its writes to the host (R114). R103 to R105, R213, R214: TRACK binds an unbound slot to its range, what is counted becoming its residue; a bound one traps with TRACKBOUND; UNTRACK unbinds a slot, and one that is not bound stays so. -/
def Obligations.FencesAndTracking : Prop :=
  (∀ (s : State) (c k : Nat) (g : Guard) (sc : Scope) (rs : RangeList),
    let pushed := fun (u : State) (set : List Nat) =>
      if sc = .package ∨ sc = .gang then u.pushWrites c k fun _ i => set.contains i else u
    (s.Issues c k g [] →
      let t := s.found c k g []
      let set := match t.hold with
        | some h => h.ids
        | none => (s.core c).items.map (·.id)
      let performed := ∀ i ∈ (s.core c).items, i.id ∈ set → i.atScope sc = true
      (performed → exec (.fence g sc) s = .next ((s.issued c k g []).past c k (t.pc + 4)))
      ∧ (¬performed → exec (.fence g sc) s = .next ((pushed (s.issued c k g []) set).holds c k ⟨.fence g sc, set, 0, none, []⟩)))
    ∧ (s.Issues c k g (rangeUses rs) → ∀ l,
      let t := s.found c k g (rangeUses rs)
      rangesOf (s.core c) t rs = .ok l ∧ t.hold = none →
      let set := (s.core c).rangeSet k l
      let performed := ∀ i ∈ (s.core c).items, i.id ∈ set → i.atScope sc = true
      (performed → exec (.fenceR g sc rs) s = .next ((s.issued c k g (rangeUses rs)).past c k (t.pc + 8)))
      ∧ (¬performed → exec (.fenceR g sc rs) s = .next ((pushed (s.issued c k g (rangeUses rs)) set).holds c k ⟨.fenceR g sc rs, set, 0, none, []⟩)))) ∧
  (∀ (s : State) (c k : Nat) (g : Guard) (slot : Nat) (r : RangeRef) (l : Range),
    (s.Issues c k g (rangeUses [r]) →
      let t := s.found c k g (rangeUses [r])
      let u := s.issued c k g (rangeUses [r])
      rangeOf (s.core c) t r = .ok l →
        (tabFind (s.core c).track slot = none → ∃ t', exec (.track g slot r) s = .next t'
          ∧ tabFind (t'.core c).track slot = some l ∧ (∀ j, j ≠ slot → tabFind (t'.core c).track j = tabFind (s.core c).track j)
          ∧ (slot < 32 → ∀ i ∈ (t'.core c).items, i.res.getLsbD slot = true ∧ i.trk.getLsbD slot = false)
          ∧ t'.mem = s.mem ∧ (t'.strand c k).pc = t.pc + 8)
        ∧ ((tabFind (s.core c).track slot).isSome = true → t.loads.any (·.val.isNone) = false →
          exec (.track g slot r) s = .next (u.takeTrap c k 0x306 (BitVec.ofNat 64 slot) 0)))
    ∧ (s.Issues c k g [] → ∃ t', exec (.untrack g slot) s = .next t' ∧ (tabRising (s.core c).track = true → tabFind (t'.core c).track slot = none)
        ∧ (∀ j, j ≠ slot → tabFind (t'.core c).track j = tabFind (s.core c).track j)
        ∧ (slot < 32 → ∀ i ∈ (t'.core c).items, i.res.getLsbD slot = false ∧ i.trk.getLsbD slot = false)
        ∧ t'.mem = s.mem ∧ (t'.strand c k).pc = (s.found c k g []).pc + 4))

/-- R83, R116, R215, R407: PUB of a range in a scratchpad asks that core for a publish of the pages of the range that have a shadow, PUB of device virtual memory asks the dies for its regions that have one; it then holds. With none it goes on at once, as it does once its publish has taken effect. A W-store range traps with SPACEUSE, a range past 2^57 with ADDRFORM. A range in the pool of a core of another part publishes nothing (the model's reading). -/
def Obligations.PublishInstruction : Prop :=
  ∀ (s : State) (c k : Nat) (g : Guard) (r : RangeRef) (l : Range) (h : Hold), s.Issues c k g (rangeUses [r]) →
    let t := s.found c k g (rangeUses [r])
    let u := s.issued c k g (rangeUses [r])
    let goes := Host.Outcome.next (φ := Fault) (ρ := Refusal) (u.past c k (t.pc + 8))
    let waits := fun (t' : State) => ∃ h', (t'.strand c k).hold = some h' ∧ h'.instr = .pub g r ∧ h'.ids = [s.nextId] ∧ (t'.strand c k).pc = t.pc
    (t.hold = some h → h.ids.any u.pubOpen = false → exec (.pub g r) s = goes)
    ∧ (t.hold = some h → h.ids.any u.pubOpen = true → exec (.pub g r) s = .next (u.holds c k h))
    ∧ (t.hold = none → rangeOf (s.core c) t r = .ok l →
      (∀ p pages, (l.space = .l ∧ p = c ∧ pages = (s.core c).shadowPages l.lo l.hi)
          ∨ (l.space = .c ∧ p = coreCrew c * 64 + l.lo / 2 ^ 21 % 64 ∧ (s.core p).part = (s.core c).part
            ∧ pages = (s.core p).shadowPages (l.lo % 2 ^ 21) (l.lo % 2 ^ 21 + (l.hi - l.lo))) →
        (pages = [] → exec (.pub g r) s = goes)
        ∧ (pages ≠ [] → ∃ t', exec (.pub g r) s = .next t' ∧ (t'.core p).pubs = (s.core p).pubs ++ [⟨s.nextId, pages, none⟩]
            ∧ t'.mem = s.mem ∧ waits t'))
      ∧ (l.space = .c → (s.core (coreCrew c * 64 + l.lo / 2 ^ 21 % 64)).part ≠ (s.core c).part → exec (.pub g r) s = goes)
      ∧ (l.space = .g → l.hi ≤ 2 ^ 57 → ∀ q, u.shadowRegions (u.whoStrand c k) l.lo l.hi = .ok q →
        (q = [] → exec (.pub g r) s = goes)
        ∧ (q ≠ [] → exec (.pub g r) s = .next ((u.askRegions s.nextId none q).bumpId.holds c k ⟨.pub g r, [s.nextId], 0, none, []⟩)))
      ∧ (t.loads.any (·.val.isNone) = false →
        (l.space = .w → exec (.pub g r) s = .next (u.takeTrap c k 0x303 (BitVec.ofNat 64 l.lo) 0))
        ∧ (l.space = .g → 2 ^ 57 < l.hi → exec (.pub g r) s = .next (u.takeTrap c k 0x301 (BitVec.ofNat 64 l.lo) 0))))

/-- R111, R216: TBAR of a level whose teams stay on this module ends the round and goes on when every other member has arrived or exited, else arrives and holds until the generation changes; a level beyond the last traps with SCOPEUSE. A false guard (R173) makes it pass. R34, R218, R232 to R234: NOP, TID, LIVE, and YIELD: without a yield request it gives false; with one the strand stops after it, and while another strand of the part runs nothing more happens. -/
def Obligations.TeamsAndBarriers : Prop :=
  (∀ (s : State) (c k lvl : Nat) (g : Guard),
    (s.Ready c k g → (s.guarded c k g).guard g = false →
      exec (.tbar g lvl) s = .next ((s.setStrand c k (s.guarded c k g)).past c k ((s.guarded c k g).pc + 4)))
    ∧ (s.Issues c k g [] →
      let t := s.found c k g []
      let u := s.issued c k g []
      let p := s.corePart c
      let b := p.barAt lvl (p.teamKey lvl t.team)
      let after := fun (x : State) => (x.corePart c).barAt lvl (p.teamKey lvl t.team)
      (lvl ≥ p.levels.length → t.loads.any (·.val.isNone) = false →
        exec (.tbar g lvl) s = .next (u.takeTrap c k 0x30A (BitVec.ofNat 64 lvl) 0))
      ∧ (∀ h, lvl < p.levels.length → t.hold = some h → b.gen.toNat ≠ h.gen → exec (.tbar g lvl) s = .next (u.past c k (t.pc + 4)))
      ∧ (∀ h, lvl < p.levels.length → t.hold = some h → b.gen.toNat = h.gen → exec (.tbar g lvl) s = .next (u.holds c k h))
      ∧ (∀ n, lvl < p.levels.length → t.hold = none → u.releaseWaits c k = false → (∀ l, p.levels[lvl]? = some l → l.scope = 5 → u.ownAtGang c k = true) →
        p.spans lvl = false → (s.core c).part = some n →
        let allHere := ∀ q ∈ u.members p lvl t.team, (u.strand q.1 q.2).status = .exited ∨ (b.gen.toNat, u.memberNo q.1 q.2) ∈ b.arrived
          ∨ u.memberNo q.1 q.2 = u.memberNo c k
        ∃ t', exec (.tbar g lvl) s = .next t' ∧ t'.mem = s.mem ∧ (t'.strand c k).regs = t.regs ∧ (t'.strand c k).preds = t.preds
          ∧ (allHere → (after t').gen = b.gen + 1 ∧ (t'.strand c k).pc = t.pc + 4 ∧ (t'.strand c k).hold = none)
          ∧ (¬allHere → (after t').gen = b.gen ∧ (b.gen.toNat, u.memberNo c k) ∈ (after t').arrived ∧ (t'.strand c k).pc = t.pc
            ∧ (t'.strand c k).hold = some ⟨.tbar g lvl, [], b.gen.toNat, none, []⟩)))) ∧
  (∀ (s : State) (c k d a p i : Nat) (g : Guard) (e : Word32),
    (s.Issues c k g [] →
      exec (.nop g) s = .next ((s.issued c k g []).past c k ((s.found c k g []).pc + 4))
      ∧ ∃ t', exec (.liveLong g e) s = .next t' ∧ (t'.core c).livem = e ∧ t'.mem = s.mem ∧ (t'.strand c k).regs = (s.found c k g []).regs
        ∧ (t'.strand c k).pc = (s.found c k g []).pc + 8)
    ∧ (s.Issues c k g [a] → ∃ t', exec (.live g a) s = .next t' ∧ (t'.core c).livem = ((s.found c k g [a]).readS a).truncate 32 ∧ t'.mem = s.mem
        ∧ (t'.strand c k).regs = (s.found c k g [a]).regs ∧ (t'.strand c k).pc = (s.found c k g [a]).pc + 4)
    ∧ (s.Issues c k g [d] →
      let t := s.found c k g [d]
      let l := (s.corePart c).levels
      let gives := fun (v : Nat) => Host.Outcome.next (φ := Fault) (ρ := Refusal) ((s.setStrand c k (t.writeS d (BitVec.ofNat 64 v))).past c k (t.pc + 4))
      exec (.tid g d (.x i)) s = gives (t.team.getD i 0) ∧ exec (.tid g d .n) s = gives l.length
      ∧ (∀ y, l[i]? = some y → exec (.tid g d (.f i)) s = gives y.fanout) ∧ (l.length ≤ i → exec (.tid g d (.f i)) s = gives 1)
      ∧ (∀ x0 x1 y0 y1, l = [y0, y1] → t.team = [x0, x1] → exec (.tid g d .t) s = gives (x0 * y1.fanout + x1))
      ∧ (∀ x0 x1 x2 y0 y1 y2, l = [y0, y1, y2] → t.team = [x0, x1, x2] →
          exec (.tid g d .t) s = gives (x0 * (y1.fanout * y2.fanout) + (x1 * y2.fanout + x2))))
    ∧ (s.Issues c k g [64 + p] →
      let t := s.found c k g [64 + p]
      ((s.corePart c).yreq = false → exec (.yield g p) s = .next ((s.setStrand c k (t.writeP p false)).past c k (t.pc + 4)))
      ∧ (∀ n dst j, (s.corePart c).yreq = true → (s.core c).part = some n → dst ∈ (s.part n).cores → j < 4 → (dst, j) ≠ (c, k) →
          (s.strand dst j).status = .runnable → exec (.yield g p) s = .next (s.setStrand c k { t.writeP p true with pc := t.pc + 4, status := .stopped, hold := none, got := [] }))))

/-- R169, R234, R407: MFS gives every system register, a privileged one only to a privileged launch; MTS writes those that are writable, in the fields they have; other numbers trap with SYSREG, the privileged view without privilege with PRIV. -/
def Obligations.SystemRegisters : Prop :=
  ∀ (s : State) (c k d a : Nat) (g : Guard) (n : Nat),
    let p := s.corePart c
    let x := s.core c
    let y := s.die (coreDie c)
    (s.Issues c k g [d] →
      let t := s.found c k g [d]
      let e := x.spmAt t.spmsel.toNat
      let number := fun (b : Bool) => if b then (1 : Nat) else 0
      let view : List (Nat × Word64) :=
        [(0x000, 0x801B1D008), (0x001, BitVec.ofNat 64 c), (0x002, x.partw.zeroExtend 64),
         (0x003, BitVec.ofNat 64 (k + 4 * number p.priv + x.lcore * 2 ^ 16)), (0x004, s.cycle + x.lead), (0x005, s.tick), (0x010, t.spmsel.zeroExtend 64),
         (0x011, BitVec.ofNat 64 (e.frame % 2 ^ 8 + e.shf % 2 ^ 8 * 2 ^ 8 + number e.v * 2 ^ 16 + number e.shv * 2 ^ 17)), (0x012, x.sttcfg),
         (0x018, x.srsv.zeroExtend 64), (0x019, x.srsc.zeroExtend 64), (0x020, t.tcause.zeroExtend 64), (0x021, t.tinfo), (0x022, t.tvec),
         (0x023, t.tframe), (0x024, BitVec.ofNat 64 (number p.yreq + 2 * number p.forced + p.dltick.toNat * 2 ^ 32))]
      let privileged : List (Nat × Word64) :=
        [(0x100, p.ptroot), (0x101, y.remapctl.zeroExtend 64),
         (0x102, BitVec.ofNat 64 (y.remapLria.toNat + y.remapLrib.toNat * 2 ^ 16 + number y.swap.isSome * 2 ^ 33 + number y.refused * 2 ^ 34)),
         (0x103, s.modesel), (0x104, y.ramp)]
      let gives := fun (v : Word64) => Host.Outcome.next (φ := Fault) (ρ := Refusal) ((s.setStrand c k (t.writeS d v)).past c k (t.pc + 4))
      (∀ r ∈ view, exec (.mfs g d r.1) s = gives r.2)
      ∧ (∀ r ∈ privileged, p.priv = true → exec (.mfs g d r.1) s = gives r.2)
      ∧ (t.loads.any (·.val.isNone) = false → ∀ r ∈ privileged, p.priv = false →
          exec (.mfs g d r.1) s = .next ((s.issued c k g [d]).takeTrap c k 0x308 (BitVec.ofNat 64 r.1) 0))
      ∧ (t.loads.any (·.val.isNone) = false → n ∉ (view ++ privileged).map (·.1) →
          exec (.mfs g d n) s = .next ((s.issued c k g [d]).takeTrap c k 0x307 (BitVec.ofNat 64 n) 0)))
    ∧ (s.Issues c k g [a] →
      let t := s.found c k g [a]
      let u := s.issued c k g [a]
      let v := t.readS a
      let writes := fun (r : Nat) (w : State) => exec (.mts g r a) s = .next (w.past c k (t.pc + 4))
      let seed : Word32 := if v.truncate 32 = 0#32 then 0x6D2B79F5 else v.truncate 32
      writes 0x010 (s.setStrand c k { t with spmsel := v.truncate 8 })
      ∧ writes 0x018 (u.setCore c { u.core c with srsv := seed }) ∧ writes 0x019 (u.setCore c { u.core c with srsc := seed })
      ∧ writes 0x022 (s.setStrand c k { t with tvec := v &&& 0xFFFFFFFFFFFFFFFC })
      ∧ writes 0x023 (s.setStrand c k { t with tframe := v &&& 0x1FFFC0 })
      ∧ (x.sttBad v = false → x.sttPend = none → x.fillsOpen = false → (t.hold.map (·.gen)) ≠ some 1 →
          writes 0x012 (u.setCore c { u.core c with sttcfg := v &&& 0x7FFFFFFFFFFF, tags := [], stampNext := 0, sttPend := none }))
      ∧ (p.priv = true →
          (∀ m, x.part = some m → writes 0x100 (u.setPart m { p with ptroot := v &&& 0x1FFFFFFF000 }))
          ∧ writes 0x101 (u.onDie (coreDie c) fun z => { z with remapctl := remapctlOf v })
          ∧ writes 0x102 (u.opRemapReq (coreDie c) v) ∧ writes 0x103 { u with modesel := v &&& 0xF } ∧ writes 0x104 (u.opRampctl (coreDie c) v))
      ∧ (t.loads.any (·.val.isNone) = false →
          (p.priv = false → 0x100 ≤ n → n ≤ 0x104 → exec (.mts g n a) s = .next (u.takeTrap c k 0x308 (BitVec.ofNat 64 n) 0))
          ∧ (n ∉ [0x010, 0x012, 0x018, 0x019, 0x022, 0x023, 0x100, 0x101, 0x102, 0x103, 0x104] →
            exec (.mts g n a) s = .next (u.takeTrap c k 0x307 (BitVec.ofNat 64 n) 0))))

/-- R112, R219 to R223, R407: the catch barrier instructions. CWAIT of p0 waits for a full slot, of another predicate for a phase that differs from it; a slot outside the window traps with CATCHUSE. R226, R408: DCSET and DCADD give a counter a value from 0 to 2^20 − 1, else trap with COUNTER; zero satisfies the records that wait on it. In a cycle that units share (log 42) an update within the range is noted, and takes effect at the end of it (R227). DCWAIT goes on at zero, or when the counter has been at zero while it held. -/
def Obligations.CatchBarriersAndCounters : Prop :=
  (∀ (s : State) (c k cb slot a p wm1 cnt : Nat) (g : Guard),
    let x := s.core c
    let bad := fun (j : Nat) => BitVec.ofNat 64 (cb + j * 256)
    let put := fun (u : State) (y : CatchSlot) => u.setCore c { u.core c with bars := tabPut x.bars cb { x.bar cb with slots := (x.bar cb).slots.set slot y } }
    (s.Issues c k g [] →
      let t := s.found c k g []
      let u := s.issued c k g []
      let still := t.loads.any (·.val.isNone) = false
      ((x.bar cb).stream = none → exec (.cinit g cb wm1 cnt) s
          = .next ((u.setCore c { u.core c with bars := tabPut x.bars cb ⟨List.replicate (wm1 + 1) ⟨cnt, 0, false, false, none, false⟩, none⟩ }).past c k (t.pc + 8)))
      ∧ (still → (x.bar cb).stream.isSome = true → exec (.cinit g cb wm1 cnt) s = .next (u.takeTrap c k 0x30B (bad 0) 0))
      ∧ (∀ y, (x.bar cb).slots[slot]? = some y →
          (0 < cnt → cnt < 2 ^ 24 → exec (.cexpLong g cb slot cnt) s
            = .next ((put u (if y.latched then { y with pending := some cnt } else { y with expected := cnt })).past c k (t.pc + 8)))
          ∧ (still → cnt = 0 ∨ cnt ≥ 2 ^ 24 → exec (.cexpLong g cb slot cnt) s = .next (u.takeTrap c k 0x30C (BitVec.ofNat 64 cnt) 0))
          ∧ (y.awaiting = true → u.releaseWaits c k = false → exec (.crel g cb slot) s
            = .next ((put u ⟨y.pending.getD y.expected, 0, y.phase, false, none, false⟩).past c k (t.pc + 4)))
          ∧ (still → y.awaiting = false → exec (.crel g cb slot) s = .next (u.takeTrap c k 0x30B (bad slot) 0)))
      ∧ (still → (x.bar cb).slots[slot]? = none →
          exec (.cexpLong g cb slot cnt) s = .next (u.takeTrap c k 0x30B (bad slot) 0) ∧ exec (.crel g cb slot) s = .next (u.takeTrap c k 0x30B (bad slot) 0)))
    ∧ (s.Issues c k g [a] →
      let t := s.found c k g [a]
      let n := (t.readS a).toNat
      ∀ y, (x.bar cb).slots[slot]? = some y → 0 < n → n < 2 ^ 24 →
        exec (.cexp g cb slot a) s
          = .next ((put (s.issued c k g [a]) (if y.latched then { y with pending := some n } else { y with expected := n })).past c k (t.pc + 4)))
    ∧ (s.Issues c k g [64 + p] →
      let t := s.found c k g [64 + p]
      let u := s.issued c k g [64 + p]
      ∀ y, (x.bar cb).slots[slot]? = some y →
        exec (.ctry g p cb slot) s = .next ((s.setStrand c k (t.writeP p y.awaiting)).past c k (t.pc + 4))
        ∧ ((p = 0 ∧ y.awaiting = true) ∨ (p ≠ 0 ∧ y.phase ≠ t.readP p) →
            exec (.cwait g cb slot p) s = .next ((s.setStrand c k (t.writeP p y.phase)).past c k (t.pc + 4)))
        ∧ ((p = 0 ∧ y.awaiting = false) ∨ (p ≠ 0 ∧ y.phase = t.readP p) →
            exec (.cwait g cb slot p) s = .next (u.holds c k ⟨.cwait g cb slot p, [], 0, none, []⟩)))) ∧
  (∀ (s : State) (c k n a v : Nat) (g : Guard) (e : Word32),
    let ends := fun (i : Instr) (uses : List Nat) (len : Word64) (w : Int) =>
      let t := s.found c k g uses
      let u := s.issued c k g uses
      (0 ≤ w → w < 2 ^ 20 → u.releaseWaits c k = false → s.shared = false → ∃ t', exec i s = .next t' ∧ (t'.core c).dc n = w.toNat
        ∧ (∀ j, j ≠ n → (t'.core c).dc j = (s.core c).dc j)
        ∧ (w = 0 → ∀ q ∈ (t'.core c).window, recWdv q.2.bytes = true → recWdc q.2.bytes = n → q.2.wcOk = true)
        ∧ t'.mem = s.mem ∧ (t'.strand c k).regs = t.regs ∧ (t'.strand c k).pc = t.pc + len)
      ∧ (0 ≤ w → w < 2 ^ 20 → u.releaseWaits c k = false → s.shared = true → ∃ t' y, exec i s = .next t'
        ∧ (t'.core c).dcs = (s.core c).dcs ∧ (t'.core c).dcNow = (s.core c).dcNow ++ [y] ∧ y.ctr = n ∧ y.start = (s.core c).dc n
        ∧ t'.mem = s.mem ∧ (t'.strand c k).regs = t.regs ∧ (t'.strand c k).pc = t.pc + len)
      ∧ (w < 0 ∨ w ≥ 2 ^ 20 → s.shared = false → t.loads.any (·.val.isNone) = false →
          exec i s = .next (u.takeTrap c k 0x30D (BitVec.ofNat 64 (n + (w % 2 ^ 32).toNat * 2 ^ 32)) 0))
    (s.Issues c k g [a] → ends (.dcset g n a) [a] 4 ((s.found c k g [a]).readS a).toNat
      ∧ ends (.dcadd g n a) [a] 4 ((s.core c).dc n + ((s.found c k g [a]).readS a).toInt))
    ∧ (s.Issues c k g [] →
      let t := s.found c k g []
      let u := s.issued c k g []
      ends (.dcsetLong g n v) [] 8 v ∧ ends (.dcaddLong g n e) [] 8 ((s.core c).dc n + e.toInt)
      ∧ (((s.core c).dc n = 0 ∧ s.shared = false) ∨ (∃ h, t.hold = some h ∧ h.gen = 1) → exec (.dcwait g n) s = .next (u.past c k (t.pc + 4)))
      ∧ ((s.core c).dc n ≠ 0 → t.hold = none → exec (.dcwait g n) s = .next (u.holds c k ⟨.dcwait g n, [], 0, none, []⟩)))
    ∧ (∀ h, k < 4 → (s.strand c k).hold = some h → h.instr = .dcwait g n → ((s.onCore c (·.setDc n 0)).strand c k).hold = some { h with gen := 1 }))

/-- R129 to R132, R224, R225, R407: POST enters a record that passes its checks into the lowest free entry of the window, holds while the window is full or the turn is another's (the ingress queue's, or that of another slot that posts), and POST.NB then gives false; POSTT and POSTR to a core of this module deliver to its ingress queue, and the predicate tells; POSTR to another module sends the record and ends with the answer. -/
def Obligations.PostingRecords : Prop :=
  ∀ (s : State) (c k a b p core idx : Nat) (g : Guard) (creg rel : Bool) (r : ByteList),
    let x := s.core c
    let lands := fun (u : State) (t : Strand) (dst : Nat) (t' : State) =>
      let ok := u.takesIngress (u.corePart c) dst
      t'.mem = s.mem ∧ (t'.strand c k).readP p = (p == 0 || ok) ∧ (t'.strand c k).pc = t.pc + 8 ∧ (t'.strand c k).regs = t.regs
        ∧ (t'.core dst).ingress = if ok then (s.core dst).ingress ++ [r] else (s.core dst).ingress
    let admits := fun (u : State) => (x.ingressTurn = false ∨ x.ingress = []) ∧ (u.core c).postTurn k = true
    p < 24 → (s.Issues c k g [a] →
      let t := s.found c k g [a]
      let u := s.issued c k g [a]
      u.releaseWaits c k = false → u.postRecord c (t.readS a) = .ok r →
        (∀ n v, x.freeEntry = some n → admits u → u.recordCheck c (t.readS a).toNat r = .ok v →
          exec (.post g a) s = .next ((u.setCore c (({ u.core c with ingressTurn := true, lastPost := k }).enter n r v)).past c k (t.pc + 4)))
        ∧ (∀ n, x.freeEntry = some n → ¬admits u → exec (.post g a) s = .next (u.holds c k ⟨.post g a, [], 0, none, []⟩))
        ∧ (∀ n e, x.freeEntry = some n → admits u → u.recordCheck c (t.readS a).toNat r = .error e → 4 ≤ e.code →
          t.loads.any (·.val.isNone) = false → exec (.post g a) s = .next (u.takeTrap c k e.code e.info e.info1))
        ∧ (x.freeEntry = none → exec (.post g a) s = .next (u.holds c k ⟨.post g a, [], 0, none, []⟩)))
    ∧ (s.Issues c k g [a, 64 + p] →
      let t := s.found c k g [a, 64 + p]
      let u := s.issued c k g [a, 64 + p]
      u.releaseWaits c k = false → u.postRecord c (t.readS a) = .ok r →
        (∀ n v, x.freeEntry = some n → admits u → u.recordCheck c (t.readS a).toNat r = .ok v →
          exec (.postNb g p a) s
            = .next (((u.setCore c (({ u.core c with ingressTurn := true, lastPost := k }).enter n r v)).onStrand c k (·.writeP p true)).past c k (t.pc + 4)))
        ∧ (x.freeEntry = none → exec (.postNb g p a) s = .next ((s.setStrand c k (t.writeP p false)).past c k (t.pc + 4))))
    ∧ (s.Issues c k g [64 + p, a, b] →
      let t := s.found c k g [64 + p, a, b]
      let u := s.issued c k g [64 + p, a, b]
      let q := s.corePart c
      let named := fun (l : Nat) => if creg then (t.readS b).toNat % 2 ^ 10 else l
      u.postRecord c (t.readS a) = .ok r →
        (∀ dst, core < 1024 → t.hold = none → u.releaseWaits c k = false → u.coreOf q (named core) = some dst → (s.core dst).frozen = false →
          ∃ t', exec (.postt g p a b core creg) s = .next t' ∧ lands u t dst t')
        ∧ (∀ dst, t.hold = none → (t.readS b).toNat / 2 ^ 32 % 2 ^ 16 = idx → named core < q.cores.length → (q.gang = true → idx = q.gidx ∧ idx < q.span 0) → (q.gang = false → idx = 0) →
          (rel = true → ∀ i ∈ x.items, i.atScope .gang = true) → u.coreOf q (named core) = some dst → (s.core dst).frozen = false →
          ∃ t', exec (.postr g p a b core creg rel) s = .next t' ∧ lands u t dst t')
        ∧ (t.hold = none → (t.readS b).toNat / 2 ^ 32 % 2 ^ 16 = idx → named core < q.cores.length → q.gang = true → idx ≠ q.gidx → idx < q.span 0 →
          (rel = true → ∀ i ∈ x.items, i.atScope .gang = true) → u.noRoute (coreDie c) = false → u.fabricWaits (coreDie c) = false →
          ∃ t' h, exec (.postr g p a b core creg rel) s = .next t' ∧ t'.mem = s.mem ∧ (t'.strand c k).hold = some h ∧ h.gen = 1 ∧ h.answer = none
            ∧ (∃ n f, .flit n f ∈ t'.port ∧ f.dest = q.modules.getD idx 0 ∧ f.msg = .post s.nextId (named core) q.key r)
            ∧ ∃ y, t'.requests = s.requests ++ [y] ∧ y.id = s.nextId ∧ y.whose = .post c k ∧ y.tier = 1))
    ∧ (s.Issues c k g [64 + p, a, b] → ∀ h v,
      let t := s.found c k g [64 + p, a, b]
      t.hold = some h → h.gen = 1 → h.answer = some v → v = 0 ∨ v = 1 →
        exec (.postr g p a b core creg rel) s = .next ((s.setStrand c k (t.writeP p (v == 1))).past c k (t.pc + 8)))

/-- R141, R228, R407: STA to 0x4000 and on writes a word of a template; to 0x00 to 0x38 it starts the patched template on that channel, the predicate telling whether the channel had room and no save of the part has been decided (R322); another offset traps with APERTURE. R143 to R146, R229 to R231, R407: SBIND binds the lowest free context of the program and the lowest free stream number, or gives all ones; CQPUSH appends to a stream's queue until its context has reached AHALT; SSTOP asks its context to stop. -/
def Obligations.CopiesAndStreams : Prop :=
  (∀ (s : State) (c k p a b imm : Nat) (g : Guard), p < 24 → s.Issues c k g [64 + p, a, b] →
    let t := s.found c k g [64 + p, a, b]
    let u := s.issued c k g [64 + p, a, b]
    let d := t.readS b
    let ends := fun (i : Instr) (off len : Word64) =>
      let copy := patchTemplate ((s.core c).template (d.toNat % 2 ^ 8)) (d.toNat / 2 ^ 8 % 2 ^ 16)
      (off.toNat % 8 = 0 → 0x4000 ≤ off.toNat → off.toNat < 0x8000 → ∃ t', exec i s = .next t' ∧ t'.mem = s.mem
        ∧ (t'.strand c k).readP p = true ∧ (t'.strand c k).regs = t.regs ∧ (t'.strand c k).pc = t.pc + len
        ∧ ∀ w, tabGet 0 (t'.core c).templates w = if w = (off.toNat - 0x4000) / 8 then d else tabGet 0 (s.core c).templates w)
      ∧ (off.toNat % 8 = 0 → off.toNat < 0x40 → d.toNat < 2 ^ 24 → (u.core c).templateBad (u.corePart c) copy = false → u.releaseWaits c k = false →
        let ch := off.toNat / 8
        let room := ((s.core c).chan ch).length < 128 ∧ s.savingCore c = false
        ∃ t', exec i s = .next t' ∧ t'.mem = s.mem ∧ (t'.strand c k).readP p = (p == 0 || decide room) ∧ (t'.strand c k).pc = t.pc + len
          ∧ (room → ∃ e, (t'.core c).chan ch = (s.core c).chan ch ++ [e] ∧ e.tpl = copy ∧ e.row = 0 ∧ e.src = .sta ∧ e.eid = s.nextId)
          ∧ (¬room → (t'.core c).chan ch = (s.core c).chan ch))
      ∧ (off.toNat % 8 ≠ 0 ∨ (0x40 ≤ off.toNat ∧ off.toNat < 0x4000) ∨ 0x8000 ≤ off.toNat → t.loads.any (·.val.isNone) = false →
        exec i s = .next (u.takeTrap c k 0x311 off d))
    ends (.sta g p a b) (t.readS a) 4 ∧ ends (.staLong g p a b imm) (t.readS a + BitVec.ofNat 64 imm) 8) ∧
  (∀ (s : State) (c k d a b prog cb entry p n key part m : Nat) (g : Guard) (q : Prog) (x : Ctx), d < 64 →
    (s.Issues c k g [d, a, b] →
      let t := s.found c k g [d, a, b]
      let u := s.issued c k g [d, a, b]
      let bar := (s.core c).bar cb
      (s.corePart c).progs[prog]? = some q → entry < q.len / 4 → bar.slots ≠ [] → bar.stream = none → u.releaseWaits c k = false → (s.core c).part = some part →
        ((q.ctxs.mergeSort (· ≤ ·)).find? (fun j => (u.ctx q.mse j).isNone) = some m → (List.range 8).find? (fun j => (u.streamOf c j).isNone) = some n →
          ∃ t' z, exec (.sbind g d a b prog cb entry) s = .next t' ∧ t'.mem = s.mem
            ∧ t'.ctx q.mse m = some z ∧ z.part = part ∧ z.prog = prog ∧ z.core = c ∧ z.stream = n ∧ z.bar = cb ∧ z.apc = entry ∧ z.held = false ∧ z.cq = []
            ∧ z.regs.toList = [(t.readS a).truncate 48, (t.readS b).truncate 48] ++ List.replicate 14 0
            ∧ (t'.core c).bar cb = { bar with stream := some n } ∧ (t'.strand c k).readS d = (if d = 0 then 0 else BitVec.ofNat 64 n)
            ∧ (t'.strand c k).pc = t.pc + 8)
        ∧ ((q.ctxs.mergeSort (· ≤ ·)).find? (fun j => (u.ctx q.mse j).isNone) = none →
          exec (.sbind g d a b prog cb entry) s = .next ((s.setStrand c k (t.writeS d (BitVec.allOnes 64))).past c k (t.pc + 8))))
    ∧ (s.Issues c k g [64 + p, a] →
      let t := s.found c k g [64 + p, a]
      let u := s.issued c k g [64 + p, a]
      let gives := fun (v : State) (ok : Bool) => exec (.cqpush g p a n) s = .next ((v.setStrand c k (t.writeP p ok)).past c k (t.pc + 4))
      u.releaseWaits c k = false →
        (s.streamOf c n = none → gives s false)
        ∧ (s.streamOf c n = some (key, x) → x.cq.length < 16 → x.halted = false → gives { s with ctxs := tabPut s.ctxs key { x with cq := x.cq ++ [t.readS a] } } true)
        ∧ (s.streamOf c n = some (key, x) → x.cq.length ≥ 16 ∨ x.halted = true → gives s false))
    ∧ (s.Issues c k g [] →
      let t := s.found c k g []
      let u := s.issued c k g []
      (s.streamOf c n = some (key, x) → exec (.sstop g n) s = .next (({ u with ctxs := tabPut s.ctxs key { x with stopping := true } } : State).past c k (t.pc + 4)))
      ∧ (s.streamOf c n = none → exec (.sstop g n) s = .next (u.past c k (t.pc + 4)))))

/-- R318, R400: taking a trap stores the frame of the strand, gives TCAUSE, TINFO and INH their values and goes on at TVEC; no other byte of memory changes. A strand with no usable handler stops faulted, with its cause. R234, R319, R409: TRAP takes cause 0x101 at the address after it; RETT restores pc, predicates, registers and INH from the frame, and with INH = 0 traps with BADFRAME. -/
def Obligations.TrapsAndReturns : Prop :=
  (∀ (s : State) (c k cause : Nat) (info info1 : Word64) (ks : List Nat), k < 4 → cause < 4096 →
    let t : Strand := { (((s.strand c k).landAll).rebased s.cycle.toNat).retire s.cycle.toNat with got := [] }
    let t' := s.takeTrap c k cause info info1
    let y := t'.strand c k
    (Memory.wf s.mem = true → t.tvec ≠ 0 → t.inh = false → (s.core c).frameOk t.frameOff = true → cause ≠ 0x309 →
      (List.range 1424).mapM (fun i => s.localKey c false (t.frameOff + i)) = some ks → ks.Nodup →
      let was := { t with tcause := BitVec.ofNat 12 cause, tinfo := info, hold := none }
      y.pc = t.tvec ∧ y.inh = true ∧ y.tcause.toNat = cause ∧ y.tinfo = info ∧ y.tvec = t.tvec ∧ y.tframe = t.tframe ∧ y.hold = none
      ∧ y.inflight = [] ∧ y.status = t.status ∧ (t.inflight = [] → y.regs = t.regs ∧ y.preds = t.preds)
      ∧ (∀ i key, ks[i]? = some key → memByte t'.mem key = (was.frame s.cycle.toNat 0 []).getD i 0)
      ∧ (∀ key, key ∉ ks → memByte t'.mem key = memByte s.mem key))
    ∧ (t.tvec = 0 ∨ t.inh = true ∨ (s.core c).frameOk t.frameOff = false ∨ cause = 0x309 → (s.core c).part = none →
      y.status = .faulted ∧ y.tcause.toNat = cause ∧ y.tinfo = info ∧ y.pc = t.pc ∧ y.inh = t.inh ∧ y.regs = t.regs ∧ y.preds = t.preds)) ∧
  (∀ (s : State) (c k code : Nat) (g : Guard) (f : ByteList),
    (s.Issues c k g [] →
      let t := s.found c k g []
      t.loads.any (·.val.isNone) = false →
        exec (.trap g code) s = .next ((s.setStrand c k { t with pc := t.pc + 4, hold := none, got := [] }).takeTrap c k 0x101 (BitVec.ofNat 64 code) 0))
    ∧ (s.Issues c k g (List.range 88) →
      let t := s.found c k g (List.range 88)
      let u := s.issued c k g (List.range 88)
      let x := u.core c
      (t.inh = true → u.readLocalChecked c t.frameOff 1424 = .ok f → field f 0x280 4 ≤ 16 → (∀ e ∈ frameEntries f, x.replayBad e = false) →
        ∃ t', exec (.rett g) s = .next t' ∧ t'.mem = s.mem ∧ (t'.strand c k).inh = false ∧ (t'.strand c k).pc.toNat = field f 0 8
          ∧ (t'.strand c k).inflight.length = field f 0x280 4 ∧ (t'.strand c k).tvec = t.tvec ∧ (t'.strand c k).tframe = t.tframe ∧ (t'.strand c k).tcause = t.tcause
          ∧ (field f 0x280 4 = 0 → (∀ n, 1 ≤ n → n < 64 → ((t'.strand c k).readS n).toNat = field f (0x40 + 8 * n) 8)
            ∧ (∀ n, 1 ≤ n → n < 24 → (t'.strand c k).readP n = (field f 0x0C 4).testBit n)))
      ∧ (t.inh = false → t.loads.any (·.val.isNone) = false →
        exec (.rett g) s = .next (u.takeTrap c k 0x309 (BitVec.ofNat 64 t.frameOff) (BitVec.allOnes 64)))))

/-- R235 to R237, R217: SYS asks the firmware and holds, and writes the answer; HALT stops the strand after it and asks for a save with reason 3; EXIT ends the strand after it, once its loads have returned. SYS_REPLY and GANG_BARRIER_ARRIVAL (R34, R111, R217, R235, R361, R363): the active complex answers an ECHO with its argument, and a NOTIFY with 0 once its notification is on its way, and the strand that holds in SYS has the answer; while the links carry requests an arrival of another module counts at the barrier of its team. -/
def Obligations.FirmwareRequestsAndEnds : Prop :=
  (∀ (s : State) (c k d a : Nat) (g : Guard) (svc : Service) (h : Hold) (v : Word64),
    (s.Issues c k g [d, a] →
      let t := s.found c k g [d, a]
      let u := s.issued c k g [d, a]
      (t.hold = none → exec (.sys g d a svc) s
          = .next (({ u with sysreqs := s.sysreqs ++ [⟨c, k, svc, t.readS a, s.fw.switching⟩] } : State).holds c k ⟨.sys g d a svc, [], 0, none, []⟩))
      ∧ (t.hold = some h → h.answer = some v → exec (.sys g d a svc) s = .next ((s.setStrand c k (t.writeS d v)).past c k (t.pc + 4))))
    ∧ (s.Issues c k g [] →
      let t := s.found c k g []
      let u := s.setStrand c k { t with pc := t.pc + 4, status := .stopped, hold := none, got := [] }
      (∀ p, (s.core c).part = some p → exec (.halt g) s = .next (u.askSave p 3))
      ∧ ((s.core c).part = none → exec (.halt g) s = .next u))
    ∧ (s.Issues c k g [] →
      let t := s.found c k g []
      (t.loads.any (·.val.isNone) = true → exec (.exit g) s = .next ((s.issued c k g []).holds c k ⟨.exit g, [], 0, none, []⟩))
      ∧ (t.loads.any (·.val.isNone) = false → (s.corePart c).yreq = false → ∃ t', exec (.exit g) s = .next t' ∧ t'.mem = s.mem ∧ (t'.strand c k).status = .exited
        ∧ (t'.strand c k).pc = t.pc + 4 ∧ (t'.strand c k).hold = none))) ∧
  ((∀ (s : State) (c k : Nat) (r : SysReq) (h : Hold), k < 4 → (s.sysreqs.find? fun r => r.core == c && r.slot == k) = some r → r.svc = .echo →
    s.fw.alive = true → r.held = false → s.keel.booted = true → (s.strand c k).hold = some h → ∃ u, exec (.sysReply c k) s = .next u ∧
      (u.strand c k).hold = some { h with answer := some r.arg } ∧ (u.strand c k).regs = (s.strand c k).regs ∧ u.mem = s.mem ∧
      ∀ q ∈ u.sysreqs, ¬(q.core = c ∧ q.slot = k)) ∧
  (∀ (s : State) (c k : Nat) (r : SysReq), (s.sysreqs.find? fun r => r.core == c && r.slot == k) = some r → r.svc = .notify →
    s.fw.alive = true → r.held = false → s.keel.booted = true →
    let t := s.notify (s.corePart c).queue 0 (noteBytes 2 0 0 0 r.arg)
    exec (.sysReply c k) s = .next (({ t with sysreqs := t.sysreqs.filter fun q => !(q.core == c && q.slot == k) } : State).onStrand c k fun y =>
      { y with hold := y.hold.map fun (h : Hold) => { h with answer := some 0 } })) ∧
  (∀ (s : State) (p lvl gen m : Nat), (tabFind s.parts p).isSome = true → (s.part p).spans lvl = true → gen ≤ 65536 → m / 65536 ≠ (s.part p).gidx →
    s.linked = true → exec (.gangBarrierArrival p lvl 0 gen m) s = .next (s.setPart p ((s.part p).setBar
      (s.settle (s.part p) (((s.part p).barAt lvl 0).arrive gen m) (s.members (s.part p) lvl []))))))

/-- R160, R162, R164, R190, R406: a word that is no instruction, and a fetch that meets a fault, are the cause of a trap at the strand (whatever the guard) or stop the kernel or the context at the word. -/
def Obligations.WordsThatAreNoInstruction : Prop :=
  ∀ (s : State) (c k m x cause : Nat) (w e : Word32) (info : Word64) (y : Kernel) (t : Ctx),
    (s.turn = .strand c k → (s.strand c k).loads.any (·.val.isNone) = false →
      exec (.illegalCoxWord w e) s = .next (s.takeTrap c k 0x201 (BitVec.ofNat 64 (w.toNat + e.toNat * 2 ^ 32)) 0)
      ∧ ((s.strand c k).failed = [] → 4 ≤ cause →
          exec (.instructionFetchFault cause info) s = .next (s.takeTrap c k cause info (s.fetchInfo1 (s.whoStrand c k) (s.strand c k).pc cause))))
    ∧ (s.KernelTurn c y → exec (.illegalVectorWord w) s = .next (s.kernelFault c ⟨0x202, BitVec.ofNat 64 w.toNat, 0⟩)
      ∧ (4 ≤ cause → exec (.instructionFetchFault cause info) s = .next (s.kernelFault c ⟨cause, info, s.fetchInfo1 (s.whoKernel c y) y.next cause⟩)))
    ∧ (s.CtxTurn m x t → exec (.illegalAccessWord w) s = .next (s.ctxFault m x ⟨0x203, BitVec.ofNat 64 w.toNat, 0⟩))
    ∧ (∀ p, p.waits = false → ((s.core c).kernel = some y → ((s.kernelFault c p).core c).kernel = some { y with held := true }
          ∧ ∃ q, (s.kernelFault c p).traps = s.traps ++ [q] ∧ q.unit = .kernel c ∧ q.cause = p.code ∧ q.info = p.info)
        ∧ (s.ctx m x = some t → (s.ctxFault m x p).ctx m x = some { t with held := true }
          ∧ ∃ q, (s.ctxFault m x p).traps = s.traps ++ [q] ∧ q.unit = .ctx m x ∧ q.cause = p.code ∧ q.info = p.info))

/-- R271, R274, R278, R279: the lane-wise arithmetic words give every lane that the mask enables its result, rounded once to nearest even on floating-point lanes and modulo 2^n on integer lanes. R280 to R283: bitwise words, integer lane shifts by an amount modulo the lane width, and moves; VSEL writes every lane, VPRM gives 0 for an index beyond the last lane, VCMP writes the mask bits of enabled lanes and keeps the others. R284 to R290, R294, R298: conversions, block scaling, ternary unpacking and reductions give their lanes and accrue their flags; a special function queues its result for the position after as many as its latency. -/
def Obligations.LaneResults : Prop :=
  (∀ (s : State) (c : Nat) (k : Kernel) (w : Bool) (d a b m : Nat) (t : VTy) (ra rb rd : ByteList), s.KernelTurn c k →
    let u := (s.vecFound c k).1
    let q := { (s.vecFound c k).2 with next := k.next + 4 }
    let wd := vWidth t
    let lane := fun (r : ByteList) (i : Nat) => field r (wd * i) wd
    let gives := fun (i : Instr) (reads : List Nat) (f : Nat → Nat) => exec i s = .next (State.vecWrote (u, q) c k.entry k.posn reads (destSel w d) wd
        ((List.range (512 / wd)).map fun j => if (q.mask m).getLsbD j then some (f j) else none))
    u.readSel c q wd a = .ok ra →
      (match vFmt t with
      | some g =>
        let x := fun j => fpVal g (lane ra j)
        gives (.vabs w d a m t) [a] (fun j => if (x j).isNan then g.nanBits else lane ra j % g.signBit)
        ∧ gives (.vneg w d a m t) [a] (fun j => if (x j).isNan then g.nanBits else lane ra j ^^^ g.signBit)
        ∧ (u.readSel c q wd b = .ok rb →
          let y := fun j => fpVal g (lane rb j)
          gives (.vadd w d a b m t) [a, b] (fun j => roundIeee g 0 0 (fpAdd (x j) (y j)))
          ∧ gives (.vsub w d a b m t) [a, b] (fun j => roundIeee g 0 0 (fpAdd (x j) (fpNeg (y j))))
          ∧ gives (.vmul w d a b m t) [a, b] (fun j => roundIeee g 0 0 (fpMul (x j) (y j)))
          ∧ gives (.vmin w d a b m t) [a, b] (fun j => fpMinMax g false (lane ra j) (lane rb j))
          ∧ gives (.vmax w d a b m t) [a, b] (fun j => fpMinMax g true (lane ra j) (lane rb j))
          ∧ (u.readSel c q wd (destSel w d) = .ok rd →
            gives (.vfma w d a b m t) [a, b, destSel w d] (fun j => roundIeee g 0 0 (fpAdd (fpMul (x j) (y j)) (fpVal g (lane rd j))))))
      | none =>
        let x := fun j => BitVec.ofNat (8 * wd) (lane ra j)
        gives (.vabs w d a m t) [a] (fun j => (x j).toInt.natAbs) ∧ gives (.vneg w d a m t) [a] (fun j => (-(x j)).toNat)
        ∧ (u.readSel c q wd b = .ok rb →
          let y := fun j => BitVec.ofNat (8 * wd) (lane rb j)
          gives (.vadd w d a b m t) [a, b] (fun j => (x j + y j).toNat) ∧ gives (.vsub w d a b m t) [a, b] (fun j => (x j - y j).toNat)
          ∧ gives (.vmul w d a b m t) [a, b] (fun j => (x j * y j).toNat)
          ∧ gives (.vmin w d a b m t) [a, b] (fun j => if (x j).toInt < (y j).toInt then lane ra j else lane rb j)
          ∧ gives (.vmax w d a b m t) [a, b] (fun j => if (x j).toInt < (y j).toInt then lane rb j else lane ra j)
          ∧ (u.readSel c q wd (destSel w d) = .ok rd →
            gives (.vfma w d a b m t) [a, b, destSel w d] (fun j => (x j * y j + BitVec.ofNat (8 * wd) (lane rd j)).toNat))))) ∧
  (∀ (s : State) (c : Nat) (k : Kernel) (w : Bool) (d a b m : Nat) (t : VTy) (ra rb : ByteList), s.KernelTurn c k →
    let u := (s.vecFound c k).1
    let q := { (s.vecFound c k).2 with next := k.next + 4 }
    let wd := vWidth t
    let lane := fun (r : ByteList) (i : Nat) => field r (wd * i) wd
    let writes := fun (i : Instr) (reads : List Nat) (f : Nat → Option Nat) =>
      exec i s = .next (State.vecWrote (u, q) c k.entry k.posn reads (destSel w d) wd ((List.range (512 / wd)).map f))
    let gives := fun (i : Instr) (reads : List Nat) (f : Nat → Nat) => writes i reads fun j => if (q.mask m).getLsbD j then some (f j) else none
    u.readSel c q wd a = .ok ra → gives (.vmov w d a m t) [a] (lane ra) ∧
      (u.readSel c q wd b = .ok rb →
        gives (.vand w d a b m t) [a, b] (fun j => lane ra j &&& lane rb j) ∧ gives (.vor w d a b m t) [a, b] (fun j => lane ra j ||| lane rb j)
        ∧ gives (.vxor w d a b m t) [a, b] (fun j => lane ra j ^^^ lane rb j)
        ∧ writes (.vsel w d a b m t) [a, b] (fun j => some (if (q.mask m).getLsbD j then lane ra j else lane rb j))
        ∧ gives (.vbcst w d a b m t) [a, b] (fun _ => lane ra (lane rb 0 % (512 / wd)))
        ∧ gives (.vprm w d a b m t) [a, b] (fun j => if lane rb j < 512 / wd then lane ra (lane rb j) else 0)
        ∧ (∀ it, t = ofITy it →
          let x := fun j => BitVec.ofNat (8 * wd) (lane ra j)
          let n := fun j => lane rb j % (8 * wd)
          gives (.vshl w d a b m it) [a, b] (fun j => (x j <<< n j).toNat) ∧ gives (.vshr w d a b m it) [a, b] (fun j => (x j >>> n j).toNat)
          ∧ gives (.vsra w d a b m it) [a, b] (fun j => ((x j).sshiftRight (n j)).toNat))
        ∧ (∀ cc, ∃ v, exec (.vcmp cc d a b m t) s = .next (State.vecWord (u, q.setMask d v) c k.entry (k.posn + 1) [a, b])
          ∧ ∀ j, j < 256 → v.getLsbD j = if j < 512 / wd ∧ (q.mask m).getLsbD j = true then laneCmp cc t (lane ra j) (lane rb j) else (q.mask d).getLsbD j))) ∧
  (∀ (s : State) (c : Nat) (k : Kernel) (w : Bool) (d a m : Nat) (t : VTy) (ra rd : ByteList), s.KernelTurn c k →
    let u := (s.vecFound c k).1
    let q := { (s.vecFound c k).2 with next := k.next + 4 }
    let on := fun j => (q.mask m).getLsbD j
    let writes := fun (i : Instr) (v : State) (r : Kernel) (reads : List Nat) (wd : Nat) (l : Lanes) =>
      exec i s = .next (State.vecWrote (v, r) c k.entry k.posn reads (destSel w d) wd l)
    let drawn := u.onCore c fun y => { y with srsv := BitVec.ofNat 32 (srAdvance (u.core c).srsv.toNat) }
    let random := srLane (srAdvance (u.core c).srsv.toNat)
    (u.readSel c q 4 a = .ok ra →
      (∀ kind mode, kind < 8 → writes (.vcvt w d a kind mode m) drawn q [a] 4 ((List.range 128).map fun j => if on j then some (vcvtWide kind ra j) else none))
      ∧ (∀ kind mode, 8 ≤ kind → (vcvtNarrow kind = true → u.readSel c q 4 (destSel w d) = .ok rd) →
        let el := fun j => encodeElem (vcvtTo kind).1 mode (random j) (if (vcvtTo kind).2.2 then fpOfInt (sextInt (field ra (4 * j) 4) 32) else fpVal fmtF32 (field ra (4 * j) 4))
        ∃ f : Bool × Bool, writes (.vcvt w d a kind mode m) drawn (q.accrue f.1 f.2 false false) (if vcvtNarrow kind then [a, destSel w d] else [a]) (vcvtTo kind).2.1
            ((List.range 128).map fun j => if on j then some (el j).1 else none)
          ∧ (f.1 = true ↔ ∃ j, j < 128 ∧ on j = true ∧ (el j).2.1 = true) ∧ (f.2 = true ↔ ∃ j, j < 128 ∧ on j = true ∧ (el j).2.2 = true))
      ∧ (∀ mw mode, ∃ (f : Bool × Bool) (b : ByteList), writes (.vscl w d a mw true mode m) drawn (q.accrue f.1 f.2 false false) [a] 1 (b.map fun (v : Byte) => some v.toNat)
          ∧ (b, f) = (Fmt.bfp (mw + 2)).encodeAll mode random ((List.range 128).map fun j => if on j then fpVal fmtF32 (field ra (4 * j) 4) else .fin false 0 0))
      ∧ (∀ mw mode, ∃ f : Bool × Bool, writes (.vscl w d a mw false mode m) u (q.accrue false f.1 f.2 false) [a] 4 ((List.range 128).map fun j =>
          if on j then some (ieeeF32 ((bfpDecode (mw + 2) (slice ra (j / 32 * (1 + 4 * (mw + 2))) (1 + 4 * (mw + 2)))).getD (j % 32) .nan)) else none)))
    ∧ (u.readSel c q (vWidth t) a = .ok ra →
      let n := 512 / vWidth t
      let enter := fun (out : Nat) => (List.range n).map fun j => if on j then field ra (vWidth t * j) (vWidth t) else out
      let all := fun (i : Instr) (v : Nat) => writes i u q [a] (vWidth t) (List.replicate n (some v))
      (∀ off, ∃ f, writes (.vunp3 w d a off m t) u (q.accrue false false false f) [a] (vWidth t) ((List.range n).map fun j =>
          let b := if off + j / 5 < 512 then field ra (off + j / 5) 1 else 121
          let v := t3p5Trit (if b < 243 then b else 121) (j % 5)
          if on j then some (match vFmt t with
            | some g => roundFp g 0 0 (fpOfInt v)
            | none => (v % 2 ^ (8 * vWidth t)).toNat) else none))
      ∧ (match vFmt t with
        | some g =>
          all (.vreds w d a m t) ((treeSum (laneOp t fpAdd (· + ·)) (if vWidth t = 4 then 7 else 8) (enter g.signBit)).headD 0)
          ∧ all (.vredm w d a m t) (let l := enter (roundIeee g 0 0 (.inf true)); l.foldl (fpMinMax g true) (l.headD 0))
          ∧ all (.vredn w d a m t) (let l := enter (roundIeee g 0 0 (.inf false)); l.foldl (fpMinMax g false) (l.headD 0))
        | none =>
          all (.vreds w d a m t) ((treeSum (laneOp t fpAdd (· + ·)) (if vWidth t = 4 then 7 else 8) (enter 0)).headD 0)
          ∧ all (.vredm w d a m t) (let l := enter (2 ^ (8 * vWidth t - 1)); l.foldl (laneMinMax t true) (l.headD 0))
          ∧ all (.vredn w d a m t) (let l := enter (2 ^ (8 * vWidth t - 1) - 1); l.foldl (laneMinMax t false) (l.headD 0))))
    ∧ (∀ ft, u.readSel c q (vWidth (ofFTy ft)) a = .ok ra →
      let queues := fun (i : Instr) (lat : Nat) => exec i s = .next (State.vecWord (u, { q with rq := q.rq ++
        [⟨BitVec.ofNat 32 ((encode i).getD 0 0), q.posn + lat, q.mask m, BitVec.ofNat 4096 (leNat ra)⟩] }) c k.entry (k.posn + 1) [a])
      queues (.vrcp w d a m ft) 5 ∧ queues (.vrsq w d a m ft) 5 ∧ queues (.vexp2 w d a m ft) 6 ∧ queues (.vlog2 w d a m ft) 6
        ∧ queues (.vsqrt w d a m ft) 6 ∧ queues (.vsig w d a m ft) 8 ∧ queues (.vtanh w d a m ft) 8))

/-- R277, R295 to R297, R412: VNOP, the mask words (m0 reads as all ones and keeps no write), VLOOP and VEND. A loop of zero iterations goes on after its VEND; a fifth open loop stops the kernel with LOOPERR; VEND with no open loop ends the kernel and makes its task done, once every access of the kernel has completed. -/
def Obligations.MasksAndKernelLoops : Prop :=
  ∀ (s : State) (c : Nat) (k : Kernel) (d a b : Nat), s.KernelTurn c k →
    let u := (s.vecFound c k).1
    let q := { (s.vecFound c k).2 with next := k.next + 4 }
    let goes := fun (i : Instr) (r : Kernel) (reads : List Nat) => exec i s = .next (State.vecWord (u, r) c k.entry (k.posn + 1) reads)
    goes .vnop q [] ∧ goes (.mand d a b) (q.setMask d (q.mask a &&& q.mask b)) [] ∧ goes (.mor d a b) (q.setMask d (q.mask a ||| q.mask b)) []
    ∧ goes (.mnot d a) (q.setMask d (~~~(q.mask a))) []
    ∧ q.mask 0 = BitVec.allOnes 256 ∧ (∀ v, q.setMask 0 v = q) ∧ (∀ v n, 1 ≤ d → d < 8 → (q.setMask d v).mask n = if n = d then v else q.mask n)
    ∧ (∀ ra, u.readSel c q 4 a = .ok ra →
        let n := field ra 0 4
        (0 < n → q.loops.length < 4 → goes (.vloop a) { q with loops := (q.next, n) :: q.loops } [a])
        ∧ (0 < n → 4 ≤ q.loops.length → exec (.vloop a) s = .next (s.kernelFault c ⟨0x313, q.next - 4, 0⟩))
        ∧ (∀ pc, n = 0 → u.loopEnd (u.whoKernel c q) 4096 0 q.next = .ok (some pc) → goes (.vloop a) { q with next := pc } [a])
        ∧ (n = 0 → u.loopEnd (u.whoKernel c q) 4096 0 q.next = .ok none → exec (.vloop a) s = .next (s.kernelFault c ⟨0x313, q.next - 4, 0⟩)))
    ∧ (∀ body left r, q.loops = (body, left) :: r →
        (1 < left → goes .vend { q with next := body, loops := (body, left - 1) :: r } []) ∧ (left ≤ 1 → goes .vend { q with loops := r } []))
    ∧ (q.loops = [] → u.asksOpen (.task c q.entry) = true → exec .vend s = .next s)
    ∧ (q.loops = [] → u.asksOpen (.task c q.entry) = false →
        ∃ t', exec .vend s = .next t' ∧ (t'.core c).kernel = none ∧ ∀ x, tabFind (t'.core c).window q.entry = some x → x.st = .done)

/-- R256, R291 to R293, R412: VLD, VST and VGTH check their addresses and the record's regions before any lane, and then read or write the enabled lanes; a cause stops the kernel at the word. -/
def Obligations.KernelMemoryWords : Prop :=
  ∀ (s : State) (c : Nat) (k : Kernel) (w g : Bool) (d pair sz b m : Nat) (t : VTy) (rb : ByteList), s.KernelTurn c k →
    let u := (s.vecFound c k).1
    let q := { (s.vecFound c k).2 with next := k.next + 4 }
    let wd := vWidth t
    let space := if g then 1 else 0
    let j := u.kernelJob c q
    let base := q.param (2 * pair) + 2 ^ 32 * q.param (2 * pair + 1)
    u.readSel c q wd b = .ok rb →
      (∀ x, u.laneAccess c q pair g sz rb m wd false = .bad x → exec (.vld w d pair g sz b m t) s = .next (s.kernelFault c x))
      ∧ (g = false → 2 ^ 21 ≤ (base + field rb 0 4) % 2 ^ 64 → exec (.vld w d pair g sz b m t) s
          = .next (s.kernelFault c ⟨0x301, BitVec.ofNat 64 ((base + field rb 0 4) % 2 ^ 64), 0⟩))
      ∧ (∀ p r, u.laneAccess c q pair g sz rb m wd false = .ok p → State.readRuns j space wd p.1 p.2 u = .ok r →
          exec (.vld w d pair g sz b m t) s = .next (State.vecWrote (r.2, q) c k.entry k.posn [b] (destSel w d) wd (numbered (512 / wd) r.1))
          ∧ p.1 = (base + field rb 0 4) % 2 ^ 64)
      ∧ (∀ p rd v, u.readVreg c q d = .ok rd → u.laneAccess c q pair g sz rb m wd true = .ok p → q.rq = [] →
          State.writeRuns j space wd p.1 rd p.2 u = .ok v → exec (.vst d pair g sz b m t) s = .next (State.vecWord (v, q) c k.entry (k.posn + 1) [b]))
      ∧ (∀ v, let l := (List.range (512 / wd)).filter fun i => (q.mask m).getLsbD i
          let idx := fun i => field rb (wd * i) wd
          let at_ := fun i => (base + wd * idx i) % 2 ^ 64
          let reads := l.filter fun i => idx i != 2 ^ (8 * wd) - 1
          (∃ x, u.laneSlots j g false wd (reads.map at_) (reads.map at_) = .ok x) → State.engReads j space (reads.map fun i => (at_ i, wd)) u = .ok v →
          ∃ lanes, exec (.vgth w d pair g b m t) s = .next (State.vecWrote (v.2, q) c k.entry k.posn [b] (destSel w d) wd lanes)
            ∧ lanes.length = 512 / wd
            ∧ (∀ i, i < 512 / wd → i ∉ l → lanes[i]? = some none)
            ∧ (∀ i ∈ l, idx i = 2 ^ (8 * wd) - 1 → lanes[i]? = some (some 0))
            ∧ (∀ n i, reads[n]? = some i → lanes[i]? = some (some (leNat ((v.1.drop (wd * n)).take wd)))))

/-- R271, R272, R274, R275: writing lanes to a register of the kernel's window changes those lanes alone, and no other byte of memory; writing them to a latch changes no memory and arms the latch. -/
def Obligations.VectorRegisterWrite : Prop :=
  ∀ (s : State) (c : Nat) (k : Kernel) (dst w : Nat) (l : Lanes), Memory.wf s.mem = true → 0 < w → w * l.length ≤ 512 →
    let r := s.putV c k dst w l
    let key := poolKey c ((s.core c).acBase + 512 * (k.vbase + dst))
    (dst < 64 → r.2 = k ∧ r.1.cores = s.cores ∧ Memory.wf r.1.mem = true
      ∧ (∀ i, i < 512 → memByte r.1.mem (key + i) = match (l[i / w]?).join with
          | some v => BitVec.ofNat 8 (v / 256 ^ (i % w))
          | none => memByte s.mem (key + i))
      ∧ (∀ a, a < key ∨ key + 512 ≤ a → memByte r.1.mem a = memByte s.mem a))
    ∧ (64 ≤ dst → dst < 68 → r.1 = s ∧ (r.2.latch (dst - 64)).armed = true ∧ (r.2.latch (dst - 64)).val.isSome = true
      ∧ ∀ n, n ≠ dst - 64 → r.2.latch n = k.latch n)

/-- R299 to R302: the arithmetic words write aD, modulo 2^48, and go on at the next word; shifts by 48 or more give 0. R299, R303 to R305, R310 to R312, R413: branches, counted loops and the words that wait; a target outside the program stops the context with ACCESSPC, a count outside 0 to 4,095 with LOOPERR. -/
def Obligations.AccessComputation : Prop :=
  (∀ (s : State) (m x : Nat) (t : Ctx) (d a : Nat) (y : Src), s.CtxTurn m x t →
    let v := t.regs[a]?.getD 0
    let o : Word48 := match y with
      | .imm i => i.signExtend 48
      | .reg n => t.regs[n]?.getD 0
    let gives := fun (i : Instr) (r : Word48) => exec i s = .next (s.ctxGoes m x { t with regs := t.regs.setIfInBounds d r } (t.apc + 1))
    exec .anop s = .next (s.ctxGoes m x t (t.apc + 1))
    ∧ gives (.amov d y) o ∧ gives (.aadd d a y) (v + o) ∧ gives (.asub d a y) (v - o) ∧ gives (.amul d a y) (v * o) ∧ gives (.aand d a y) (v &&& o)
    ∧ gives (.ashl d a y) (v <<< (o.toNat % 64)) ∧ gives (.ashr d a y) (v >>> (o.toNat % 64))
    ∧ gives (.amin d a y) (if o.toInt < v.toInt then o else v)
    ∧ gives (.acmp d a y) (if v.toInt < o.toInt then BitVec.ofInt 48 (-1) else if v.toInt = o.toInt then 0 else 1)) ∧
  (∀ (s : State) (m x : Nat) (t : Ctx) (p : Prog), s.CtxTurn m x t → s.progOf t = some p →
    let next := fun (i : Instr) (t' : Ctx) => exec i s = .next (s.ctxGoes m x t' (t.apc + 1))
    let jumps := fun (i : Instr) (t' : Ctx) (dest : Int) =>
      (0 ≤ dest → dest < ((p.len / 4 : Nat) : Int) → exec i s = .next (s.ctxGoes m x t' dest.toNat))
      ∧ (dest < 0 ∨ ((p.len / 4 : Nat) : Int) ≤ dest → exec i s = .next (s.ctxFault m x ⟨0x314, w64 dest, 0⟩))
    let reg := fun (n : Nat) => (t.regs[n]?.getD 0 : Word48)
    let slot := ((s.core t.core).bar t.bar).slots[t.cslot]?
    (∀ cc a off, let v := (reg a).toInt
      let taken := match cc with
        | .eqz => v = 0
        | .nez => v ≠ 0
        | .ltz => v < 0
        | .gez => v ≥ 0
        | .gtz => v > 0
        | .lez => v ≤ 0
      (taken → jumps (.abr cc a off) t (t.apc + off.toInt)) ∧ (¬taken → next (.abr cc a off) t))
    ∧ (∀ off, jumps (.ajmp (.imm off)) t (t.apc + off.toInt)) ∧ (∀ n, jumps (.ajmp (.reg n)) t ((reg n).toNat % 2 ^ 12 : Nat))
    ∧ (∀ n y, let count : Int := match y with
        | .imm i => i.toInt
        | .reg r => ((reg r).toNat : Int)
      (1 ≤ count → count ≤ 4095 → next (.aloop n y)
        { t with lc := t.lc.setIfInBounds n (BitVec.ofNat 12 count.toNat), hd := t.hd.setIfInBounds n (BitVec.ofNat 12 (t.apc + 1)) })
      ∧ (count < 0 ∨ 4095 < count → exec (.aloop n y) s = .next (s.ctxFault m x ⟨0x313, w64 count, 0⟩))
      ∧ (∀ i, count = 0 → t.apc < i → i < p.len / 4 → s.progWord m p i = some (.aend n) →
          (∀ j, t.apc < j → j < i → s.progWord m p j ≠ some (.aend n)) → exec (.aloop n y) s = .next (s.ctxGoes m x { t with apc := i } (i + 1))))
    ∧ (∀ n, let left := t.lc[n]?.getD 0
      (left = 0 → next (.aend n) t) ∧ (left = 1 → next (.aend n) { t with lc := t.lc.setIfInBounds n 0 })
      ∧ (1 < left.toNat → jumps (.aend n) { t with lc := t.lc.setIfInBounds n (left - 1) } ((t.hd[n]?.getD 0).toNat : Int)))
    ∧ next .ahalt { t with stopping := true, halted := true }
    ∧ (∀ y, slot = some y → (y.arrived = 0 ∧ y.awaiting = false → next .swin t) ∧ (y.arrived ≠ 0 ∨ y.awaiting = true → exec .swin s = .next (s.setCtx m x { t with waits := true })))
    ∧ (∀ d v r, t.cq = v :: r → next (.cqpop d) { t with cq := r, regs := t.regs.setIfInBounds d (v.truncate 48) })
    ∧ (∀ d, t.cq = [] → exec (.cqpop d) s = .next (s.setCtx m x { t with waits := true }))
    ∧ (t.pushes = [] → next .afence t) ∧ (t.pushes ≠ [] → exec .afence s = .next (s.setCtx m x { t with waits := true })))

/-- R144, R307 to R309, R413, R418: a push whose bytes are no more than what the fill of the slot still takes is issued and counted, and lands later; a push to a slot that awaits CREL, or all of whose bytes are on their way, holds; one that is too large stops the context with PUSHSIZE, one outside the scratchpad with PUSHADDR. A push of no bytes goes on. One whose rows meet a cause is counted all the same: the rows before it are pushed and the context stops; retried, it pushes only the others (log 102). R112, R146, R309: a landing push stores its bytes in the visible frames and adds its count to its slot, which fills at its expected count; a context that is stopping and has nothing under way frees its number, its barrier and its queue. -/
def Obligations.AccessPushes : Prop :=
  (∀ (s : State) (m x : Nat) (t : Ctx) (d a b : Nat) (y : CatchSlot), s.CtxTurn m x t →
    let reg := fun (n : Nat) => (t.regs[n]?.getD 0).toNat
    let len := fun (sh : Nat) => sh % 2 ^ 16
    let rows := fun (sh : Nat) => sh / 2 ^ 16 % 2 ^ 12
    let stride := fun (sh : Nat) => sh / 2 ^ 28 % 2 ^ 20
    let bar := (s.core t.core).bar t.bar
    let latched := fun (v : State) => v.onCore t.core fun z => { z with bars := tabPut z.bars t.bar { z.bar t.bar with slots := (z.bar t.bar).slots.set t.cslot { y with latched := true } } }
    let ends := fun (i : Instr) (sh : Nat) (source : Except Cause (List (Option Nat) × State)) =>
      let n := rows sh * len sh
      let fits := n = 0 ∨ (s.core t.core).pushOk (reg d) n = true
      bar.slots[t.cslot]? = some y →
        (t.rest = 0 → y.awaiting = true ∨ (t.issued = 0 ∧ ∃ q ∈ t.pushes, q.slot = t.cslot) → exec i s = .next (s.setCtx m x { t with waits := true }))
        ∧ (t.rest = 0 → y.awaiting = false → (t.issued ≠ 0 ∨ ∀ q ∈ t.pushes, q.slot ≠ t.cslot) →
          (y.expected - t.issued < n → exec i s = .next (s.ctxFault m x ⟨0x315, BitVec.ofNat 64 n, BitVec.ofNat 64 (y.expected - t.issued)⟩))
          ∧ (n ≤ y.expected - t.issued → ¬fits → exec i s = .next (s.ctxFault m x ⟨0x316, BitVec.ofNat 64 (reg d), 0⟩))
          ∧ (n ≤ y.expected - t.issued → fits → ∀ l v bytes u, source = .ok (l, v) →
            (State.pushRows (s.whoCtx m x t) (len sh) l v = (bytes, u, none) →
              ∃ t', exec i s = .next ((latched u).ctxGoes m x t' (t.apc + 1))
                ∧ t'.pushes = (if bytes = [] then t.pushes else t.pushes ++ [⟨t.cslot, bytes.mapIdx fun k z => (reg d + k, z), bytes.length⟩])
                ∧ (0 < n → t.issued + n = y.expected → t'.issued = 0 ∧ t'.cslot = (t.cslot + 1) % bar.slots.length)
                ∧ (t.issued + n < y.expected → t'.issued = t.issued + n ∧ t'.cslot = t.cslot) ∧ t'.regs = t.regs)
            ∧ (∀ e, 0 < n → State.pushRows (s.whoCtx m x t) (len sh) l v = (bytes, u, some e) → e.waits = false →
              ∃ t', exec i s = .next (((latched u).setCtx m x t').ctxFault m x e) ∧ t'.apc = t.apc ∧ t'.rest = n - bytes.length
                ∧ t'.pushes = (if bytes = [] then t.pushes else t.pushes ++ [⟨t.cslot, bytes.mapIdx fun k z => (reg d + k, z), bytes.length⟩])
                ∧ (t.issued + n < y.expected → t'.issued = t.issued + n))))
        ∧ (t.rest ≠ 0 → fits → ∀ l v bytes u, source = .ok (l, v) →
            State.pushRows (s.whoCtx m x t) (len sh) (l.drop ((n - t.rest) / len sh)) v = (bytes, u, none) →
            ∃ t', exec i s = .next (u.ctxGoes m x t' (t.apc + 1)) ∧ t'.issued = t.issued ∧ t'.cslot = t.cslot
              ∧ ∃ slot, t'.pushes = (if bytes = [] then t.pushes else t.pushes ++ [⟨slot, bytes.mapIdx fun k z => (reg d + (n - t.rest) + k, z), bytes.length⟩]))
    ends (.spush d a b) (reg b) (.ok ((List.range (rows (reg b))).map fun r => some ((reg a + r * stride (reg b)) % 2 ^ 48), s))
    ∧ ends (.spushi d a b) (reg (b + 1)) (s.indexRows m x t a b (t.regs[b + 1]?.getD 0))) ∧
  (∀ (s : State) (m x : Nat) (t : Ctx) (p : Push), s.ctx m x = some t →
    let bar := (s.core t.core).bar t.bar
    (Memory.wf s.mem = true → t.pushes = [p] → (s.core t.core).frozen = false → s.frozenMse.contains m = false → ∀ dst bs, p.bytes = bs.mapIdx (fun i (v : Byte) => (dst + i, v)) → bs ≠ [] →
      ∃ t', exec (.pushLand m x) s = .next t'
        ∧ t'.ctx m x = some { t with pushes := [] }
        ∧ (∀ i y, bar.slots[i]? = some y → ((t'.core t.core).bar t.bar).slots[i]? = some (
            if i ≠ p.slot then y
            else if y.arrived + p.count ≥ y.expected ∧ y.awaiting = false then { y with arrived := y.arrived + p.count, phase := !y.phase, awaiting := true }
            else { y with arrived := y.arrived + p.count }))
        ∧ (∀ key, (∀ i, i < bs.length → s.localKey t.core false ((s.core t.core).spBase + dst + i) ≠ some key) → memByte t'.mem key = memByte s.mem key))
    ∧ (t.stopping = true → t.pushes = [] → (s.core t.core).frozen = false → s.frozenMse.contains m = false → tabRising s.ctxs = true → ∃ t', exec (.contextEnd m x) s = .next t'
        ∧ t'.ctx m x = none ∧ ((t'.core t.core).bar t.bar).stream = none ∧ ((t'.core t.core).bar t.bar).slots = bar.slots ∧ t'.mem = s.mem))

/-- Matrix and transpose operations (R245, R246, R248, R250 to R254, R257, R269, R321): a task that its engine may run works from its next unit on: WLD, TRN in one unit, a product, PERM and RSUM in the start and the rows of each pass, MMC and TOPK in the loss of the latch and their rows, XP tile by tile. With no save and no other bound on the move (log 2) it works all that are left; when none waits or meets a cause and none is left it is done; a cause stops it at its boundary, a wait leaves it running. After WLD's unit the latch is valid, with the format of the record; the first unit of MMC and TOPK, and the start of a pass of PERM and RSUM, leave it invalid (R241); a product without a valid latch meets LATCH. Copy-class operations (R141, R258 to R269): a channel whose turn it is runs the task at its head from its next unit on: all that are left when no other channel of the core has work and the move sets no bound, else one box row or as many as the move allows (log 2). When no unit waits or meets a cause and none is left the copy and its task are done; a cause stops them there, a wait leaves them running. The task that is not at the head of its channel, or whose channel has no turn, does nothing. VK and VECTOR_KERNEL_START (R37, R255, R410): the vector engine reads a released task's kernel block; a block that breaks R410 ends the task with FIELD, another is accepted with the address and the parameters it holds. The accepted kernel starts when none runs, and its task is then running. -/
def Obligations.TaskOperations : Prop :=
  (∀ (s : State) (c n : Nat) (t : TaskRec),
    let starts := s.onTask c n fun y => { y with st := .running }
    let j := t.job c n 0 0
    let works := fun (i : Instr) (oper : Nat) (units : State → Job → Nat) (step : Job → Nat → State → Machine.Acc State) =>
      let left := units starts j - t.prog
      let stop := (s.core c).stopUnits t.bytes
      let m := s.paced c left (stop - t.prog % stop)
      let runs := runUnits (step j) (fun k u => ((u.onTask c n fun y => { y with prog := k }).stirred c).spend j.req) m t.prog starts
      (s.pace = none → s.savingCore c = false → m = left) ∧
      (s.runnable c n oper = some t → ∀ u,
        (runs = (u, none, true) → exec i s = .next (if m = left then u.onTask c n fun y => { y with st := .done } else u)) ∧
        (∀ x b, runs = (u, some x, b) → exec i s = .next (u.stopTask c n 0 x)) ∧
        (runs = (u, none, false) → exec i s = .next u))
    works (.wld c n) 0x01 (fun _ _ => 1) wldUnit ∧
    works (.mm c n) 0x02 passUnits (passUnit (State.productStart false) (State.productRow false)) ∧
    works (.mmc c n) 0x03 rankUnits (rankUnit mmcRow) ∧
    works (.topk c n) 0x04 rankUnits (rankUnit topkRow) ∧
    works (.perm c n) 0x05 passUnits (passUnit generatedStart permRow) ∧
    works (.rsum c n) 0x06 passUnits (passUnit generatedStart rsumRow) ∧
    works (.trn c n) 0x07 (fun _ _ => 1) trnUnit ∧
    works (.mmz c n) 0x08 passUnits (passUnit (State.productStart true) (State.productRow true)) ∧
    works (.xp c n) 0x30 (fun u j => (xpTiles (u.tsides j).1.ext).1 * (xpTiles (u.tsides j).1.ext).2
      * (u.tsides j).1.ext.getD 2 0 * (u.tsides j).1.ext.getD 3 0) xpTile ∧
    (∀ k u v, wldUnit j k u = .ok v → (v.core c).lval = true ∧ (v.core c).lfmt = recWfmt t.bytes) ∧
    (∀ row u v, rankUnit row j 0 u = .ok v → (v.core c).lval = false) ∧
    (∀ p u v, generatedStart j p u = .ok v → (v.core c).lval = false) ∧
    (∀ z p u, (u.core c).lval = false → State.productStart z j p u = .bad ⟨0x402, 0, 0⟩)) ∧
  (∀ (s : State) (c n : Nat) (e : ChanEntry),
    let ch := (s.core c).chanOf n
    let s1 := s.onCore c fun x => { x with lastChan := ch }
    let j := s1.copyJob c ch e
    let all := copyUnits s1 j
    let m := min (all - e.row) (if s1.onlyChan c ch then s.pace.getD (copyUnits s (s.copyJob c ch e)) else 1)
    let rows := runUnits (copyUnit j) (fun k u => ((u.noteRow c ch e k).stirred c).spend j.req) m e.row s1
    let works := fun (i : Instr) (oper : Nat) =>
      s.copyReady c ch = some e → e.src = .task n → recOper (s.copyJob c ch e).bytes = oper →
        (s.nextChan c = some ch → ∀ u,
          (rows = (u, none, true) → exec i s = .next (if all ≤ e.row + m then u.finishCopy c ch e else u)) ∧
          (∀ x b, rows = (u, some x, b) → exec i s = .next (u.stopCopy c ch e x)) ∧
          (rows = (u, none, false) → exec i s = .next u)) ∧
        (s.nextChan c ≠ some ch → exec i s = .next s)
    works (.cpy c n) 0x40 ∧ works (.cpyT8 c n) 0x41 ∧ works (.cpyT16 c n) 0x42 ∧ works (.gath c n) 0x43 ∧
    works (.scat c n) 0x44 ∧ works (.cvt c n) 0x45 ∧ works (.fill c n) 0x46 ∧ works (.psum c n) 0x47 ∧
    works (.hist c n) 0x48 ∧ works (.ared c n) 0x49 ∧ works (.bcst c n) 0x4A ∧ works (.wst c n) 0x4B) ∧
  ((∀ (s : State) (c n : Nat) (t : TaskRec) (b : ByteList),
    tabFind (s.core c).window n = some t → t.st = .staged → recOper t.bytes = 0x20 → (s.core c).staged = none → s.coreLive c = true →
    s.readLocalChecked c (recPar t.bytes 20 0) 96 = .ok b →
    (kernelBlockBad b = none → exec (.vk c n) s = .next (s.onCore c fun x => { x with
      staged := some (Kernel.start n (BitVec.ofNat 64 (field b 0 8)) t.vbase
        (Vector.ofFn fun i : Fin 16 => BitVec.ofNat 32 (field b (0x10 + 4 * i.val) 4))) })) ∧
    (∀ o, kernelBlockBad b = some o → exec (.vk c n) s = .next
      (s.stopTask c n 0 ⟨0x401, BitVec.ofNat 64 (recPar t.bytes 20 0), BitVec.ofNat 64 o⟩))) ∧
  (∀ (s : State) (c : Nat) (k : Kernel) (t : TaskRec),
    (s.core c).kernel = none → (s.core c).staged = some k → s.coreLive c = true → tabFind (s.core c).window k.entry = some t →
    exec (.vectorKernelStart c) s = .next ((s.onCore c fun y =>
      { y with kernel := some k, staged := none, active := true, fresh := true }).onTask c k.entry fun t => { t with st := .running })))

/-- INGRESS_ADMISSION and TASK_RELEASE (R129, R131, R134, R135, R410): the oldest ingress record takes the lowest free entry when its checks pass, and is dropped with an error record when they do not. The entry that the class selects, before which no other class has an earlier one to release, is staged when its engine is busy or the vector engine's, else running; no other entry's record changes. TASK_COMPLETION (R116, R125, R136): a finished task with nothing outside and no publish to make writes its status, decrements its counter and leaves the window; one that has a publish to make asks for it first, once the entries it waits for have completed. -/
def Obligations.TaskWindow : Prop :=
  ((∀ (s : State) (c : Nat) (b : ByteList) (r : List ByteList), s.coreLive c = true →
    ((s.core c).ingressTurn = true ∨ (s.core c).postPending = false) → (s.core c).ingress = b :: r →
    (∀ v n, s.recordCheck c 0 b = .ok v → (s.core c).freeEntry = some n →
      ∃ u, exec (.ingressAdmission c) s = .next u ∧ u = s.setCore c (({ s.core c with ingress := r, ingressTurn := false }).enter n b v) ∧
        (u.core c).ingress = r ∧ ((tabFind (u.core c).window n).map fun e => (e.bytes, e.st, e.vbase)) = some (b, .admitted, v)) ∧
    (∀ e, s.recordCheck c 0 b = .error e →
      exec (.ingressAdmission c) s = .next ((s.setCore c { s.core c with ingress := r, ingressTurn := false }).errorRecord
        ⟨e.code, 1, 12, c, 0, false, some ((s.corePart c).queue, (s.corePart c).key), 0, e.info, e.info1, 0⟩))) ∧
  (∀ (s : State) (c cls n : Nat) (t : TaskRec), s.coreLive c = true → (s.core c).hasPlace cls = true → (s.core c).pickTask cls = some (n, t) →
    (s.core c).releasedFirst cls t = false → ∃ u, exec (.taskRelease c cls) s = .next u ∧
      (∃ e, tabFind (u.core c).window n = some e ∧ e.bytes = t.bytes ∧ e.bound = !t.frames.isEmpty ∧
        e.st = if cls = 1 ∨ (cls ≠ 3 ∧ (s.core c).engineBusy cls = true) then .staged else .running) ∧
      (∀ m, m ≠ n → (tabFind (u.core c).window m).map (·.bytes) = (tabFind (s.core c).window m).map (·.bytes)) ∧
      (∀ d, d ≠ c → u.core d = s.core d))) ∧
  (∀ (s : State) (c n : Nat) (t : TaskRec), tabFind (s.core c).window n = some t → (s.core c).frozen = false → t.st = .done →
    s.asksOpen (.task c n) = false → s.taskPubOpen c n = false →
    (t.pubPending = false → exec (.taskCompletion c n) s = .next (s.freeTask c n t t.flags)) ∧
    (t.pubPending = true → t.rdeps = [] → t.pdeps = [] → heldAmong (s.pubRegions c n t) = none →
      ((s.askTaskPub c n t).taskPubOpen c n = true → exec (.taskCompletion c n) s = .next (s.askTaskPub c n t)) ∧
      ((s.askTaskPub c n t).taskPubOpen c n = false → exec (.taskCompletion c n) s = .next ((s.askTaskPub c n t).freeTask c n t t.flags))))

/-- SCRATCHPAD_PUBLISH, HBM_PUBLISH and FRAME_RETURN (R76, R89, R116, R127, R215, R373): the pending publishes of a core take effect of whose pages no unit at work has read or written one, and the others stay pending. On a die the regions asked for first take their shadows and their counters, when no unit at work has touched one, none is moved, no earlier access to one is outside, and no lower die has the same publish to make. A replaced frame returns to the spare frames once nothing outside uses it. HBM_SHADOW_BIND (R88, R89, R373, R427): a region that a task asked a shadow for takes the lowest spare region of its die, which holds what the region holds, and a second set of counters; with no spare region and none about to be spare, the task stops with NOSHADOW at the address that asked. -/
def Obligations.Publishing : Prop :=
  ((∀ (s : State) (c : Nat), (s.core c).frozen = false →
    let go := (s.core c).pubs.filter fun p => !(s.core c).touches p.pages
    ∃ u, exec (.scratchpadPublish c) s = .next (s.setCore c u) ∧ u.pubs = (s.core c).pubs.filter (fun p => (s.core c).touches p.pages) ∧
      u.spm = ((s.core c).publish (go.flatMap (·.pages))).spm ∧ u.window = (s.core c).window) ∧
  (∀ (s : State) (d : Nat) (p : PendPub) (r : List PendPub), (s.die d).pubHeld = p :: r →
    (∀ q ∈ s.cores, q.2.touches (p.pages.map (regionKey d)) = false) → (∀ l ∈ p.pages, (s.rit d l).qs = false ∧ s.causalIn d l = false) →
    (∀ e, e < d → ∀ q ∈ (s.die e).pubHeld, q.id ≠ p.id) →
    ∃ u, exec (.hbmPublish d) s = .next u ∧ (u.die d).pubHeld = r ∧ u.mem = s.mem ∧
      ((s.die d).ritHeld = [] → ∀ l, (u.die d).ritAt l =
        if l ∈ p.pages ∧ ((s.die d).ritAt l).shv = true then { (s.die d).ritAt l with pri := ((s.die d).ritAt l).spri, spri := 0, shv := false } else (s.die d).ritAt l)) ∧
  (∀ (s : State) (c f : Nat), (s.core c).frozen = false → s.frameUsed c f = false →
    exec (.frameReturn c f) s = .next (s.onCore c fun x => { x with retiring := x.retiring.filter (· != f) }))) ∧
  (∀ (s : State) (d l a c n : Nat), ((s.die d).bindAsk.find? fun p => p.1 / 2 ^ 21 == l) = some (a, .task c n) →
    ((s.die d).ritAt l).qs = false → ((s.die d).ritAt l).shv = false →
    (∀ p r, (s.die d).spares = p :: r → ∃ u, exec (.hbmShadowBind d l) s = .next u ∧
      ((u.die d).ritAt l).shv = true ∧ ((u.die d).ritAt l).spri = p ∧ ((u.die d).ritAt l).pri = ((s.die d).ritAt l).pri ∧
      u.mem = memCopy s.mem (d * 2 ^ 37 + p * 2 ^ 21) (d * 2 ^ 37 + ((s.die d).ritAt l).pri * 2 ^ 21) (2 ^ 21) ∧
      u.shadowCtr = tabCopy s.shadowCtr (regionLines d p) s.ctrs (regionLines d l) (2 ^ 15) ∧ u.ctrs = s.ctrs) ∧
    ((s.die d).spares = [] → s.regionComing d = false → exec (.hbmShadowBind d l) s = .next
      ((s.setDie d { s.die d with bindAsk := (s.die d).bindAsk.filter fun q => q.1 / 2 ^ 21 != l }).stopRunning c n
        ⟨0x801, BitVec.ofNat 64 (d * 2 ^ 37 + a), 0⟩)))

/-- COPY_BOX_ROW and COPY_COMPLETION (R109, R137, R141, R258): the channel that has the turn moves the next row of its oldest entry that has rows left, and the entry is done after its last one; a row that waits for an access comes again, and one that meets a cause stops the copy. The oldest entry leaves the channel when it is done and its writes are performed; its counter is decremented then. COLLECTIVE_MESSAGE and COLLECTIVE_ABANDON (R267, R363, R411, R455): while the links carry requests, a contribution of a peer module reaches the round's task at its core, and a round that is abandoned ends that task with the cause. -/
def Obligations.CopyAndCollectiveEvents : Prop :=
  ((∀ (s : State) (c ch : Nat) (e : ChanEntry), s.copyReady c ch = some e → s.nextChan c = some ch →
    let s1 := s.onCore c fun x => { x with lastChan := ch }
    let j := s1.copyJob c ch e
    let row := fun (t : State) => ((t.noteRow c ch e (e.row + 1)).stirred c).spend j.req;
    e.row < copyUnits s1 j →
    (∀ t, copyUnit j e.row s1 = .ok t → exec (.copyBoxRow c ch) s = .next (if copyUnits s1 j ≤ e.row + 1 then (row t).finishCopy c ch e else row t)) ∧
    (∀ h, copyUnit j e.row s1 = .wait h → exec (.copyBoxRow c ch) s = .next (s1.wait h)) ∧
    (∀ x, copyUnit j e.row s1 = .bad x → exec (.copyBoxRow c ch) s = .next (s1.stopCopy c ch e x))) ∧
  (∀ (s : State) (c ch : Nat) (e : ChanEntry) (r : List ChanEntry), (s.core c).chan ch = e :: r → (∀ n, e.src ≠ .task n) →
    e.done = true → (s.core c).frozen = false → s.asksOpen (.copy c ch e.eid) = false →
    exec (.copyCompletion c ch) s = .next (s.closeCopy c ch e false))) ∧
  (∀ (s : State) (c n : Nat) (t : TaskRec), tabFind (s.core c).window n = some t → (recOper t.bytes = 0x49 ∨ recOper t.bytes = 0x4A) → s.linked = true →
    (∀ rank data, rank < s.ranks c (recPar t.bytes 2 0) → (s.corePart c).span (recPar t.bytes 2 0) > 1 →
      exec (.collectiveMessage c n rank data) s = .next (s.onCore c (·.receive n rank data))) ∧
    (∀ cause, exec (.collectiveAbandon c n cause) s = .next ((s.errorRecord
      ⟨cause, 1, 4, c, (s.core c).chanOf n, false, some ((s.corePart c).queue, (s.corePart c).key), n,
        BitVec.ofNat 64 (recPar t.bytes 15 8), 0, 0⟩).endTask c n)))

/-- ACCESS_PERFORMED, LOAD_RETURN, CAUSAL_STORE_APPLY and CAUSAL_LOAD_SERVE (R100, R102, R106, R107, R203, R423): an access whose value or store is there is performed at the scope, at package scope outside a gang for good; the oldest load that memory has answered returns into its destination; a die applies a store that its clock admits, which is then applied there once, or fails with the cause that its place meets then; the home die of a causal load serves it from memory once its clock covers the strand's, and one that meets a cause is lost and traps its strand. What a late failure leaves is the model's reading (log 104). REMOTE_COMPLETION and COMPLETION_TIMEOUT (R114, R435, R452 to R454): the end of an outstanding request outside the module reaches its issuer: its data, or REMOTE with the peer's cause; one that times out fails with REMTIMEOUT, one that found no route with NOROUTE. A read of the host that completes performs the writes of its function asked for before it. The request is no longer outstanding. -/
def Obligations.AccessEvents : Prop :=
  ((∀ (s : State) (c i : Nat) (sc : Scope), ((s.core c).items.any fun x => x.id == i && x.kind.isAccess) = true → (s.core c).frozen = false →
    s.accessOpen c i = false →
      (sc = .gang ∨ (sc = .package ∧ (s.corePart c).gang = false) → ∃ u, exec (.accessPerformed c i sc) s = .next (s.setCore c u) ∧
        u.items = (s.core c).items.filter (·.id != i)) ∧
      (¬(sc = .gang ∨ (sc = .package ∧ (s.corePart c).gang = false)) → exec (.accessPerformed c i sc) s = .next (s.setCore c { s.core c with
        items := (s.core c).items.map fun x => if x.id = i then { x with scope := some (widerScope x.scope sc) } else x, active := true, fresh := true }))) ∧
  (∀ (s : State) (c k : Nat) (l : Load), (s.core c).frozen = false → ((s.strand c k).loads.find? fun l => l.val.isSome) = some l →
    exec (.loadReturn c k) s = .next (s.setStrand c k ((s.strand c k).land l))) ∧
  (∀ (s : State) (d src : Nat) (e : CausalStore), ((s.die d).causal.find? fun e => e.src == src && (s.die d).mayApply e) = some e →
    (e.data = [] ∨ s.poolFrozen e.key = false) →
    let applied := fun (t : State) => t.onDie d fun y => { y with causal := y.causal.erase e, applied := bumpClock y.applied src };
    (e.data = [] → exec (.causalStoreApply d src) s = .next (applied s)) ∧
    (e.data ≠ [] → s.causalCause e.owner true e.dpa e.key e.data.length = none → ∃ u, exec (.causalStoreApply d src) s = .next (applied u) ∧
      (∀ x, (u.die x).causal = (s.die x).causal ∧ (u.die x).applied = (s.die x).applied) ∧ ∀ k, s.causalKey e.dpa e.key = some k → u.mem = memSetList s.mem k e.data) ∧
    (e.data ≠ [] → ∀ x, s.causalCause e.owner true e.dpa e.key e.data.length = some x →
      exec (.causalStoreApply d src) s = .next (applied (s.storeFailed e.core e.slot e.item x e.place)))) ∧
  (∀ (s : State) (c k : Nat) (l : Load), ((s.strand c k).loads.find? fun l => l.home.isSome && l.val.isNone) = some l →
    (s.core c).frozen = false → s.poolFrozen l.key = false →
    (∀ i, i < 8 → ((s.strand c k).seen[i]?).getD 0 ≤ (((s.die (l.home.getD 0)).applied)[i]?).getD 0) →
    (s.causalCause (s.corePart c).key false l.dpa l.key l.nbytes = none → exec (.causalLoadServe c k) s = .next (s.setStrand c k { s.strand c k with
      loads := (s.strand c k).loads.map fun m => if m.item = l.item then
        { m with val := some (loadVal l.nbytes l.sgn (memList s.mem ((s.causalKey l.dpa l.key).getD l.key) l.nbytes)) } else m
      seen := maxClock (s.strand c k).seen (s.die (l.home.getD 0)).applied })) ∧
    (∀ x, s.causalCause (s.corePart c).key false l.dpa l.key l.nbytes = some x → exec (.causalLoadServe c k) s = .next (s.setStrand c k { s.strand c k with
      loads := (s.strand c k).loads.filter (·.item != l.item), failed := (s.strand c k).failed ++ [⟨x.code, x.info, x.info1, some l.place⟩] })))) ∧
  (∀ (s : State) (req : Nat) (q : RemoteReq), s.openRequest req = some q →
    let t := s.dropRequest req;
    (∀ r ∈ t.requests, r.id ≠ req) ∧
    (q.tier ≠ 0 →
      (∀ b, (q.tier ≠ 2 ∨ q.kind ≠ 0) → exec (.remoteCompletion req (.ok b)) s = .next (t.finishRequest q b)) ∧
      (∀ b, q.tier = 2 → q.kind = 0 → exec (.remoteCompletion req (.ok b)) s = .next (({ t with
        requests := t.requests.filter (fun r => !(r.tier == 2 && r.kind == 1 && r.fn == q.fn && decide (r.id < q.id))),
        posted := t.posted.filter fun p => !(p.fn == q.fn && decide (p.id < q.id)) } : State).finishRequest q b)) ∧
      (∀ c, exec (.remoteCompletion req (.error c)) s = .next (t.failRequest q ⟨0xA03, q.info, BitVec.ofNat 64 (c % 2 ^ 12 + q.peer * 2 ^ 16)⟩)) ∧
      exec (.completionTimeout req) s = .next (t.failRequest q ⟨0xA02, q.info, BitVec.ofNat 64 q.peer⟩)) ∧
    (q.tier = 0 → (∀ r, exec (.remoteCompletion req r) s = .next (t.failRequest q ⟨0xA04, q.info, BitVec.ofNat 64 q.peer⟩)) ∧
      exec (.completionTimeout req) s = .next (t.failRequest q ⟨0xA04, q.info, BitVec.ofNat 64 q.peer⟩)))

/-- INGRESS_ARRIVAL and PEER_REQUEST (R92, R131, R132, R363 to R365, R422, R423): a record is queued at a core that takes it. While the links carry requests, a peer's read, write, atomic or compare is served when its regions are not held and meet no cause; one outside the address space, one without backing and one that meets a cause are answered with it; one at a held region takes its place behind those that wait there. A POSTR is answered with whether its record was queued. -/
def Obligations.PeerArrivals : Prop :=
  (∀ (s : State) (c : Nat) (b : ByteList), (s.core c).frozen = false →
    exec (.ingressArrival c b) s = .next (if (s.core c).part.isSome && s.takesIngress (s.corePart c) c
      then s.onCore c (·.queueIngress (slice b 0 128)) else s)) ∧
  (∀ (s : State) (tag key addr n : Nat) (r : PeerReq), s.keel.booted = true → s.linked = true →
    (r = .read tag addr n key ∨ (∃ b : ByteList, r = .write tag addr key b ∧ b.length = n) ∨ (∃ op sz v, r = .amo tag addr key op sz v ∧ amoBytes sz = n) ∨
      ∃ sz v w, r = .cas tag addr key sz v w ∧ amoBytes sz = n) →
    let bad := fun (code : Nat) => exec (.peerRequest r) s = .next (s.letOutside.send (.peerReply tag (leBytes 2 code) false));
    (2 ^ 40 < addr % 2 ^ 41 + n → bad 0x908) ∧
    (addr % 2 ^ 41 + n ≤ 2 ^ 40 → (s.dpaPieces (addr % 2 ^ 41) n = none → bad 0x606) ∧
      ∀ ps, s.dpaPieces (addr % 2 ^ 41) n = some ps →
        (∀ k, s.blockedAt s.outsideReq (pieceRegions ps) = some k → exec (.peerRequest r) s = .next (s.holdOutside (.peer r) k)) ∧
        (s.blockedAt s.outsideReq (pieceRegions ps) = none → ∀ x,
          ps.findSome? (s.pieceCause (whoPeer key) (match r with | .read _ _ _ _ => false | _ => true) false) = some x → bad x.code))) ∧
  (∀ (s : State) (tag key addr n : Nat) (ps : List Piece), s.keel.booted = true → s.linked = true → addr % 2 ^ 41 + n ≤ 2 ^ 40 →
    s.dpaPieces (addr % 2 ^ 41) n = some ps → s.blockedAt s.outsideReq (pieceRegions ps) = none →
    let t := s.letOutside
    let reply := fun (u : State) (b : ByteList) => (ps.foldl State.serve u).send (.peerReply tag b true);
    (ps.findSome? (s.pieceCause (whoPeer key) false false) = none →
      exec (.peerRequest (.read tag addr n key)) s = .next (reply t (t.peerGet ps))) ∧
    (ps.findSome? (s.pieceCause (whoPeer key) true false) = none →
      (∀ b : ByteList, b.length = n → exec (.peerRequest (.write tag addr key b)) s = .next (reply (t.peerPut key ps b) [])) ∧
      (∀ op sz (v : Word64), amoBytes sz = n → let old := leNat (t.peerGet ps)
        exec (.peerRequest (.amo tag addr key op sz v)) s
          = .next (reply (t.peerPut key ps (leBytes n (amoFun op (8 * n) old (v.toNat % 2 ^ (8 * n))))) (leBytes n old))) ∧
      (∀ sz (v new : Word64), amoBytes sz = n → let old := leNat (t.peerGet ps)
        exec (.peerRequest (.cas tag addr key sz v new)) s
          = .next (reply (if old = v.toNat % 2 ^ (8 * n) then t.peerPut key ps (leBytes n new.toNat) else t) (leBytes n old))))) ∧
  (∀ (s : State) (tag c : Nat) (b : ByteList), s.keel.booted = true → s.linked = true →
    (s.postrHeld c = false → exec (.peerRequest (.postr tag c b)) s
      = .next ((s.letOutside.arrive c b).1.send (.peerReply tag [if (s.letOutside.arrive c b).2 then 1#8 else 0#8] true))) ∧
    (s.postrHeld c = true → exec (.peerRequest (.postr tag c b)) s = .next (s.holdOutside (.peer (.postr tag c b)) 0)))

/-- ACTIVITY_TIMEOUT, WAIT_PROBE_ORIGINATE and WAIT_PROBE_RETURN (R428 to R431): a core that has been quiet for THR is no longer active. Logical core 0 of a running part in which something waits then sends a probe, which ends with Q 1 only when no core of the part was active, and clears every activity bit. Q 0 or an exemption ends the attempt; after Q 1 a second probe goes round, and after Q 1 twice the part is in a wait cycle. -/
def Obligations.WaitProbes : Prop :=
  (∀ (s : State) (c : Nat), s.quietCore c = true → exec (.activityTimeout c) s = .next (s.onCore c fun x => { x with active := false })) ∧
  (∀ (s : State) (p c : Nat), s.core0 p = some c → (s.part p).phase = .running → (s.part p).probe = none →
    s.waitcfg.getLsbD 31 = false → s.quietCore c = true → s.someWait p = true →
    exec (.waitProbeOriginate p) s = .next (s.sendProbe p 1)) ∧
  (∀ (s : State) (p round : Nat) (q : Bool), (s.part p).probe = some (round, q) → (s.part p).phase = .running →
    ((q = false ∨ s.probeExempt p = true) → exec (.waitProbeReturn p) s = .next (s.restartProbe p)) ∧
    (q = true → s.probeExempt p = false → round = 1 → exec (.waitProbeReturn p) s = .next (s.sendProbe p 2)) ∧
    (q = true → s.probeExempt p = false → round ≠ 1 → exec (.waitProbeReturn p) s = .next (s.waitCycle p)))

/-- FETCHER_TURN (R346, R349, R350, R441): the fetcher takes a queue that may start a packet, and that queue is the last one served in its rotation. The packet at its next address is read and checked; one whose form breaks a rule puts its queue in the error state with the offset of its first faulty field; another is started, and the ring index or the buffer's index passes it. In hardware mode one turn starts as many packets as the queue's weight, at least one. PACKET_COMPLETION and NOTIFICATION_WRITE (R352 to R354, R437, R438): a packet that is ready, with nothing of it outside, leaves its queue, and CPIDX passes every ring packet that has left; its completion signal goes down by one before that, at the end of the list of a signal outside the module; its notification is written when its NTFY bit asks for one; an END in the ring stops the queue. The oldest notification that waits is written once the ring has room. -/
def Obligations.PacketStartsAndEnds : Prop :=
  (∀ (s : State) (f q : Nat), s.frontRuns = true → f < 16 → (s.goOnSkips f).pickQueue f = some q →
    let v := s.goOnSkips f
    let r : State := { v with lastServed := tabPut v.lastServed (v.rotation f (v.queue q).prio) (q % 128) }
    (v.modesel.getLsbD 0 = true → exec (.fetcherTurn f) s = .next (r.startMany q (max 1 (bitsOf (v.queue q).qctl 39 32)))) ∧
    (v.modesel.getLsbD 0 = false → ∀ (a : Word64) (b : ByteList),
      let t := r.onQueue q Queue.dropEnded
      (t.queue q).nextAddr = some a → t.readForm (t.whoQueue q (.queue q)) a 64 = .ok b →
      (∀ l, t.checkPacket q a b = .ok l → exec (.fetcherTurn f) s = .next (((t.setQueue q
        { (t.queue q).advance with packets := (t.queue q).packets ++ [{ (t.queue q).packetOf t.nextId a b with list := l }] }).bumpId).spend (.queue q))) ∧
      (∀ o, packetForm (if (t.queue q).owner = 0 then 2048 else 32) b = some o →
        exec (.fetcherTurn f) s = .next (((t.onQueue q fun y => { y with ffault := none }).packetFault q a.toNat ⟨0x901, a, BitVec.ofNat 64 o⟩).spend (.queue q))))) ∧
  ((∀ (s : State) (q pid : Nat) (k : Packet), let t := s.onQueue q Queue.dropEnded
    t.packet q pid = some k → k.ready = true → k.type ≠ 7 → (t.requests.any fun r => r.whose == .packet q k.pid) = false →
    let left := (t.spend (.packet q k.pid)).onQueue q fun x => ({ x with packets := x.packets.filter fun p => p.pid != k.pid }).passCp
    (k.csig = 0 ∨ k.signalled = true → k.status ≠ 3 → k.abort = none → field k.bytes 1 1 / 2 % 2 = 0 →
      (k.type ≠ 10 → exec (.packetCompletion q pid) s = .next left) ∧
      (k.type = 10 → exec (.packetCompletion q pid) s = .next (left.onQueue q (·.endAt k)))) ∧
    (k.csig = 0 ∨ k.signalled = true → k.status ≠ 3 → k.abort = none → field k.bytes 1 1 / 2 % 2 = 1 → k.type ≠ 10 →
      exec (.packetCompletion q pid) s = .next (left.notify q k.addr
        (noteBytes 1 k.status (if k.status = 1 ∨ k.status = 2 then k.slot else 0) (field k.bytes 4 4) (BitVec.ofNat 64 k.ring)))) ∧
    (k.csig ≠ 0 → k.signalled = false → k.status ≠ 3 → ∀ u, t.updateSignal (t.whoQueue q (.packet q k.pid)) k.csig 16 (BitVec.allOnes 64) (· - 1) = .ok u →
      let v := (u.onPacket q k.pid fun p => { p with signalled := true }).wakeWaits (u.updatedLoc (t.whoQueue q (.packet q k.pid)) k.csig);
      exec (.packetCompletion q pid) s = .next (if v.requests.any fun r => r.whose == .packet q k.pid then v else v.endPacket q k))) ∧
  (∀ (x : Queue) (k : Packet), k.inRing = true → (x.endAt k).stopped = true ∧ (x.endAt k).en = false) ∧
  (∀ (s : State) (q a : Nat) (b : ByteList) (r : List (Nat × ByteList)), (s.queue q).notes = (a, b) :: r → (s.queue q).notesFull = false →
    exec (.notificationWrite q) s = .next ((s.onQueue q fun x => { x with notes := r }).putNote q a b)))

/-- NOP_PACKET, SIGNAL, INDIRECT, COPY and WAIT (R349, R351, R353, R438): a packet that has started and not begun takes effect once and is then ready to complete. SIGNAL stores its value, or adds it as one atomic, sends its message and lets the WAITs that list the word be evaluated; INDIRECT opens a level of its packets; COPY writes to DST the bytes that SRC holds. An access that meets a cause aborts the packet with PKTFAULT at its address; a held one lets it begin again. WAIT compares the values of its list. WAIT_POLL, COND, LOOP_PACKET, FENCE_PACKET and END_PACKET (R114, R351, R353, R443): a WAIT that has begun is evaluated again. COND goes on when its word meets the comparison, and passes over its packets otherwise, as soon as the ring holds them. LOOP branches back while its word meets the comparison and its count is not used up. A fence and an END take effect once every packet before them has completed: scope 5 waits for the writes to other modules of the queue, scope 6 sends a read to the host besides and waits for its end. -/
def Obligations.PacketEffects : Prop :=
  (∀ (s : State) (q pid : Nat) (k : Packet), s.packet q pid = some k → k.begun = false → k.ready = false →
    let t := s.onPacket q pid fun p => { p with begun := true }
    let w := s.whoQueue q (.packet q pid)
    let ready := fun (u : State) => u.onPacket q pid fun p => { p with ready := true, status := 0, slot := 0 }
    let stop := fun (a : Word64) (c : Cause) => if c.waits then (t.await (t.whoQueue q (.packet q pid)) c).onPacket q pid fun k => { k with begun := k.type == 3 }
      else ((t.meetRefusal c.code c.info1).onPacket q pid fun p =>
        { p with ready := true, status := 3, slot := 0, abort := some (0x907, a, BitVec.ofNat 64 c.code, none) }).spend (.packet q pid)
    (k.type = 0 → exec (.nopPacket q pid) s = .next (ready t)) ∧
    (k.type = 4 →
      let put := if k.word 0x18 1 = 0 then t.writeData w (k.addrAt 0x10) (leBytes 8 (k.addrAt 0x20).toNat)
        else t.updateSignal w (k.addrAt 0x10) 16 (k.addrAt 0x20) (· + k.addrAt 0x20);
      (∀ u, put = .ok u → exec (.signal q pid) s
        = .next ((ready (if k.word 0x1A 2 / 32768 = 1 then u.sendMsix q (k.word 0x1A 2 % 2048) else u)).wakeWaits (u.updatedLoc w (k.addrAt 0x10)))) ∧
      (∀ c, put = .error c → exec (.signal q pid) s = .next (stop (k.addrAt 0x10) c))) ∧
    (k.type = 7 → exec (.indirect q pid) s = .next (t.onQueue q fun x =>
      { x with levels := ⟨k.word 0x10 8, k.word 0x18 4, 0, [], pid⟩ :: x.levels })) ∧
    (k.type = 8 →
      (∀ c, t.readData w (k.addrAt 0x10) (k.word 0x20 8) = .error c → exec (.copy q pid) s = .next (stop (k.addrAt 0x10) c)) ∧
      ∀ b, t.readData w (k.addrAt 0x10) (k.word 0x20 8) = .ok b →
        (∀ u, t.writeData w (k.addrAt 0x18) b = .ok u → exec (.copy q pid) s = .next (ready u)) ∧
        (∀ c, t.writeData w (k.addrAt 0x18) b = .error c → exec (.copy q pid) s = .next (stop (k.addrAt 0x18) c))) ∧
    (k.type = 3 → ∀ v, k.list = [v] →
      (∀ x, t.readWord (t.whoQueue q (.packet q k.pid)) v = .ok x → 0 ≤ x.toInt → cmpWord (k.word 0x19 1) x (k.addrAt 0x20) = true → k.pid = pid →
        exec (.wait q pid) s = .next (ready (t.spend (.packet q pid)))))) ∧
  (∀ (s : State) (q pid : Nat) (k : Packet), s.packet q pid = some k → k.ready = false →
    let t := s.onPacket q pid fun p => { p with begun := true }
    let w := s.whoQueue q (.packet q pid)
    let ready := fun (u : State) => u.onPacket q pid fun p => { p with ready := true, status := 0, slot := 0 }
    (k.type = 3 → k.begun = true → exec (.waitPoll q pid) s = .next (s.evalWait q k)) ∧
    (k.type = 5 → k.begun = false → ∀ v, t.readWord w (k.addrAt 0x10) = .ok v →
      (cmpWord (k.word 0x18 1) v (k.addrAt 0x20) = true → exec (.cond q pid) s = .next (ready t)) ∧
      (cmpWord (k.word 0x18 1) v (k.addrAt 0x20) = false → (∀ x, (t.queue q).passOver (k.word 0x1A 2) = some x →
        exec (.cond q pid) s = .next (ready (t.setQueue q { x with skip := 0 }))) ∧
        ((t.queue q).passOver (k.word 0x1A 2) = none →
          exec (.cond q pid) s = .next (t.onQueue q fun x => { x with skip := k.word 0x1A 2 })))) ∧
    (k.type = 5 → k.begun = true → ((s.queue q).skip = 0 → exec (.cond q pid) s = .next (ready s)) ∧
      ((s.queue q).skip ≠ 0 → ∀ x, (s.queue q).passOver (s.queue q).skip = some x → exec (.cond q pid) s = .next (ready (s.setQueue q { x with skip := 0 })))) ∧
    (k.type = 6 → k.begun = false → ∀ v, t.readWord w (k.addrAt 0x10) = .ok v →
      exec (.loopPacket q pid) s = .next (ready (if cmpWord (k.word 0x18 1) v (k.addrAt 0x20) = true ∧
          (k.word 0x1C 4 = 0 ∨ (s.queue q).loopCount < k.word 0x1C 4)
        then t.onQueue q (·.loopBack (k.word 0x1A 2)) else t))) ∧
    (k.type = 9 → (s.queue q).firstLeft pid = true →
      (k.word 0x10 1 = 4 → exec (.fencePacket q pid) s = .next (ready s)) ∧
      (k.word 0x10 1 = 5 → s.writesOut q = false → exec (.fencePacket q pid) s = .next (ready s)) ∧
      (k.word 0x10 1 = 6 → k.begun = false → exec (.fencePacket q pid) s
        = .next ((s.ask (.packet q pid) (s.queue q).keyid 2 0 0 0 8 []).onPacket q pid fun p => { p with begun := true })) ∧
      (k.word 0x10 1 = 6 → k.begun = true → s.writesOut q = false → (s.requests.any fun r => r.whose == .packet q pid) = false →
        exec (.fencePacket q pid) s = .next (ready s))) ∧
    (k.type = 10 → (s.queue q).firstLeft pid = true → exec (.endPacket q pid) s = .next (ready t)))

/-- WAIT (R443): an evaluation whose signals hold a negative value completes the packet aborted with SIGNEG and names the first such signal of the list, whatever CMP and REF; otherwise CMP decides (R351). -/
def Obligations.WaitEvaluation : Prop :=
  ∀ (s : State) (q pid : Nat) (k : Packet) (vs : List (Word64 × Word64)), s.packet q pid = some k → k.type = 3 → k.begun = false → k.ready = false →
    let t := s.onPacket q pid fun p => { p with begun := true }
    let u := t.spend (.packet q k.pid)
    vs.map (·.1) = k.list → (∀ p ∈ vs, t.readWord (t.whoQueue q (.packet q k.pid)) p.1 = .ok p.2) →
    (∀ l r p, vs = l ++ p :: r → (∀ x ∈ l, 0 ≤ x.2.toInt) → p.2.toInt < 0 → exec (.wait q pid) s = .next (u.abortPacket q k.pid ⟨0x906, p.1, p.2⟩ none)) ∧
    ((∀ x ∈ vs, 0 ≤ x.2.toInt) →
      ((∀ x ∈ vs, cmpWord (k.word 0x19 1) x.2 (k.addrAt 0x20) = true) → exec (.wait q pid) s = .next (u.finishPacket q k.pid 0 0)) ∧
      ((∃ x ∈ vs, cmpWord (k.word 0x19 1) x.2 (k.addrAt 0x20) = false) → exec (.wait q pid) s = .next u))

/-- DOORBELL (R345, R445): a WRIDX write whose value exceeds CPIDX by more than the ring's size is not applied: WRIDX keeps its value, DOORBELL is recorded, the queue goes on with its packets. Another one is applied. One of the physical function waits for what that function has posted through BAR2 before it. -/
def Obligations.DoorbellWrites : Prop :=
  ∀ (s : State) (org : RegOrigin) (q : Nat) (v : Word32), s.reaches org q = true →
    let size := if (s.queue q).en then (s.queue q).lsize else bitsOf (s.queue q).qctl 16 12
    let t := s.letOutside;
    (t.queues = s.queues ∧ t.errseq = s.errseq) ∧
    (org ≠ .pf ∨ s.postedHeld = false →
      ((v - (s.queue q).cp).toNat ≤ 2 ^ size → exec (.doorbell org q v) s = .next (t.setQueue q { s.queue q with wr := v, parked := false })) ∧
      (2 ^ size < (v - (s.queue q).cp).toNat → ∃ u, exec (.doorbell org q v) s = .next u ∧
        u = t.errorRecord ⟨0x902, 0, originUnit org, 0, 0, false, some (q, (s.queue q).keyid), 0, v.zeroExtend 64, (s.queue q).cp.zeroExtend 64, 0⟩ ∧
        (u.queue q).wr = (s.queue q).wr ∧ (u.queue q).qerr = (s.queue q).qerr ∧ (u.queue q).packets = (s.queue q).packets ∧
        (u.queue q).stopped = (s.queue q).stopped)) ∧
    (org = .pf → s.postedHeld = true → exec (.doorbell org q v) s = .next (s.holdOutside (.doorbell org q v) 0))

/-- QUEUE_ENABLE, QUEUE_DISABLE, QCKREL, QERR_RETRY, QERR_SKIP and PREEMPT (R341, R342, R356, R437, R439), for a queue that the physical function reaches: enabling latches the ring, starts at WRIDX and clears the error state; disabling clears EN and leaves what has started; QCKREL frees the slots of its mask; RETRY ends the error state, and fetch resumes at RDIDX; SKIP makes the packet at RDIDX ready to complete aborted without starting it, and goes on after it, and when it cannot be read records the cause and only passes it; in host-assisted mode PREEMPT asks every resident part of the queue to be saved, and a running one is then being saved for the host in the lowest free slot. The others change nothing. -/
def Obligations.QueueOperations : Prop :=
  ∀ (s : State) (q : Nat), s.reaches .pf q = true →
    let x := s.queue q
    let a := x.ringAddr x.rd.toNat
    let w := s.whoQueue q (.queue q)
    (x.en = false → exec (.queueEnable q) s = .next (s.setQueue q { x with
      qctl := x.qctl ||| 1, lbase := x.qbase, lsize := bitsOf x.qctl 16 12, rd := x.wr, cp := x.wr, qerr := 0, levels := [], skip := 0
      stopped := false, ffault := none, parked := false, skipping := false })) ∧
    (x.en = true → exec (.queueEnable q) s = .next s) ∧
    (∃ v : Word64, exec (.queueDisable q) s = .next (s.setQueue q { x with qctl := v }) ∧ v.getLsbD 0 = false ∧
      ∀ i, i ≠ 0 → v.getLsbD i = x.qctl.getLsbD i) ∧
    (∀ m, exec (.qckrel q m) s = .next (s.setQueue q { x with used := x.used &&& (255 ^^^ (m % 256)) })) ∧
    (x.inError = true → exec (.qerrRetry q) s = .next (s.setQueue q { x with qerr := 0, parked := false, skipping := false })) ∧
    (x.inError = false → exec (.qerrRetry q) s = .next s ∧ exec (.qerrSkip q) s = .next s) ∧
    (x.rd = x.wr → exec (.qerrSkip q) s = .next s) ∧
    (x.inError = true → x.rd ≠ x.wr →
      (∀ b, s.readForm w a 64 = .ok b → exec (.qerrSkip q) s = .next (((s.setQueue q { x with
        rd := x.rd + 1, qerr := 0, parked := false, skipping := false
        packets := x.packets ++ [⟨s.nextId, b, x.rd.toNat, true, a.toNat, true, 3, 0, none, true, false, none, [], none⟩] }).bumpId).spend (.queue q))) ∧
      (∀ c, s.readForm w a 64 = .error c → c.waits = true → exec (.qerrSkip q) s = .next ((s.setQueue q { x with skipping := true }).await w c)) ∧
      (∀ c, s.readForm w a 64 = .error c → c.waits = false → exec (.qerrSkip q) s = .next
        (((((s.meetRefusal c.code c.info1).onQueue q fun y => ({ y with rd := y.rd + 1, skipping := false } : Queue).passCp).errorRecord
          ⟨c.code, 0, 6, 0, 0, false, some (q, x.keyid), a.toNat, c.info, c.info1, 0⟩).onQueue q fun y => { y with qerr := 0, parked := false }).spend (.queue q)))) ∧
    (s.modesel.getLsbD 3 = false → exec (.preempt q) s = .next s) ∧
    (s.modesel.getLsbD 3 = true →
      exec (.preempt q) s = .next ((s.partsOf q).foldl (fun t p =>
        (t.onPart p fun y => { y with hosted := y.hosted || y.phase == .running || y.phase == .setUp || y.phase == .resuming }).askSave p 0) s) ∧
      ∀ p n, s.partsOf q = [p] → (s.part p).queue = q → (s.part p).phase = .running → s.partFrozen p = false → x.freeSlot = some n →
        ∃ u, exec (.preempt q) s = .next u ∧ (u.part p).phase = .saving ∧ (u.part p).hosted = true ∧ (u.part p).reason = 0 ∧ (u.part p).slot = n ∧
          (u.queue q).used = x.used ||| 2 ^ n)

/-- LAUNCH, LAUNCH_SETUP, LAUNCH_START and LAUNCH_COMPLETE (R28, R33, R38, R43, R44, R46, R49, R396, R401, R402): a launch whose record and tables pass their checks asks for cores, another aborts its packet with the cause, which is recorded; free cores that are a placement of its levels are set up with the programs it names; it starts at once, or for a gang at ATICK, when the time is agreed, and is then running; a gang whose ATICK is past, or whose time is not agreed, ends with the cause; when every unit is done the part is complete, its cores and contexts are free and its packet is ready. -/
def Obligations.LaunchEvents : Prop :=
  (∀ (s : State) (q pid : Nat) (k : Packet), s.packet q pid = some k → k.begun = false → k.ready = false → k.type = 1 →
    let t := s.onPacket q pid fun p => { p with begun := true }
    (∀ y, t.checkLaunch (t.whoQueue q (.packet q pid)) (t.queue q).keyid (t.newPart q k) = .ok y →
      exec (.launch q pid) s = .next ((((t.setPart pid y).onPacket q pid fun p => { p with part := some pid }).spend (.packet q pid)).seekVictims pid)) ∧
    (∀ x, t.checkLaunch (t.whoQueue q (.packet q pid)) (t.queue q).keyid (t.newPart q k) = .error x → x.waits = false →
      exec (.launch q pid) s = .next (((t.meetRefusal x.code x.info1).keepRecord
        ⟨x.code, 2, 6, 0, 0, false, some (q, (s.queue q).keyid), k.addr, x.info, x.info1, 0⟩).abortPacket q k.pid x (some s.errseq.toNat)))) ∧
  (∀ (s : State) (p : Nat) (pl : Placement) (l : List Prog), (s.part p).phase = .waiting → (s.part p).image = none →
    pl.cores.all (s.freeCore []) = true → placedIn none (s.part p).levels 0 4096 pl.cores = true → s.placement (s.part p) pl = some l →
    let u := (pl.cores.zipIdx).foldl (fun t q => t.setUpCore p (s.part p) q.2 q.1) s
    (∀ v, u.loadProgs (s.partWho p (s.part p)) l = .ok v →
      exec (.launchSetup p pl) s = .next ((v.setPart p { s.part p with cores := pl.cores, progs := l, phase := .setUp, setTick := s.tick }).spend (.part p))) ∧
    (∀ x, u.loadProgs (s.partWho p (s.part p)) l = .error x → x.waits = false →
      exec (.launchSetup p pl) s = .next ((u.setPart p { s.part p with cores := pl.cores, phase := .setUp }).partFails p x))) ∧
  (∀ (s : State) (p : Nat), (s.part p).phase = .setUp →
    ((s.part p).gang = false ∨ ((s.part p).setTick.toNat ≤ (s.part p).atick.toNat ∧ s.tsync.getLsbD 1 = true ∧ (s.part p).atick.toNat ≤ s.tick.toNat) →
      (s.part p).asked = none →
      exec (.launchStart p) s = .next ((s.startStrands (s.part p)).setPart p { s.part p with phase := .running, started := s.steps })) ∧
    ((s.part p).gang = true → (s.part p).atick.toNat < (s.part p).setTick.toNat →
      exec (.launchStart p) s = .next (s.partFails p ⟨0x504, (s.part p).atick, (s.part p).setTick⟩)) ∧
    ((s.part p).gang = true → (s.part p).setTick.toNat ≤ (s.part p).atick.toNat → s.tsync.getLsbD 1 = false →
      exec (.launchStart p) s = .next (s.partFails p ⟨0x505, (s.part p).atick, 0⟩))) ∧
  (∀ (s : State) (p : Nat), (s.part p).phase = .running → s.partDone p = true → ∃ u, exec (.launchComplete p) s = .next u ∧
    (u.part p).phase = .complete ∧ (u.part p).cores = [] ∧ (∀ c ∈ (s.part p).cores, (u.core c).part = none) ∧ (∀ q ∈ u.ctxs, q.2.part ≠ p) ∧
    ∀ k ∈ (u.queue (s.part p).queue).packets, k.pid = (s.part p).pid → k.ready = true ∧ k.status = 0)

/-- YIELD_DEADLINE, SAVE_STOPPED and PREEMPTION_COMPLETE (R322 to R325, R336, R355, R356, R422, R433): a part that was asked to yield is to be saved when its deadline has come, in the lowest free slot of its queue, and ends when its queue has none; inside a freeze the decision waits. Once all its units have stopped its image is written, or the save fails; the packet of a halted part then completes with STATUS 1, that of a preempted one with STATUS 2, and any other part is saved, to be resumed. RESUME, RESUME_RESTORE and HARDWARE_RESUME (R31, R335, R355, R356, R434): a packet's image that passes its checks asks for cores, another aborts the packet and is recorded; on free cores that keep the image's placement the programs are loaded and every unit is restored, with nothing left of the yield request; an image that can no longer be read ends the part. The front end resumes the first saved part that finds cores. An access that is held waits, and the event comes again. -/
def Obligations.SavesAndResumes : Prop :=
  ((∀ (s : State) (p : Nat), (s.part p).phase = .running → (s.part p).yreq = true →
    ((s.tick.truncate 32 : Word32) - (s.part p).dltick).toNat < 2 ^ 31 →
    (∀ n, s.partFrozen p = false → (s.queue (s.part p).queue).freeSlot = some n → ∃ u, exec (.yieldDeadline p) s = .next u ∧
      (u.part p).phase = .saving ∧ (u.part p).reason = 2 ∧ (u.part p).slot = n ∧ (u.part p).forced = true ∧
      (u.queue (s.part p).queue).used = (s.queue (s.part p).queue).used ||| 2 ^ n ∧ u.mem = s.mem) ∧
    (s.partFrozen p = false → (s.queue (s.part p).queue).freeSlot = none → exec (.yieldDeadline p) s = .next (s.saveFail p 1 0 0)) ∧
    (s.partFrozen p = true → exec (.yieldDeadline p) s = .next (s.onPart p fun y => { y with asked := some (max 2 (y.asked.getD 0)) }))) ∧
  (∀ (s : State) (p : Nat), (s.part p).phase = .saving → (s.part p).image = none → s.allStopped p = true →
    exec (.saveStopped p) s = .next (if ((s.restPart p).part p).phase = .saving then (s.restPart p).writeImage p else s.restPart p)) ∧
  (∀ (s : State) (p a : Nat), (s.part p).phase = .saving → (s.part p).image = some a → (s.requests.any fun r => r.whose == .save p) = false →
    let seek := fun (u : State) => match u.waitingParts with
      | q :: _ => u.seekVictims q
      | [] => u
    ((s.part p).reason ≠ 3 → (s.part p).hosted = false → exec (.preemptionComplete p) s = .next (seek (s.onPart p fun y => { y with phase := .saved }))) ∧
    ((s.part p).reason = 3 → exec (.preemptionComplete p) s = .next (seek ((s.onPart p fun y => { y with phase := .complete }).finishPacket
      (s.part p).queue (s.part p).pid 1 (s.part p).slot))) ∧
    ((s.part p).reason ≠ 3 → (s.part p).hosted = true → exec (.preemptionComplete p) s = .next (seek ((s.onPart p fun y =>
      { y with phase := .complete }).finishPacket (s.part p).queue (s.part p).pid 2 (s.part p).slot))))) ∧
  ((∀ (s : State) (q pid : Nat) (k : Packet), s.packet q pid = some k → k.begun = false → k.ready = false → k.type = 2 →
    let t := (s.onPacket q pid fun p => { p with begun := true }).freeSlotOf q (k.addrAt 0x10).toNat
    let r := t.checkImage (t.whoQueue q (.packet q pid)) (t.queue q).keyid (t.newPart q k) (k.addrAt 0x10)
    (∀ y, r = .ok y → exec (.resume q pid) s
      = .next ((((t.setPart pid y).onPacket q pid fun p => { p with part := some pid }).spend (.packet q pid)).seekVictims pid)) ∧
    (∀ x, r = .error x → x.waits = false → exec (.resume q pid) s = .next (((t.meetRefusal x.code x.info1).keepRecord
      ⟨x.code, 2, 6, 0, 0, false, some (q, (t.queue q).keyid), k.addr, x.info, x.info1, 0⟩).abortPacket q k.pid x (some s.errseq.toNat))) ∧
    (∀ x, r = .error x → x.waits = true → exec (.resume q pid) s
      = .next ((t.await (t.whoQueue q (.packet q k.pid)) x).onPacket q k.pid fun k => { k with begun := k.type == 3 }))) ∧
  (∀ (s : State) (p img : Nat) (pl : Placement) (l : List Prog) (t : State), (s.part p).image = some img →
    (s.part p).phase = .waiting → pl.cores.all (s.freeCore []) = true → placedIn none (s.part p).levels 0 4096 pl.cores = true →
    keepsHomes (s.part p).homes pl.cores = true → s.placement (s.part p) pl = some l → s.loadProgs (s.partWho p (s.part p)) l = .ok t →
    let w := s.partWho p (s.part p)
    (∀ b, t.readImage w (s.part p).key (BitVec.ofNat 64 img) = .ok b → exec (.resumeRestore p pl) s = .next (((t.setPart p { s.part p with
        cores := pl.cores, progs := l, phase := .running, image := none, bars := [], started := s.steps, hosted := false
        yreq := false, forced := false, dltick := 0, setTick := s.tick, asked := none }).restoreUnits p b).spend (.part p))) ∧
    (∀ x, t.readImage w (s.part p).key (BitVec.ofNat 64 img) = .error x → exec (.resumeRestore p pl) s
      = .next (if x.waits then s.await w x else s.restoreFails p (s.part p) pl.cores (BitVec.ofNat 64 img)))) ∧
  (∀ (s : State) (p : Nat), (s.savedParts.find? fun p => !s.forestalled p && s.fits [] (s.part p)) = some p →
    let a := BitVec.ofNat 64 ((s.part p).image.getD 0)
    let t := s.freeSlotOf (s.part p).queue a.toNat
    let r := t.checkImage (t.partWho p (s.part p)) (s.part p).key (s.part p) a
    (∀ q, r = .ok q → exec .hardwareResume s = .next ((t.setPart p q).spend (.part p))) ∧
    (∀ x, r = .error x → exec .hardwareResume s = .next (if x.waits then s.await (t.partWho p (s.part p)) x else t.partFails p x))))

/-- REGISTER_WRITE, CONFIGURATION_WRITE, MODESEL_WRITE and RIT_WRITE (R338 to R340, R345, R357, R366, R374, R375, R446, R452, R459, R460): a host write of another size or of an offset that holds no register is recorded with DEVAPER and writes nothing; another writes its register. A VF reaches the pages of its queues, when its TDI takes its MMIO. A WRIDX write of the physical function waits for what that has posted through BAR2. MODID, RTMO, MODESEL, PCTL and the counters keep what the registers hold; a frozen item that would change moves its TDIs to ERROR instead. A RIT write takes effect, or is held while its region is quiesced. BAR2_READ and BAR2_WRITE (R92, R338, R423, R446): bytes of HBM inside 2^40, read under identifier 0, are answered; a cause is answered with an Unsupported Request or as poisoned data and recorded, but NOREGION is not recorded; an address outside is recorded with DEVAPER. A write stores its bytes piece by piece; one to a region with no backing stores nothing. Either waits at a held region, behind what has arrived there before. -/
def Obligations.HostAccesses : Prop :=
  ((∀ (s : State) (off size : Nat) (v : Word64), s.keel.booted = true →
    (atDoorbell off && s.postedHeld) = false → let t := s.letOutside;
      ((size ≠ 8 ∨ t.apertureRead true off = none) → exec (.registerWrite .pf off size v) s
        = .next (t.errorRecord ⟨0x908, 0, 6, 0, 0, false, none, 0, BitVec.ofNat 64 off, 1, 0⟩)) ∧
      (∀ x, size = 8 → t.apertureRead true off = some x → exec (.registerWrite .pf off size v) s = .next (t.apertureWrite true true 6 off v))) ∧
  (∀ (s : State) (off size : Nat) (v : Word64), s.keel.booted = true →
    ((atDoorbell off && s.postedHeld) = true → exec (.registerWrite .pf off size v) s = .next (s.holdOutside (.registerWrite .pf off size v) 0)) ∧
    (∀ n ide, s.mmioOk n ide = false → exec (.registerWrite (.vf n ide) off size v) s = .next s) ∧
    (∀ n ide, s.mmioOk n ide = true → s.vfQueue n (off / 4096) = none → exec (.registerWrite (.vf n ide) off size v) s = .next s) ∧
    (∀ n ide q, s.mmioOk n ide = true → s.vfQueue n (off / 4096) = some q →
      ((size ≠ 8 ∨ s.apertureRead true (q * 4096 + off % 4096) = none) → exec (.registerWrite (.vf n ide) off size v) s
        = .next (s.errorRecord ⟨0x908, 0, 6, 0, 0, false, none, 0, BitVec.ofNat 64 off, 1, 0⟩)) ∧
      ∀ x, size = 8 → s.apertureRead true (q * 4096 + off % 4096) = some x →
        exec (.registerWrite (.vf n ide) off size v) s = .next (s.apertureWrite false false 6 (q * 4096 + off % 4096) v)) ∧
    (∀ priv x, size = 8 → s.apertureRead true off = some x →
      exec (.registerWrite (.device priv) off size v) s = .next (s.apertureWrite priv false 0 off v))) ∧
  (∀ (s : State) (v : Word64),
    exec (.configurationWrite .modid v) s = .next ({ s with modid := (v.truncate 32) &&& 0x87FF } : State).flushUnsent ∧
    exec (.configurationWrite .rtmo v) s = .next { s with rtmo := BitVec.ofNat 32 (max 1 (bitsOf v 15 0)) } ∧
    exec (.configurationWrite .tsync v) s = .next (s.opTsync v) ∧
    (∀ n, n < 36 → exec (.configurationWrite (.pctl n) v) s
      = .next (s.setPort n { s.nport n with pctl := v &&& 1, reason := if v.getLsbD 0 then (s.nport n).reason else 0 })) ∧
    (∀ n, n < 36 → v = BitVec.allOnes 64 → exec (.configurationWrite (.pcnt n false) v) s = .next (s.setPort n { s.nport n with crc := 0, replay := 0 }) ∧
      exec (.configurationWrite (.pcnt n true) v) s = .next (s.setPort n { s.nport n with corr := 0 })) ∧
    (s.anyFrozen = false → exec (.configurationWrite .numVfs v) s = .next { s with numVfs := min 63 (bitsOf v 15 0) } ∧
      exec (.configurationWrite .vfEnable v) s = .next { s with vfEnable := v.getLsbD 0 } ∧
      exec (.configurationWrite .vfBar0 v) s = .next { s with vfBar0 := v }) ∧
    (s.anyFrozen = true → s.vfBar0 ≠ v → exec (.configurationWrite .vfBar0 v) s = .next (s.tdiErrorAll 1 (Config.configOffset 2))) ∧
    (∀ n, isVf n = true → s.frozenVf n = false → exec (.configurationWrite (.vfCommand n) v) s = .next (s.setVf n { s.vf n with command := v.truncate 16 }) ∧
      exec (.configurationWrite (.vfMsix n) v) s = .next (s.setVf n { s.vf n with msix := v }) ∧
      ∀ w, w < 64 → exec (.configurationWrite (.vfMsixTable n w) v) s = .next (s.setVf n { s.vf n with msixTab := tabPut (s.vf n).msixTab w v })) ∧
    (∀ off, exec (.configurationWrite (.other off) v) s = .next s)) ∧
  (∀ (s : State) (v : Word64), s.keel.booted = true → exec (.modeselWrite v) s = .next { s with modesel := v &&& 0xF }) ∧
  (∀ (s : State) (d l : Nat) (v : Word64), s.keel.booted = true → d < 8 → l < 65536 →
    (s.quiesced d l = false → exec (.ritWrite d l v) s = .next (s.onDie d fun x => { x with rit := tabPut x.rit l (RitEntry.ofWord (x.ritAt l) v) })) ∧
    (s.quiesced d l = true → exec (.ritWrite d l v) s = .next (s.onDie d fun x => { x with ritHeld := x.ritHeld ++ [(l, v)] })))) ∧
  (∀ (s : State) (tag addr : Nat), s.keel.booted = true →
    (∀ n, (n = 0 ∨ n > 4096 ∨ addr + n > 2 ^ 40) → exec (.bar2Read tag addr n) s
      = .next ((s.errorRecord ⟨0x908, 0, 6, 0, 0, false, none, 0, BitVec.ofNat 64 addr, 0, 0⟩).send (.bar2Error tag 0x908))) ∧
    (∀ n, 0 < n → n ≤ 4096 → addr + n ≤ 2 ^ 40 →
      (∀ b, s.readDpa (whoHost s.outsideReq) addr n = .ok b → ∃ u, exec (.bar2Read tag addr n) s = .next u ∧ u.mem = s.mem ∧
        u.port = s.port ++ [.bar2Data tag b] ∧ u.cores = s.cores) ∧
      (∀ x, s.readDpa (whoHost s.outsideReq) addr n = .error x → x.code = 3 →
        exec (.bar2Read tag addr n) s = .next (s.holdOutside (.bar2Read tag addr n) x.info.toNat)) ∧
      (∀ x, s.readDpa (whoHost s.outsideReq) addr n = .error x → x.code ≠ 3 → exec (.bar2Read tag addr n) s
        = .next ((if x.code = 0x606 then s.letOutside else s.letOutside.errorRecord (hostRecord x)).send (.bar2Error tag x.code)))) ∧
    (∀ b : ByteList, b ≠ [] → addr + b.length > 2 ^ 40 → exec (.bar2Write addr b) s
      = .next (s.errorRecord ⟨0x908, 0, 6, 0, 0, false, none, 0, BitVec.ofNat 64 addr, 1, 0⟩)) ∧
    (∀ b : ByteList, b ≠ [] → addr + b.length ≤ 2 ^ 40 →
      (s.dpaPieces addr b.length = none → exec (.bar2Write addr b) s = .next s.letOutside) ∧
      (∀ ps, s.dpaPieces addr b.length = some ps →
        (∀ k, s.blockedAt s.outsideReq (pieceRegions ps) = some k → exec (.bar2Write addr b) s = .next (s.holdOutside (.bar2Write addr b) k)) ∧
        (s.blockedAt s.outsideReq (pieceRegions ps) = none → exec (.bar2Write addr b) s
          = .next ((splitPieces ps b).foldl (fun t p => t.bar2Piece p.1 p.2) s.letOutside)))))

/-- RAMPCTL_WRITE and RAMP_INTERVAL_END (R147, R378): the limits of a write are held to their range and wait for the next interval; LAST becomes a number of slots within the limits that held. The number itself is free (log 1). -/
def Obligations.RampLimiter : Prop :=
  ∀ (s : State) (d : Nat), d < 8 →
    (∀ v, ∃ u w, exec (.rampctlWrite d v) s = .next (s.setDie d u) ∧ u.rampNext = some w ∧ u.ramp = (s.die d).ramp ∧
      bitsOf w 19 0 = max 2400 (min 307200 (bitsOf v 19 0)) ∧ bitsOf w 39 20 = max 2400 (min 307200 (bitsOf v 39 20))) ∧
    ∃ u n, exec (.rampIntervalEnd d) s = .next (s.setDie d u) ∧ u.rampNext = none ∧ bitsOf u.ramp 59 40 = n ∧
      bitsOf (s.die d).ramp 59 40 - bitsOf (s.die d).ramp 39 20 ≤ n ∧
      n ≤ max (bitsOf (s.die d).ramp 59 40 - bitsOf (s.die d).ramp 39 20) (min 307200 (bitsOf (s.die d).ramp 59 40 + bitsOf (s.die d).ramp 19 0)) ∧
      bitsOf u.ramp 19 0 = bitsOf ((s.die d).rampNext.getD (s.die d).ramp) 19 0

/-- TLB_INVALIDATE_ALL, TLB_INVALIDATE_ROOT, TLB_INVALIDATE_PAGE and TLBINV_COMPLETE (R348, R444): an invalidation is queued with the root and the address that the registers hold, and BUSY is set; when it completes, no TLB holds a translation it names, and BUSY is clear when no other is queued. That it completes only with no request, no causal store and no causal load outstanding is the model's reading (log 23). ATS_COMPLETION, PRI_RESPONSE, ATS_INVALIDATION_REQUEST and ATS_INVALIDATION_COMPLETE (R347, R416, R429): a page that is present is cached and nobody waits for it any more, one that is absent asks the host for it, one that is refused is noted for the access that waits; an invalidation drops the matching pages, and is answered once no access to host memory is outstanding. An answer that nobody asked for changes nothing. -/
def Obligations.Invalidations : Prop :=
  ((∀ (s : State), s.keel.booted = true →
    let queued := fun (kind : Nat) => { s with tlbKind := kind, tlbBusy := true, tlbQueue := s.tlbQueue ++ [(kind, bitsOf s.tlbinvr 40 12 * 4096, s.tlbinva.toNat)] }
    (∀ k, (k = 0 ∨ k = 3) → exec (.tlbInvalidateAll k) s = .next (queued k)) ∧
    exec .tlbInvalidateRoot s = .next (queued 1) ∧ exec .tlbInvalidatePage s = .next (queued 2)) ∧
  (∀ (s : State) (r : Nat × Nat × Nat) (rest : List (Nat × Nat × Nat)), s.tlbQueue = r :: rest → s.accessesOpen = false →
    ∃ u, exec .tlbinvComplete s = .next u ∧ u.tlbQueue = rest ∧ u.tlbBusy = !rest.isEmpty ∧ u.mem = s.mem ∧
      (∀ p ∈ u.cores, ∀ e ∈ p.2.tlb, invalidates r e = false) ∧ (∀ p ∈ u.crewTlb, ∀ e ∈ p.2, invalidates r e = false) ∧
      (∀ p ∈ u.mseTlb, ∀ e ∈ p.2, invalidates r e = false) ∧ (∀ p ∈ u.queues, p.2.parked = false))) ∧
  ((∀ (s : State) (a : Nat), s.xlat.pending.contains (a / 4096) = true →
    let t : State := { s with xlat := { s.xlat with pending := s.xlat.pending.filter (· != a / 4096) } }
    let free := fun (u : State) => { u with xlat := { u.xlat with waits := u.xlat.waits.filter fun q => q.1 != a / 4096 } };
    exec (.atsCompletion a .present) s = .next (free (t.cachePage (a / 4096))) ∧ a / 4096 ∈ (t.cachePage (a / 4096)).xlat.cache ∧
    exec (.atsCompletion a .absent) s = .next (({ t with xlat := { t.xlat with paged := t.xlat.paged ++ [a / 4096] } } : State).send (.pri (a / 4096 * 4096))) ∧
    exec (.atsCompletion a .refused) s = .next (free { t with xlat := { t.xlat with refused := t.xlat.refused ++ [a / 4096] } })) ∧
  (∀ (s : State) (a : Nat), s.xlat.paged.contains (a / 4096) = true →
    let t : State := { s with xlat := { s.xlat with paged := s.xlat.paged.filter (· != a / 4096) } }
    let free := fun (u : State) => { u with xlat := { u.xlat with waits := u.xlat.waits.filter fun q => q.1 != a / 4096 } };
    exec (.priResponse a true) s = .next (free (t.cachePage (a / 4096))) ∧
    exec (.priResponse a false) s = .next (free { t with xlat := { t.xlat with refused := t.xlat.refused ++ [a / 4096] } })) ∧
  (∀ (s : State) (a : Nat), (s.xlat.pending.contains (a / 4096) = false → ∀ r, exec (.atsCompletion a r) s = .next s) ∧
    (s.xlat.paged.contains (a / 4096) = false → ∀ r, exec (.priResponse a r) s = .next s)) ∧
  (∀ (s : State) (a n : Nat), ∃ u, exec (.atsInvalidationRequest a n) s = .next u ∧
    (∀ p, p ∈ u.xlat.cache ↔ p ∈ s.xlat.cache ∧ ¬(p * 4096 < a + n ∧ a < (p + 1) * 4096)) ∧ u.xlat.invals = s.xlat.invals ++ [(a, n)]) ∧
  (∀ (s : State) (p : Nat × Nat) (r : List (Nat × Nat)), s.xlat.invals = p :: r → (s.requests.any fun q => q.tier == 2) = false →
    exec .atsInvalidationComplete s = .next (({ s with xlat := { s.xlat with invals := r } } : State).send .atsInvalidated)))

/-- REMAP_REQUEST, REMAP_EPOCH_END, REGION_SWAP and SWAP_ABANDON (R88, R91, R92, R425): a request for two different swappable regions starts a swap when none runs, and is refused otherwise; the end of an epoch clears the counts, and in hardware mode with EN and no swap running begins the first of at most MAXSW chosen swaps; a swap first quiesces its regions with the lowest spare region, then exchanges their physical regions; an abandoned one leaves both entries as they were, and withholds its staging region. CHANNEL_RETIRE and RETIREMENT_MOVE (R92, R424): a CHRET write with GO marks its channel, counts its regions and waits for a swap that runs; while a retirement runs it changes nothing. The count of the regions is taken first, then the lowest region left is quiesced with the lowest spare region and moved; with no region left the channel is retired, with no spare region the retirement fails. -/
def Obligations.RegionMoves : Prop :=
  ((∀ (x : Die) (n : Nat) (l : NatList), (x.chooseSwaps n l).length ≤ n) ∧
  ∀ (s : State) (d : Nat), d < 8 →
    (∀ v, v.getLsbD 32 = true → let a := bitsOf v 15 0; let b := bitsOf v 31 16
      ((a ≠ b ∧ (s.die d).swappable a = true ∧ (s.die d).swappable b = true ∧ (s.die d).swap = none) →
        ∃ u, exec (.remapRequest d v) s = .next (s.setDie d u) ∧ u.swap = some ⟨a, some b, false, 0⟩ ∧ u.refused = false ∧ u.rit = (s.die d).rit) ∧
      ((a = b ∨ (s.die d).swappable a = false ∨ (s.die d).swappable b = false ∨ (s.die d).swap.isSome = true) →
        ∃ u, exec (.remapRequest d v) s = .next (s.setDie d u) ∧ u.swap = (s.die d).swap ∧ u.refused = true ∧ u.rit = (s.die d).rit)) ∧
    (∀ v, v.getLsbD 32 = false → exec (.remapRequest d v) s
      = .next (s.setDie d { s.die d with remapLria := v.truncate 16, remapLrib := BitVec.ofNat 16 (bitsOf v 31 16) })) ∧
    ((s.die d).swapNext = [] → ((s.die d).swap.isSome = true ∨ (s.die d).remapctl.getLsbD 0 = false ∨ s.modesel.getLsbD 1 = true) →
      exec (.remapEpochEnd d) s = .next (s.setDie d { s.die d with access := [], swapNext := [] })) ∧
    ((s.die d).swap = none → (s.die d).remapctl.getLsbD 0 = true → s.modesel.getLsbD 1 = false →
      ((s.die d).chooseSwaps (bitsOf (s.die d).remapctl 31 24) [] = [] →
        exec (.remapEpochEnd d) s = .next (s.setDie d { s.die d with access := [], swapNext := [] })) ∧
      ∀ p r, (s.die d).chooseSwaps (bitsOf (s.die d).remapctl 31 24) [] = p :: r →
        (∀ l, (l = p.1 ∨ l = p.2) → (s.die d).swappable l = true ∧ (s.die d).leaving.getLsbD (chanBit ((s.die d).ritAt l).pri) = false) →
        exec (.remapEpochEnd d) s = .next (s.setDie d { s.die d with access := [], swap := some ⟨p.1, some p.2, false, 0⟩, swapNext := r })) ∧
    (∀ w b, (s.die d).swap = some w → w.b = some b →
      (w.started = false → ∀ p r, (s.die d).spares = p :: r → exec (.regionSwap d) s = .next (((s.quiesce d w.a).quiesce d b).onDie d fun x =>
        { x with swap := some { w with started := true, spare := p } })) ∧
      (w.started = true → s.causalIn d w.a = false → s.causalIn d b = false → exec (.regionSwap d) s = .next (s.finishSwap d w b)) ∧
      (w.started = true → w.a ≠ b → (s.die d).ritHeld = [] → let u := s.finishSwap d w b
        ((u.die d).ritAt w.a).pri = ((s.die d).ritAt b).pri ∧ ((u.die d).ritAt b).pri = w.spare ∧
        (∀ l, (l = w.a ∨ l = b) → ((u.die d).ritAt l).qs = false) ∧ (∀ l, l ≠ w.a → l ≠ b → (u.die d).ritAt l = (s.die d).ritAt l)) ∧
      (w.started = true → ∃ u, exec (.swapAbandon d) s = .next u ∧ ((s.die d).swapNext = [] → (u.die d).swap = none) ∧
        (u.die d).withheld = (s.die d).withheld ++ [w.spare] ∧
        ((s.die d).ritHeld = [] → ∀ l, ((u.die d).ritAt l).pri = ((s.die d).ritAt l).pri ∧ ((u.die d).ritAt l).v = ((s.die d).ritAt l).v)))) ∧
  ((∀ (s : State) (v : Word64), s.keel.booted = true → let d := bitsOf v 2 0
    (s.chbusy = true → exec (.channelRetire v) s = .next s) ∧
    (s.chbusy = false → v.getLsbD 9 = false → exec (.channelRetire v) s = .next { s with chret := v &&& 0x1FF }) ∧
    (s.chbusy = false → v.getLsbD 9 = true → exec (.channelRetire v) s = .next
      { (s.onDie d fun x => { x with leaving := x.leaving ||| BitVec.ofNat 64 (2 ^ (32 * bitsOf v 3 3 + bitsOf v 8 4)) }) with
        chret := v &&& 0x1FF, chbusy := true, chfailed := false, chmoving := (s.die d).swap.isNone
        chleft := (s.channelRegions d (bitsOf v 3 3) (bitsOf v 8 4)).length })) ∧
  (∀ (s : State), s.chbusy = true → (s.die s.retDie).swap = none →
    (s.chmoving = false → exec (.retirementMove s.retDie) s = .next { s with chmoving := true, chleft := s.leftRegions.length }) ∧
    (s.chmoving = true → s.leftRegions = [] → exec (.retirementMove s.retDie) s = .next (s.endRetire false)) ∧
    (s.chmoving = true → ∀ a r, s.leftRegions = a :: r → ((s.die s.retDie).pubHeld.any fun p => p.pages.contains a) = false →
      ((s.die s.retDie).spares = [] → exec (.retirementMove s.retDie) s = .next (s.endRetire true)) ∧
      (∀ p q, (s.die s.retDie).spares = p :: q → exec (.retirementMove s.retDie) s
        = .next ((s.quiesce s.retDie a).onDie s.retDie fun x => { x with swap := some ⟨a, none, true, p⟩ })))) ∧
  (∀ (s : State) (w : Swap), s.chbusy = true → (s.die s.retDie).swap = some w → w.b = none → s.causalIn s.retDie w.a = false →
    let u := s.finishMove s.retDie w
    exec (.retirementMove s.retDie) s = .next u ∧ (u.die s.retDie).swap = none ∧ ((s.die s.retDie).ritHeld = [] →
      (inChannel s.retStack s.retChan ((s.die s.retDie).ritAt w.a).pri = true → ((u.die s.retDie).ritAt w.a).pri = w.spare) ∧
      (inChannel s.retStack s.retChan ((s.die s.retDie).ritAt w.a).pri = false → ((u.die s.retDie).ritAt w.a).spri = w.spare) ∧
      ∀ l, l ≠ w.a → (u.die s.retDie).ritAt l = (s.die s.retDie).ritAt l)) ∧
  (∀ (s : State) (failed : Bool), let u := s.endRetire failed
    u.chbusy = false ∧ u.chmoving = false ∧ u.chfailed = failed ∧
    (u.die s.retDie).retired = if failed then (s.die s.retDie).retired else (s.die s.retDie).retired ||| BitVec.ofNat 64 (2 ^ (32 * s.retStack + s.retChan))))

/-- MODULE_RESET, FW_LOAD, FW_SWITCH, FW_SWITCH_HANDOVER (R20, R359, R368, R435, R447, R448): a reset leaves the module as State.reset with what stands for the world outside; when Keel has verified itself it has booted with its identity, and both complexes hold an image that is accepted, its version no lower than the fused minimum; a refused one boots nothing and is recorded. A loaded image boots as the standby, its bytes in that complex's SRAM, or is refused with FWLOAD. A switch holds what follows; at a quiescent boundary it hands over in three events to a standby that imports the active major, and fails with FWSWITCH otherwise. HEARTBEAT, STATE_TABLE_COMMIT and HEARTBEAT_TIMEOUT (R449, R450, R461): the active complex answers; a standby takes the state table at a quiescent boundary; after 800,000 ticks without an answer, or with CTRLUE in its SRAM, the active complex has failed: a standby that has booted and imports its major takes over, and with none the module has no firmware and every queue is in the error state. UNIT_RETRY, UNIT_END and UNIT_TRAP_RESOLUTION (R321, R400, R417, R418, R421): an action that UNITRES delivers to a held unit takes its report off and lets it go on with its unperformed accesses, or ends it; a number of no held unit only takes the action off; the firmware ends a unit whose report it does not hold. A kernel or a context that goes on is no longer held; a context that ends stops with its words abandoned; a kernel that ends leaves the core. -/
def Obligations.Firmware : Prop :=
  ((∀ (s : State) (o : BootOutcome),
    let t : State := { State.reset with steps := s.steps, agenda := s.agenda, shared := s.shared, pace := s.pace, turn := s.turn, port := s.port, nextId := s.nextId }
    let u : State := { t with keel := { t.keel with booted := true, identity := true } }
    let refused := fun (r v : Nat) => exec (.moduleReset o) s
      = .next (({ u with fw := { u.fw with sbst := 0, noBoot := true } } : State).errorRecord ⟨0x909, 0, 7, 0, 0, false, none, 0, BitVec.ofNat 64 r, BitVec.ofNat 64 v, 0⟩);
    (o.keelOk = false → exec (.moduleReset o) s = .next t) ∧
    (o.keelOk = true → o.check = .accepted → Config.minSvn ≤ o.img.svn →
      exec (.moduleReset o) s = .next { u with fw := { u.fw with imgA := o.img, imgB := o.img } }) ∧
    (o.keelOk = true → o.check = .accepted → o.img.svn < Config.minSvn → refused 2 o.img.svn) ∧
    (∀ r v, o.keelOk = true → o.check = .refused r v → refused r v)) ∧
  (∀ (s : State) (img : FwImage), s.fwBusy 1 = true → s.keel.booted = true → s.keel.halted = false →
    let refused := fun (r v : Nat) => ({ s with fwctl := 1, fw := { s.fw with sbst := 0 } } : State).errorRecord
      ⟨0x909, 0, 7, 0, 0, false, none, 0, BitVec.ofNat 64 r, BitVec.ofNat 64 v, 0⟩;
    (∀ b, s.readDpa (whoHost .nothing) s.fwimg.toNat (min img.len (2 ^ 21)) = .ok b →
      (Config.minSvn ≤ img.svn → exec (.fwLoad .accepted img) s = .next { s with
        fwctl := 1, fw := s.fw.boot img s.tick, mem := memSetList (tabClear s.mem (fwKey s.fw.loads) (2 ^ 21)) (fwKey s.fw.loads) b }) ∧
      (img.svn < Config.minSvn → exec (.fwLoad .accepted img) s = .next (refused 2 img.svn)) ∧
      ∀ r v, exec (.fwLoad (.refused r v) img) s = .next (refused r v)) ∧
    (∀ x o, s.readDpa (whoHost .nothing) s.fwimg.toNat (min img.len (2 ^ 21)) = .error x →
      exec (.fwLoad o img) s = .next (if x.waits then s else refused 3 img.svn))) ∧
  (∀ (s : State), s.keel.booted = true → s.keel.halted = false →
    (s.fwctl.getLsbD 3 = true → exec .fwSwitch s = .next s) ∧
    (s.fwctl.getLsbD 3 = false → s.fw.sbst = 2 → exec .fwSwitch s = .next { s with fwctl := 10, fw := { s.fw with switching := true } }) ∧
    (s.fwctl.getLsbD 3 = false → s.fw.sbst ≠ 2 → exec .fwSwitch s = .next
      { s.errorRecord ⟨0x90A, 0, 7, 0, 0, false, none, 0, 1, BitVec.ofNat 64 s.fw.active.major, 0⟩ with fwctl := 2 })) ∧
  (∀ (s : State) (o : SwitchOutcome), s.fw.switching = true → s.quiescent = true → s.fw.alive = true →
    let t : State := { s with
      fwctl := 2, fw := { s.fw with switching := false }
      sysreqs := s.sysreqs.map fun r => { r with held := false }, traps := s.traps.map fun t => { t with late := false } }
    let failed := fun (u : State) (r : Nat) => u.errorRecord ⟨0x90A, 0, 7, 0, 0, false, none, 0, BitVec.ofNat 64 r, BitVec.ofNat 64 s.fw.active.major, 0⟩;
    (s.fw.sbst ≠ 3 → s.fw.sbst ≠ 4 → s.fw.standby.imports.contains s.fw.active.major = false → exec (.fwSwitchHandover o) s = .next (failed t 2)) ∧
    (s.fw.sbst ≠ 3 → s.fw.sbst ≠ 4 → s.fw.standby.imports.contains s.fw.active.major = true →
      exec (.fwSwitchHandover o) s = .next { s with fw := { s.fw with sbst := 3 } }) ∧
    (s.fw.sbst = 3 → exec (.fwSwitchHandover .imported) s = .next { s with fw := { s.fw with sbst := 4 } } ∧
      exec (.fwSwitchHandover .failed) s = .next (failed { t with fw := { t.fw with sbst := 0 } } 3)) ∧
    (s.fw.sbst = 4 → exec (.fwSwitchHandover o) s
      = .next { t with fw := { t.fw with act := !t.fw.act, sbst := 2, committed := false, lastBeat := t.tick } }))) ∧
  (∀ (s : State), s.fw.alive = true → s.keel.booted = true →
    exec .heartbeat s = .next { s with fw := { s.fw with lastBeat := s.tick } } ∧
    (s.fw.sbst = 2 → s.quiescent = true → exec .stateTableCommit s = .next { s with fw := { s.fw with committed := true } }) ∧
    (∀ b, (b = true ∨ (s.tick - s.fw.lastBeat).toNat ≥ 800000) → ∃ u, exec (.heartbeatTimeout b) s = .next u ∧
      (s.fw.sbst ≥ 2 → s.fw.standby.imports.contains s.fw.active.major = true →
        u.fw.act = (!s.fw.act) ∧ u.fw.sbst = 0 ∧ u.fw.lastBeat = s.tick ∧ u.fw.switching = false ∧ u.queues = s.queues ∧ u.cores = s.cores) ∧
      (s.fw.sbst < 2 ∨ s.fw.standby.imports.contains s.fw.active.major = false →
        u.fw.lost = true ∧ u.fw.act = s.fw.act ∧ (∀ q, q < 2048 → (u.queue q).inError = true) ∧ u.cores = s.cores))) ∧
  ((∀ (s : State) (n : Nat), s.unitAction n false = true →
    let done := fun (u : State) => { u with unitActs := u.unitActs.erase (n, false) };
    (∀ t, s.heldTrap n = some t → s.unitFrozen t.unit = false →
      exec (.unitRetry n) s = .next (done (({ s with traps := s.traps.filter (·.seq != n) } : State).retryUnit t.unit))) ∧
    (s.heldTrap n = none → exec (.unitRetry n) s = .next (done s))) ∧
  (∀ (s : State) (n : Nat), s.unitAction n true = true →
    let done := fun (u : State) => { u with unitActs := u.unitActs.erase (n, true) };
    (∀ t, s.heldTrap n = some t → s.unitFrozen t.unit = false →
      exec (.unitEnd n) s = .next (done (({ s with traps := s.traps.filter (·.seq != n) } : State).endUnit t.unit t.cause t.info))) ∧
    (s.heldTrap n = none → exec (.unitEnd n) s = .next (done s))) ∧
  (∀ (s : State) (n : Nat) (t : UnitTrap), (s.traps.find? fun t => t.seq == n && !t.held && !t.late) = some t →
    s.fw.alive = true → s.keel.booted = true → s.unitFrozen t.unit = false →
    exec (.unitTrapResolution n) s = .next (({ s with traps := s.traps.filter (·.seq != n) } : State).endUnit t.unit t.cause t.info)) ∧
  (∀ (s : State) (c m x cause : Nat) (info : Word64),
    ((s.retryUnit (.kernel c)).core c).kernel = (s.core c).kernel.map (fun k => { k with held := false }) ∧
    (∀ y, s.ctx m x = some y → (s.retryUnit (.ctx m x)).ctx m x = some { y with held := false } ∧
      ((s.endUnit (.ctx m x) cause info).ctx m x) = some { y with stopping := true, halted := true, held := false, rest := 0 } ∧
      ∀ r ∈ (s.endUnit (.ctx m x) cause info).traps, r.unit ≠ .ctx m x) ∧
    (∀ k t, (s.core c).kernel = some k → tabFind (s.core c).window k.entry = some t → ((s.endUnit (.kernel c) cause info).core c).kernel = none ∧
      tabFind ((s.endUnit (.kernel c) cause info).core c).window k.entry = none)))

/-- KEY_ALLOC, KEY_RETIRE and SPDM_REQUEST (R40, R368 to R370): inside a secured session an unallocated identifier of 1 to 127 gets a new key; a retired one has its W-store slices zeroed and is no longer allocated, and stays pending while a launch part carries it; another request, and one outside a session, is answered with an error. Measurements, the certificate, the negotiation, sessions and stream keys are answered while Keel runs. The numbers of the answers are the model's (log 33). LOCK, START and STOP_INTERFACE_REQUEST, INTERFACE_UNLOCK, the interface report and the interface state (R374 to R376, R460): inside a secured session an unlocked VF whose queues carry one allocated identifier is locked with that identifier; a locked one runs, bound to its IDE stream; a VF that stops has its queues disabled, and is unlocked once they are idle. The report names the BAR, the vectors, the identifier and the owned queues. A request in another state, and one outside a session, is answered with an error. The form of the answers is the model's (log 33). -/
def Obligations.KeysAndInterfaces : Prop :=
  ((∀ (s : State) (k : Nat), s.keel.booted = true → s.keel.halted = false → s.keel.sessions ≠ [] →
    (1 ≤ k → k ≤ 127 → s.keel.alloc.contains k = false → ∃ u : State, exec (.keyAlloc k) s = .next u ∧ (∀ n, n ∈ u.keel.alloc ↔ n = k ∨ n ∈ s.keel.alloc) ∧
      tabFind u.keel.gens k = some s.keel.genNext ∧ u.keel.genNext = s.keel.genNext + 1 ∧ u.port = s.port ++ [.spdm 1 [k]]) ∧
    ((k = 0 ∨ 127 < k ∨ s.keel.alloc.contains k = true) → exec (.keyAlloc k) s = .next (s.send (.spdm 0 []))) ∧
    (1 ≤ k → k ≤ 127 → s.keel.alloc.contains k = true → s.keyInUse (· == k) = [] → ∃ u : State, exec (.keyRetire k) s = .next (u.send (.spdm 1 [k])) ∧
      k ∉ u.keel.alloc ∧ k ∉ u.keel.retiring ∧ u.port = s.port ∧ ∀ c, (u.core c).wkey ≠ some k) ∧
    (1 ≤ k → k ≤ 127 → s.keel.alloc.contains k = true → s.keyInUse (· == k) ≠ [] → exec (.keyRetire k) s = .next
      { s with keel := { s.keel with retiring := if s.keel.retiring.contains k then s.keel.retiring else s.keel.retiring ++ [k] } }) ∧
    ((k = 0 ∨ 127 < k ∨ s.keel.alloc.contains k = false) → exec (.keyRetire k) s = .next (s.send (.spdm 0 [])))) ∧
  (∀ (s : State) (k : Nat), s.keel.booted = true → (s.keel.halted = true ∨ s.keel.sessions = []) →
    exec (.keyAlloc k) s = .next (s.send (.spdm 0 [])) ∧ exec (.keyRetire k) s = .next (s.send (.spdm 0 []))) ∧
  (∀ (s : State), s.keel.booted = true → s.keel.halted = false →
    (∀ i l, s.measurement i = some l → exec (.spdmRequest (.measurement i)) s = .next (s.send (.spdm 2 (i :: l)))) ∧
    (∀ i, s.measurement i = none → exec (.spdmRequest (.measurement i)) s = .next (s.send (.spdm 0 []))) ∧
    (s.keel.identity = true → exec (.spdmRequest (.certificate 0)) s = .next (s.send (.spdm 3 [Config.certificate deviceKey]))) ∧
    (∀ n, n ≠ 0 → exec (.spdmRequest (.certificate n)) s = .next (s.send (.spdm 0 []))) ∧
    exec (.spdmRequest .negotiate) s = .next (s.send (.spdm 7 [1024, 256])) ∧
    (∀ id, ∃ u : State, exec (.spdmRequest (.openSession id)) s = .next u ∧ id ∈ u.keel.sessions ∧ u.port = s.port ++ [.spdm 4 [id]]) ∧
    (∀ id n, s.keel.sessions.contains id = true → ∃ u : State, exec (.spdmRequest (.streamKeys id n)) s = .next u ∧ (n, id) ∈ u.keel.streamKeys ∧
      (∀ p ∈ u.keel.streamKeys, p.1 = n → p = (n, id)) ∧ u.port = s.port ++ [.spdm 1 [n]]) ∧
    (∀ id n, s.keel.sessions.contains id = false → exec (.spdmRequest (.streamKeys id n)) s = .next (s.send (.spdm 0 [])))) ∧
  (∀ (s : State) (r : SpdmReq), s.keel.booted = true → s.keel.halted = true → exec (.spdmRequest r) s = .next (s.send (.spdm 0 [])))) ∧
  (∀ (s : State) (v : Nat),
    (s.keel.booted = true → s.keel.halted = false → s.keel.sessions ≠ [] → 1 ≤ v → v ≤ 63 →
      (∀ k, s.vfKey v = some k → (s.vf v).tdi = .unlocked → exec (.lockInterfaceRequest v) s = .next ((s.setVf v
        { s.vf v with tdi := .locked, key := k, digest := leNat (shake256 (s.frozenBytes v)) }).send (.spdm 1 []))) ∧
      ((s.vfKey v = none ∨ (s.vf v).tdi ≠ .unlocked) → exec (.lockInterfaceRequest v) s = .next (s.send (.spdm 0 []))) ∧
      (∀ st, (s.vf v).tdi = .locked → (s.vf v).stopping = false →
        exec (.startInterfaceRequest v st) s = .next ((s.setVf v { s.vf v with tdi := .run, stream := st }).send (.spdm 1 []))) ∧
      (∀ st, (s.vf v).tdi ≠ .locked → exec (.startInterfaceRequest v st) s = .next (s.send (.spdm 0 []))) ∧
      ((s.vf v).tdi ≠ .unlocked → ∃ u : State, exec (.stopInterfaceRequest v) s = .next (u.send (.spdm 1 [])) ∧ u.vf v = { s.vf v with stopping := true } ∧
        (∀ q ∈ s.ownedBy v, (u.queue q).en = false) ∧ u.port = s.port) ∧
      ((s.vf v).tdi = .unlocked → exec (.stopInterfaceRequest v) s = .next (s.send (.spdm 0 []))) ∧
      exec (.getDeviceInterfaceReport v) s = .next (s.send (.spdm 5 ([0, s.vfBar0.toNat + 524288 * (v - 1), 524288, 32, (s.vf v).key, (s.ownedBy v).length]
        ++ s.ownedBy v ++ [leNat (shake256 (s.frozenBytes v))]))) ∧
      exec (.getDeviceInterfaceState v) s = .next (s.send (.spdm 6 [(s.vf v).tdi.code]))) ∧
    (s.keel.booted = true → s.keel.sessions = [] → exec (.lockInterfaceRequest v) s = .next (s.send (.spdm 0 [])) ∧
      (∀ st, exec (.startInterfaceRequest v st) s = .next (s.send (.spdm 0 []))) ∧ exec (.stopInterfaceRequest v) s = .next (s.send (.spdm 0 [])) ∧
      exec (.getDeviceInterfaceReport v) s = .next (s.send (.spdm 0 [])) ∧ exec (.getDeviceInterfaceState v) s = .next (s.send (.spdm 0 []))) ∧
    ((s.vf v).stopping = true → ((s.ownedBy v).all fun q => (s.queue q).qstat.getLsbD 0) = true →
      exec (.interfaceUnlock v) s = .next (s.setVf v { s.vf v with tdi := .unlocked, key := 0, stream := 0, stopping := false })))

/-- TAMPER, GLITCH and IDE_FAILURE (R456 to R458): an alarm is recorded and answered as the two bits of the fused policy choose: nothing more, an erasure of the tenant keys, or one of all keys, after which Keel holds. A stream whose check fails is Insecure, and the running interfaces it carries are in error. -/
def Obligations.Alarms : Prop :=
  (∀ (s : State) (n : Nat), s.keel.booted = true → s.keel.halted = false →
    let alarm := fun (cause policy : Nat) =>
      let t := s.errorRecord ⟨cause, if policy = 0 then 0 else 3, 10, 0, 0, false, none, 0, BitVec.ofNat 64 n, BitVec.ofNat 64 policy, 0⟩
      if policy = 0 then t else t.erase (decide (policy ≥ 2))
    exec (.tamper n) s = .next (alarm 0xB01 (bitsOf Config.fusedPolicy 1 0)) ∧
    exec (.glitch n) s = .next (alarm 0xB02 (bitsOf Config.fusedPolicy 3 2))) ∧
  (∀ (s : State), (s.erase true).keel.alloc = [] ∧ (s.erase true).keel.sessions = [] ∧ (s.erase true).keel.halted = true ∧
    (s.erase false).keel.halted = s.keel.halted ∧ ∀ k ∈ (s.erase false).keel.alloc, k = 0) ∧
  (∀ (s : State) (n : Nat), s.keel.booted = true → ∃ u, exec (.ideFailure n) s = .next u ∧ n ∈ u.ide ∧
    ∀ p ∈ s.vfs, p.2.tdi = .run → p.2.stream = n → tabFind s.vfs p.1 = some p.2 → (u.vf p.1).tdi = .error)

/-- PORT_ENABLE, COUNTER_CLEAR, LINK_UP, LINK_DOWN and FLIT_RECEIVE (R362, R363, R366, R451): a trained port comes up with its lanes and its peer and begins at sequence 0; a port that goes down gives up its flits, which leave in order on the lowest other up port of its die, or wait when there is none. A good flit is taken once, in its position, with all its messages, when it is this module's; a bad one is counted and asked for again. What the partner acknowledges is not kept; what it asks for again is sent and counted, and the sixteenth replay in a row brings the port down. Beats that FEC corrects are counted. The form of acknowledgements is the model's (log 32). ROOT_ANNOUNCEMENT_SEND, ROOT_ANNOUNCEMENT_RECEIVE and ROOT_LOST (R366, R367): the time root announces its counter on every up port; a module that is none follows the lowest root it hears, at its first lock in one step to the announced count with the measured path delay, and passes that on at its other up ports; a higher root is not followed; a root that hears a lower one sets CONFLICT; a locked counter that agrees keeps its count; after 800,000 ticks without an announcement it is no longer locked, and RID keeps its value. The measured delay is free (log 103). -/
def Obligations.LinksAndTime : Prop :=
  (∀ (s : State) (n : Nat), n < 36 →
    exec (.portEnable n) s = .next (s.setPort n { s.nport n with pctl := 1 }) ∧
    exec (.counterClear n false) s = .next (s.setPort n { s.nport n with crc := 0, replay := 0 }) ∧
    exec (.counterClear n true) s = .next (s.setPort n { s.nport n with corr := 0 }) ∧
    (∀ lanes peer, (s.nport n).pctl = 1 → (s.nport n).up = false → (s.nport n).reason = 0 → 1 ≤ lanes → lanes ≤ 4 → peer < 2048 → s.unsent = [] →
      exec (.linkUp n lanes peer) s = .next (s.setPort n { s.nport n with
        up := true, lanes := lanes, peer := peer, downs := 0, rxSeq := 0, txSeq := 0, unacked := [], delay := Config.pathDelay s.steps n, moved := 0 })) ∧
    ((s.nport n).up = true → (∀ r, (r = 1 ∨ r = 2) → ∃ u, exec (.linkDown n r) s = .next u ∧ (u.nport n).up = false ∧ (u.nport n).unacked = [] ∧
        (u.nport n).reason = (if (s.nport n).pctl = 0 then 0 else r) ∧
        ((∀ m, m < 36 → m ≠ n → portDie m = portDie n → (s.nport m).up = false) →
          u.unsent = ((s.nport n).unacked.map fun (f : Flit) => (portDie n, f.dest, f.msg.addr, f.msg)) ++ s.unsent) ∧
        (∀ m, m < 36 → m ≠ n → portDie m = portDie n → (s.nport m).up = true → (∀ j, j < m → j ≠ n → portDie j = portDie n → (s.nport j).up = false) →
          (u.nport m).unacked.map (·.msg) = (s.nport m).unacked.map (·.msg) ++ (s.nport n).unacked.map (·.msg) ∧ u.unsent = s.unsent)) ∧
      ∀ fec, let p : Port := { s.nport n with corr := min ((s.nport n).corr + fec) (2 ^ 32 - 1) }
        let t := s.setPort n p
        (∀ q w, exec (.flitReceive n false ⟨fec, q, w⟩) s = .next ((s.setPort n { p with crc := satInc p.crc }).send (.retransmit n q))) ∧
        (∀ dest cls msgs, dest ≠ s.ownId → exec (.flitReceive n true ⟨fec, p.rxSeq, .data dest cls msgs⟩) s = .next (s.setPort n { p with rxSeq := p.rxSeq + 1 })) ∧
        (∀ cls msgs u, t.takeMsgs msgs = some u → exec (.flitReceive n true ⟨fec, p.rxSeq, .data s.ownId cls msgs⟩) s
          = .next (u.setPort n { u.nport n with rxSeq := p.rxSeq + 1 })) ∧
        (∀ cls msgs, t.takeMsgs msgs = none → exec (.flitReceive n true ⟨fec, p.rxSeq, .data s.ownId cls msgs⟩) s = .next t) ∧
        (∀ q dest cls msgs, q ≠ p.rxSeq → exec (.flitReceive n true ⟨fec, q, .data dest cls msgs⟩) s = .next t) ∧
        (∀ q below, s.unsent = [] → exec (.flitReceive n true ⟨fec, q, .ack below⟩) s = .next (s.setPort n { p with
          unacked := p.unacked.filter fun f => decide (below ≤ f.seq)
          downs := if p.unacked.any fun f => decide (f.seq < below) then 0 else p.downs
          moved := if p.moved ≤ below then 0 else p.moved })) ∧
        (∀ q a, let l := p.unacked.filter fun f => decide (a ≤ f.seq)
          let u := l.foldl (fun u f => u.send (.flit n f)) (s.setPort n { p with replay := min (p.replay + l.length) (2 ^ 32 - 1), downs := p.downs + 1 });
          (l = [] → exec (.flitReceive n true ⟨fec, q, .replay a⟩) s = .next t) ∧
          (l ≠ [] → p.downs + 1 < 16 → exec (.flitReceive n true ⟨fec, q, .replay a⟩) s = .next u) ∧
          (l ≠ [] → 16 ≤ p.downs + 1 → exec (.flitReceive n true ⟨fec, q, .replay a⟩) s = .next (u.linkDown n 2))))) ∧
  ((∀ (s : State), s.isRoot = true → ∃ u, exec .rootAnnouncementSend s = .next u ∧
    u.port = s.port ++ ((List.range 36).filter fun n => (s.nport n).up).map fun n => .announce n s.ownId s.tick) ∧
  (∀ (s : State) (n id : Nat) (t : Word64), n < 36 → (s.nport n).up = true → id < 2048 →
    let rt := t + BitVec.ofNat 64 (s.nport n).delay
    let told := s.port ++ ((List.range 36).filter fun m => m != n && (s.nport m).up).map fun m => PortMsg.announce m id rt;
    (s.isRoot = false → s.root = none → s.synced = false → ∃ u, exec (.rootAnnouncementReceive n id t) s = .next u ∧
      u.tick = rt ∧ u.root = some id ∧ u.rootSeen = rt ∧ u.tsync.getLsbD 1 = true ∧ bitsOf u.tsync 26 16 = id ∧ u.port = told) ∧
    (s.isRoot = false → s.root = some id → s.tsync.getLsbD 1 = true → s.tick = rt → ∃ u, exec (.rootAnnouncementReceive n id t) s = .next u ∧
      u.tick = s.tick ∧ u.root = some id ∧ u.rootSeen = s.tick ∧ u.tsync.getLsbD 1 = true ∧ u.port = told) ∧
    (s.isRoot = false → ∀ r, s.root = some r → r < id → exec (.rootAnnouncementReceive n id t) s = .next s) ∧
    (s.isRoot = true → s.ownId ≤ id → exec (.rootAnnouncementReceive n id t) s = .next s) ∧
    (s.isRoot = true → id < s.ownId → s.root = none → ∃ u, exec (.rootAnnouncementReceive n id t) s = .next u ∧ u.tsync.getLsbD 2 = true ∧ u.root = some id ∧
      u.port = told)) ∧
  (∀ (s : State) (r : Nat), s.root = some r → (s.tick - s.rootSeen).toNat ≥ 800000 → ∃ u, exec .rootLost s = .next u ∧ u.root = none ∧
    u.tick = s.tick ∧ u.tsync.getLsbD 1 = false ∧ bitsOf u.tsync 26 16 = bitsOf s.tsync 26 16))

/-- SRAM_CORRECTED_ERROR, SRAM_UNCORRECTABLE_ERROR, FREEZE_END, THERMAL_THROTTLE and THERMAL_RECOVERY (R377, R419 to R422, R428, R449): a corrected error is recorded and freezes its core or its MSE until the freeze ends, when the core is active and a save that was asked for inside it is decided; an uncorrectable one in the scratchpad or the W-store poisons its word; one in the control state of a part ends that part with CTRLUE, one in the state of a complex fails the firmware; one in a tag or a TLB drops its entry and is recorded. A throttled block is marked until it recovers. UNIT of these records is the model's reading (log 35). TIER0_LINE_READ (R371, R372, R423, R426, R456): a corrected line is recorded, and its bytes stay; an uncorrectable one is poisoned; a MAC that does not verify and a block or node that is verified and does not are kept with the line, the latter with an alarm; an uncorrectable error in the counter cache drops its entry, and with modified counters is recorded as TREEFAIL. A line outside backed HBM finds nothing. -/
def Obligations.StorageErrors : Prop :=
  ((∀ (s : State) (n arr word : Nat),
    let r := fun (cause unit a loc : Nat) => s.errorRecord ⟨cause, 0, unit, loc, 0, false, none, 0, BitVec.ofNat 64 (a % 256 + word % 2 ^ 24 * 256), 0, 0⟩;
    exec (.sramCorrectedError (.core n arr word)) s = .next ((r 0x701 (if arr = 4 then 12 else 0) arr n).onCore n fun x => { x with frozen := true }) ∧
    (∃ u, exec (.sramCorrectedError (.mse n arr word)) s = .next u ∧ n ∈ u.frozenMse ∧ u.cores = s.cores ∧ u.port = (r 0x701 5 arr n).port) ∧
    exec (.sramCorrectedError (.firmware word)) s = .next (r 0x701 7 11 0)) ∧
  (∀ (s : State) (n : Nat), (∀ p ∈ s.parts, p.2.asked = none) →
    ((s.core n).frozen = true → exec (.freezeEnd (.core n)) s = .next (s.onCore n fun x => { x with frozen := false, active := true, fresh := true })) ∧
    exec (.freezeEnd (.mse n)) s = .next { s with frozenMse := s.frozenMse.filter (· != n) }) ∧
  (∀ (s : State) (n : Nat), ((s.core n).frozen = true → exec (.freezeEnd (.core n)) s
      = .next (s.onCore n fun x => { x with frozen := false, active := true, fresh := true }).decideAsked) ∧
    exec (.freezeEnd (.mse n)) s = .next ({ s with frozenMse := s.frozenMse.filter (· != n) } : State).decideAsked) ∧
  (∀ (s : State) (n word : Nat),
    (∃ u, exec (.sramUncorrectableError (.core n 1 word)) s = .next u ∧ (poolKey n 0 / 8 + word % 2 ^ 18) ∈ u.poisoned ∧ u.mem = s.mem ∧ u.cores = s.cores) ∧
    (∃ u, exec (.sramUncorrectableError (.core n 2 word)) s = .next u ∧ (wKey n 0 / 8 + word % 2 ^ 18) ∈ u.poisoned ∧ u.mem = s.mem ∧ u.cores = s.cores) ∧
    (∀ arr p, (arr = 3 ∨ arr = 4 ∨ arr = 5 ∨ arr = 6 ∨ arr = 9) → (s.core n).part = some p → (s.part p).phase ≠ .saving →
      exec (.sramUncorrectableError (.core n arr word)) s = .next (s.recordEnd p
        ⟨0x703, 2, if arr = 4 then 12 else 0, n, 0, false, some ((s.part p).queue, (s.part p).key), 0, BitVec.ofNat 64 (arr % 256 + word % 2 ^ 24 * 256), 0, 0⟩
        ⟨0x703, BitVec.ofNat 64 (arr % 256 + word % 2 ^ 24 * 256), 0⟩)) ∧
    (∃ u, exec (.sramUncorrectableError (.core n 7 word)) s = .next u ∧ ((u.core n).tagAt word).st = .invalid ∧ ((u.core n).tagAt word).pins = 0) ∧
    (word < 64 → ∃ u, exec (.sramUncorrectableError (.core n 8 word)) s = .next u ∧ (u.core n).tlb = (s.core n).tlb.eraseIdx word) ∧
    (64 ≤ word → ∃ u, exec (.sramUncorrectableError (.core n 8 word)) s = .next u ∧
      tabGet [] u.crewTlb (coreCrew n) = (tabGet [] s.crewTlb (coreCrew n)).eraseIdx (word - 64)) ∧
    (∃ u, exec (.sramUncorrectableError (.mse n 8 word)) s = .next u ∧ tabGet [] u.mseTlb n = (tabGet [] s.mseTlb n).eraseIdx word) ∧
    exec (.sramUncorrectableError (.mse n 10 word)) s = .next (s.lostState (s.mseOwner n word) 5 n 10 word) ∧
    (s.fw.alive = true → s.keel.booted = true → exec (.sramUncorrectableError (.firmware word)) s = .next (s.firmwareFails 2))) ∧
  (∀ (s : State) (b : Block), (∃ u, exec (.thermalThrottle b) s = .next u ∧ b ∈ u.throttled ∧ u.cores = s.cores ∧ u.mem = s.mem) ∧
    exec (.thermalRecovery b) s = .next { s with throttled := s.throttled.filter (· != b) })) ∧
  (∀ (s : State) (dpa key : Nat),
    ((2 ^ 40 ≤ dpa ∨ s.hbmKey false dpa = none) → ∀ o, exec (.tier0LineRead dpa key o) s = .next s) ∧
    ∀ k, dpa < 2 ^ 40 → s.hbmKey false dpa = some k →
      exec (.tier0LineRead dpa key .clean) s = .next s ∧
      exec (.tier0LineRead dpa key .corrected) s = .next (s.errorRecord
        (memRecord (dpa / 2 ^ 37) (regionStack (k / 2 ^ 21 % 2 ^ 16)) 0x704 (BitVec.ofNat 64 (k / 64 * 64)) 0)) ∧
      (∃ u, exec (.tier0LineRead dpa key .uncorrectable) s = .next u ∧ (u.lineAt k).poison = true ∧ u.mem = s.mem) ∧
      (∃ u, exec (.tier0LineRead dpa key .macBad) s = .next u ∧ (u.lineAt k).la = dpa / 64 + 1 ∧ (u.lineAt k).tag ≠ 0 ∧ u.mem = s.mem) ∧
      (∀ l, l ∈ s.uncached dpa → s.keel.booted = true → s.keel.halted = false → exec (.tier0LineRead dpa key (.treeBad l)) s
        = .next (({ s with cacheBad := if s.cacheBad.contains (treeNode l dpa) then s.cacheBad else s.cacheBad ++ [treeNode l dpa] } : State).alarm
          0xB03 (dpa / 64 * 64) (bitsOf Config.fusedPolicy 5 4))) ∧
      (∀ l, l ∉ s.uncached dpa → exec (.tier0LineRead dpa key (.treeBad l)) s = .next s) ∧
      (∀ l, (s.die (dpa / 2 ^ 37)).caches (treeNode l dpa) = false → exec (.tier0LineRead dpa key (.cacheError l)) s = .next s) ∧
      (∀ l, ((s.die (dpa / 2 ^ 37)).ctrCache.find? fun q => q.1 == treeNode l dpa) = some (treeNode l dpa, false) →
        exec (.tier0LineRead dpa key (.cacheError l)) s
          = .next (s.onDie (dpa / 2 ^ 37) fun x => { x with ctrCache := x.ctrCache.filter fun q => q.1 != treeNode l dpa })))

/-- R157 to R163: words written out from the encoding tables are the instructions they stand for. -/
def Obligations.SampleWords : Prop :=
  decodeCoxPair (1 * 2 ^ 19 + 3 * 2 ^ 13 + 4 * 2 ^ 7 + 5 * 2) 0 = some (.add ⟨0, false⟩ 3 4 5) ∧
  decodeCoxPair (7 * 2 ^ 27 + 2 ^ 26 + 1 * 2 ^ 19 + 3 * 2 ^ 13 + 4 * 2 ^ 7 + 1) 0xFFFFFFFF = some (.addLong ⟨7, true⟩ 3 4 0xFFFFFFFF) ∧
  decodeCoxPair (24 * 2 ^ 27 + 1 * 2 ^ 19 + 3 * 2 ^ 13 + 4 * 2 ^ 7 + 5 * 2) 0 = none ∧
  decodeCoxPair 0 0 = some (.nop ⟨0, false⟩) ∧ decodeCoxPair (127 * 2 ^ 19) 0 = none ∧
  decodeVector (57 * 2 ^ 26) = some .vend ∧ decodeVector (57 * 2 ^ 26 + 1) = none ∧
  decodeAccess (19 * 2 ^ 26 + 2 * 2 ^ 22) = some (.aend 2) ∧ decodeAccess (19 * 2 ^ 26 + 4 * 2 ^ 22) = none

/-- R157 to R164, R277, R301: an instruction that is well formed is read back from its words with every operand; words of 32 bits. -/
def Obligations.DecodeEncode : Prop :=
  ∀ i : Instr, i.wf = true →
    (∀ w, encode i = [w] → w < 2 ^ 32 ∧ ((∀ e, decodeCoxPair w e = some i) ∨ decodeVector w = some i ∨ decodeAccess w = some i)) ∧
    (∀ w e, encode i = [w, e] → w < 2 ^ 32 ∧ e < 2 ^ 32 ∧ decodeCoxPair w e = some i)

/-- R48, R160, R190, R270, R299, R300, R406: a step executes what its unit fetches, and what follows every move follows it: for a strand that holds nothing, the instruction that the word at its PC decodes to, with its extension word; for one that holds, the held instruction; for a kernel and a context, their word. An illegal word, a fetch that faults, and a failed access whose trap is due, execute as such. An event executes as it stands. A unit whose turn it is not does nothing. -/
def Obligations.StepRunsTheDecodedInstruction : Prop :=
  ∀ (s t : State) (m : Move) (ends : Bool), s.beforeMove.nextMove = (m, ends, t) →
    let after : Host.Outcome State Fault Refusal → Host.Outcome State Fault Refusal := fun o => match o with
      | .next u => .next (u.afterMove ends)
      | .fault e => .fault e
      | .refused e => .refused e
    let stop := fun (v : State) (w : Who) (x : Cause) => exec (.instructionFetchFault x.code x.info) (if x.waits then v.await w x else v)
    (∀ i, m = .event i → step s = after (exec i { t with turn := .none })) ∧
    (∀ i n, m = .units i n → step s = after (exec i { t with turn := .none, pace := some n })) ∧
    (∀ n, m = .outside n → step s = after (({ t with turn := .outside n } : State).runHeld n)) ∧
    (∀ tag org off size, m = .register tag org off size → step s = .next ((t.readRegister tag org off size).afterMove ends)) ∧
    (∀ c k, m = .strand c k → t.mayIssue c k = true →
      let u := t.takeTurn c k
      u.turn = .strand c k ∧
      (∀ h, (u.strand c k).hold = some h → (u.strand c k).failed = [] → step s = after (exec h.instr u)) ∧
      (∀ h f r, (u.strand c k).hold = some h → (u.strand c k).failed = f :: r → (f.place = none ∨ h.kept = true) → step s = after (exec h.instr u)) ∧
      (∀ h f r, (u.strand c k).hold = some h → (u.strand c k).failed = f :: r → f.place ≠ none → h.kept = false →
        step s = after (exec (.instructionFetchFault f.cause f.info) u)) ∧
      (∀ f r, (u.strand c k).hold = none → (u.strand c k).failed = f :: r → step s = after (exec (.instructionFetchFault f.cause f.info) u)) ∧
      ((u.strand c k).hold = none → (u.strand c k).failed = [] →
        (∀ w v, u.fetchWord (u.whoStrand c k) (u.strand c k).pc = .ok (w, v) →
          (∀ i, decodeCox w = .one i → step s = after (exec i v)) ∧
          (decodeCox w = .illegal → step s = after (exec (.illegalCoxWord (BitVec.ofNat 32 w) 0) v)) ∧
          (∀ f e v', decodeCox w = .two f → v.fetchWord (v.whoStrand c k) ((u.strand c k).pc + 4) = .ok (e, v') →
            (∀ i, f e = some i → step s = after (exec i v')) ∧
            (f e = none → step s = after (exec (.illegalCoxWord (BitVec.ofNat 32 w) (BitVec.ofNat 32 e)) v'))) ∧
          (∀ f x, decodeCox w = .two f → v.fetchWord (v.whoStrand c k) ((u.strand c k).pc + 4) = .error x →
            step s = after (stop v (v.whoStrand c k) x))) ∧
        (∀ x, u.fetchWord (u.whoStrand c k) (u.strand c k).pc = .error x → step s = after (stop u (u.whoStrand c k) x)))) ∧
    (∀ c k, m = .strand c k → t.mayIssue c k = false → step s = .next (t.afterMove ends)) ∧
    (∀ c x, m = .kernel c → t.kernelReady c = true → (t.core c).kernel = some x →
      let u : State := { t with turn := .kernel c }
      (∀ w v, u.fetchWord (u.whoKernel c x) x.next = .ok (w, v) →
        (∀ i, decodeVector w = some i → step s = after (exec i v)) ∧
        (decodeVector w = none → step s = after (exec (.illegalVectorWord (BitVec.ofNat 32 w)) v))) ∧
      (∀ e, u.fetchWord (u.whoKernel c x) x.next = .error e → step s = after (stop u (u.whoKernel c x) e))) ∧
    (∀ c, m = .kernel c → t.kernelReady c = false → step s = .next (t.afterMove ends)) ∧
    (∀ n x y p, m = .context n x → t.nextCtx n = some x → t.ctx n x = some y → t.progOf y = some p →
      let w := leNat (memList t.mem (mseKey n (p.base + 4 * y.apc)) 4)
      (4 * y.apc < p.len →
        (∀ i, decodeAccess w = some i → step s = after (exec i (t.takeCtx n x))) ∧
        (decodeAccess w = none → step s = after (exec (.illegalAccessWord (BitVec.ofNat 32 w)) (t.takeCtx n x)))) ∧
      (p.len ≤ 4 * y.apc → step s = .next (((t.takeCtx n x).ctxFault n x ⟨0x314, BitVec.ofNat 64 y.apc, 0⟩).afterMove ends))) ∧
    (∀ n x, m = .context n x → t.nextCtx n ≠ some x → step s = .next (t.afterMove ends))

/-- Every step keeps memory in its one form (log 4): addresses rise and no listed byte is zero, so that equal memories are equal data. -/
def Obligations.StepKeepsMemoryForm : Prop :=
  ∀ s t : State, Memory.wf s.mem = true → step s = .next t → Memory.wf t.mem = true

/-- What reset leaves (R87, R91, R342, R344, R357, R366, R378, R397, R398, R430, R452): nothing runs and Keel has not booted; the registers that the spec gives a reset value hold it; every region is mapped to itself. Memory is in its one form. -/
def Obligations.ResetState : Prop :=
  Memory.wf State.reset.mem = true ∧ State.reset.keel.booted = false ∧ State.reset.cycle = 0 ∧ State.reset.modesel = 0 ∧
  State.reset.waitpoll = 20 ∧ State.reset.rtmo = 100 ∧ State.reset.errseq = 0 ∧ bitsOf State.reset.errbase 4 0 = 4 ∧
  bitsOf State.reset.waitcfg 19 0 = 10000 ∧ State.reset.parts = [] ∧ State.reset.requests = [] ∧
  (∀ q, (State.reset.queue q).en = false ∧ (State.reset.queue q).prio = 0 ∧ bitsOf (State.reset.queue q).qctl 16 12 = 4 ∧
    bitsOf (State.reset.queue q).qctl 39 32 = 1 ∧ (State.reset.queue q).qstat = 1) ∧
  (∀ d l, (State.reset.rit d l).pri = l ∧ (State.reset.rit d l).v = true ∧ (State.reset.rit d l).shv = false ∧ (State.reset.rit d l).qs = false) ∧
  (∀ d, bitsOf (State.reset.die d).ramp 19 0 = 19200 ∧ bitsOf (State.reset.die d).ramp 39 20 = 19200 ∧ bitsOf (State.reset.die d).ramp 59 40 = 0) ∧
  (∀ d, (State.reset.die d).remapctl.getLsbD 0 = false ∧ bitsOf (State.reset.die d).remapctl 15 8 = 10 ∧
    bitsOf (State.reset.die d).remapctl 23 16 = 24 ∧ bitsOf (State.reset.die d).remapctl 31 24 = 4) ∧
  (∀ n, (State.reset.nport n).up = false ∧ (State.reset.nport n).pctl = 0)
end

