-- ==== Sys2Proof/Laws/Exec.lean ====
section
/-! SUPPORT. What exec answers for each constructor of Instr: its meaning. Proofs cite these and never unfold exec. -/
namespace Sys2Proof.Machine

variable (s : State)

@[simp] theorem exec_moduleReset (o : BootOutcome) : exec (.moduleReset o) s = execModuleReset o s := rfl
@[simp] theorem exec_bar2Read (tag : Nat) (addr : Nat) (len : Nat) : exec (.bar2Read tag addr len) s = execBar2Read tag addr len s := rfl
@[simp] theorem exec_bar2Write (addr : Nat) (data : ByteList) : exec (.bar2Write addr data) s = execBar2Write addr data s := rfl
@[simp] theorem exec_registerWrite (org : RegOrigin) (off : Nat) (size : Nat) (v : Word64) : exec (.registerWrite org off size v) s = execRegisterWrite org off size v s := rfl
@[simp] theorem exec_configurationWrite (item : ConfigItem) (v : Word64) : exec (.configurationWrite item v) s = execConfigurationWrite item v s := rfl
@[simp] theorem exec_doorbell (org : RegOrigin) (q : Nat) (v : Word32) : exec (.doorbell org q v) s = execDoorbell org q v s := rfl
@[simp] theorem exec_queueEnable (q : Nat) : exec (.queueEnable q) s = execQueueEnable q s := rfl
@[simp] theorem exec_queueDisable (q : Nat) : exec (.queueDisable q) s = execQueueDisable q s := rfl
@[simp] theorem exec_qckrel (q : Nat) (mask : Nat) : exec (.qckrel q mask) s = execQckrel q mask s := rfl
@[simp] theorem exec_qerrRetry (q : Nat) : exec (.qerrRetry q) s = execQerrRetry q s := rfl
@[simp] theorem exec_qerrSkip (q : Nat) : exec (.qerrSkip q) s = execQerrSkip q s := rfl
@[simp] theorem exec_tlbInvalidateAll (kind : Nat) : exec (.tlbInvalidateAll kind) s = execTlbInvalidateAll kind s := rfl
@[simp] theorem exec_tlbInvalidateRoot : exec (.tlbInvalidateRoot) s = execTlbInvalidateRoot s := rfl
@[simp] theorem exec_tlbInvalidatePage : exec (.tlbInvalidatePage) s = execTlbInvalidatePage s := rfl
@[simp] theorem exec_tlbinvComplete : exec (.tlbinvComplete) s = execTlbinvComplete s := rfl
@[simp] theorem exec_preempt (q : Nat) : exec (.preempt q) s = execPreempt q s := rfl
@[simp] theorem exec_modeselWrite (v : Word64) : exec (.modeselWrite v) s = execModeselWrite v s := rfl
@[simp] theorem exec_rampctlWrite (die : Nat) (v : Word64) : exec (.rampctlWrite die v) s = execRampctlWrite die v s := rfl
@[simp] theorem exec_ritWrite (die : Nat) (lri : Nat) (v : Word64) : exec (.ritWrite die lri v) s = execRitWrite die lri v s := rfl
@[simp] theorem exec_remapRequest (die : Nat) (v : Word64) : exec (.remapRequest die v) s = execRemapRequest die v s := rfl
@[simp] theorem exec_remapEpochEnd (die : Nat) : exec (.remapEpochEnd die) s = execRemapEpochEnd die s := rfl
@[simp] theorem exec_regionSwap (die : Nat) : exec (.regionSwap die) s = execRegionSwap die s := rfl
@[simp] theorem exec_swapAbandon (die : Nat) : exec (.swapAbandon die) s = execSwapAbandon die s := rfl
@[simp] theorem exec_channelRetire (v : Word64) : exec (.channelRetire v) s = execChannelRetire v s := rfl
@[simp] theorem exec_retirementMove (die : Nat) : exec (.retirementMove die) s = execRetirementMove die s := rfl
@[simp] theorem exec_fwLoad (o : ImageCheck) (img : FwImage) : exec (.fwLoad o img) s = execFwLoad o img s := rfl
@[simp] theorem exec_fwSwitch : exec (.fwSwitch) s = execFwSwitch s := rfl
@[simp] theorem exec_fwSwitchHandover (o : SwitchOutcome) : exec (.fwSwitchHandover o) s = execFwSwitchHandover o s := rfl
@[simp] theorem exec_unitRetry (seq : Nat) : exec (.unitRetry seq) s = execUnitRetry seq s := rfl
@[simp] theorem exec_unitEnd (seq : Nat) : exec (.unitEnd seq) s = execUnitEnd seq s := rfl
@[simp] theorem exec_portEnable (port : Nat) : exec (.portEnable port) s = execPortEnable port s := rfl
@[simp] theorem exec_counterClear (port : Nat) (second : Bool) : exec (.counterClear port second) s = execCounterClear port second s := rfl
@[simp] theorem exec_keyAlloc (k : Nat) : exec (.keyAlloc k) s = execKeyAlloc k s := rfl
@[simp] theorem exec_keyRetire (k : Nat) : exec (.keyRetire k) s = execKeyRetire k s := rfl
@[simp] theorem exec_lockInterfaceRequest (vf : Nat) : exec (.lockInterfaceRequest vf) s = execLockInterfaceRequest vf s := rfl
@[simp] theorem exec_startInterfaceRequest (vf : Nat) (stream : Nat) : exec (.startInterfaceRequest vf stream) s = execStartInterfaceRequest vf stream s := rfl
@[simp] theorem exec_stopInterfaceRequest (vf : Nat) : exec (.stopInterfaceRequest vf) s = execStopInterfaceRequest vf s := rfl
@[simp] theorem exec_interfaceUnlock (vf : Nat) : exec (.interfaceUnlock vf) s = execInterfaceUnlock vf s := rfl
@[simp] theorem exec_getDeviceInterfaceReport (vf : Nat) : exec (.getDeviceInterfaceReport vf) s = execGetDeviceInterfaceReport vf s := rfl
@[simp] theorem exec_getDeviceInterfaceState (vf : Nat) : exec (.getDeviceInterfaceState vf) s = execGetDeviceInterfaceState vf s := rfl
@[simp] theorem exec_spdmRequest (r : SpdmReq) : exec (.spdmRequest r) s = execSpdmRequest r s := rfl
@[simp] theorem exec_atsCompletion (iova : Nat) (r : AtsResult) : exec (.atsCompletion iova r) s = execAtsCompletion iova r s := rfl
@[simp] theorem exec_priResponse (iova : Nat) (ok : Bool) : exec (.priResponse iova ok) s = execPriResponse iova ok s := rfl
@[simp] theorem exec_atsInvalidationRequest (iova : Nat) (len : Nat) : exec (.atsInvalidationRequest iova len) s = execAtsInvalidationRequest iova len s := rfl
@[simp] theorem exec_atsInvalidationComplete : exec (.atsInvalidationComplete) s = execAtsInvalidationComplete s := rfl
@[simp] theorem exec_ideFailure (stream : Nat) : exec (.ideFailure stream) s = execIdeFailure stream s := rfl
@[simp] theorem exec_tamper (sensor : Nat) : exec (.tamper sensor) s = execTamper sensor s := rfl
@[simp] theorem exec_glitch (detector : Nat) : exec (.glitch detector) s = execGlitch detector s := rfl
@[simp] theorem exec_thermalThrottle (block : Block) : exec (.thermalThrottle block) s = execThermalThrottle block s := rfl
@[simp] theorem exec_rampIntervalEnd (die : Nat) : exec (.rampIntervalEnd die) s = execRampIntervalEnd die s := rfl
@[simp] theorem exec_flitReceive (port : Nat) (good : Bool) (flit : FlitIn) : exec (.flitReceive port good flit) s = execFlitReceive port good flit s := rfl
@[simp] theorem exec_linkDown (port : Nat) (reason : Nat) : exec (.linkDown port reason) s = execLinkDown port reason s := rfl
@[simp] theorem exec_rootAnnouncementSend : exec (.rootAnnouncementSend) s = execRootAnnouncementSend s := rfl
@[simp] theorem exec_rootAnnouncementReceive (port : Nat) (id : Nat) (rootTick : Word64) : exec (.rootAnnouncementReceive port id rootTick) s = execRootAnnouncementReceive port id rootTick s := rfl
@[simp] theorem exec_rootLost : exec (.rootLost) s = execRootLost s := rfl
@[simp] theorem exec_peerRequest (r : PeerReq) : exec (.peerRequest r) s = execPeerRequest r s := rfl
@[simp] theorem exec_ingressArrival (core : Nat) (rec : ByteList) : exec (.ingressArrival core rec) s = execIngressArrival core rec s := rfl
@[simp] theorem exec_remoteCompletion (req : Nat) (r : RemoteResult) : exec (.remoteCompletion req r) s = execRemoteCompletion req r s := rfl
@[simp] theorem exec_completionTimeout (req : Nat) : exec (.completionTimeout req) s = execCompletionTimeout req s := rfl
@[simp] theorem exec_collectiveMessage (core : Nat) (entry : Nat) (rank : Nat) (data : ByteList) : exec (.collectiveMessage core entry rank data) s = execCollectiveMessage core entry rank data s := rfl
@[simp] theorem exec_collectiveAbandon (core : Nat) (entry : Nat) (cause : Nat) : exec (.collectiveAbandon core entry cause) s = execCollectiveAbandon core entry cause s := rfl
@[simp] theorem exec_sramCorrectedError (loc : SramLoc) : exec (.sramCorrectedError loc) s = execSramCorrectedError loc s := rfl
@[simp] theorem exec_freezeEnd (loc : FreezeLoc) : exec (.freezeEnd loc) s = execFreezeEnd loc s := rfl
@[simp] theorem exec_sramUncorrectableError (loc : SramLoc) : exec (.sramUncorrectableError loc) s = execSramUncorrectableError loc s := rfl
@[simp] theorem exec_tier0LineRead (dpa : Nat) (key : Nat) (o : LineOutcome) : exec (.tier0LineRead dpa key o) s = execTier0LineRead dpa key o s := rfl
@[simp] theorem exec_heartbeat : exec (.heartbeat) s = execHeartbeat s := rfl
@[simp] theorem exec_stateTableCommit : exec (.stateTableCommit) s = execStateTableCommit s := rfl
@[simp] theorem exec_heartbeatTimeout (ctrlue : Bool) : exec (.heartbeatTimeout ctrlue) s = execHeartbeatTimeout ctrlue s := rfl
@[simp] theorem exec_fetcherTurn (f : Nat) : exec (.fetcherTurn f) s = execFetcherTurn f s := rfl
@[simp] theorem exec_nopPacket (q : Nat) (pid : Nat) : exec (.nopPacket q pid) s = execNopPacket q pid s := rfl
@[simp] theorem exec_launch (q : Nat) (pid : Nat) : exec (.launch q pid) s = execLaunch q pid s := rfl
@[simp] theorem exec_launchSetup (part : Nat) (place : Placement) : exec (.launchSetup part place) s = execLaunchSetup part place s := rfl
@[simp] theorem exec_launchStart (part : Nat) : exec (.launchStart part) s = execLaunchStart part s := rfl
@[simp] theorem exec_launchComplete (part : Nat) : exec (.launchComplete part) s = execLaunchComplete part s := rfl
@[simp] theorem exec_resume (q : Nat) (pid : Nat) : exec (.resume q pid) s = execResume q pid s := rfl
@[simp] theorem exec_resumeRestore (part : Nat) (place : Placement) : exec (.resumeRestore part place) s = execResumeRestore part place s := rfl
@[simp] theorem exec_hardwareResume : exec (.hardwareResume) s = execHardwareResume s := rfl
@[simp] theorem exec_wait (q : Nat) (pid : Nat) : exec (.wait q pid) s = execWait q pid s := rfl
@[simp] theorem exec_waitPoll (q : Nat) (pid : Nat) : exec (.waitPoll q pid) s = execWaitPoll q pid s := rfl
@[simp] theorem exec_signal (q : Nat) (pid : Nat) : exec (.signal q pid) s = execSignal q pid s := rfl
@[simp] theorem exec_cond (q : Nat) (pid : Nat) : exec (.cond q pid) s = execCond q pid s := rfl
@[simp] theorem exec_loopPacket (q : Nat) (pid : Nat) : exec (.loopPacket q pid) s = execLoopPacket q pid s := rfl
@[simp] theorem exec_indirect (q : Nat) (pid : Nat) : exec (.indirect q pid) s = execIndirect q pid s := rfl
@[simp] theorem exec_copy (q : Nat) (pid : Nat) : exec (.copy q pid) s = execCopy q pid s := rfl
@[simp] theorem exec_fencePacket (q : Nat) (pid : Nat) : exec (.fencePacket q pid) s = execFencePacket q pid s := rfl
@[simp] theorem exec_endPacket (q : Nat) (pid : Nat) : exec (.endPacket q pid) s = execEndPacket q pid s := rfl
@[simp] theorem exec_packetCompletion (q : Nat) (pid : Nat) : exec (.packetCompletion q pid) s = execPacketCompletion q pid s := rfl
@[simp] theorem exec_notificationWrite (q : Nat) : exec (.notificationWrite q) s = execNotificationWrite q s := rfl
@[simp] theorem exec_sysReply (core : Nat) (slot : Nat) : exec (.sysReply core slot) s = execSysReply core slot s := rfl
@[simp] theorem exec_unitTrapResolution (seq : Nat) : exec (.unitTrapResolution seq) s = execUnitTrapResolution seq s := rfl
@[simp] theorem exec_ingressAdmission (core : Nat) : exec (.ingressAdmission core) s = execIngressAdmission core s := rfl
@[simp] theorem exec_taskRelease (core : Nat) (cls : Nat) : exec (.taskRelease core cls) s = execTaskRelease core cls s := rfl
@[simp] theorem exec_taskCompletion (core : Nat) (entry : Nat) : exec (.taskCompletion core entry) s = execTaskCompletion core entry s := rfl
@[simp] theorem exec_scratchpadPublish (core : Nat) : exec (.scratchpadPublish core) s = execScratchpadPublish core s := rfl
@[simp] theorem exec_hbmShadowBind (die : Nat) (lri : Nat) : exec (.hbmShadowBind die lri) s = execHbmShadowBind die lri s := rfl
@[simp] theorem exec_hbmPublish (die : Nat) : exec (.hbmPublish die) s = execHbmPublish die s := rfl
@[simp] theorem exec_frameReturn (core : Nat) (frame : Nat) : exec (.frameReturn core frame) s = execFrameReturn core frame s := rfl
@[simp] theorem exec_vectorKernelStart (core : Nat) : exec (.vectorKernelStart core) s = execVectorKernelStart core s := rfl
@[simp] theorem exec_copyBoxRow (core : Nat) (ch : Nat) : exec (.copyBoxRow core ch) s = execCopyBoxRow core ch s := rfl
@[simp] theorem exec_copyCompletion (core : Nat) (ch : Nat) : exec (.copyCompletion core ch) s = execCopyCompletion core ch s := rfl
@[simp] theorem exec_pushLand (mse : Nat) (ctx : Nat) : exec (.pushLand mse ctx) s = execPushLand mse ctx s := rfl
@[simp] theorem exec_contextEnd (mse : Nat) (ctx : Nat) : exec (.contextEnd mse ctx) s = execContextEnd mse ctx s := rfl
@[simp] theorem exec_accessPerformed (core : Nat) (item : Nat) (scope : Scope) : exec (.accessPerformed core item scope) s = execAccessPerformed core item scope s := rfl
@[simp] theorem exec_loadReturn (core : Nat) (slot : Nat) : exec (.loadReturn core slot) s = execLoadReturn core slot s := rfl
@[simp] theorem exec_causalStoreApply (die : Nat) (src : Nat) : exec (.causalStoreApply die src) s = execCausalStoreApply die src s := rfl
@[simp] theorem exec_causalLoadServe (core : Nat) (slot : Nat) : exec (.causalLoadServe core slot) s = execCausalLoadServe core slot s := rfl
@[simp] theorem exec_yieldDeadline (part : Nat) : exec (.yieldDeadline part) s = execYieldDeadline part s := rfl
@[simp] theorem exec_saveStopped (part : Nat) : exec (.saveStopped part) s = execSaveStopped part s := rfl
@[simp] theorem exec_preemptionComplete (part : Nat) : exec (.preemptionComplete part) s = execPreemptionComplete part s := rfl
@[simp] theorem exec_activityTimeout (core : Nat) : exec (.activityTimeout core) s = execActivityTimeout core s := rfl
@[simp] theorem exec_waitProbeOriginate (part : Nat) : exec (.waitProbeOriginate part) s = execWaitProbeOriginate part s := rfl
@[simp] theorem exec_waitProbeReturn (part : Nat) : exec (.waitProbeReturn part) s = execWaitProbeReturn part s := rfl
@[simp] theorem exec_nop (g : Guard) : exec (.nop g) s = execNop g s := rfl
@[simp] theorem exec_add (g : Guard) (d : Nat) (a : Nat) (b : Nat) : exec (.add g d a b) s = execAdd g d a b s := rfl
@[simp] theorem exec_addLong (g : Guard) (d : Nat) (a : Nat) (e : Word32) : exec (.addLong g d a e) s = execAddLong g d a e s := rfl
@[simp] theorem exec_sub (g : Guard) (d : Nat) (a : Nat) (b : Nat) : exec (.sub g d a b) s = execSub g d a b s := rfl
@[simp] theorem exec_subLong (g : Guard) (d : Nat) (a : Nat) (e : Word32) : exec (.subLong g d a e) s = execSubLong g d a e s := rfl
@[simp] theorem exec_mul (g : Guard) (d : Nat) (a : Nat) (b : Nat) : exec (.mul g d a b) s = execMul g d a b s := rfl
@[simp] theorem exec_mulLong (g : Guard) (d : Nat) (a : Nat) (e : Word32) : exec (.mulLong g d a e) s = execMulLong g d a e s := rfl
@[simp] theorem exec_mulh (g : Guard) (d : Nat) (a : Nat) (b : Nat) : exec (.mulh g d a b) s = execMulh g d a b s := rfl
@[simp] theorem exec_mulhLong (g : Guard) (d : Nat) (a : Nat) (e : Word32) : exec (.mulhLong g d a e) s = execMulhLong g d a e s := rfl
@[simp] theorem exec_div (g : Guard) (d : Nat) (a : Nat) (b : Nat) : exec (.div g d a b) s = execDiv g d a b s := rfl
@[simp] theorem exec_divLong (g : Guard) (d : Nat) (a : Nat) (e : Word32) : exec (.divLong g d a e) s = execDivLong g d a e s := rfl
@[simp] theorem exec_rem (g : Guard) (d : Nat) (a : Nat) (b : Nat) : exec (.rem g d a b) s = execRem g d a b s := rfl
@[simp] theorem exec_remLong (g : Guard) (d : Nat) (a : Nat) (e : Word32) : exec (.remLong g d a e) s = execRemLong g d a e s := rfl
@[simp] theorem exec_and (g : Guard) (d : Nat) (a : Nat) (b : Nat) : exec (.and g d a b) s = execAnd g d a b s := rfl
@[simp] theorem exec_andLong (g : Guard) (d : Nat) (a : Nat) (e : Word32) : exec (.andLong g d a e) s = execAndLong g d a e s := rfl
@[simp] theorem exec_or (g : Guard) (d : Nat) (a : Nat) (b : Nat) : exec (.or g d a b) s = execOr g d a b s := rfl
@[simp] theorem exec_orLong (g : Guard) (d : Nat) (a : Nat) (e : Word32) : exec (.orLong g d a e) s = execOrLong g d a e s := rfl
@[simp] theorem exec_xor (g : Guard) (d : Nat) (a : Nat) (b : Nat) : exec (.xor g d a b) s = execXor g d a b s := rfl
@[simp] theorem exec_xorLong (g : Guard) (d : Nat) (a : Nat) (e : Word32) : exec (.xorLong g d a e) s = execXorLong g d a e s := rfl
@[simp] theorem exec_andn (g : Guard) (d : Nat) (a : Nat) (b : Nat) : exec (.andn g d a b) s = execAndn g d a b s := rfl
@[simp] theorem exec_andnLong (g : Guard) (d : Nat) (a : Nat) (e : Word32) : exec (.andnLong g d a e) s = execAndnLong g d a e s := rfl
@[simp] theorem exec_shl (g : Guard) (d : Nat) (a : Nat) (b : Nat) : exec (.shl g d a b) s = execShl g d a b s := rfl
@[simp] theorem exec_shlLong (g : Guard) (d : Nat) (a : Nat) (e : Word32) : exec (.shlLong g d a e) s = execShlLong g d a e s := rfl
@[simp] theorem exec_shr (g : Guard) (d : Nat) (a : Nat) (b : Nat) : exec (.shr g d a b) s = execShr g d a b s := rfl
@[simp] theorem exec_shrLong (g : Guard) (d : Nat) (a : Nat) (e : Word32) : exec (.shrLong g d a e) s = execShrLong g d a e s := rfl
@[simp] theorem exec_sra (g : Guard) (d : Nat) (a : Nat) (b : Nat) : exec (.sra g d a b) s = execSra g d a b s := rfl
@[simp] theorem exec_sraLong (g : Guard) (d : Nat) (a : Nat) (e : Word32) : exec (.sraLong g d a e) s = execSraLong g d a e s := rfl
@[simp] theorem exec_rol (g : Guard) (d : Nat) (a : Nat) (b : Nat) : exec (.rol g d a b) s = execRol g d a b s := rfl
@[simp] theorem exec_rolLong (g : Guard) (d : Nat) (a : Nat) (e : Word32) : exec (.rolLong g d a e) s = execRolLong g d a e s := rfl
@[simp] theorem exec_min (g : Guard) (d : Nat) (a : Nat) (b : Nat) : exec (.min g d a b) s = execMin g d a b s := rfl
@[simp] theorem exec_minLong (g : Guard) (d : Nat) (a : Nat) (e : Word32) : exec (.minLong g d a e) s = execMinLong g d a e s := rfl
@[simp] theorem exec_max (g : Guard) (d : Nat) (a : Nat) (b : Nat) : exec (.max g d a b) s = execMax g d a b s := rfl
@[simp] theorem exec_maxLong (g : Guard) (d : Nat) (a : Nat) (e : Word32) : exec (.maxLong g d a e) s = execMaxLong g d a e s := rfl
@[simp] theorem exec_clz (g : Guard) (d : Nat) (a : Nat) : exec (.clz g d a) s = execClz g d a s := rfl
@[simp] theorem exec_ctz (g : Guard) (d : Nat) (a : Nat) : exec (.ctz g d a) s = execCtz g d a s := rfl
@[simp] theorem exec_popc (g : Guard) (d : Nat) (a : Nat) : exec (.popc g d a) s = execPopc g d a s := rfl
@[simp] theorem exec_bfx (g : Guard) (d : Nat) (a : Nat) (pos : Nat) (wm1 : Nat) (sgn : Bool) : exec (.bfx g d a pos wm1 sgn) s = execBfx g d a pos wm1 sgn s := rfl
@[simp] theorem exec_bfi (g : Guard) (d : Nat) (a : Nat) (pos : Nat) (wm1 : Nat) : exec (.bfi g d a pos wm1) s = execBfi g d a pos wm1 s := rfl
@[simp] theorem exec_sext (g : Guard) (d : Nat) (a : Nat) (wm1 : Nat) : exec (.sext g d a wm1) s = execSext g d a wm1 s := rfl
@[simp] theorem exec_zext (g : Guard) (d : Nat) (a : Nat) (wm1 : Nat) : exec (.zext g d a wm1) s = execZext g d a wm1 s := rfl
@[simp] theorem exec_li (g : Guard) (d : Nat) (i : Imm12) : exec (.li g d i) s = execLi g d i s := rfl
@[simp] theorem exec_liLong (g : Guard) (d : Nat) (e : Word32) : exec (.liLong g d e) s = execLiLong g d e s := rfl
@[simp] theorem exec_liH (g : Guard) (d : Nat) (e : Word32) : exec (.liH g d e) s = execLiH g d e s := rfl
@[simp] theorem exec_mov (g : Guard) (d : Nat) (a : Nat) : exec (.mov g d a) s = execMov g d a s := rfl
@[simp] theorem exec_sel (g : Guard) (d : Nat) (a : Nat) (b : Nat) (p : Nat) (neg : Bool) : exec (.sel g d a b p neg) s = execSel g d a b p neg s := rfl
@[simp] theorem exec_lea (g : Guard) (d : Nat) (i : Imm12) : exec (.lea g d i) s = execLea g d i s := rfl
@[simp] theorem exec_leaLong (g : Guard) (d : Nat) (e : Word32) : exec (.leaLong g d e) s = execLeaLong g d e s := rfl
@[simp] theorem exec_hoff (g : Guard) (d : Nat) (a : Nat) (h : Nat) : exec (.hoff g d a h) s = execHoff g d a h s := rfl
@[simp] theorem exec_cmp (g : Guard) (d : Nat) (a : Nat) (cc : CmpCond) (second : CmpSecond) (comb : Comb) : exec (.cmp g d a cc second comb) s = execCmp g d a cc second comb s := rfl
@[simp] theorem exec_pand (g : Guard) (d : Nat) (a : Nat) (b : Nat) : exec (.pand g d a b) s = execPand g d a b s := rfl
@[simp] theorem exec_por (g : Guard) (d : Nat) (a : Nat) (b : Nat) : exec (.por g d a b) s = execPor g d a b s := rfl
@[simp] theorem exec_pxor (g : Guard) (d : Nat) (a : Nat) (b : Nat) : exec (.pxor g d a b) s = execPxor g d a b s := rfl
@[simp] theorem exec_pnot (g : Guard) (d : Nat) (a : Nat) : exec (.pnot g d a) s = execPnot g d a s := rfl
@[simp] theorem exec_pget (g : Guard) (d : Nat) : exec (.pget g d) s = execPget g d s := rfl
@[simp] theorem exec_pset (g : Guard) (a : Nat) (b : Nat) : exec (.pset g a b) s = execPset g a b s := rfl
@[simp] theorem exec_fadd (g : Guard) (d : Nat) (a : Nat) (b : Nat) : exec (.fadd g d a b) s = execFadd g d a b s := rfl
@[simp] theorem exec_faddLong (g : Guard) (d : Nat) (a : Nat) (e : Word32) : exec (.faddLong g d a e) s = execFaddLong g d a e s := rfl
@[simp] theorem exec_fsub (g : Guard) (d : Nat) (a : Nat) (b : Nat) : exec (.fsub g d a b) s = execFsub g d a b s := rfl
@[simp] theorem exec_fsubLong (g : Guard) (d : Nat) (a : Nat) (e : Word32) : exec (.fsubLong g d a e) s = execFsubLong g d a e s := rfl
@[simp] theorem exec_fmul (g : Guard) (d : Nat) (a : Nat) (b : Nat) : exec (.fmul g d a b) s = execFmul g d a b s := rfl
@[simp] theorem exec_fmulLong (g : Guard) (d : Nat) (a : Nat) (e : Word32) : exec (.fmulLong g d a e) s = execFmulLong g d a e s := rfl
@[simp] theorem exec_ffma (g : Guard) (d : Nat) (a : Nat) (b : Nat) : exec (.ffma g d a b) s = execFfma g d a b s := rfl
@[simp] theorem exec_fdiv (g : Guard) (d : Nat) (a : Nat) (b : Nat) : exec (.fdiv g d a b) s = execFdiv g d a b s := rfl
@[simp] theorem exec_fdivLong (g : Guard) (d : Nat) (a : Nat) (e : Word32) : exec (.fdivLong g d a e) s = execFdivLong g d a e s := rfl
@[simp] theorem exec_fmin (g : Guard) (d : Nat) (a : Nat) (b : Nat) : exec (.fmin g d a b) s = execFmin g d a b s := rfl
@[simp] theorem exec_fminLong (g : Guard) (d : Nat) (a : Nat) (e : Word32) : exec (.fminLong g d a e) s = execFminLong g d a e s := rfl
@[simp] theorem exec_fmax (g : Guard) (d : Nat) (a : Nat) (b : Nat) : exec (.fmax g d a b) s = execFmax g d a b s := rfl
@[simp] theorem exec_fmaxLong (g : Guard) (d : Nat) (a : Nat) (e : Word32) : exec (.fmaxLong g d a e) s = execFmaxLong g d a e s := rfl
@[simp] theorem exec_fcmp (g : Guard) (d : Nat) (a : Nat) (b : Nat) (cc : FcmpCond) (comb : Comb) : exec (.fcmp g d a b cc comb) s = execFcmp g d a b cc comb s := rfl
@[simp] theorem exec_fcvt (g : Guard) (d : Nat) (a : Nat) (kind : FcvtKind) (mode : FMode) : exec (.fcvt g d a kind mode) s = execFcvt g d a kind mode s := rfl
@[simp] theorem exec_fsgn (g : Guard) (d : Nat) (a : Nat) (b : Nat) : exec (.fsgn g d a b) s = execFsgn g d a b s := rfl
@[simp] theorem exec_fsgnLong (g : Guard) (d : Nat) (a : Nat) (e : Word32) : exec (.fsgnLong g d a e) s = execFsgnLong g d a e s := rfl
@[simp] theorem exec_br (g : Guard) (off : Imm18) : exec (.br g off) s = execBr g off s := rfl
@[simp] theorem exec_brLong (g : Guard) (e : Word32) : exec (.brLong g e) s = execBrLong g e s := rfl
@[simp] theorem exec_call (g : Guard) (d : Nat) (i : Imm12) : exec (.call g d i) s = execCall g d i s := rfl
@[simp] theorem exec_callLong (g : Guard) (d : Nat) (e : Word32) : exec (.callLong g d e) s = execCallLong g d e s := rfl
@[simp] theorem exec_ret (g : Guard) (a : Nat) : exec (.ret g a) s = execRet g a s := rfl
@[simp] theorem exec_jr (g : Guard) (d : Nat) (a : Nat) : exec (.jr g d a) s = execJr g d a s := rfl
@[simp] theorem exec_loop (g : Guard) (d : Nat) (i : Imm12) : exec (.loop g d i) s = execLoop g d i s := rfl
@[simp] theorem exec_loopLong (g : Guard) (d : Nat) (e : Word32) : exec (.loopLong g d e) s = execLoopLong g d e s := rfl
@[simp] theorem exec_dspt (g : Guard) (d : Nat) (a : Nat) (nbm1 : Nat) (tab : DsptTable) : exec (.dspt g d a nbm1 tab) s = execDspt g d a nbm1 tab s := rfl
@[simp] theorem exec_ld (g : Guard) (d : Nat) (a : Nat) (sz : Size) (sp : Space) (cz : Bool) (sgn : Bool) : exec (.ld g d a sz sp cz sgn) s = execLd g d a sz sp cz sgn s := rfl
@[simp] theorem exec_ldLong (g : Guard) (d : Nat) (a : Nat) (sz : Size) (sp : Space) (cz : Bool) (sgn : Bool) (e : Word32) : exec (.ldLong g d a sz sp cz sgn e) s = execLdLong g d a sz sp cz sgn e s := rfl
@[simp] theorem exec_st (g : Guard) (d : Nat) (a : Nat) (sz : Size) (sp : Space) (cz : Bool) : exec (.st g d a sz sp cz) s = execSt g d a sz sp cz s := rfl
@[simp] theorem exec_stLong (g : Guard) (d : Nat) (a : Nat) (sz : Size) (sp : Space) (cz : Bool) (e : Word32) : exec (.stLong g d a sz sp cz e) s = execStLong g d a sz sp cz e s := rfl
@[simp] theorem exec_probe (g : Guard) (d : Nat) (a : Nat) (off : Imm6) : exec (.probe g d a off) s = execProbe g d a off s := rfl
@[simp] theorem exec_probeLong (g : Guard) (d : Nat) (a : Nat) (e : Word32) : exec (.probeLong g d a e) s = execProbeLong g d a e s := rfl
@[simp] theorem exec_unpin (g : Guard) (a : Nat) : exec (.unpin g a) s = execUnpin g a s := rfl
@[simp] theorem exec_amo (g : Guard) (d : Nat) (a : Nat) (b : Nat) (op : AmoOp) (sp : Space) (sz : AmoSize) (sc : Scope) : exec (.amo g d a b op sp sz sc) s = execAmo g d a b op sp sz sc s := rfl
@[simp] theorem exec_cas (g : Guard) (d : Nat) (a : Nat) (b : Nat) (sp : Space) (sz : AmoSize) (sc : Scope) (pd : Nat) : exec (.cas g d a b sp sz sc pd) s = execCas g d a b sp sz sc pd s := rfl
@[simp] theorem exec_fence (g : Guard) (sc : Scope) : exec (.fence g sc) s = execFence g sc s := rfl
@[simp] theorem exec_fenceR (g : Guard) (sc : Scope) (rs : RangeList) : exec (.fenceR g sc rs) s = execFenceR g sc rs s := rfl
@[simp] theorem exec_track (g : Guard) (slot : Nat) (r : RangeRef) : exec (.track g slot r) s = execTrack g slot r s := rfl
@[simp] theorem exec_untrack (g : Guard) (slot : Nat) : exec (.untrack g slot) s = execUntrack g slot s := rfl
@[simp] theorem exec_pub (g : Guard) (r : RangeRef) : exec (.pub g r) s = execPub g r s := rfl
@[simp] theorem exec_tbar (g : Guard) (lvl : Nat) : exec (.tbar g lvl) s = execTbar g lvl s := rfl
@[simp] theorem exec_tid (g : Guard) (d : Nat) (ts : TidSel) : exec (.tid g d ts) s = execTid g d ts s := rfl
@[simp] theorem exec_cinit (g : Guard) (cb : Nat) (wm1 : Nat) (cnt : Nat) : exec (.cinit g cb wm1 cnt) s = execCinit g cb wm1 cnt s := rfl
@[simp] theorem exec_cexp (g : Guard) (cb : Nat) (slot : Nat) (a : Nat) : exec (.cexp g cb slot a) s = execCexp g cb slot a s := rfl
@[simp] theorem exec_cexpLong (g : Guard) (cb : Nat) (slot : Nat) (cnt : Nat) : exec (.cexpLong g cb slot cnt) s = execCexpLong g cb slot cnt s := rfl
@[simp] theorem exec_cwait (g : Guard) (cb : Nat) (slot : Nat) (p : Nat) : exec (.cwait g cb slot p) s = execCwait g cb slot p s := rfl
@[simp] theorem exec_crel (g : Guard) (cb : Nat) (slot : Nat) : exec (.crel g cb slot) s = execCrel g cb slot s := rfl
@[simp] theorem exec_ctry (g : Guard) (p : Nat) (cb : Nat) (slot : Nat) : exec (.ctry g p cb slot) s = execCtry g p cb slot s := rfl
@[simp] theorem exec_post (g : Guard) (a : Nat) : exec (.post g a) s = execPost g a s := rfl
@[simp] theorem exec_postNb (g : Guard) (p : Nat) (a : Nat) : exec (.postNb g p a) s = execPostNb g p a s := rfl
@[simp] theorem exec_postr (g : Guard) (p : Nat) (a : Nat) (b : Nat) (core : Nat) (creg : Bool) (rel : Bool) : exec (.postr g p a b core creg rel) s = execPostr g p a b core creg rel s := rfl
@[simp] theorem exec_postt (g : Guard) (p : Nat) (a : Nat) (b : Nat) (core : Nat) (creg : Bool) : exec (.postt g p a b core creg) s = execPostt g p a b core creg s := rfl
@[simp] theorem exec_dcset (g : Guard) (n : Nat) (a : Nat) : exec (.dcset g n a) s = execDcset g n a s := rfl
@[simp] theorem exec_dcsetLong (g : Guard) (n : Nat) (v : Nat) : exec (.dcsetLong g n v) s = execDcsetLong g n v s := rfl
@[simp] theorem exec_dcadd (g : Guard) (n : Nat) (a : Nat) : exec (.dcadd g n a) s = execDcadd g n a s := rfl
@[simp] theorem exec_dcaddLong (g : Guard) (n : Nat) (e : Word32) : exec (.dcaddLong g n e) s = execDcaddLong g n e s := rfl
@[simp] theorem exec_dcwait (g : Guard) (n : Nat) : exec (.dcwait g n) s = execDcwait g n s := rfl
@[simp] theorem exec_sta (g : Guard) (p : Nat) (a : Nat) (b : Nat) : exec (.sta g p a b) s = execSta g p a b s := rfl
@[simp] theorem exec_staLong (g : Guard) (p : Nat) (a : Nat) (b : Nat) (off : Nat) : exec (.staLong g p a b off) s = execStaLong g p a b off s := rfl
@[simp] theorem exec_sbind (g : Guard) (d : Nat) (a : Nat) (b : Nat) (prog : Nat) (cb : Nat) (entry : Nat) : exec (.sbind g d a b prog cb entry) s = execSbind g d a b prog cb entry s := rfl
@[simp] theorem exec_cqpush (g : Guard) (p : Nat) (a : Nat) (stream : Nat) : exec (.cqpush g p a stream) s = execCqpush g p a stream s := rfl
@[simp] theorem exec_sstop (g : Guard) (stream : Nat) : exec (.sstop g stream) s = execSstop g stream s := rfl
@[simp] theorem exec_yield (g : Guard) (p : Nat) : exec (.yield g p) s = execYield g p s := rfl
@[simp] theorem exec_live (g : Guard) (a : Nat) : exec (.live g a) s = execLive g a s := rfl
@[simp] theorem exec_liveLong (g : Guard) (e : Word32) : exec (.liveLong g e) s = execLiveLong g e s := rfl
@[simp] theorem exec_trap (g : Guard) (code : Nat) : exec (.trap g code) s = execTrap g code s := rfl
@[simp] theorem exec_sys (g : Guard) (d : Nat) (a : Nat) (svc : Service) : exec (.sys g d a svc) s = execSys g d a svc s := rfl
@[simp] theorem exec_rett (g : Guard) : exec (.rett g) s = execRett g s := rfl
@[simp] theorem exec_mfs (g : Guard) (d : Nat) (n : Nat) : exec (.mfs g d n) s = execMfs g d n s := rfl
@[simp] theorem exec_mts (g : Guard) (n : Nat) (a : Nat) : exec (.mts g n a) s = execMts g n a s := rfl
@[simp] theorem exec_sttcfgWrite (core : Nat) (slot : Nat) (v : Word64) : exec (.sttcfgWrite core slot v) s = execSttcfgWrite core slot v s := rfl
@[simp] theorem exec_sttcfgApply (core : Nat) : exec (.sttcfgApply core) s = execSttcfgApply core s := rfl
@[simp] theorem exec_halt (g : Guard) : exec (.halt g) s = execHalt g s := rfl
@[simp] theorem exec_exit (g : Guard) : exec (.exit g) s = execExit g s := rfl
@[simp] theorem exec_vnop : exec (.vnop) s = execVnop s := rfl
@[simp] theorem exec_vadd (w : Bool) (d : Nat) (a : Nat) (b : Nat) (m : Nat) (t : VTy) : exec (.vadd w d a b m t) s = execVadd w d a b m t s := rfl
@[simp] theorem exec_vsub (w : Bool) (d : Nat) (a : Nat) (b : Nat) (m : Nat) (t : VTy) : exec (.vsub w d a b m t) s = execVsub w d a b m t s := rfl
@[simp] theorem exec_vmul (w : Bool) (d : Nat) (a : Nat) (b : Nat) (m : Nat) (t : VTy) : exec (.vmul w d a b m t) s = execVmul w d a b m t s := rfl
@[simp] theorem exec_vfma (w : Bool) (d : Nat) (a : Nat) (b : Nat) (m : Nat) (t : VTy) : exec (.vfma w d a b m t) s = execVfma w d a b m t s := rfl
@[simp] theorem exec_vmin (w : Bool) (d : Nat) (a : Nat) (b : Nat) (m : Nat) (t : VTy) : exec (.vmin w d a b m t) s = execVmin w d a b m t s := rfl
@[simp] theorem exec_vmax (w : Bool) (d : Nat) (a : Nat) (b : Nat) (m : Nat) (t : VTy) : exec (.vmax w d a b m t) s = execVmax w d a b m t s := rfl
@[simp] theorem exec_vabs (w : Bool) (d : Nat) (a : Nat) (m : Nat) (t : VTy) : exec (.vabs w d a m t) s = execVabs w d a m t s := rfl
@[simp] theorem exec_vneg (w : Bool) (d : Nat) (a : Nat) (m : Nat) (t : VTy) : exec (.vneg w d a m t) s = execVneg w d a m t s := rfl
@[simp] theorem exec_vand (w : Bool) (d : Nat) (a : Nat) (b : Nat) (m : Nat) (t : VTy) : exec (.vand w d a b m t) s = execVand w d a b m t s := rfl
@[simp] theorem exec_vor (w : Bool) (d : Nat) (a : Nat) (b : Nat) (m : Nat) (t : VTy) : exec (.vor w d a b m t) s = execVor w d a b m t s := rfl
@[simp] theorem exec_vxor (w : Bool) (d : Nat) (a : Nat) (b : Nat) (m : Nat) (t : VTy) : exec (.vxor w d a b m t) s = execVxor w d a b m t s := rfl
@[simp] theorem exec_vshl (w : Bool) (d : Nat) (a : Nat) (b : Nat) (m : Nat) (t : ITy) : exec (.vshl w d a b m t) s = execVshl w d a b m t s := rfl
@[simp] theorem exec_vshr (w : Bool) (d : Nat) (a : Nat) (b : Nat) (m : Nat) (t : ITy) : exec (.vshr w d a b m t) s = execVshr w d a b m t s := rfl
@[simp] theorem exec_vsra (w : Bool) (d : Nat) (a : Nat) (b : Nat) (m : Nat) (t : ITy) : exec (.vsra w d a b m t) s = execVsra w d a b m t s := rfl
@[simp] theorem exec_vcmp (cc : VCond) (d : Nat) (a : Nat) (b : Nat) (m : Nat) (t : VTy) : exec (.vcmp cc d a b m t) s = execVcmp cc d a b m t s := rfl
@[simp] theorem exec_vsel (w : Bool) (d : Nat) (a : Nat) (b : Nat) (m : Nat) (t : VTy) : exec (.vsel w d a b m t) s = execVsel w d a b m t s := rfl
@[simp] theorem exec_vmov (w : Bool) (d : Nat) (a : Nat) (m : Nat) (t : VTy) : exec (.vmov w d a m t) s = execVmov w d a m t s := rfl
@[simp] theorem exec_vbcst (w : Bool) (d : Nat) (a : Nat) (b : Nat) (m : Nat) (t : VTy) : exec (.vbcst w d a b m t) s = execVbcst w d a b m t s := rfl
@[simp] theorem exec_vcvt (w : Bool) (d : Nat) (a : Nat) (kind : Nat) (mode : Nat) (m : Nat) : exec (.vcvt w d a kind mode m) s = execVcvt w d a kind mode m s := rfl
@[simp] theorem exec_vscl (w : Bool) (d : Nat) (a : Nat) (mw : Nat) (enc : Bool) (mode : Nat) (m : Nat) : exec (.vscl w d a mw enc mode m) s = execVscl w d a mw enc mode m s := rfl
@[simp] theorem exec_vreds (w : Bool) (d : Nat) (a : Nat) (m : Nat) (t : VTy) : exec (.vreds w d a m t) s = execVreds w d a m t s := rfl
@[simp] theorem exec_vredm (w : Bool) (d : Nat) (a : Nat) (m : Nat) (t : VTy) : exec (.vredm w d a m t) s = execVredm w d a m t s := rfl
@[simp] theorem exec_vredn (w : Bool) (d : Nat) (a : Nat) (m : Nat) (t : VTy) : exec (.vredn w d a m t) s = execVredn w d a m t s := rfl
@[simp] theorem exec_vexp2 (w : Bool) (d : Nat) (a : Nat) (m : Nat) (t : FTy) : exec (.vexp2 w d a m t) s = execVexp2 w d a m t s := rfl
@[simp] theorem exec_vlog2 (w : Bool) (d : Nat) (a : Nat) (m : Nat) (t : FTy) : exec (.vlog2 w d a m t) s = execVlog2 w d a m t s := rfl
@[simp] theorem exec_vrcp (w : Bool) (d : Nat) (a : Nat) (m : Nat) (t : FTy) : exec (.vrcp w d a m t) s = execVrcp w d a m t s := rfl
@[simp] theorem exec_vrsq (w : Bool) (d : Nat) (a : Nat) (m : Nat) (t : FTy) : exec (.vrsq w d a m t) s = execVrsq w d a m t s := rfl
@[simp] theorem exec_vsqrt (w : Bool) (d : Nat) (a : Nat) (m : Nat) (t : FTy) : exec (.vsqrt w d a m t) s = execVsqrt w d a m t s := rfl
@[simp] theorem exec_vsig (w : Bool) (d : Nat) (a : Nat) (m : Nat) (t : FTy) : exec (.vsig w d a m t) s = execVsig w d a m t s := rfl
@[simp] theorem exec_vtanh (w : Bool) (d : Nat) (a : Nat) (m : Nat) (t : FTy) : exec (.vtanh w d a m t) s = execVtanh w d a m t s := rfl
@[simp] theorem exec_vld (w : Bool) (d : Nat) (pair : Nat) (g : Bool) (sz : Nat) (b : Nat) (m : Nat) (t : VTy) : exec (.vld w d pair g sz b m t) s = execVld w d pair g sz b m t s := rfl
@[simp] theorem exec_vst (d : Nat) (pair : Nat) (g : Bool) (sz : Nat) (b : Nat) (m : Nat) (t : VTy) : exec (.vst d pair g sz b m t) s = execVst d pair g sz b m t s := rfl
@[simp] theorem exec_vgth (w : Bool) (d : Nat) (pair : Nat) (g : Bool) (b : Nat) (m : Nat) (t : VTy) : exec (.vgth w d pair g b m t) s = execVgth w d pair g b m t s := rfl
@[simp] theorem exec_vprm (w : Bool) (d : Nat) (a : Nat) (b : Nat) (m : Nat) (t : VTy) : exec (.vprm w d a b m t) s = execVprm w d a b m t s := rfl
@[simp] theorem exec_vunp3 (w : Bool) (d : Nat) (a : Nat) (off : Nat) (m : Nat) (t : VTy) : exec (.vunp3 w d a off m t) s = execVunp3 w d a off m t s := rfl
@[simp] theorem exec_mand (d : Nat) (a : Nat) (b : Nat) : exec (.mand d a b) s = execMand d a b s := rfl
@[simp] theorem exec_mor (d : Nat) (a : Nat) (b : Nat) : exec (.mor d a b) s = execMor d a b s := rfl
@[simp] theorem exec_mnot (d : Nat) (a : Nat) : exec (.mnot d a) s = execMnot d a s := rfl
@[simp] theorem exec_vloop (a : Nat) : exec (.vloop a) s = execVloop a s := rfl
@[simp] theorem exec_vend : exec (.vend) s = execVend s := rfl
@[simp] theorem exec_anop : exec (.anop) s = execAnop s := rfl
@[simp] theorem exec_amov (d : Nat) (x : Src) : exec (.amov d x) s = execAmov d x s := rfl
@[simp] theorem exec_aadd (d : Nat) (a : Nat) (x : Src) : exec (.aadd d a x) s = execAadd d a x s := rfl
@[simp] theorem exec_asub (d : Nat) (a : Nat) (x : Src) : exec (.asub d a x) s = execAsub d a x s := rfl
@[simp] theorem exec_amul (d : Nat) (a : Nat) (x : Src) : exec (.amul d a x) s = execAmul d a x s := rfl
@[simp] theorem exec_ashl (d : Nat) (a : Nat) (x : Src) : exec (.ashl d a x) s = execAshl d a x s := rfl
@[simp] theorem exec_ashr (d : Nat) (a : Nat) (x : Src) : exec (.ashr d a x) s = execAshr d a x s := rfl
@[simp] theorem exec_aand (d : Nat) (a : Nat) (x : Src) : exec (.aand d a x) s = execAand d a x s := rfl
@[simp] theorem exec_amin (d : Nat) (a : Nat) (x : Src) : exec (.amin d a x) s = execAmin d a x s := rfl
@[simp] theorem exec_acmp (d : Nat) (a : Nat) (x : Src) : exec (.acmp d a x) s = execAcmp d a x s := rfl
@[simp] theorem exec_abr (cc : ACond) (a : Nat) (off : Imm17) : exec (.abr cc a off) s = execAbr cc a off s := rfl
@[simp] theorem exec_ajmp (x : Src) : exec (.ajmp x) s = execAjmp x s := rfl
@[simp] theorem exec_aloop (n : Nat) (x : Src) : exec (.aloop n x) s = execAloop n x s := rfl
@[simp] theorem exec_aend (n : Nat) : exec (.aend n) s = execAend n s := rfl
@[simp] theorem exec_ahalt : exec (.ahalt) s = execAhalt s := rfl
@[simp] theorem exec_spush (d : Nat) (a : Nat) (b : Nat) : exec (.spush d a b) s = execSpush d a b s := rfl
@[simp] theorem exec_spushi (d : Nat) (a : Nat) (b : Nat) : exec (.spushi d a b) s = execSpushi d a b s := rfl
@[simp] theorem exec_swin : exec (.swin) s = execSwin s := rfl
@[simp] theorem exec_cqpop (d : Nat) : exec (.cqpop d) s = execCqpop d s := rfl
@[simp] theorem exec_afence : exec (.afence) s = execAfence s := rfl
@[simp] theorem exec_wld (core : Nat) (entry : Nat) : exec (.wld core entry) s = execWld core entry s := rfl
@[simp] theorem exec_mm (core : Nat) (entry : Nat) : exec (.mm core entry) s = execMm core entry s := rfl
@[simp] theorem exec_mmz (core : Nat) (entry : Nat) : exec (.mmz core entry) s = execMmz core entry s := rfl
@[simp] theorem exec_mmc (core : Nat) (entry : Nat) : exec (.mmc core entry) s = execMmc core entry s := rfl
@[simp] theorem exec_topk (core : Nat) (entry : Nat) : exec (.topk core entry) s = execTopk core entry s := rfl
@[simp] theorem exec_perm (core : Nat) (entry : Nat) : exec (.perm core entry) s = execPerm core entry s := rfl
@[simp] theorem exec_rsum (core : Nat) (entry : Nat) : exec (.rsum core entry) s = execRsum core entry s := rfl
@[simp] theorem exec_trn (core : Nat) (entry : Nat) : exec (.trn core entry) s = execTrn core entry s := rfl
@[simp] theorem exec_vk (core : Nat) (entry : Nat) : exec (.vk core entry) s = execVk core entry s := rfl
@[simp] theorem exec_xp (core : Nat) (entry : Nat) : exec (.xp core entry) s = execXp core entry s := rfl
@[simp] theorem exec_cpy (core : Nat) (entry : Nat) : exec (.cpy core entry) s = execCpy core entry s := rfl
@[simp] theorem exec_cpyT8 (core : Nat) (entry : Nat) : exec (.cpyT8 core entry) s = execCpyT8 core entry s := rfl
@[simp] theorem exec_cpyT16 (core : Nat) (entry : Nat) : exec (.cpyT16 core entry) s = execCpyT16 core entry s := rfl
@[simp] theorem exec_gath (core : Nat) (entry : Nat) : exec (.gath core entry) s = execGath core entry s := rfl
@[simp] theorem exec_scat (core : Nat) (entry : Nat) : exec (.scat core entry) s = execScat core entry s := rfl
@[simp] theorem exec_cvt (core : Nat) (entry : Nat) : exec (.cvt core entry) s = execCvt core entry s := rfl
@[simp] theorem exec_fill (core : Nat) (entry : Nat) : exec (.fill core entry) s = execFill core entry s := rfl
@[simp] theorem exec_psum (core : Nat) (entry : Nat) : exec (.psum core entry) s = execPsum core entry s := rfl
@[simp] theorem exec_hist (core : Nat) (entry : Nat) : exec (.hist core entry) s = execHist core entry s := rfl
@[simp] theorem exec_ared (core : Nat) (entry : Nat) : exec (.ared core entry) s = execAred core entry s := rfl
@[simp] theorem exec_bcst (core : Nat) (entry : Nat) : exec (.bcst core entry) s = execBcst core entry s := rfl
@[simp] theorem exec_wst (core : Nat) (entry : Nat) : exec (.wst core entry) s = execWst core entry s := rfl
@[simp] theorem exec_illegalCoxWord (w : Word32) (e : Word32) : exec (.illegalCoxWord w e) s = execIllegalCoxWord w e s := rfl
@[simp] theorem exec_illegalVectorWord (w : Word32) : exec (.illegalVectorWord w) s = execIllegalVectorWord w s := rfl
@[simp] theorem exec_illegalAccessWord (w : Word32) : exec (.illegalAccessWord w) s = execIllegalAccessWord w s := rfl
@[simp] theorem exec_instructionFetchFault (cause : Nat) (info : Word64) : exec (.instructionFetchFault cause info) s = execInstructionFetchFault cause info s := rfl
@[simp] theorem exec_linkUp (port : Nat) (lanes : Nat) (peer : Nat) : exec (.linkUp port lanes peer) s = execLinkUp port lanes peer s := rfl
@[simp] theorem exec_thermalRecovery (block : Block) : exec (.thermalRecovery block) s = execThermalRecovery block s := rfl
@[simp] theorem exec_gangBarrierArrival (part : Nat) (level : Nat) (team : Nat) (gen : Nat) (member : Nat) : exec (.gangBarrierArrival part level team gen member) s = execGangBarrierArrival part level team gen member s := rfl

end Sys2Proof.Machine
end

