-- ==== Sys2Proof/Laws/Tab.lean ====
section
/-! SUPPORT. What tables and the byte memory do: reading after writing, other keys left alone, and the canonical form kept by every memory operation (log 4). -/
namespace Sys2Proof.Machine

/-! ## Reading after writing -/

@[simp] theorem tabFind_nil {α : Type} (k : Nat) : tabFind ([] : Tab α) k = none := rfl

@[simp] theorem tabFind_put_self {α : Type} (t : Tab α) (k : Nat) (v : α) : tabFind (tabPut t k v) k = some v := by
  induction t with
  | nil => simp [tabPut, tabFind]
  | cons p r ih =>
    obtain ⟨a, w⟩ := p
    simp only [tabPut]
    split
    · simp [tabFind]
    · split
      · simp [tabFind]
      · simp_all [tabFind]

theorem tabFind_put_other {α : Type} (t : Tab α) {k j : Nat} (v : α) (h : j ≠ k) : tabFind (tabPut t k v) j = tabFind t j := by
  induction t with
  | nil => simp [tabPut, tabFind, Ne.symm h]
  | cons p r ih =>
    obtain ⟨a, w⟩ := p
    simp only [tabPut]
    split
    · simp [tabFind, Ne.symm h]
    · split
      · next e => subst e; simp [tabFind, Ne.symm h]
      · simp [tabFind, ih]

@[simp] theorem tabGet_put_self {α : Type} (d : α) (t : Tab α) (k : Nat) (v : α) : tabGet d (tabPut t k v) k = v := by
  simp [tabGet]

theorem tabGet_put_other {α : Type} (d : α) (t : Tab α) {k j : Nat} (v : α) (h : j ≠ k) :
    tabGet d (tabPut t k v) j = tabGet d t j := by
  simp [tabGet, tabFind_put_other t v h]

/-- A second write of a key replaces the first. -/
@[simp] theorem tabPut_put {α : Type} (t : Tab α) (k : Nat) (v w : α) : tabPut (tabPut t k v) k w = tabPut t k w := by
  induction t with
  | nil => simp [tabPut]
  | cons p r ih =>
    obtain ⟨a, x⟩ := p
    simp only [tabPut]
    split
    · simp [tabPut]
    · split
      · simp [tabPut]
      · next h1 h2 => simp [tabPut, h1, h2, ih]

/-! ## Rising keys -/

theorem tabRising_iff {α : Type} (t : Tab α) : tabRising t = true ↔ t.Pairwise fun p q => p.1 < q.1 := by
  induction t with
  | nil => simp [tabRising]
  | cons p r ih =>
    cases r with
    | nil => simp [tabRising]
    | cons q r =>
      simp only [tabRising, Bool.and_eq_true, decide_eq_true_eq, ih]
      constructor
      · rintro ⟨h, hr⟩
        refine List.pairwise_cons.2 ⟨fun x hx => ?_, hr⟩
        rcases List.mem_cons.1 hx with rfl | hx
        · exact h
        · exact Nat.lt_trans h ((List.pairwise_cons.1 hr).1 x hx)
      · intro h
        have := List.pairwise_cons.1 h
        exact ⟨this.1 q (by simp), this.2⟩

theorem mem_tabPut {α : Type} {t : Tab α} {k : Nat} {v : α} {p : Nat × α} (h : p ∈ tabPut t k v) : p = (k, v) ∨ p ∈ t := by
  induction t with
  | nil => simpa [tabPut] using h
  | cons q r ih =>
    obtain ⟨a, w⟩ := q
    simp only [tabPut] at h
    split at h
    · simpa using h
    · split at h
      · rcases List.mem_cons.1 h with h | h
        · exact .inl h
        · exact .inr (List.mem_cons_of_mem _ h)
      · rcases List.mem_cons.1 h with h | h
        · exact .inr (h ▸ List.mem_cons_self)
        · rcases ih h with h | h
          · exact .inl h
          · exact .inr (List.mem_cons_of_mem _ h)

theorem tabPut_rising {α : Type} {t : Tab α} (k : Nat) (v : α) (h : t.Pairwise fun p q => p.1 < q.1) :
    (tabPut t k v).Pairwise fun p q => p.1 < q.1 := by
  induction t with
  | nil => simp [tabPut]
  | cons q r ih =>
    obtain ⟨a, w⟩ := q
    have hc := List.pairwise_cons.1 h
    simp only [tabPut]
    split
    · next hk =>
      refine List.pairwise_cons.2 ⟨fun x hx => ?_, h⟩
      rcases List.mem_cons.1 hx with rfl | hx
      · exact hk
      · exact Nat.lt_trans hk (hc.1 x hx)
    · split
      · next e => subst e; exact List.pairwise_cons.2 hc
      · next h1 h2 =>
        refine List.pairwise_cons.2 ⟨fun x hx => ?_, ih hc.2⟩
        rcases mem_tabPut hx with rfl | hx
        · show a < k
          omega
        · exact hc.1 x hx

theorem tabDel_sublist {α : Type} (t : Tab α) (k : Nat) : (tabDel t k).Sublist t := by
  induction t with
  | nil => simp [tabDel]
  | cons q r ih =>
    obtain ⟨a, w⟩ := q
    simp only [tabDel]
    split
    · exact List.sublist_cons_self _ _
    · exact ih.cons_cons _

/-! ## The canonical form of the byte memory -/

theorem Memory.wf_iff (m : Memory) : Memory.wf m = true ↔ (m.Pairwise fun p q => p.1 < q.1) ∧ ∀ p ∈ m, p.2 ≠ 0#8 := by
  simp [Memory.wf, tabRising_iff, List.all_eq_true, bne_iff_ne]

theorem Memory.wf_sublist {m n : Memory} (h : m.wf = true) (hs : n.Sublist m) : Memory.wf n = true := by
  rw [Memory.wf_iff] at *
  exact ⟨h.1.sublist hs, fun p hp => h.2 p (hs.subset hp)⟩

theorem memSet_wf {m : Memory} (h : m.wf = true) (k : Nat) (b : Byte) : (memSet m k b).wf = true := by
  unfold memSet
  split
  · exact Memory.wf_sublist h (tabDel_sublist m k)
  · next hb =>
    rw [Memory.wf_iff] at *
    refine ⟨tabPut_rising k b h.1, fun p hp => ?_⟩
    rcases mem_tabPut hp with rfl | hp
    · exact hb
    · exact h.2 p hp

theorem memSet_fold_wf {α : Type} (f : α → Nat) (g : α → Byte) (l : List α) {m : Memory} (h : m.wf = true) :
    Memory.wf (l.foldl (fun acc p => memSet acc (f p) (g p)) m) = true := by
  induction l generalizing m with
  | nil => exact h
  | cons a r ih => exact ih (memSet_wf h _ _)

theorem tabClear_wf {m : Memory} (h : m.wf = true) (lo n : Nat) : Memory.wf (tabClear m lo n) = true :=
  Memory.wf_sublist h List.filter_sublist

theorem memCopy_wf {m : Memory} (h : m.wf = true) (dst src n : Nat) : (memCopy m dst src n).wf = true :=
  memSet_fold_wf _ _ _ (tabClear_wf h _ _)

theorem mem_listed {k : Nat} {b : ByteList} {p : Host.Cell} (h : p ∈ listed k b) : k ≤ p.1 ∧ p.1 < k + b.length ∧ p.2 ≠ 0#8 := by
  induction b generalizing k with
  | nil => simp [listed] at h
  | cons a r ih =>
    simp only [listed] at h
    have lift : p ∈ listed (k + 1) r → k ≤ p.1 ∧ p.1 < k + (a :: r).length ∧ p.2 ≠ 0#8 := fun h => by
      have := ih h
      refine ⟨by omega, ?_, this.2.2⟩
      simp only [List.length_cons]
      omega
    split at h
    · exact lift h
    · next hb =>
      rcases List.mem_cons.1 h with rfl | h
      · exact ⟨Nat.le_refl _, by simp, hb⟩
      · exact lift h

theorem listed_rising (k : Nat) (b : ByteList) : (listed k b).Pairwise fun p q => p.1 < q.1 := by
  induction b generalizing k with
  | nil => simp [listed]
  | cons a r ih =>
    simp only [listed]
    split
    · exact ih _
    · exact List.pairwise_cons.2 ⟨fun p hp => (mem_listed hp).1, ih _⟩

/-- What a run drops of a rising list lies from the bound on. -/
theorem mem_dropWhile_lt {m : Memory} (h : m.Pairwise fun p q => p.1 < q.1) {k : Nat} {p : Host.Cell}
    (hp : p ∈ m.dropWhile fun q => decide (q.1 < k)) : k ≤ p.1 := by
  induction m with
  | nil => simp at hp
  | cons a r ih =>
    have hc := List.pairwise_cons.1 h
    rw [List.dropWhile_cons] at hp
    split at hp
    · exact ih hc.2 hp
    · next hk =>
      have hk : k ≤ a.1 := by simpa using hk
      rcases List.mem_cons.1 hp with rfl | hp
      · exact hk
      · exact Nat.le_trans hk (Nat.le_of_lt (hc.1 p hp))

theorem mem_takeWhile_lt {m : Memory} {k : Nat} {p : Host.Cell} (hp : p ∈ m.takeWhile fun q => decide (q.1 < k)) :
    p.1 < k := by
  induction m with
  | nil => simp at hp
  | cons a r ih =>
    rw [List.takeWhile_cons] at hp
    split at hp
    · next ha =>
      rcases List.mem_cons.1 hp with rfl | hp
      · simpa using ha
      · exact ih hp
    · simp at hp

theorem memSetList_wf {m : Memory} (h : m.wf = true) (k : Nat) (b : ByteList) : (memSetList m k b).wf = true := by
  rw [Memory.wf_iff] at *
  unfold memSetList
  have ht : ∀ p ∈ m.takeWhile fun q => decide (q.1 < k), p.1 < k := fun p hp =>
    mem_takeWhile_lt hp
  refine ⟨List.pairwise_append.2 ⟨h.1.sublist (List.takeWhile_sublist _), List.pairwise_append.2
    ⟨listed_rising k b, h.1.sublist (List.dropWhile_sublist _), fun p hp q hq => ?_⟩, fun p hp q hq => ?_⟩, fun p hp => ?_⟩
  · exact Nat.lt_of_lt_of_le (mem_listed hp).2.1 (mem_dropWhile_lt h.1 hq)
  · rcases List.mem_append.1 hq with hq | hq
    · exact Nat.lt_of_lt_of_le (ht p hp) (mem_listed hq).1
    · exact Nat.lt_of_lt_of_le (ht p hp) (Nat.le_trans (Nat.le_add_right _ _) (mem_dropWhile_lt h.1 hq))
  · rcases List.mem_append.1 hp with hp | hp
    · exact h.2 p ((List.takeWhile_sublist _).subset hp)
    · rcases List.mem_append.1 hp with hp | hp
      · exact (mem_listed hp).2.2
      · exact h.2 p ((List.dropWhile_sublist _).subset hp)

/-! ## Reading the byte memory -/

theorem tabFind_none_of_lt {α : Type} {t : Tab α} {k : Nat} (h : ∀ p ∈ t, k < p.1) : tabFind t k = none := by
  induction t with
  | nil => rfl
  | cons a r ih =>
    obtain ⟨a, w⟩ := a
    have : k < a := h (a, w) (by simp)
    have hr := ih fun p hp => h p (List.mem_cons_of_mem _ hp)
    simp only [tabFind]
    split
    · omega
    · exact hr

theorem memByte_set_self {m : Memory} (h : m.wf = true) (k : Nat) (b : Byte) : memByte (memSet m k b) k = b := by
  unfold memSet memByte
  split
  · next hb =>
    subst hb
    rw [Memory.wf_iff] at h
    have hr := h.1
    clear h
    induction m with
    | nil => rfl
    | cons q r ih =>
      obtain ⟨a, w⟩ := q
      have hc := List.pairwise_cons.1 hr
      simp only [tabDel]
      split
      · next e =>
        subst e
        simp [tabGet, tabFind_none_of_lt hc.1]
      · next e =>
        have := ih hc.2
        simpa [tabGet, tabFind, e] using this
  · simp

theorem tabFind_del_other {α : Type} (t : Tab α) {k j : Nat} (h : j ≠ k) : tabFind (tabDel t k) j = tabFind t j := by
  induction t with
  | nil => rfl
  | cons q r ih =>
    obtain ⟨a, w⟩ := q
    simp only [tabDel]
    split
    · next e => subst e; simp [tabFind, Ne.symm h]
    · simp [tabFind, ih]

/-- A write of one byte leaves every other byte alone. -/
theorem memByte_set_other (m : Memory) {k j : Nat} (b : Byte) (h : j ≠ k) : memByte (memSet m k b) j = memByte m j := by
  unfold memSet memByte
  split
  · simp [tabGet, tabFind_del_other m h]
  · exact tabGet_put_other _ _ _ h

end Sys2Proof.Machine
end

