-- ==== Sys2Proof/Laws/Lines.lean ====
section
/-! SUPPORT. What the counters and sidebands of HBM lines, and the records of errors, leave alone. -/
namespace Sys2Proof.Machine

/-! ## Lines (R91, R371, R372) -/

/-- A die without its counter cache. -/
def Die.bare (x : Die) : Die := { x with ctrCache := [] }

/-- A state without the counters and sidebands of lines, and without its dies. -/
def State.bare (s : State) : State :=
  { s with lines := [], ctrs := [], shadowCtr := [], nodeCtrs := [], keel := { s.keel with root := [] }, dies := [] }

/-- A change of a state that moves only counters, sidebands and counter caches: every field but these is equal by `congrArg` of `rest` or `die`. -/
structure State.OnlyLines (s u : State) : Prop where
  rest : u.bare = s.bare
  die : ∀ d, (u.die d).bare = (s.die d).bare

theorem State.OnlyLines.refl (s : State) : s.OnlyLines s := ⟨rfl, fun _ => rfl⟩

theorem State.OnlyLines.trans {s t u : State} (h : s.OnlyLines t) (g : t.OnlyLines u) : s.OnlyLines u :=
  ⟨g.rest.trans h.rest, fun d => (g.die d).trans (h.die d)⟩

theorem State.OnlyLines.mem {s u : State} (h : s.OnlyLines u) : u.mem = s.mem := have e := congrArg State.mem h.rest; e
theorem State.OnlyLines.cores {s u : State} (h : s.OnlyLines u) : u.cores = s.cores := have e := congrArg State.cores h.rest; e
theorem State.OnlyLines.queues {s u : State} (h : s.OnlyLines u) : u.queues = s.queues := have e := congrArg State.queues h.rest; e
theorem State.OnlyLines.parts {s u : State} (h : s.OnlyLines u) : u.parts = s.parts := have e := congrArg State.parts h.rest; e
theorem State.OnlyLines.rit {s u : State} (h : s.OnlyLines u) (d : Nat) : (u.die d).rit = (s.die d).rit := have e := congrArg Die.rit (h.die d); e
theorem State.OnlyLines.causal {s u : State} (h : s.OnlyLines u) (d : Nat) : (u.die d).causal = (s.die d).causal := have e := congrArg Die.causal (h.die d); e
theorem State.OnlyLines.applied {s u : State} (h : s.OnlyLines u) (d : Nat) : (u.die d).applied = (s.die d).applied := have e := congrArg Die.applied (h.die d); e

theorem State.setCtrCache_onlyLines (s : State) (d : Nat) (l : List (Nat × Bool)) : s.OnlyLines (s.onDie d fun x => { x with ctrCache := l }) := by
  refine ⟨rfl, fun x => ?_⟩
  by_cases e : x = d
  · subst e; simp [State.onDie, State.setDie, State.die, Die.bare]
  · simp [State.onDie, State.setDie, State.die, tabGet_put_other _ _ _ e]

theorem State.bumpNode_onlyLines (s : State) (n : Nat) : s.OnlyLines (s.bumpNode n) := by
  unfold State.bumpNode
  split <;> exact ⟨rfl, fun _ => rfl⟩

theorem State.cacheNode_onlyLines : ∀ f s d n m, State.OnlyLines s (State.cacheNode f s d n m)
  | 0, s, _, _, _ => .refl s
  | f + 1, s, d, n, m => by
    unfold State.cacheNode
    simp only
    split
    · exact setCtrCache_onlyLines ..
    split
    · split
      · exact (setCtrCache_onlyLines ..).trans (bumpNode_onlyLines ..)
      · exact ((setCtrCache_onlyLines ..).trans (bumpNode_onlyLines ..)).trans (cacheNode_onlyLines ..)
    · exact setCtrCache_onlyLines ..

theorem State.foldl_onlyLines {α : Type} (f : State → α → State) (h : ∀ s a, State.OnlyLines s (f s a)) (l : List α) (s : State) :
    s.OnlyLines (l.foldl f s) := by
  induction l generalizing s with
  | nil => exact .refl s
  | cons a l ih => exact (h s a).trans (ih _)

theorem State.dirtyLines_onlyLines (s : State) (dpa key n : Nat) (shadow : Bool) : s.OnlyLines (s.dirtyLines dpa key n shadow) :=
  foldl_onlyLines _ (fun _ _ => cacheNode_onlyLines ..) _ _

theorem State.cacheLine_onlyLines (s : State) (dpa : Nat) : s.OnlyLines (s.cacheLine dpa) :=
  foldl_onlyLines _ (fun _ _ => cacheNode_onlyLines ..) _ _

/-- A write moves the counters and sidebands of its lines and nothing else. -/
theorem State.touchLines_onlyLines (s : State) (k dpa key len : Nat) (shadow : Bool) (n : Nat) :
    s.OnlyLines (s.touchLines k dpa key len shadow n) := by
  unfold State.touchLines
  simp only
  refine OnlyLines.trans ?_ (dirtyLines_onlyLines ..)
  split <;> exact ⟨rfl, fun _ => rfl⟩

/-! ## Records (R397, R398) -/

/-- A state without what a record moves. -/
def State.quiet (s : State) : State := { s.bare with mem := [], port := [], errseq := 0, errwr := 0, errlost := 0 }

/-- A change of a state that only keeps records of the ring: every field but the bytes, the lines, the port and the ring's indices is equal by `congrArg` of `rest` or `die`. -/
structure State.OnlyRecords (s u : State) : Prop where
  rest : u.quiet = s.quiet
  die : ∀ d, (u.die d).bare = (s.die d).bare

theorem State.OnlyRecords.refl (s : State) : s.OnlyRecords s := ⟨rfl, fun _ => rfl⟩

theorem State.OnlyRecords.trans {s t u : State} (h : s.OnlyRecords t) (g : t.OnlyRecords u) : s.OnlyRecords u :=
  ⟨g.rest.trans h.rest, fun d => (g.die d).trans (h.die d)⟩

theorem State.OnlyLines.onlyRecords {s u : State} (h : s.OnlyLines u) : s.OnlyRecords u :=
  ⟨congrArg (fun t : State => ({ t with mem := [], port := [], errseq := 0, errwr := 0, errlost := 0 } : State)) h.rest, h.die⟩

theorem State.OnlyRecords.cores {s u : State} (h : s.OnlyRecords u) : u.cores = s.cores := have e := congrArg State.cores h.rest; e
theorem State.OnlyRecords.queues {s u : State} (h : s.OnlyRecords u) : u.queues = s.queues := have e := congrArg State.queues h.rest; e
theorem State.OnlyRecords.parts {s u : State} (h : s.OnlyRecords u) : u.parts = s.parts := have e := congrArg State.parts h.rest; e
theorem State.OnlyRecords.rit {s u : State} (h : s.OnlyRecords u) (d : Nat) : (u.die d).rit = (s.die d).rit := have e := congrArg Die.rit (h.die d); e

/-- Bytes of the ring reach HBM. -/
theorem State.writeDpa_onlyRecords (s : State) (k dpa : Nat) (b : ByteList) : s.OnlyRecords (s.writeDpa k dpa b) := by
  unfold State.writeDpa
  split
  · exact (touchLines_onlyLines s k dpa _ b.length false _).onlyRecords.trans ⟨rfl, fun _ => rfl⟩
  · exact .refl s

/-- A record moves the ring and nothing else. -/
theorem State.keepRecord_onlyRecords (s : State) (e : ErrRec) : s.OnlyRecords (s.keepRecord e) := by
  unfold State.keepRecord
  simp only
  refine OnlyRecords.trans (t := { s with errseq := s.errseq + 1 }) ⟨rfl, fun _ => rfl⟩ ?_
  have w {t u : State} (h : t.OnlyRecords u) : t.OnlyRecords { u with errwr := u.errwr + 1 } := h.trans ⟨rfl, fun _ => rfl⟩
  have v {t u : State} (m : PortMsg) (h : t.OnlyRecords u) : t.OnlyRecords (u.send m) := h.trans ⟨rfl, fun _ => rfl⟩
  split
  · split <;> split
    · exact v _ (w (v _ (.refl _)))
    · exact w (v _ (.refl _))
    · exact v _ (w (writeDpa_onlyRecords ..))
    · exact w (writeDpa_onlyRecords ..)
  · exact ⟨rfl, fun _ => rfl⟩

/-- The record of a cause that names no queue moves the ring and nothing else. -/
theorem State.errorRecord_onlyRecords (s : State) (e : ErrRec) (h : e.origin = none) : s.OnlyRecords (s.errorRecord e) := by
  unfold State.errorRecord
  rw [h]
  exact keepRecord_onlyRecords s e

end Sys2Proof.Machine
end

