-- ==== Sys2Proof/Laws/Memory.lean ====
section
/-! SUPPORT. The byte memory keeps its canonical form (log 4): the predicates, and every operation shared by all families. -/
namespace Sys2Proof.Machine

/-- The byte memory of a state has its canonical form. -/
structure MemWf (s : State) : Prop where
  h : Memory.wf s.mem = true

/-- A next state has canonical memory. -/
inductive OutWf : Host.Outcome State Fault Refusal → Prop
  | next {t : State} (h : MemWf t) : OutWf (.next t)
  | fault {f : Fault} : OutWf (.fault f)
  | refused {f : Refusal} : OutWf (.refused f)

/-- So has the state of a strand's effect. -/
inductive EffWf : Eff → Prop
  | done {t : State} (h : MemWf t) : EffWf (.done t)
  | jump {t : State} {a : Word64} (h : MemWf t) : EffWf (.jump t a)
  | wait {t : State} {a : Hold} (h : MemWf t) : EffWf (.wait t a)
  | over {t : State} (h : MemWf t) : EffWf (.over t)
  | stay {t : State} (h : MemWf t) : EffWf (.stay t)
  | trap {a : Nat} {b c : Word64} : EffWf (.trap a b c)

/-- So has the state of an access word's effect. -/
inductive AEffWf : AEff → Prop
  | done {x : Ctx} {t : State} (h : MemWf t) : AEffWf (.done x t)
  | jump {x : Ctx} {t : State} {a : Int} (h : MemWf t) : AEffWf (.jump x t a)
  | hold : AEffWf .hold
  | fault {c : Cause} : AEffWf (.fault c)
  | part {x : Ctx} {t : State} {c : Cause} (h : MemWf t) : AEffWf (.part x t c)

/-- A property of the value of an access, and canonical memory where a cause leaves a state. -/
inductive AccP {α : Type} (P : α → Prop) : Acc α → Prop
  | ok {v : α} (h : P v) : AccP P (.ok v)
  | wait {h : Held} : AccP P (.wait h)
  | bad {c : Cause} : AccP P (.bad c)
  | part {t : State} {c : Cause} (h : MemWf t) : AccP P (.part t c)

/-- A state, where there is one, has canonical memory. -/
inductive OptWf : Option State → Prop
  | none : OptWf none
  | some {s : State} (h : MemWf s) : OptWf (some s)

/-- A property of a value that is no error. -/
inductive ExcP {ε α : Type} (P : α → Prop) : Except ε α → Prop
  | ok {v : α} (h : P v) : ExcP P (.ok v)
  | error {c : ε} : ExcP P (.error c)

/-- Such values that are a state, a pair with a state, or no state. -/
abbrev AccWf (a : Acc State) : Prop := AccP (fun s => MemWf s) a
abbrev AccWf2 {α : Type} (a : Acc (α × State)) : Prop := AccP (fun s => MemWf s.2) a
abbrev AccWf0 {α : Type} (a : Acc α) : Prop := AccP (fun _ => True) a

/-- The same. -/
abbrev ExcWf {ε : Type} (a : Except ε State) : Prop := ExcP (fun s => MemWf s) a
abbrev ExcWf2 {ε α : Type} (a : Except ε (α × State)) : Prop := ExcP (fun s => MemWf s.2) a

theorem foldl_wf {β : Type} {g : State → β → State} {l : List β} {s : State}
    (hg : ∀ s b, MemWf s → MemWf (g s b)) (h : MemWf s) :
    MemWf (l.foldl g s) := by
  induction l generalizing s with
  | nil => exact h
  | cons b r ih => exact ih (hg s b h)

theorem excP_true {ε α : Type} (a : Except ε α) : ExcP (fun _ => True) a := by
  cases a
  · exact .error
  · exact .ok True.intro
theorem excWf_map {ε α : Type} {a : Except ε (α × State)} {f : α × State → State} (h : ExcWf2 a) (hf : ∀ b u, MemWf u → MemWf (f (b, u))) :
    ExcWf (a.map f) := by
  cases h with
  | @ok v h => exact .ok (hf v.1 v.2 h)
  | error => exact .error
theorem excWf_mapS {ε : Type} {a : Except ε State} {f : State → State} (h : ExcWf a) (hf : ∀ u, MemWf u → MemWf (f u)) : ExcWf (a.map f) := by
  cases h with
  | ok h => exact .ok (hf _ h)
  | error => exact .error
theorem accP_of {α : Type} {P : α → Prop} {w : Who} {a : Except Cause α} (h : ExcP P a) : AccP P (Acc.of w a) := by
  unfold Acc.of
  cases h with
  | ok h => exact .ok h
  | error => dsimp only; split <;> constructor
theorem accP_ordered {α : Type} {P : α → Prop} {s : State} {r : ReqFor} {a : Acc α} (h : AccP P a) : AccP P (Acc.ordered s r a) := by
  unfold Acc.ordered
  split
  · split <;> exact .wait
  · exact h
theorem accS_next {β : Type} {Q : β → Prop} {a : Acc State} {f : State → Acc β} (h : AccWf a)
    (hf : ∀ u, MemWf u → AccP Q (f u)) : AccP Q (a.next f) := by
  cases h with
  | ok h => exact hf _ h
  | wait => exact .wait
  | bad => exact .bad
  | part h => exact .part h
theorem acc2_next {α β : Type} {Q : β → Prop} {a : Acc (α × State)} {f : α × State → Acc β} (h : AccWf2 a)
    (hf : ∀ b u, MemWf u → AccP Q (f (b, u))) : AccP Q (a.next f) := by
  cases h with
  | @ok v h => exact hf v.1 v.2 h
  | wait => exact .wait
  | bad => exact .bad
  | part h => exact .part h
theorem acc0_next {α β : Type} {Q : β → Prop} {a : Acc α} {f : α → Acc β} (h : AccWf0 a)
    (hf : ∀ b, AccP Q (f b)) : AccP Q (a.next f) := by
  cases h with
  | ok _ => exact hf _
  | wait => exact .wait
  | bad => exact .bad
  | part h => exact .part h
theorem excWf_out {ε : Type} {a : Except ε State} {u : State} (h : ExcWf a) (e : a = .ok u) : MemWf u := by
  subst e; cases h; assumption
theorem excWf2_out {ε α : Type} {a : Except ε (α × State)} {b : α} {u : State} (h : ExcWf2 a) (e : a = .ok (b, u)) :
    MemWf u := by
  subst e; cases h; assumption
theorem excWf2_pair {ε α : Type} {a : Except ε (α × State)} {u : α × State} (h : ExcWf2 a) (e : a = .ok u) :
    MemWf u.2 := by
  subst e; cases h; assumption
theorem optWf_out {a : Option State} {u : State} (h : OptWf a) (e : a = some u) : MemWf u := by
  subst e; cases h; assumption
theorem accWf_out {a : Acc State} {u : State} (h : AccWf a) (e : a = .ok u) : MemWf u := by
  subst e; cases h; assumption
theorem accP_parted {α : Type} {P : α → Prop} {a : Acc α} {u : State} {c : Cause} (h : AccP P a) (e : a = .part u c) : MemWf u := by
  subst e; cases h; assumption
theorem accWf2_out {α : Type} {a : Acc (α × State)} {b : α} {u : State} (h : AccWf2 a) (e : a = .ok (b, u)) :
    MemWf u := by
  subst e; cases h; assumption
theorem accWf2_pair {α : Type} {a : Acc (α × State)} {u : α × State} (h : AccWf2 a) (e : a = .ok u) :
    MemWf u.2 := by
  subst e; cases h; assumption
theorem prod1_out {α : Type} {a : State × α} {b : α} {u : State} (h : MemWf a.1) (e : a = (u, b)) :
    MemWf u := by
  subst e; exact h
theorem prod2_out {α : Type} {a : α × State} {b : α} {u : State} (h : MemWf a.2) (e : a = (b, u)) :
    MemWf u := by
  subst e; exact h
theorem effWf_done_out {a : Eff} {u : State} (h : EffWf a) (e : a = .done u) : MemWf u := by
  subst e; cases h; assumption
theorem effWf_jump_out {a : Eff} {u : State} {p : Word64} (h : EffWf a) (e : a = .jump u p) : MemWf u := by
  subst e; cases h; assumption
theorem effWf_wait_out {a : Eff} {u : State} {p : Hold} (h : EffWf a) (e : a = .wait u p) : MemWf u := by
  subst e; cases h; assumption
theorem effWf_stay_out {a : Eff} {u : State} (h : EffWf a) (e : a = .stay u) : MemWf u := by
  subst e; cases h; assumption
theorem effWf_over_out {a : Eff} {u : State} (h : EffWf a) (e : a = .over u) : MemWf u := by
  subst e; cases h; assumption


theorem ite_wf {c : Prop} [Decidable c] {a b : State} (ha : MemWf a) (hb : MemWf b) :
    MemWf (if c then a else b) := by split <;> assumption
theorem ite_outWf {c : Prop} [Decidable c] {a b : Host.Outcome State Fault Refusal} (ha : OutWf a) (hb : OutWf b) : OutWf (if c then a else b) := by
  split <;> assumption
theorem ite_effWf {c : Prop} [Decidable c] {a b : Eff} (ha : EffWf a) (hb : EffWf b) : EffWf (if c then a else b) := by
  split <;> assumption
theorem ite_aeffWf {c : Prop} [Decidable c] {a b : AEff} (ha : AEffWf a) (hb : AEffWf b) : AEffWf (if c then a else b) := by
  split <;> assumption
theorem ite_accP {α : Type} {P : α → Prop} {c : Prop} [Decidable c] {a b : Acc α} (ha : AccP P a) (hb : AccP P b) :
    AccP P (if c then a else b) := by split <;> assumption
theorem ite_excP {ε α : Type} {P : α → Prop} {c : Prop} [Decidable c] {a b : Except ε α} (ha : ExcP P a) (hb : ExcP P b) :
    ExcP P (if c then a else b) := by split <;> assumption
theorem excWf2_map {ε α β : Type} {a : Except ε (α × State)} {f : α × State → β} (h : ExcWf2 a) :
    ExcWf2 (a.map fun r => (f r, r.2)) := by
  cases h with
  | ok h => exact .ok h
  | error => exact .error

/-! ## State -/

theorem State.reset_memWf : MemWf (State.reset) := by
  exact ⟨rfl⟩

/-! ## Ops -/

theorem State.setCore_memWf {s : State} {c : Nat} {x : Core} (hs : MemWf s) : MemWf (State.setCore s c x) := by
  unfold State.setCore
  repeat' first | with_reducible assumption | with_reducible apply MemWf.h | (refine MemWf.mk ?_; dsimp only)

theorem State.onCore_memWf {s : State} {c : Nat} {f : Core → Core} (hs : MemWf s) : MemWf (State.onCore s c f) := by
  unfold State.onCore
  repeat' first | with_reducible assumption | with_reducible apply State.setCore_memWf

theorem State.setStrand_memWf {s : State} {c k : Nat} {t : Strand} (hs : MemWf s) : MemWf (State.setStrand s c k t) := by
  unfold State.setStrand
  repeat' first | with_reducible assumption | with_reducible apply State.setCore_memWf

theorem State.onStrand_memWf {s : State} {c k : Nat} {f : Strand → Strand} (hs : MemWf s) : MemWf (State.onStrand s c k f) := by
  unfold State.onStrand
  repeat' first | with_reducible assumption | with_reducible apply State.setStrand_memWf

theorem State.setPart_memWf {s : State} {p : Nat} {x : Part} (hs : MemWf s) : MemWf (State.setPart s p x) := by
  unfold State.setPart
  repeat' first | with_reducible assumption | with_reducible apply MemWf.h | (refine MemWf.mk ?_; dsimp only)

theorem State.onPart_memWf {s : State} {p : Nat} {f : Part → Part} (hs : MemWf s) : MemWf (State.onPart s p f) := by
  unfold State.onPart
  repeat' first | with_reducible assumption | with_reducible apply State.setPart_memWf

theorem State.setDie_memWf {s : State} {d : Nat} {x : Die} (hs : MemWf s) : MemWf (State.setDie s d x) := by
  unfold State.setDie
  repeat' first | with_reducible assumption | with_reducible apply MemWf.h | (refine MemWf.mk ?_; dsimp only)

theorem State.onDie_memWf {s : State} {d : Nat} {f : Die → Die} (hs : MemWf s) : MemWf (State.onDie s d f) := by
  unfold State.onDie
  repeat' first | with_reducible assumption | with_reducible apply State.setDie_memWf

theorem State.setQueue_memWf {s : State} {q : Nat} {x : Queue} (hs : MemWf s) : MemWf (State.setQueue s q x) := by
  unfold State.setQueue
  repeat' first | with_reducible assumption | with_reducible apply MemWf.h | (refine MemWf.mk ?_; dsimp only)

theorem State.onQueue_memWf {s : State} {q : Nat} {f : Queue → Queue} (hs : MemWf s) : MemWf (State.onQueue s q f) := by
  unfold State.onQueue
  repeat' first | with_reducible assumption | with_reducible apply State.setQueue_memWf

theorem State.setVf_memWf {s : State} {v : Nat} {x : Vf} (hs : MemWf s) : MemWf (State.setVf s v x) := by
  unfold State.setVf
  repeat' first | with_reducible assumption | with_reducible apply MemWf.h | (refine MemWf.mk ?_; dsimp only)

theorem State.setPort_memWf {s : State} {n : Nat} {x : Port} (hs : MemWf s) : MemWf (State.setPort s n x) := by
  unfold State.setPort
  repeat' first | with_reducible assumption | with_reducible apply MemWf.h | (refine MemWf.mk ?_; dsimp only)

theorem State.setCtx_memWf {s : State} {mse ctx : Nat} {x : Ctx} (hs : MemWf s) : MemWf (State.setCtx s mse ctx x) := by
  unfold State.setCtx
  repeat' first | with_reducible assumption | with_reducible apply MemWf.h | (refine MemWf.mk ?_; dsimp only)

theorem State.send_memWf {s : State} {m : PortMsg} (hs : MemWf s) : MemWf (State.send s m) := by
  unfold State.send
  repeat' first | with_reducible assumption | with_reducible apply MemWf.h | (refine MemWf.mk ?_; dsimp only)

theorem State.bumpId_memWf {s : State} (hs : MemWf s) : MemWf (State.bumpId s) := by
  unfold State.bumpId
  repeat' first | with_reducible assumption | with_reducible apply MemWf.h | (refine MemWf.mk ?_; dsimp only)

theorem State.writeLocal_memWf {s : State} {c : Nat} {shadow : Bool} {off : Nat} {x4 : ByteList} (hs : MemWf s) :
    MemWf (State.writeLocal s c shadow off x4) := by
  induction x4 generalizing s off with
  | nil => exact hs
  | cons b r ih =>
    unfold State.writeLocal
    apply ih
    split
    · exact ⟨memSet_wf hs.h _ _⟩
    · exact hs

theorem State.bumpNode_memWf {s : State} {n : Nat} (hs : MemWf s) : MemWf (State.bumpNode s n) := by
  unfold State.bumpNode
  repeat' first | with_reducible assumption | with_reducible apply MemWf.h | with_reducible apply ite_wf | dsimp only | (refine MemWf.mk ?_; dsimp only)

theorem State.cacheNode_memWf {x0 : Nat} {x1 : State} {x2 x3 : Nat} {x4 : Bool} (hx1 : MemWf x1) : MemWf (State.cacheNode x0 x1 x2 x3 x4) := by
  induction x0 generalizing x1 x2 x3 x4 with
  | zero => exact hx1
  | succ f ih =>
    unfold State.cacheNode
    dsimp only
    apply ite_wf (State.onDie_memWf hx1)
    exact ite_wf (ite_wf (State.bumpNode_memWf (State.onDie_memWf hx1)) (ih (State.bumpNode_memWf (State.onDie_memWf hx1)))) (State.onDie_memWf hx1)

theorem State.cacheLine_memWf {s : State} {dpa : Nat} (hs : MemWf s) : MemWf (State.cacheLine s dpa) := by
  unfold State.cacheLine
  repeat' first | with_reducible assumption | with_reducible intro _ | with_reducible apply State.cacheNode_memWf | with_reducible apply foldl_wf

theorem State.dirtyLines_memWf {s : State} {dpa key n : Nat} {shadow : Bool} (hs : MemWf s) : MemWf (State.dirtyLines s dpa key n shadow) := by
  unfold State.dirtyLines
  repeat' first | with_reducible assumption | with_reducible intro _ | with_reducible apply State.cacheNode_memWf | with_reducible apply foldl_wf

theorem State.touchLines_memWf {s : State} {k dpa key len : Nat} {shadow : Bool} {n : Nat} (hs : MemWf s) :
    MemWf (State.touchLines s k dpa key len shadow n) := by
  unfold State.touchLines
  repeat' first | with_reducible assumption | with_reducible apply State.dirtyLines_memWf | with_reducible apply MemWf.h | split | dsimp only | (refine MemWf.mk ?_; dsimp only)

theorem State.arriveAt_memWf {s : State} {r : ReqFor} {key : Nat} (hs : MemWf s) : MemWf (State.arriveAt s r key) := by
  unfold State.arriveAt
  repeat' first | with_reducible assumption | with_reducible apply MemWf.h | with_reducible apply ite_wf | (refine MemWf.mk ?_; dsimp only)

theorem State.fillTlb_memWf {s : State} {w : Who} {e : TlbEntry} (hs : MemWf s) : MemWf (State.fillTlb s w e) := by
  unfold State.fillTlb
  repeat' first | with_reducible assumption | with_reducible apply State.onCore_memWf | with_reducible apply MemWf.h | split | dsimp only | (refine MemWf.mk ?_; dsimp only)

theorem State.askAts_memWf {s : State} {r : ReqFor} {iova : Nat} (hs : MemWf s) : MemWf (State.askAts s r iova) := by
  unfold State.askAts
  repeat' first | with_reducible assumption | with_reducible apply State.send_memWf | with_reducible apply MemWf.h | with_reducible apply ite_wf | split | dsimp only | (refine MemWf.mk ?_; dsimp only)

theorem State.meetRefusal_memWf {s : State} {code : Nat} {info1 : Word64} (hs : MemWf s) : MemWf (State.meetRefusal s code info1) := by
  unfold State.meetRefusal
  repeat' first | with_reducible assumption | with_reducible apply MemWf.h | with_reducible apply ite_wf | dsimp only | (refine MemWf.mk ?_; dsimp only)

theorem State.cachePage_memWf {s : State} {p : Nat} (hs : MemWf s) : MemWf (State.cachePage s p) := by
  unfold State.cachePage
  repeat' first | with_reducible assumption | with_reducible apply MemWf.h | split | dsimp only | (refine MemWf.mk ?_; dsimp only)

theorem State.sendFabric_memWf {s : State} {die dest addr : Nat} {m : FabricMsg} (hs : MemWf s) : MemWf (State.sendFabric s die dest addr m) := by
  unfold State.sendFabric
  repeat' first | with_reducible assumption | with_reducible apply State.send_memWf | with_reducible apply State.setPort_memWf | with_reducible apply MemWf.h | with_reducible apply ite_wf | (refine MemWf.mk ?_; dsimp only)

theorem State.flushUnsent_memWf {s : State} (hs : MemWf s) : MemWf (State.flushUnsent s) := by
  unfold State.flushUnsent
  repeat' first | with_reducible assumption | with_reducible intro _ | with_reducible apply State.sendFabric_memWf | with_reducible apply MemWf.h | with_reducible apply foldl_wf | (refine MemWf.mk ?_; dsimp only)

theorem State.ask_memWf {s : State} {r : ReqFor} {key tier addr : Nat} {info : Word64} {kind len : Nat} {b : ByteList} (hs : MemWf s) :
    MemWf (State.ask s r key tier addr info kind len b) := by
  unfold State.ask
  repeat' first | with_reducible assumption | with_reducible apply State.sendFabric_memWf | with_reducible apply State.send_memWf | with_reducible apply MemWf.h | split | dsimp only | (refine MemWf.mk ?_; dsimp only)

theorem State.askNowhere_memWf {s : State} {r : ReqFor} {addr : Nat} {info : Word64} {kind : Nat} (hs : MemWf s) :
    MemWf (State.askNowhere s r addr info kind) := by
  unfold State.askNowhere
  repeat' first | with_reducible assumption | with_reducible apply MemWf.h | (refine MemWf.mk ?_; dsimp only)

theorem State.await_memWf {s : State} {w : Who} {x : Cause} (hs : MemWf s) : MemWf (State.await s w x) := by
  unfold State.await
  repeat' first | with_reducible assumption | with_reducible apply State.askAts_memWf | with_reducible apply State.arriveAt_memWf | with_reducible apply State.askNowhere_memWf | with_reducible apply State.ask_memWf | with_reducible apply ite_wf

theorem State.writePiece_memWf {s : State} {w : Who} {shadow : Bool} {p : Piece} {b : ByteList} (hs : MemWf s) :
    MemWf (State.writePiece s w shadow p b) := by
  unfold State.writePiece
  repeat' first | with_reducible assumption | with_reducible apply State.touchLines_memWf | with_reducible apply State.ask_memWf | with_reducible apply MemWf.h | with_reducible apply memSetList_wf | split | dsimp only | (refine MemWf.mk ?_; dsimp only)

theorem State.serve_memWf {s : State} {p : Piece} (hs : MemWf s) : MemWf (State.serve s p) := by
  unfold State.serve
  repeat' first | with_reducible assumption | with_reducible intro _ | with_reducible apply State.onDie_memWf | with_reducible apply State.cacheLine_memWf | with_reducible apply foldl_wf | split

theorem State.fillAll_memWf {s : State} {w : Who} {ps : List (Piece × TlbEntry)} (hs : MemWf s) : MemWf (State.fillAll s w ps) := by
  unfold State.fillAll
  repeat' first | with_reducible assumption | with_reducible intro _ | with_reducible apply State.serve_memWf | with_reducible apply State.fillTlb_memWf | with_reducible apply MemWf.h | with_reducible apply foldl_wf | dsimp only | (refine MemWf.mk ?_; dsimp only)

theorem State.readG_memWf {s : State} {w : Who} {k : AKind} {va n : Nat} (hs : MemWf s) : ExcWf2 (State.readG s w k va n) := by
  unfold State.readG
  repeat' first | with_reducible assumption | with_reducible apply State.fillAll_memWf | with_reducible apply ite_excP | with_reducible apply ExcP.ok | with_reducible apply ExcP.error | split

theorem State.writeG_memWf {s : State} {w : Who} {shadow : Bool} {va : Nat} {b : ByteList} (hs : MemWf s) : ExcWf (State.writeG s w shadow va b) := by
  unfold State.writeG
  repeat' first | with_reducible assumption | with_reducible intro _ | with_reducible apply State.writePiece_memWf | with_reducible apply State.fillAll_memWf | with_reducible apply foldl_wf | with_reducible apply ite_excP | with_reducible apply ExcP.ok | with_reducible apply ExcP.error | split

theorem State.cleanWords_memWf {s : State} {keys : List Nat} (hs : MemWf s) : MemWf (State.cleanWords s keys) := by
  unfold State.cleanWords
  repeat' first | with_reducible assumption | with_reducible apply MemWf.h | (refine MemWf.mk ?_; dsimp only)

theorem memSetKeys_wf {m : Memory} (h : m.wf = true) (ks : List Nat) (b : ByteList) : Memory.wf (memSetKeys m ks b) = true := by
  induction ks generalizing m b with
  | nil => exact h
  | cons k r ih =>
    cases b with
    | nil => exact h
    | cons v l => exact ih (memSet_wf h k v) l

theorem State.writeDpa_memWf {s : State} {k dpa : Nat} {b : ByteList} (hs : MemWf s) : MemWf (State.writeDpa s k dpa b) := by
  unfold State.writeDpa
  repeat' first | with_reducible assumption | with_reducible apply State.touchLines_memWf | with_reducible apply MemWf.h | with_reducible apply memSetList_wf | split | dsimp only | (refine MemWf.mk ?_; dsimp only)

theorem State.sendMsix_memWf {s : State} {q vector : Nat} (hs : MemWf s) : MemWf (State.sendMsix s q vector) := by
  unfold State.sendMsix
  repeat' first | with_reducible assumption | with_reducible apply State.send_memWf | with_reducible apply ite_wf

theorem State.writeForm_memWf {s : State} {w : Who} {a : Word64} {b : ByteList} (hs : MemWf s) : ExcWf (State.writeForm s w a b) := by
  unfold State.writeForm
  repeat' first | with_reducible assumption | with_reducible apply State.send_memWf | with_reducible apply State.writeG_memWf | with_reducible apply ite_excP | with_reducible apply ExcP.ok

theorem State.keepRecord_memWf {s : State} {e : ErrRec} (hs : MemWf s) : MemWf (State.keepRecord s e) := by
  unfold State.keepRecord
  repeat' first | with_reducible assumption | with_reducible apply State.send_memWf | with_reducible apply State.writeDpa_memWf | with_reducible apply MemWf.h | with_reducible apply ite_wf | split | dsimp only | (refine MemWf.mk ?_; dsimp only)

theorem State.passNote_memWf {s : State} {q : Nat} (hs : MemWf s) : MemWf (State.passNote s q) := by
  unfold State.passNote
  repeat' first | with_reducible assumption | with_reducible apply State.onQueue_memWf

theorem State.putEntry_memWf {s : State} {q : Nat} {b : ByteList} (hs : MemWf s) : ExcWf (State.putEntry s q b) := by
  unfold State.putEntry
  repeat' first | with_reducible assumption | with_reducible apply State.writeForm_memWf | with_reducible apply State.sendMsix_memWf | with_reducible apply State.passNote_memWf | with_reducible apply ite_wf | with_reducible apply ExcP.ok | with_reducible apply ExcP.error | split | dsimp only | (with_reducible refine excWf_out ?_ (by assumption))

theorem State.requeueNote_memWf {s : State} {q addr : Nat} {b : ByteList} (hs : MemWf s) : MemWf (State.requeueNote s q addr b) := by
  unfold State.requeueNote
  repeat' first | with_reducible assumption | with_reducible apply State.onQueue_memWf

theorem State.loseNote_memWf {s : State} {q addr : Nat} {c : Cause} (hs : MemWf s) : MemWf (State.loseNote s q addr c) := by
  unfold State.loseNote
  repeat' first | with_reducible assumption | with_reducible apply State.passNote_memWf | with_reducible apply State.meetRefusal_memWf | with_reducible apply State.keepRecord_memWf | with_reducible apply State.requeueNote_memWf | with_reducible apply State.putEntry_memWf | with_reducible apply State.await_memWf | with_reducible apply ite_wf | split | (with_reducible refine excWf_out ?_ (by assumption))

theorem State.putNote_memWf {s : State} {q addr : Nat} {b : ByteList} (hs : MemWf s) : MemWf (State.putNote s q addr b) := by
  unfold State.putNote
  repeat' first | with_reducible assumption | with_reducible apply State.putEntry_memWf | with_reducible apply State.await_memWf | with_reducible apply State.requeueNote_memWf | with_reducible apply State.loseNote_memWf | with_reducible apply ite_wf | split | (with_reducible refine excWf_out ?_ (by assumption))

theorem State.notify_memWf {s : State} {q addr : Nat} {b : ByteList} (hs : MemWf s) : MemWf (State.notify s q addr b) := by
  unfold State.notify
  repeat' first | with_reducible assumption | with_reducible apply State.onQueue_memWf | with_reducible apply State.putNote_memWf | with_reducible apply ite_wf

theorem State.noteRecord_memWf {s : State} {q cause seq : Nat} (hs : MemWf s) : MemWf (State.noteRecord s q cause seq) := by
  unfold State.noteRecord
  repeat' first | with_reducible assumption | with_reducible apply State.notify_memWf

theorem State.errorRecord_memWf {s : State} {e : ErrRec} (hs : MemWf s) : MemWf (State.errorRecord s e) := by
  unfold State.errorRecord
  repeat' first | with_reducible assumption | with_reducible apply State.keepRecord_memWf | with_reducible apply State.noteRecord_memWf | with_reducible apply ite_wf | split

theorem State.finishPacket_memWf {s : State} {q pid status slot : Nat} (hs : MemWf s) : MemWf (State.finishPacket s q pid status slot) := by
  unfold State.finishPacket
  repeat' first | with_reducible assumption | with_reducible apply State.onQueue_memWf

theorem State.disown_memWf {s : State} {f : ReqFor → Bool} (hs : MemWf s) : MemWf (State.disown s f) := by
  unfold State.disown
  repeat' first | with_reducible assumption | with_reducible apply MemWf.h | dsimp only | (refine MemWf.mk ?_; dsimp only)

theorem State.spend_memWf {s : State} {r : ReqFor} (hs : MemWf s) : MemWf (State.spend s r) := by
  unfold State.spend
  repeat' first | with_reducible assumption | with_reducible apply MemWf.h | (refine MemWf.mk ?_; dsimp only)

theorem State.freePart_memWf {s : State} {p : Nat} (hs : MemWf s) : MemWf (State.freePart s p) := by
  unfold State.freePart
  repeat' first | with_reducible assumption | with_reducible intro _ | with_reducible apply State.onCore_memWf | with_reducible apply State.disown_memWf | with_reducible apply MemWf.h | with_reducible apply foldl_wf | dsimp only | (refine MemWf.mk ?_; dsimp only)

theorem State.abortPacket_memWf {s : State} {q pid : Nat} {x : Cause} {seq : Option Nat} (hs : MemWf s) : MemWf (State.abortPacket s q pid x seq) := by
  unfold State.abortPacket
  repeat' first | with_reducible assumption | with_reducible apply State.onQueue_memWf

theorem State.endPart_memWf {s : State} {p : Nat} {x : Cause} {seq : Nat} (hs : MemWf s) : MemWf (State.endPart s p x seq) := by
  unfold State.endPart
  repeat' first | with_reducible assumption | with_reducible apply State.onQueue_memWf | with_reducible apply State.abortPacket_memWf | with_reducible apply State.onPart_memWf | with_reducible apply State.freePart_memWf | with_reducible apply ite_wf

theorem State.decideSave_memWf {s : State} {p reason slot : Nat} (hs : MemWf s) : MemWf (State.decideSave s p reason slot) := by
  unfold State.decideSave
  repeat' first | with_reducible assumption | with_reducible apply State.onQueue_memWf | with_reducible apply State.onPart_memWf

theorem State.recordEnd_memWf {s : State} {p : Nat} {e : ErrRec} {x : Cause} (hs : MemWf s) : MemWf (State.recordEnd s p e x) := by
  unfold State.recordEnd
  repeat' first | with_reducible assumption | with_reducible apply State.endPart_memWf | with_reducible apply State.keepRecord_memWf

theorem State.saveFail_memWf {s : State} {p sub : Nat} {addr cause : Word64} (hs : MemWf s) : MemWf (State.saveFail s p sub addr cause) := by
  unfold State.saveFail
  repeat' first | with_reducible assumption | with_reducible apply State.recordEnd_memWf

theorem State.askSave_memWf {s : State} {p reason : Nat} (hs : MemWf s) : MemWf (State.askSave s p reason) := by
  unfold State.askSave
  repeat' first | with_reducible assumption | with_reducible apply State.onPart_memWf | with_reducible apply State.decideSave_memWf | with_reducible apply State.saveFail_memWf | with_reducible apply ite_wf | split

theorem State.askedSave_memWf {s : State} {p : Nat} (hs : MemWf s) : MemWf (State.askedSave s p) := by
  unfold State.askedSave
  repeat' first | with_reducible assumption | with_reducible apply State.askSave_memWf | split

theorem State.stopPart_memWf {s : State} {p : Nat} {e : ErrRec} {x : Cause} (hs : MemWf s) : MemWf (State.stopPart s p e x) := by
  unfold State.stopPart
  repeat' first | with_reducible assumption | with_reducible apply State.recordEnd_memWf | with_reducible apply State.askSave_memWf | with_reducible apply State.errorRecord_memWf | with_reducible apply ite_wf

theorem State.noHandler_memWf {s : State} {c k cause : Nat} {info info1 : Word64} {place : Nat} (hs : MemWf s) :
    MemWf (State.noHandler s c k cause info info1 place) := by
  unfold State.noHandler
  repeat' first | with_reducible assumption | with_reducible apply State.onStrand_memWf | with_reducible apply State.stopPart_memWf | with_reducible apply State.errorRecord_memWf | split | dsimp only

theorem State.takeTrapAt_memWf {s : State} {c k cause : Nat} {info info1 : Word64} {place : Nat} (hs : MemWf s) :
    MemWf (State.takeTrapAt s c k cause info info1 place) := by
  unfold State.takeTrapAt
  repeat' first | with_reducible assumption | with_reducible apply State.meetRefusal_memWf | with_reducible apply State.noHandler_memWf | with_reducible apply State.setStrand_memWf | with_reducible apply State.writeLocal_memWf | with_reducible apply ite_wf

theorem State.takeTrap_memWf {s : State} {c k cause : Nat} {info info1 : Word64} (hs : MemWf s) : MemWf (State.takeTrap s c k cause info info1) := by
  unfold State.takeTrap
  repeat' first | with_reducible assumption | with_reducible apply State.takeTrapAt_memWf

theorem State.idle_memWf {s : State} {c : Nat} (hs : MemWf s) : MemWf (State.idle s c) := by
  unfold State.idle
  repeat' first | with_reducible assumption | with_reducible apply State.onCore_memWf

theorem State.past_memWf {s : State} {c k : Nat} {pc : Word64} (hs : MemWf s) : MemWf (State.past s c k pc) := by
  unfold State.past
  repeat' first | with_reducible assumption | with_reducible apply State.onStrand_memWf

theorem State.coxRun_memWf {s : State} {long : Bool} {g : Guard} {uses : List Nat} {f : Nat → Nat → Strand → State → Eff} (hs : MemWf s)
  (hf : ∀ c k t u, MemWf u → EffWf (f c k t u)) : OutWf (State.coxRun s long g uses f) := by
  unfold State.coxRun
  split
  · next c k _ =>
    apply ite_outWf (.next (State.idle_memWf hs))
    apply ite_outWf (.next (State.past_memWf (State.setStrand_memWf hs)))
    apply ite_outWf (.next (State.idle_memWf hs))
    dsimp only
    generalize hu : s.setStrand c k _ = u
    have hw : MemWf u := hu ▸ State.setStrand_memWf hs
    have := hf c k (s.found c k g uses) u hw
    split <;> rename_i he <;> rw [he] at this <;> cases this
    · exact .next (State.past_memWf ‹_›)
    · exact .next (State.past_memWf ‹_›)
    · exact .next (State.onStrand_memWf ‹_›)
    · exact .next (State.idle_memWf ‹_›)
    · exact ite_outWf (.next (State.idle_memWf (State.await_memWf hw))) (ite_outWf (.next (State.idle_memWf hw)) (.next (State.takeTrap_memWf hw)))
    · exact .next ‹_›
  · exact .fault

/-! ## Operands -/

theorem putS_memWf {c k d : Nat} {v : Word64} {t : Strand} {s : State} (hs : MemWf s) : EffWf (putS c k d v t s) := by
  unfold putS
  repeat' first | with_reducible assumption | with_reducible apply State.setStrand_memWf | with_reducible apply EffWf.done

theorem State.aluReg_memWf {s : State} {f : Word64 → Word64 → Word64} {g : Guard} {d a b : Nat} (hs : MemWf s) : OutWf (State.aluReg s f g d a b) := by
  unfold State.aluReg
  repeat' first | with_reducible assumption | with_reducible intro _ | with_reducible apply State.coxRun_memWf | with_reducible apply putS_memWf

theorem State.aluLong_memWf {s : State} {f : Word64 → Word64 → Word64} {g : Guard} {d a : Nat} {e : Word32} (hs : MemWf s) :
    OutWf (State.aluLong s f g d a e) := by
  unfold State.aluLong
  repeat' first | with_reducible assumption | with_reducible intro _ | with_reducible apply State.coxRun_memWf | with_reducible apply putS_memWf

theorem State.aluOne_memWf {s : State} {f : Word64 → Word64} {g : Guard} {d a : Nat} (hs : MemWf s) : OutWf (State.aluOne s f g d a) := by
  unfold State.aluOne
  repeat' first | with_reducible assumption | with_reducible intro _ | with_reducible apply State.coxRun_memWf | with_reducible apply putS_memWf

theorem State.slow_memWf {s : State} {long : Bool} {lat : Nat} {i : Instr} {g : Guard} {uses : List Nat} {dst : Nat} {opA opB opD : Strand → Word64} {f : Word64 → Word64 → Word64 → Word64} (hs : MemWf s) :
    OutWf (State.slow s long lat i g uses dst opA opB opD f) := by
  unfold State.slow
  repeat' first | with_reducible assumption | with_reducible intro _ | with_reducible apply State.coxRun_memWf | with_reducible apply State.setStrand_memWf | with_reducible apply EffWf.done

theorem State.slowReg_memWf {s : State} {lat : Nat} {i : Instr} {f : Word64 → Word64 → Word64} {g : Guard} {d a b : Nat} (hs : MemWf s) :
    OutWf (State.slowReg s lat i f g d a b) := by
  unfold State.slowReg
  repeat' first | with_reducible assumption | with_reducible apply State.slow_memWf

theorem State.slowLong_memWf {s : State} {lat : Nat} {i : Instr} {f : Word64 → Word64 → Word64} {g : Guard} {d a : Nat} {e : Word32} (hs : MemWf s) :
    OutWf (State.slowLong s lat i f g d a e) := by
  unfold State.slowLong
  repeat' first | with_reducible assumption | with_reducible apply State.slow_memWf

/-! ## Fetch -/

theorem State.sameCycle_memWf {s : State} (hs : MemWf s) : MemWf (State.sameCycle s) := by
  unfold State.sameCycle
  repeat' first | with_reducible assumption | with_reducible apply MemWf.h | (refine MemWf.mk ?_; dsimp only)

theorem State.passTime_memWf {s : State} (hs : MemWf s) : MemWf (State.passTime s) := by
  unfold State.passTime
  repeat' first | with_reducible assumption | with_reducible apply MemWf.h | split | dsimp only | (refine MemWf.mk ?_; dsimp only)

theorem State.takeTurn_memWf {s : State} {c k : Nat} (hs : MemWf s) : MemWf (State.takeTurn s c k) := by
  unfold State.takeTurn
  repeat' first | with_reducible assumption | with_reducible apply State.onCore_memWf | with_reducible apply MemWf.h | dsimp only | (refine MemWf.mk ?_; dsimp only)

theorem State.fetchWord_memWf {s : State} {w : Who} {pc : Word64} (hs : MemWf s) : ExcWf2 (State.fetchWord s w pc) := by
  unfold State.fetchWord
  repeat' first | with_reducible assumption | with_reducible apply State.readG_memWf | with_reducible apply ite_excP | with_reducible apply excWf2_map | with_reducible apply ExcP.error

theorem State.fetchStop_memWf {s : State} {w : Who} {x : Cause} (hs : MemWf s) : MemWf (State.fetchStop s w x).2 := by
  unfold State.fetchStop
  repeat' first | with_reducible assumption | with_reducible apply State.await_memWf | with_reducible apply ite_wf

theorem fetchStrand_memWf {s : State} {c k : Nat} (hs : MemWf s) : MemWf (fetchStrand s c k).2 := by
  unfold fetchStrand
  repeat' first | with_reducible assumption | with_reducible apply State.fetchWord_memWf | with_reducible apply State.fetchStop_memWf | split | dsimp only | (with_reducible refine excWf2_out ?_ (by assumption))

theorem fetchKernel_memWf {s : State} {c : Nat} (hs : MemWf s) : MemWf (fetchKernel s c).2 := by
  unfold fetchKernel
  repeat' first | with_reducible assumption | with_reducible apply State.fetchWord_memWf | with_reducible apply State.fetchStop_memWf | split | dsimp only | (with_reducible refine excWf2_out ?_ (by assumption))

theorem State.unitFault_memWf {s : State} {u : UnitRef} {x : Cause} {unit loc sub place : Nat} {origin : Option (Nat × Nat)} (hs : MemWf s) :
    MemWf (State.unitFault s u x unit loc sub place origin) := by
  unfold State.unitFault
  repeat' first | with_reducible assumption | with_reducible apply State.meetRefusal_memWf | with_reducible apply State.errorRecord_memWf | with_reducible apply MemWf.h | split | dsimp only | (refine MemWf.mk ?_; dsimp only)

theorem State.ctxFault_memWf {s : State} {m x : Nat} {cause : Cause} (hs : MemWf s) : MemWf (State.ctxFault s m x cause) := by
  unfold State.ctxFault
  repeat' first | with_reducible assumption | with_reducible apply State.await_memWf | with_reducible apply State.setCtx_memWf | with_reducible apply State.unitFault_memWf | with_reducible apply ite_wf | split

theorem State.kernelFault_memWf {s : State} {c : Nat} {cause : Cause} (hs : MemWf s) : MemWf (State.kernelFault s c cause) := by
  unfold State.kernelFault
  repeat' first | with_reducible assumption | with_reducible apply State.await_memWf | with_reducible apply State.unitFault_memWf | with_reducible apply State.onCore_memWf | with_reducible apply ite_wf | split

theorem fetchContext_memWf {s : State} {m x : Nat} (hs : MemWf s) : MemWf (fetchContext s m x).2 := by
  unfold fetchContext
  repeat' first | with_reducible assumption | with_reducible apply State.ctxFault_memWf | split | dsimp only

theorem State.takeCtx_memWf {s : State} {m x : Nat} (hs : MemWf s) : MemWf (State.takeCtx s m x) := by
  unfold State.takeCtx
  repeat' first | with_reducible assumption | with_reducible apply MemWf.h | (refine MemWf.mk ?_; dsimp only)

theorem State.nextMove_memWf {s : State} (hs : MemWf s) : MemWf (State.nextMove s).2.2 := by
  unfold State.nextMove
  repeat' first | with_reducible assumption | with_reducible apply MemWf.h | split | dsimp only | (refine MemWf.mk ?_; dsimp only)

theorem State.placeCode_memWf {s : State} {w n : Nat} (hs : MemWf s) : MemWf (State.placeCode s w n) := by
  unfold State.placeCode
  repeat' first | with_reducible assumption | with_reducible apply MemWf.h | with_reducible apply memSetList_wf | dsimp only | (refine MemWf.mk ?_; dsimp only)

theorem State.placeCox_memWf {s : State} {w : Nat} (hs : MemWf s) : MemWf (State.placeCox s w) := by
  unfold State.placeCox
  repeat' first | with_reducible assumption | with_reducible apply State.placeCode_memWf | with_reducible apply State.onStrand_memWf | with_reducible apply MemWf.h | dsimp only | (refine MemWf.mk ?_; dsimp only)

theorem State.placeKernel_memWf {s : State} {w : Nat} (hs : MemWf s) : MemWf (State.placeKernel s w) := by
  unfold State.placeKernel
  repeat' first | with_reducible assumption | with_reducible apply State.placeCode_memWf | with_reducible apply State.onCore_memWf | with_reducible apply MemWf.h | dsimp only | (refine MemWf.mk ?_; dsimp only)

theorem State.placeAccess_memWf {s : State} {w : Nat} (hs : MemWf s) : MemWf (State.placeAccess s w) := by
  unfold State.placeAccess
  repeat' first | with_reducible assumption | with_reducible apply State.placeCode_memWf | with_reducible apply MemWf.h | with_reducible apply memSetList_wf | dsimp only | (refine MemWf.mk ?_; dsimp only)

/-! ## Queues -/

theorem State.opQueueEnable_memWf {s : State} {q : Nat} (hs : MemWf s) : MemWf (State.opQueueEnable s q) := by
  unfold State.opQueueEnable
  repeat' first | with_reducible assumption | with_reducible apply State.setQueue_memWf | with_reducible apply ite_wf

theorem State.opQueueDisable_memWf {s : State} {q : Nat} (hs : MemWf s) : MemWf (State.opQueueDisable s q) := by
  unfold State.opQueueDisable
  repeat' first | with_reducible assumption | with_reducible apply State.onQueue_memWf

theorem State.opDoorbell_memWf {s : State} {q : Nat} {v : Word32} {unit : Nat} (hs : MemWf s) : MemWf (State.opDoorbell s q v unit) := by
  unfold State.opDoorbell
  repeat' first | with_reducible assumption | with_reducible apply State.errorRecord_memWf | with_reducible apply State.setQueue_memWf | with_reducible apply ite_wf

theorem State.opQckrel_memWf {s : State} {q mask : Nat} (hs : MemWf s) : MemWf (State.opQckrel s q mask) := by
  unfold State.opQckrel
  repeat' first | with_reducible assumption | with_reducible apply State.onQueue_memWf

theorem State.queueError_memWf {s : State} {q cause seq : Nat} (hs : MemWf s) : MemWf (State.queueError s q cause seq) := by
  unfold State.queueError
  repeat' first | with_reducible assumption | with_reducible apply State.onQueue_memWf

theorem State.packetFault_memWf {s : State} {q addr : Nat} {x : Cause} (hs : MemWf s) : MemWf (State.packetFault s q addr x) := by
  unfold State.packetFault
  repeat' first | with_reducible assumption | with_reducible apply State.errorRecord_memWf | with_reducible apply State.queueError_memWf

theorem State.updateSignal_memWf {s : State} {w : Who} {a : Word64} {kind : Nat} {v : Word64} {f : Word64 → Word64} (hs : MemWf s) :
    ExcWf (State.updateSignal s w a kind v f) := by
  unfold State.updateSignal
  repeat' first | with_reducible assumption | with_reducible apply State.ask_memWf | with_reducible apply State.fillAll_memWf | with_reducible apply State.readG_memWf | with_reducible apply State.writeG_memWf | with_reducible apply ite_excP | with_reducible apply ExcP.ok | with_reducible apply ExcP.error | split | (with_reducible refine excWf2_out ?_ (by assumption))

theorem State.retryFetches_memWf {s : State} (hs : MemWf s) : MemWf (State.retryFetches s) := by
  unfold State.retryFetches
  repeat' first | with_reducible assumption | with_reducible apply MemWf.h | dsimp only | (refine MemWf.mk ?_; dsimp only)

theorem State.opQerrRetry_memWf {s : State} {q : Nat} (hs : MemWf s) : MemWf (State.opQerrRetry s q) := by
  unfold State.opQerrRetry
  repeat' first | with_reducible assumption | with_reducible apply State.onQueue_memWf | with_reducible apply ite_wf

theorem State.skipPacket_memWf {s : State} {q : Nat} (hs : MemWf s) : MemWf (State.skipPacket s q) := by
  unfold State.skipPacket
  repeat' first | with_reducible assumption | with_reducible apply State.spend_memWf | with_reducible apply State.bumpId_memWf | with_reducible apply State.onQueue_memWf | with_reducible apply State.await_memWf | with_reducible apply State.meetRefusal_memWf | with_reducible apply State.errorRecord_memWf | with_reducible apply ite_wf | split | dsimp only

theorem State.opQerrSkip_memWf {s : State} {q : Nat} (hs : MemWf s) : MemWf (State.opQerrSkip s q) := by
  unfold State.opQerrSkip
  repeat' first | with_reducible assumption | with_reducible apply State.skipPacket_memWf | with_reducible apply ite_wf

theorem State.tdiError_memWf {s : State} {v reason extra : Nat} (hs : MemWf s) : MemWf (State.tdiError s v reason extra) := by
  unfold State.tdiError
  repeat' first | with_reducible assumption | with_reducible intro _ | with_reducible apply State.setVf_memWf | with_reducible apply State.onQueue_memWf | with_reducible apply State.queueError_memWf | with_reducible apply State.opQueueDisable_memWf | with_reducible apply State.endPart_memWf | with_reducible apply State.errorRecord_memWf | with_reducible apply foldl_wf | with_reducible apply ite_wf

theorem State.tdiErrorAll_memWf {s : State} {reason extra : Nat} (hs : MemWf s) : MemWf (State.tdiErrorAll s reason extra) := by
  unfold State.tdiErrorAll
  repeat' first | with_reducible assumption | with_reducible intro _ | with_reducible apply State.tdiError_memWf | with_reducible apply foldl_wf

/-! ## Aperture -/

theorem State.opTlbInv_memWf {s : State} {kind : Nat} (hs : MemWf s) : MemWf (State.opTlbInv s kind) := by
  unfold State.opTlbInv
  repeat' first | with_reducible assumption | with_reducible apply MemWf.h | dsimp only | (refine MemWf.mk ?_; dsimp only)

theorem State.opModesel_memWf {s : State} {v : Word64} (hs : MemWf s) : MemWf (State.opModesel s v) := by
  unfold State.opModesel
  repeat' first | with_reducible assumption | with_reducible apply MemWf.h | (refine MemWf.mk ?_; dsimp only)

theorem State.opRitWrite_memWf {s : State} {d lri : Nat} {v : Word64} (hs : MemWf s) : MemWf (State.opRitWrite s d lri v) := by
  unfold State.opRitWrite
  repeat' first | with_reducible assumption | with_reducible apply State.onDie_memWf | with_reducible apply ite_wf

theorem State.applyRit_memWf {s : State} {d : Nat} (hs : MemWf s) : MemWf (State.applyRit s d) := by
  unfold State.applyRit
  repeat' first | with_reducible assumption | with_reducible apply State.onDie_memWf

theorem State.opPreempt_memWf {s : State} {q : Nat} (hs : MemWf s) : MemWf (State.opPreempt s q) := by
  unfold State.opPreempt
  repeat' first | with_reducible assumption | with_reducible intro _ | with_reducible apply State.askSave_memWf | with_reducible apply State.onPart_memWf | with_reducible apply foldl_wf | with_reducible apply ite_wf

theorem State.opChannelRetire_memWf {s : State} {v : Word64} (hs : MemWf s) : MemWf (State.opChannelRetire s v) := by
  unfold State.opChannelRetire
  repeat' first | with_reducible assumption | with_reducible apply State.onDie_memWf | with_reducible apply MemWf.h | with_reducible apply ite_wf | dsimp only | (refine MemWf.mk ?_; dsimp only)

theorem State.opFwctl_memWf {s : State} {v : Word64} (hs : MemWf s) : MemWf (State.opFwctl s v) := by
  unfold State.opFwctl
  repeat' first | with_reducible assumption | with_reducible apply State.errorRecord_memWf | with_reducible apply MemWf.h | with_reducible apply ite_wf | dsimp only | (refine MemWf.mk ?_; dsimp only)

theorem State.writeQueueReg_memWf {s : State} {priv pf : Bool} {unit q r : Nat} {v : Word64} (hs : MemWf s) :
    MemWf (State.writeQueueReg s priv pf unit q r v) := by
  unfold State.writeQueueReg
  repeat' first | with_reducible assumption | with_reducible apply State.tdiError_memWf | with_reducible apply State.setQueue_memWf | with_reducible apply State.opQueueEnable_memWf | with_reducible apply State.opQueueDisable_memWf | with_reducible apply State.onQueue_memWf | with_reducible apply State.opDoorbell_memWf | with_reducible apply State.opQckrel_memWf | with_reducible apply State.opQerrRetry_memWf | with_reducible apply State.opQerrSkip_memWf | with_reducible apply ite_wf | split

theorem State.opUnitres_memWf {s : State} {v : Word64} (hs : MemWf s) : MemWf (State.opUnitres s v) := by
  unfold State.opUnitres
  repeat' first | with_reducible assumption | with_reducible apply MemWf.h | with_reducible apply ite_wf | dsimp only | (refine MemWf.mk ?_; dsimp only)

theorem State.writeModuleReg_memWf {s : State} {r : Nat} {v : Word64} (hs : MemWf s) : MemWf (State.writeModuleReg s r v) := by
  unfold State.writeModuleReg
  repeat' first | with_reducible assumption | with_reducible apply State.opModesel_memWf | with_reducible apply State.opTlbInv_memWf | with_reducible apply State.opPreempt_memWf | with_reducible apply State.opFwctl_memWf | with_reducible apply State.opUnitres_memWf | with_reducible apply State.opChannelRetire_memWf | with_reducible apply MemWf.h | with_reducible apply ite_wf | split | (refine MemWf.mk ?_; dsimp only)

theorem State.apertureWrite_memWf {s : State} {priv pf : Bool} {unit off : Nat} {v : Word64} (hs : MemWf s) :
    MemWf (State.apertureWrite s priv pf unit off v) := by
  unfold State.apertureWrite
  repeat' first | with_reducible assumption | with_reducible apply State.writeQueueReg_memWf | with_reducible apply State.opRitWrite_memWf | with_reducible apply State.writeModuleReg_memWf | with_reducible apply State.tdiError_memWf | with_reducible apply State.setVf_memWf | with_reducible apply ite_wf

theorem State.readV_memWf {s : State} {w : Who} {k : AKind} {va n : Nat} (hs : MemWf s) : ExcWf2 (State.readV s w k va n) := by
  unfold State.readV
  repeat' first | with_reducible assumption | with_reducible apply State.fillAll_memWf | with_reducible apply State.readG_memWf | with_reducible apply ExcP.ok | with_reducible apply ExcP.error | split

theorem State.writeV_memWf {s : State} {w : Who} {shadow : Bool} {va : Nat} {b : ByteList} (hs : MemWf s) : ExcWf (State.writeV s w shadow va b) := by
  unfold State.writeV
  repeat' first | with_reducible assumption | with_reducible apply State.apertureWrite_memWf | with_reducible apply State.fillAll_memWf | with_reducible apply State.writeG_memWf | with_reducible apply ite_excP | with_reducible apply ExcP.ok | with_reducible apply ExcP.error | split

end Sys2Proof.Machine
end

