-- ==== Sys2Proof/Laws/MemoryTasks.lean ====
section
/-! SUPPORT. Keeping the canonical form of the byte memory: accesses of strands, tasks, copies, collectives, task posting. -/
namespace Sys2Proof.Machine

/-! ## CoxMemory -/

theorem State.usePlace_memWf {s : State} {c k : Nat} {x3 : Place} (hs : MemWf s) : MemWf (State.usePlace s c k x3) := by
  unfold State.usePlace
  repeat' first | with_reducible assumption | with_reducible apply State.fillAll_memWf | split

theorem State.writePlace_memWf {s : State} {c : Nat} {b : ByteList} {x3 : Place} (hs : MemWf s) : MemWf (State.writePlace s c b x3) := by
  unfold State.writePlace
  split
  · apply State.cleanWords_memWf
    exact ⟨memSetKeys_wf hs.h _ _⟩
  · exact foldl_wf (fun _ _ h => State.writePiece_memWf h) hs

theorem State.storePieces_memWf {s : State} {c k item : Nat} {b : ByteList} {x5 : Place} (hs : MemWf s) : MemWf (State.storePieces s c k item b x5) := by
  unfold State.storePieces
  repeat' first | with_reducible assumption | with_reducible intro _ | with_reducible apply State.askNowhere_memWf | with_reducible apply State.writePiece_memWf | with_reducible apply foldl_wf | with_reducible apply ite_wf | split

theorem State.issueItem_memWf {s : State} {c k : Nat} {read : Bool} {span : RSpace × Nat × Nat} (hs : MemWf s) :
    MemWf (State.issueItem s c k read span) := by
  unfold State.issueItem
  repeat' first | with_reducible assumption | with_reducible apply State.bumpId_memWf | with_reducible apply State.onCore_memWf

theorem State.holdLoad_memWf {s : State} {c k : Nat} {l : Load} (hs : MemWf s) : MemWf (State.holdLoad s c k l) := by
  unfold State.holdLoad
  repeat' first | with_reducible assumption | with_reducible apply State.onStrand_memWf

theorem State.loadFailed_memWf {s : State} {c k item : Nat} {x : Cause} {place : Nat} (hs : MemWf s) : MemWf (State.loadFailed s c k item x place) := by
  unfold State.loadFailed
  repeat' first | with_reducible assumption | with_reducible apply State.onStrand_memWf

theorem State.askLoad_memWf {s : State} {c k item kind n : Nat} {pl : Place} {ea : Word64} {b : ByteList} (hs : MemWf s) :
    MemWf (State.askLoad s c k item kind n pl ea b) := by
  unfold State.askLoad
  repeat' first | with_reducible assumption | with_reducible apply State.loadFailed_memWf | with_reducible apply State.ask_memWf | with_reducible apply ite_wf

theorem State.askPieces_memWf {s : State} {c k item : Nat} {ea : Word64} {x5 : List Piece} (hs : MemWf s) : MemWf (State.askPieces s c k item ea x5) := by
  induction x5 generalizing s with
  | nil => exact hs
  | cons p r ih =>
    unfold State.askPieces
    dsimp only
    split
    · exact ite_wf (State.loadFailed_memWf (State.disown_memWf hs)) (ih ⟨(State.ask_memWf hs).h⟩)
    · exact ih ⟨(State.ask_memWf hs).h⟩
    · exact ih ⟨hs.h⟩

theorem State.askOutside_memWf {s : State} {c k item n : Nat} {ea : Word64} {x6 : Place} (hs : MemWf s) : MemWf (State.askOutside s c k item n ea x6) := by
  unfold State.askOutside
  repeat' first | with_reducible assumption | with_reducible apply State.askPieces_memWf | with_reducible apply State.askLoad_memWf | split

theorem ldEff_memWf {u : State} {c k d : Nat} {t : Strand} {sz : Size} {sp : Space} {cz sgn : Bool} {ea : Word64} (hu : MemWf u) :
    EffWf (ldEff u c k d t sz sp cz sgn ea) := by
  unfold ldEff
  repeat' first | with_reducible assumption | with_reducible apply State.issueItem_memWf | with_reducible apply State.usePlace_memWf | with_reducible apply State.holdLoad_memWf | with_reducible apply State.askOutside_memWf | with_reducible apply ite_effWf | with_reducible apply EffWf.done | with_reducible apply EffWf.stay | with_reducible apply EffWf.trap | split | dsimp only

theorem execLd_memWf {g : Guard} {d a : Nat} {sz : Size} {sp : Space} {cz sgn : Bool} {s : State} (hs : MemWf s) : OutWf (execLd g d a sz sp cz sgn s) := by
  unfold execLd
  repeat' first | with_reducible assumption | with_reducible intro _ | with_reducible apply State.coxRun_memWf | with_reducible apply ldEff_memWf

theorem execLdLong_memWf {g : Guard} {d a : Nat} {sz : Size} {sp : Space} {cz sgn : Bool} {e : Word32} {s : State} (hs : MemWf s) :
    OutWf (execLdLong g d a sz sp cz sgn e s) := by
  unfold execLdLong
  repeat' first | with_reducible assumption | with_reducible intro _ | with_reducible apply State.coxRun_memWf | with_reducible apply ldEff_memWf

theorem State.causalStore_memWf {s : State} {c k item : Nat} {pl : Place} {b : ByteList} (hs : MemWf s) : MemWf (State.causalStore s c k item pl b) := by
  unfold State.causalStore
  repeat' first | with_reducible assumption | with_reducible intro _ | with_reducible apply State.onDie_memWf | with_reducible apply State.onStrand_memWf | with_reducible apply foldl_wf

theorem stEff_memWf {u : State} {c k d : Nat} {t : Strand} {sz : Size} {sp : Space} {cz : Bool} {ea : Word64} (hu : MemWf u) :
    EffWf (stEff u c k d t sz sp cz ea) := by
  unfold stEff
  repeat' first | with_reducible assumption | with_reducible apply State.issueItem_memWf | with_reducible apply State.usePlace_memWf | with_reducible apply State.apertureWrite_memWf | with_reducible apply State.storePieces_memWf | with_reducible apply State.causalStore_memWf | with_reducible apply State.writePlace_memWf | with_reducible apply ite_effWf | with_reducible apply EffWf.done | with_reducible apply EffWf.stay | with_reducible apply EffWf.trap | split | dsimp only

theorem execSt_memWf {g : Guard} {d a : Nat} {sz : Size} {sp : Space} {cz : Bool} {s : State} (hs : MemWf s) : OutWf (execSt g d a sz sp cz s) := by
  unfold execSt
  repeat' first | with_reducible assumption | with_reducible intro _ | with_reducible apply State.coxRun_memWf | with_reducible apply stEff_memWf

theorem execStLong_memWf {g : Guard} {d a : Nat} {sz : Size} {sp : Space} {cz : Bool} {e : Word32} {s : State} (hs : MemWf s) :
    OutWf (execStLong g d a sz sp cz e s) := by
  unfold execStLong
  repeat' first | with_reducible assumption | with_reducible intro _ | with_reducible apply State.coxRun_memWf | with_reducible apply stEff_memWf

theorem amoEff_memWf {u : State} {c k : Nat} {sp : Space} {sz : AmoSize} {ea : Word64} {toHost : Bool} {kind : Nat} {b : ByteList} {load : Option Word64 → Nat → Load} {new : Nat → Option Nat} (hu : MemWf u) :
    EffWf (amoEff u c k sp sz ea toHost kind b load new) := by
  unfold amoEff
  repeat' first | with_reducible assumption | with_reducible apply State.issueItem_memWf | with_reducible apply State.usePlace_memWf | with_reducible apply State.askLoad_memWf | with_reducible apply State.holdLoad_memWf | with_reducible apply State.writePlace_memWf | with_reducible apply ite_effWf | with_reducible apply EffWf.done | with_reducible apply EffWf.stay | with_reducible apply EffWf.trap | split | dsimp only

theorem execAmo_memWf {g : Guard} {d a b : Nat} {op : AmoOp} {sp : Space} {sz : AmoSize} {x7 : Scope} {s : State} (hs : MemWf s) :
    OutWf (execAmo g d a b op sp sz x7 s) := by
  unfold execAmo
  repeat' first | with_reducible assumption | with_reducible intro _ | with_reducible apply State.coxRun_memWf | with_reducible apply amoEff_memWf

theorem execCas_memWf {g : Guard} {d a b : Nat} {sp : Space} {sz : AmoSize} {x6 : Scope} {pd : Nat} {s : State} (hs : MemWf s) :
    OutWf (execCas g d a b sp sz x6 pd s) := by
  unfold execCas
  repeat' first | with_reducible assumption | with_reducible intro _ | with_reducible apply State.coxRun_memWf | with_reducible apply amoEff_memWf

theorem probeEff_memWf {u : State} {c k d : Nat} {t : Strand} {i : Instr} {va off : Word64} (hu : MemWf u) : EffWf (probeEff u c k d t i va off) := by
  unfold probeEff
  repeat' first | with_reducible assumption | with_reducible apply State.onStrand_memWf | with_reducible apply State.setCore_memWf | with_reducible apply State.bumpId_memWf | with_reducible apply ite_effWf | with_reducible apply EffWf.done | with_reducible apply EffWf.jump | with_reducible apply EffWf.wait | with_reducible apply EffWf.trap | split

theorem execProbe_memWf {g : Guard} {d a : Nat} {off : Imm6} {s : State} (hs : MemWf s) : OutWf (execProbe g d a off s) := by
  unfold execProbe
  repeat' first | with_reducible assumption | with_reducible intro _ | with_reducible apply State.coxRun_memWf | with_reducible apply probeEff_memWf

theorem execProbeLong_memWf {g : Guard} {d a : Nat} {e : Word32} {s : State} (hs : MemWf s) : OutWf (execProbeLong g d a e s) := by
  unfold execProbeLong
  repeat' first | with_reducible assumption | with_reducible intro _ | with_reducible apply State.coxRun_memWf | with_reducible apply probeEff_memWf

theorem execUnpin_memWf {g : Guard} {a : Nat} {s : State} (hs : MemWf s) : OutWf (execUnpin g a s) := by
  unfold execUnpin
  repeat' first | with_reducible assumption | with_reducible intro _ | with_reducible apply State.coxRun_memWf | with_reducible apply State.setCore_memWf | with_reducible apply ite_effWf | with_reducible apply EffWf.done | with_reducible apply EffWf.trap | split | dsimp only

theorem State.pushWrites_memWf {s : State} {c k : Nat} {f : Nat → Nat → Bool} (hs : MemWf s) : MemWf (State.pushWrites s c k f) := by
  unfold State.pushWrites
  repeat' first | with_reducible assumption | with_reducible apply State.ask_memWf | with_reducible apply ite_wf | split

theorem fenceEff_memWf {u : State} {c k : Nat} {t : Strand} {i : Instr} {sc : Scope} {ids : List Nat} (hu : MemWf u) :
    EffWf (fenceEff u c k t i sc ids) := by
  unfold fenceEff
  repeat' first | with_reducible assumption | with_reducible apply State.pushWrites_memWf | with_reducible apply ite_wf | with_reducible apply ite_effWf | with_reducible apply EffWf.done | with_reducible apply EffWf.wait

theorem execFence_memWf {g : Guard} {sc : Scope} {s : State} (hs : MemWf s) : OutWf (execFence g sc s) := by
  unfold execFence
  repeat' first | with_reducible assumption | with_reducible intro _ | with_reducible apply State.coxRun_memWf | with_reducible apply fenceEff_memWf

theorem execFenceR_memWf {g : Guard} {sc : Scope} {rs : RangeList} {s : State} (hs : MemWf s) : OutWf (execFenceR g sc rs s) := by
  unfold execFenceR
  repeat' first | with_reducible assumption | with_reducible intro _ | with_reducible apply State.coxRun_memWf | with_reducible apply fenceEff_memWf | with_reducible apply EffWf.trap | split

theorem execTrack_memWf {g : Guard} {slot : Nat} {r : RangeRef} {s : State} (hs : MemWf s) : OutWf (execTrack g slot r s) := by
  unfold execTrack
  repeat' first | with_reducible assumption | with_reducible intro _ | with_reducible apply State.coxRun_memWf | with_reducible apply State.setCore_memWf | with_reducible apply ite_effWf | with_reducible apply EffWf.done | with_reducible apply EffWf.trap | split

theorem execUntrack_memWf {g : Guard} {slot : Nat} {s : State} (hs : MemWf s) : OutWf (execUntrack g slot s) := by
  unfold execUntrack
  repeat' first | with_reducible assumption | with_reducible intro _ | with_reducible apply State.coxRun_memWf | with_reducible apply State.onCore_memWf | with_reducible apply EffWf.done

theorem State.askRegions_memWf {s : State} {id : Nat} {entry : Option Nat} {l : List (Nat × Nat)} (hs : MemWf s) :
    MemWf (State.askRegions s id entry l) := by
  unfold State.askRegions
  repeat' first | with_reducible assumption | with_reducible intro _ | with_reducible apply State.onDie_memWf | with_reducible apply foldl_wf | with_reducible apply ite_wf

theorem execPub_memWf {g : Guard} {r : RangeRef} {s : State} (hs : MemWf s) : OutWf (execPub g r s) := by
  unfold execPub
  repeat' first | with_reducible assumption | with_reducible intro _ | with_reducible apply State.coxRun_memWf | with_reducible apply State.bumpId_memWf | with_reducible apply State.onCore_memWf | with_reducible apply State.askRegions_memWf | with_reducible apply ite_effWf | with_reducible apply EffWf.done | with_reducible apply EffWf.wait | with_reducible apply EffWf.trap | split

/-! ## Joinery -/

theorem execIngressAdmission_memWf {core : Nat} {s : State} (hs : MemWf s) : OutWf (execIngressAdmission core s) := by
  unfold execIngressAdmission
  repeat' first | with_reducible assumption | with_reducible apply State.errorRecord_memWf | with_reducible apply State.setCore_memWf | with_reducible apply ite_outWf | with_reducible apply OutWf.next | split

theorem State.stampReady_memWf {s : State} (hs : MemWf s) : MemWf (State.stampReady s) := by
  unfold State.stampReady
  repeat' first | with_reducible assumption | with_reducible apply MemWf.h | (refine MemWf.mk ?_; dsimp only)

theorem State.copyFrame_memWf {s : State} {c dst src : Nat} (hs : MemWf s) : MemWf (State.copyFrame s c dst src) := by
  unfold State.copyFrame
  repeat' first | with_reducible assumption | with_reducible apply MemWf.h | with_reducible apply memCopy_wf | dsimp only | (refine MemWf.mk ?_; dsimp only)

theorem State.bindFrame_memWf {s : State} {c page frame : Nat} {ren : Bool} (hs : MemWf s) : MemWf (State.bindFrame s c page frame ren) := by
  unfold State.bindFrame
  repeat' first | with_reducible assumption | with_reducible apply State.onCore_memWf | with_reducible apply State.copyFrame_memWf

theorem State.bindRename_memWf {s : State} {c : Nat} {t : TaskRec} (hs : MemWf s) : MemWf (State.bindRename s c t) := by
  unfold State.bindRename
  repeat' first | with_reducible assumption | with_reducible intro _ | with_reducible apply State.onCore_memWf | with_reducible apply State.bindFrame_memWf | with_reducible apply foldl_wf

theorem execTaskRelease_memWf {core cls : Nat} {s : State} (hs : MemWf s) : OutWf (execTaskRelease core cls s) := by
  unfold execTaskRelease
  repeat' first | with_reducible assumption | with_reducible apply State.bindRename_memWf | with_reducible apply State.bumpId_memWf | with_reducible apply State.setCore_memWf | with_reducible apply ite_outWf | with_reducible apply OutWf.next | split

theorem State.counterUnder_memWf {s : State} {c n under unit sub place : Nat} (hs : MemWf s) : MemWf (State.counterUnder s c n under unit sub place) := by
  unfold State.counterUnder
  repeat' first | with_reducible assumption | with_reducible apply State.errorRecord_memWf

theorem State.decCounter_memWf {s : State} {c n unit sub place : Nat} (hs : MemWf s) : MemWf (State.decCounter s c n unit sub place) := by
  unfold State.decCounter
  repeat' first | with_reducible assumption | with_reducible apply State.onCore_memWf | with_reducible apply State.counterUnder_memWf | with_reducible apply ite_wf

theorem State.askTaskPub_memWf {s : State} {c n : Nat} {t : TaskRec} (hs : MemWf s) : MemWf (State.askTaskPub s c n t) := by
  unfold State.askTaskPub
  repeat' first | with_reducible assumption | with_reducible apply State.onCore_memWf | with_reducible apply State.bumpId_memWf | with_reducible apply State.askRegions_memWf

theorem State.putLocal_memWf {s : State} {c : Nat} {shadow : Bool} {off : Nat} {b : ByteList} (hs : MemWf s) : MemWf (State.putLocal s c shadow off b) := by
  unfold State.putLocal
  repeat' first | with_reducible assumption | with_reducible apply State.cleanWords_memWf | with_reducible apply State.writeLocal_memWf

theorem State.forgetUnit_memWf {s : State} {u : UnitRef} {r : ReqFor} (hs : MemWf s) : MemWf (State.forgetUnit s u r) := by
  unfold State.forgetUnit
  repeat' first | with_reducible assumption | with_reducible apply State.disown_memWf | with_reducible apply MemWf.h | dsimp only | (refine MemWf.mk ?_; dsimp only)

theorem State.freeTask_memWf {s : State} {c n : Nat} {t : TaskRec} {f : TaskFlags} (hs : MemWf s) : MemWf (State.freeTask s c n t f) := by
  unfold State.freeTask
  repeat' first | with_reducible assumption | with_reducible apply State.putLocal_memWf | with_reducible apply State.decCounter_memWf | with_reducible apply State.onCore_memWf | with_reducible apply State.forgetUnit_memWf | with_reducible apply ite_wf

theorem execTaskCompletion_memWf {core entry : Nat} {s : State} (hs : MemWf s) : OutWf (execTaskCompletion core entry s) := by
  unfold execTaskCompletion
  repeat' first | with_reducible assumption | with_reducible apply State.await_memWf | with_reducible apply State.askTaskPub_memWf | with_reducible apply State.freeTask_memWf | with_reducible apply ite_wf | with_reducible apply ite_outWf | with_reducible apply OutWf.next | split

theorem execScratchpadPublish_memWf {core : Nat} {s : State} (hs : MemWf s) : OutWf (execScratchpadPublish core s) := by
  unfold execScratchpadPublish
  repeat' first | with_reducible assumption | with_reducible apply State.setCore_memWf | with_reducible apply ite_outWf | with_reducible apply OutWf.next

theorem execFrameReturn_memWf {core frame : Nat} {s : State} (hs : MemWf s) : OutWf (execFrameReturn core frame s) := by
  unfold execFrameReturn
  repeat' first | with_reducible assumption | with_reducible apply State.onCore_memWf | with_reducible apply ite_outWf | with_reducible apply OutWf.next

theorem execHbmPublish_memWf {die : Nat} {s : State} (hs : MemWf s) : OutWf (execHbmPublish die s) := by
  unfold execHbmPublish
  repeat' first | with_reducible assumption | with_reducible apply State.applyRit_memWf | with_reducible apply State.onDie_memWf | with_reducible apply MemWf.h | with_reducible apply ite_outWf | with_reducible apply OutWf.next | split | (refine MemWf.mk ?_; dsimp only)

theorem State.dropShadow_memWf {s : State} {c n : Nat} (hs : MemWf s) : MemWf (State.dropShadow s c n) := by
  unfold State.dropShadow
  repeat' first | with_reducible assumption | with_reducible apply State.onCore_memWf | with_reducible apply State.onDie_memWf | with_reducible apply ite_wf

theorem State.endTask_memWf {s : State} {c n : Nat} (hs : MemWf s) : MemWf (State.endTask s c n) := by
  unfold State.endTask
  repeat' first | with_reducible assumption | with_reducible intro _ | with_reducible apply State.dropShadow_memWf | with_reducible apply State.onCore_memWf | with_reducible apply State.freeTask_memWf | with_reducible apply foldl_wf | split

theorem State.closeCopy_memWf {s : State} {c ch : Nat} {e : ChanEntry} {ended : Bool} (hs : MemWf s) : MemWf (State.closeCopy s c ch e ended) := by
  unfold State.closeCopy
  repeat' first | with_reducible assumption | with_reducible apply State.decCounter_memWf | with_reducible apply State.onCore_memWf | split

theorem State.endCopy_memWf {s : State} {c ch : Nat} {e : ChanEntry} (hs : MemWf s) : MemWf (State.endCopy s c ch e) := by
  unfold State.endCopy
  repeat' first | with_reducible assumption | with_reducible intro _ | with_reducible apply State.forgetUnit_memWf | with_reducible apply State.closeCopy_memWf | with_reducible apply State.dropShadow_memWf | with_reducible apply foldl_wf

/-! ## Engine -/

theorem State.wait_memWf {s : State} {x1 : Held} (hs : MemWf s) : MemWf (State.wait s x1) := by
  unfold State.wait
  repeat' first | with_reducible assumption | with_reducible apply State.await_memWf | with_reducible apply State.onDie_memWf | split

theorem State.noteTouch_memWf {s : State} {r : ReqFor} {l : NatList} (hs : MemWf s) : MemWf (State.noteTouch s r l) := by
  unfold State.noteTouch
  repeat' first | with_reducible assumption | with_reducible apply State.onCore_memWf | split

theorem State.touchPages_memWf {s : State} {j : Job} {pages : NatList} (hs : MemWf s) : AccWf (State.touchPages s j pages) := by
  unfold State.touchPages
  repeat' first | with_reducible assumption | with_reducible apply State.noteTouch_memWf | with_reducible apply ite_accP | with_reducible apply AccP.ok | with_reducible apply AccP.wait

theorem State.touchRegions_memWf {s : State} {j : Job} {k : AKind} {addr n : Nat} (hs : MemWf s) : MemWf (State.touchRegions s j k addr n) := by
  unfold State.touchRegions
  repeat' first | with_reducible assumption | with_reducible apply State.noteTouch_memWf | split

theorem State.engRead_memWf {s : State} {j : Job} {space addr n : Nat} (hs : MemWf s) : AccWf2 (State.engRead s j space addr n) := by
  unfold State.engRead
  repeat' first | with_reducible assumption | with_reducible intro _ | with_reducible apply State.touchPages_memWf | with_reducible apply State.readV_memWf | with_reducible apply State.touchRegions_memWf | with_reducible apply ite_accP | with_reducible apply AccP.ok | with_reducible apply AccP.bad | with_reducible apply accP_of | with_reducible apply accP_ordered | with_reducible apply excP_true | with_reducible apply accS_next | with_reducible apply acc2_next | with_reducible apply acc0_next | split

theorem State.engReads_memWf {j : Job} {space : Nat} {x2 : List (Nat × Nat)} {x3 : State} (hx3 : MemWf x3) : AccWf2 (State.engReads j space x2 x3) := by
  induction x2 generalizing x3 with
  | nil => exact .ok hx3
  | cons a r ih =>
    unfold State.engReads
    exact acc2_next (State.engRead_memWf hx3) fun b u hu => acc2_next (ih hu) fun c v hv => .ok hv

theorem State.noteShadow_memWf {s : State} {j : Job} {n : Nat} (hs : MemWf s) : MemWf (State.noteShadow s j n) := by
  unfold State.noteShadow
  repeat' first | with_reducible assumption | with_reducible apply State.onCore_memWf

theorem State.bindPages_memWf {j : Job} {addr : Nat} {x2 : List Nat} {x3 : State} (hx3 : MemWf x3) : AccWf (State.bindPages j addr x2 x3) := by
  induction x2 generalizing x3 with
  | nil => exact .ok hx3
  | cons a r ih =>
    unfold State.bindPages
    dsimp only
    split
    · exact ih hx3
    · split
      · exact ih (State.noteShadow_memWf (State.bindFrame_memWf hx3))
      · exact ite_accP .bad .wait

theorem State.engWriteG_memWf {s : State} {j : Job} {shadow : Bool} {addr : Nat} {b : ByteList} (hs : MemWf s) :
    AccWf (State.engWriteG s j shadow addr b) := by
  unfold State.engWriteG
  repeat' first | with_reducible assumption | with_reducible intro _ | with_reducible apply State.writeV_memWf | with_reducible apply State.touchRegions_memWf | with_reducible apply ite_accP | with_reducible apply AccP.ok | with_reducible apply AccP.wait | with_reducible apply AccP.bad | with_reducible apply accP_of | with_reducible apply accS_next | split

theorem State.engWrite_memWf {s : State} {j : Job} {shadow : Bool} {space addr : Nat} {b : ByteList} (hs : MemWf s) :
    AccWf (State.engWrite s j shadow space addr b) := by
  unfold State.engWrite
  repeat' first | with_reducible assumption | with_reducible intro _ | with_reducible apply State.touchPages_memWf | with_reducible apply State.bindPages_memWf | with_reducible apply State.putLocal_memWf | with_reducible apply State.engWriteG_memWf | with_reducible apply State.cleanWords_memWf | with_reducible apply MemWf.h | with_reducible apply ite_accP | with_reducible apply memSetList_wf | with_reducible apply AccP.ok | with_reducible apply AccP.bad | with_reducible apply accS_next | split | (refine MemWf.mk ?_; dsimp only)

theorem State.engPut_memWf {s : State} {j : Job} {slot addr : Nat} {b : ByteList} (hs : MemWf s) : AccWf (State.engPut s j slot addr b) := by
  unfold State.engPut
  repeat' first | with_reducible assumption | with_reducible apply State.engWrite_memWf

theorem State.engPuts_memWf {j : Job} {slot : Nat} {x2 : List (Nat × ByteList)} {x3 : State} (hx3 : MemWf x3) : AccWf (State.engPuts j slot x2 x3) := by
  induction x2 generalizing x3 with
  | nil => exact .ok hx3
  | cons a r ih =>
    unfold State.engPuts
    exact accS_next (State.engPut_memWf hx3) fun u hu => ih hu

theorem State.readStream_memWf {s : State} {j : Job} {slot pos n : Nat} (hs : MemWf s) : AccWf2 (State.readStream s j slot pos n) := by
  unfold State.readStream
  repeat' first | with_reducible assumption | with_reducible apply State.engReads_memWf

theorem State.writeStream_memWf {s : State} {j : Job} {slot pos : Nat} {b : ByteList} (hs : MemWf s) : AccWf (State.writeStream s j slot pos b) := by
  unfold State.writeStream
  repeat' first | with_reducible assumption | with_reducible apply State.engPuts_memWf

theorem State.engBack_memWf {s : State} {j : Job} {slot addr n : Nat} : AccWf0 (State.engBack s j slot addr n) := by
  unfold State.engBack
  repeat' first | with_reducible exact True.intro | with_reducible apply AccP.ok | with_reducible apply AccP.bad | with_reducible apply accP_of | with_reducible apply accP_ordered | with_reducible apply excP_true | split | dsimp only

theorem State.backStream_memWf {s : State} {j : Job} {slot pos n : Nat} : AccWf0 (State.backStream s j slot pos n) := by
  unfold State.backStream
  generalize takeRuns _ _ _ = l
  suffices ∀ a : Acc ByteList, AccWf0 a → AccWf0 (l.foldl (fun a q => a.next fun b => (s.engBack j slot q.1 q.2).next fun c => .ok (b ++ c)) a) from this _ (.ok True.intro)
  induction l with
  | nil => exact fun _ h => h
  | cons q r ih => exact fun a h => ih _ (acc0_next h fun b => acc0_next State.engBack_memWf fun _ => .ok True.intro)

theorem State.inRegion_memWf {s : State} {j : Job} {space lo hi : Nat} {write : Bool} : AccWf0 (State.inRegion s j space lo hi write) := by
  unfold State.inRegion
  repeat' first | with_reducible exact True.intro | with_reducible apply AccP.ok | with_reducible apply AccP.bad | split

theorem State.accrue_memWf {s : State} {j : Job} {f : TaskFlags} (hs : MemWf s) : MemWf (State.accrue s j f) := by
  unfold State.accrue
  repeat' first | with_reducible assumption | with_reducible apply State.onCore_memWf

theorem runUnits_memWf {step : Nat → State → Acc State} {note : Nat → State → State} {x2 x3 : Nat} {x4 : State} (hx4 : MemWf x4)
  (hstep : ∀ k s, MemWf s → AccWf (step k s)) (hnote : ∀ k s, MemWf s → MemWf (note k s)) :
  MemWf (runUnits step note x2 x3 x4).1 := by
  induction x2 generalizing x3 x4 with
  | zero => exact hx4
  | succ n ih =>
    unfold runUnits
    have h := hstep x3 x4 hx4
    split <;> rename_i he <;> rw [he] at h <;> cases h
    · exact ih (hnote _ _ ‹_›)
    · exact State.wait_memWf hx4
    · exact hx4
    · assumption

theorem State.onTask_memWf {s : State} {c n : Nat} {f : TaskRec → TaskRec} (hs : MemWf s) : MemWf (State.onTask s c n f) := by
  unfold State.onTask
  repeat' first | with_reducible assumption | with_reducible apply State.onCore_memWf

theorem State.stirred_memWf {s : State} {c : Nat} (hs : MemWf s) : MemWf (State.stirred s c) := by
  unfold State.stirred
  repeat' first | with_reducible assumption | with_reducible apply State.onCore_memWf

theorem State.stopTask_memWf {s : State} {c n sub : Nat} {x : Cause} (hs : MemWf s) : MemWf (State.stopTask s c n sub x) := by
  unfold State.stopTask
  repeat' first | with_reducible assumption | with_reducible apply State.unitFault_memWf | with_reducible apply State.onTask_memWf

theorem State.runTask_memWf {s : State} {c n oper : Nat} {units : State → Job → Nat} {step : Job → Nat → State → Acc State} (hs : MemWf s)
  (hstep : ∀ j k s, MemWf s → AccWf (step j k s)) : OutWf (State.runTask s c n oper units step) := by
  unfold State.runTask
  repeat' first | with_reducible assumption | with_reducible intro _ | with_reducible apply State.onTask_memWf | with_reducible apply runUnits_memWf | with_reducible apply State.spend_memWf | with_reducible apply State.stirred_memWf | with_reducible apply State.stopTask_memWf | with_reducible apply ite_wf | with_reducible apply OutWf.next | with_reducible apply hstep | split | dsimp only | (with_reducible refine prod1_out ?_ (by assumption))

/-! ## Copies -/

theorem cpyRow_memWf {j : Job} {k : Nat} {s : State} (hs : MemWf s) : AccWf (cpyRow j k s) := by
  unfold cpyRow
  repeat' first | with_reducible assumption | with_reducible intro _ | with_reducible apply State.readStream_memWf | with_reducible apply State.engPut_memWf | with_reducible apply AccP.ok | with_reducible apply acc2_next | split | dsimp only

theorem State.readElems_memWf {f : Fmt} {j : Job} {space : Nat} {x3 : List (Nat × Nat × Nat × Nat)} {x4 : State} (hx4 : MemWf x4) :
    AccWf2 (State.readElems f j space x3 x4) := by
  induction x3 generalizing x4 with
  | nil => exact .ok hx4
  | cons a r ih =>
    unfold State.readElems
    exact acc2_next (State.engRead_memWf hx4) fun b u hu => acc2_next (ih (State.accrue_memWf hu)) fun c v hv => .ok hv

theorem cvtRow_memWf {j : Job} {k : Nat} {s : State} (hs : MemWf s) : AccWf (cvtRow j k s) := by
  unfold cvtRow
  repeat' first | with_reducible assumption | with_reducible intro _ | with_reducible apply State.readElems_memWf | with_reducible apply State.engPut_memWf | with_reducible apply State.accrue_memWf | with_reducible apply State.onCore_memWf | with_reducible apply AccP.ok | with_reducible apply accS_next | with_reducible apply acc2_next | split | dsimp only

theorem fillRow_memWf {j : Job} {k : Nat} {s : State} (hs : MemWf s) : AccWf (fillRow j k s) := by
  unfold fillRow
  repeat' first | with_reducible assumption | with_reducible apply State.engPut_memWf | with_reducible apply AccP.ok | split

theorem State.moveElems_memWf {s : State} {j : Job} {es : Nat} {l : List (Nat × Nat)} (hs : MemWf s) : AccWf (State.moveElems s j es l) := by
  unfold State.moveElems
  repeat' first | with_reducible assumption | with_reducible intro _ | with_reducible apply State.engReads_memWf | with_reducible apply State.engPuts_memWf | with_reducible apply AccP.bad | with_reducible apply acc2_next | split

theorem xpTile_memWf {j : Job} {k : Nat} {s : State} (hs : MemWf s) : AccWf (xpTile j k s) := by
  unfold xpTile
  repeat' first | with_reducible assumption | with_reducible apply State.moveElems_memWf

theorem execXp_memWf {core entry : Nat} {s : State} (hs : MemWf s) : OutWf (execXp core entry s) := by
  unfold execXp
  repeat' first | with_reducible assumption | with_reducible intro _ | with_reducible apply State.runTask_memWf | with_reducible apply xpTile_memWf

theorem transposeRow_memWf {j : Job} {k : Nat} {s : State} (hs : MemWf s) : AccWf (transposeRow j k s) := by
  unfold transposeRow
  repeat' first | with_reducible assumption | with_reducible apply State.moveElems_memWf

theorem State.listAt_memWf {s : State} {j : Job} {slot q : Nat} (hs : MemWf s) : AccWf2 (State.listAt s j slot q) := by
  unfold State.listAt
  repeat' first | with_reducible assumption | with_reducible intro _ | with_reducible apply State.readStream_memWf | with_reducible apply AccP.ok | with_reducible apply acc2_next

theorem State.tableRow_memWf {s : State} {j : Job} {slot : Nat} {i : Int} : AccWf0 (State.tableRow s j slot i) := by
  unfold State.tableRow
  repeat' first | with_reducible exact True.intro | with_reducible apply ite_accP | with_reducible apply AccP.ok | with_reducible apply AccP.bad

theorem gathRow_memWf {j : Job} {q : Nat} {s : State} (hs : MemWf s) : AccWf (gathRow j q s) := by
  unfold gathRow
  repeat' first | with_reducible assumption | with_reducible intro _ | with_reducible apply State.listAt_memWf | with_reducible apply State.tableRow_memWf | with_reducible apply State.engRead_memWf | with_reducible apply State.engPut_memWf | with_reducible apply State.accrue_memWf | with_reducible apply ite_accP | with_reducible apply AccP.ok | with_reducible apply accS_next | with_reducible apply acc2_next | with_reducible apply acc0_next

theorem scatRow_memWf {j : Job} {q : Nat} {s : State} (hs : MemWf s) : AccWf (scatRow j q s) := by
  unfold scatRow
  repeat' first | with_reducible assumption | with_reducible intro _ | with_reducible apply State.listAt_memWf | with_reducible apply State.tableRow_memWf | with_reducible apply State.engRead_memWf | with_reducible apply State.engPut_memWf | with_reducible apply State.accrue_memWf | with_reducible apply ite_accP | with_reducible apply AccP.ok | with_reducible apply accS_next | with_reducible apply acc2_next | with_reducible apply acc0_next

theorem State.readInts_memWf {s : State} {j : Job} {slot p n : Nat} (hs : MemWf s) : AccWf2 (State.readInts s j slot p n) := by
  unfold State.readInts
  repeat' first | with_reducible assumption | with_reducible intro _ | with_reducible apply State.readStream_memWf | with_reducible apply AccP.ok | with_reducible apply acc2_next

theorem State.readRoutes_memWf {s : State} {j : Job} {slot p n : Nat} (hs : MemWf s) : AccWf2 (State.readRoutes s j slot p n) := by
  unfold State.readRoutes
  repeat' first | with_reducible assumption | with_reducible intro _ | with_reducible apply State.readStream_memWf | with_reducible apply AccP.ok | with_reducible apply acc2_next

theorem histUnit_memWf {j : Job} {k : Nat} {s : State} (hs : MemWf s) : AccWf (histUnit j k s) := by
  unfold histUnit
  repeat' first | with_reducible assumption | with_reducible intro _ | with_reducible apply State.readRoutes_memWf | with_reducible apply State.readInts_memWf | with_reducible apply State.backStream_memWf | with_reducible apply State.writeStream_memWf | with_reducible apply State.accrue_memWf | with_reducible apply ite_accP | with_reducible apply AccP.ok | with_reducible apply AccP.bad | with_reducible apply accS_next | with_reducible apply acc2_next | with_reducible apply acc0_next | split

theorem State.keepSum_memWf {s : State} {j : Job} {v : Int} (hs : MemWf s) : MemWf (State.keepSum s j v) := by
  unfold State.keepSum
  repeat' first | with_reducible assumption | with_reducible apply State.onTask_memWf | split

theorem psumUnit_memWf {j : Job} {k : Nat} {s : State} (hs : MemWf s) : AccWf (psumUnit j k s) := by
  unfold psumUnit
  repeat' first | with_reducible assumption | with_reducible intro _ | with_reducible apply State.writeStream_memWf | with_reducible apply State.accrue_memWf | with_reducible apply State.readInts_memWf | with_reducible apply State.keepSum_memWf | with_reducible apply State.readRoutes_memWf | with_reducible apply ite_accP | with_reducible apply AccP.ok | with_reducible apply AccP.bad | with_reducible apply accS_next | with_reducible apply acc2_next | split | dsimp only

/-! ## Collectives -/

theorem State.tellPeers_memWf {s : State} {c lvl : Nat} {m : FabricMsg} (hs : MemWf s) : MemWf (State.tellPeers s c lvl m) := by
  unfold State.tellPeers
  repeat' first | with_reducible assumption | with_reducible intro _ | with_reducible apply State.sendFabric_memWf | with_reducible apply foldl_wf | with_reducible apply ite_wf

theorem State.exchange_memWf {s : State} {c e lvl key round rank : Nat} {b : ByteList} (hs : MemWf s) :
    MemWf (State.exchange s c e lvl key round rank b) := by
  unfold State.exchange
  repeat' first | with_reducible assumption | with_reducible intro _ | with_reducible apply State.onCore_memWf | with_reducible apply State.tellPeers_memWf | with_reducible apply foldl_wf | split | dsimp only

theorem State.takeContribution_memWf {s : State} {group round rank key : Nat} {b : ByteList} (hs : MemWf s) :
    OptWf (State.takeContribution s group round rank key b) := by
  unfold State.takeContribution
  repeat' first | with_reducible assumption | with_reducible intro _ | with_reducible apply State.onCore_memWf | with_reducible apply foldl_wf | with_reducible apply OptWf.none | with_reducible apply OptWf.some | split

theorem State.putRow_memWf {s : State} {j : Job} {slot i : Nat} {b : ByteList} (hs : MemWf s) : AccWf (State.putRow s j slot i b) := by
  unfold State.putRow
  repeat' first | with_reducible assumption | with_reducible apply State.engPut_memWf | with_reducible apply AccP.ok | split | dsimp only

theorem collExchange_memWf {j : Job} {e : Nat} {s : State} (hs : MemWf s) : AccWf (collExchange j e s) := by
  unfold collExchange
  repeat' first | with_reducible assumption | with_reducible intro _ | with_reducible apply State.readStream_memWf | with_reducible apply State.exchange_memWf | with_reducible apply ite_accP | with_reducible apply AccP.ok | with_reducible apply acc2_next

theorem collRow_memWf {j : Job} {e i : Nat} {s : State} (hs : MemWf s) : AccWf (collRow j e i s) := by
  unfold collRow
  repeat' first | with_reducible assumption | with_reducible intro _ | with_reducible apply State.putRow_memWf | with_reducible apply State.accrue_memWf | with_reducible apply ite_accP | with_reducible apply AccP.ok | with_reducible apply AccP.wait | with_reducible apply AccP.bad | with_reducible apply accS_next | split | dsimp only

theorem collUnit_memWf {j : Job} {k : Nat} {s : State} (hs : MemWf s) : AccWf (collUnit j k s) := by
  unfold collUnit
  repeat' first | with_reducible assumption | with_reducible apply collExchange_memWf | with_reducible apply collRow_memWf | with_reducible apply AccP.ok | split

theorem copyUnit_memWf {j : Job} {k : Nat} {s : State} (hs : MemWf s) : AccWf (copyUnit j k s) := by
  unfold copyUnit
  repeat' first | with_reducible assumption | with_reducible apply transposeRow_memWf | with_reducible apply gathRow_memWf | with_reducible apply scatRow_memWf | with_reducible apply cvtRow_memWf | with_reducible apply fillRow_memWf | with_reducible apply psumUnit_memWf | with_reducible apply histUnit_memWf | with_reducible apply collUnit_memWf | with_reducible apply cpyRow_memWf | split

theorem State.onEntry_memWf {s : State} {c ch eid : Nat} {f : ChanEntry → ChanEntry} (hs : MemWf s) : MemWf (State.onEntry s c ch eid f) := by
  unfold State.onEntry
  repeat' first | with_reducible assumption | with_reducible apply State.onCore_memWf

theorem State.noteRow_memWf {s : State} {c ch : Nat} {e : ChanEntry} {k : Nat} (hs : MemWf s) : MemWf (State.noteRow s c ch e k) := by
  unfold State.noteRow
  repeat' first | with_reducible assumption | with_reducible apply State.onEntry_memWf | with_reducible apply State.onTask_memWf | split

theorem State.stopCopy_memWf {s : State} {c ch : Nat} {e : ChanEntry} {x : Cause} (hs : MemWf s) : MemWf (State.stopCopy s c ch e x) := by
  unfold State.stopCopy
  repeat' first | with_reducible assumption | with_reducible apply State.onEntry_memWf | with_reducible apply State.stopTask_memWf | with_reducible apply State.unitFault_memWf | split

theorem State.stopRunning_memWf {s : State} {c n : Nat} {x : Cause} (hs : MemWf s) : MemWf (State.stopRunning s c n x) := by
  unfold State.stopRunning
  repeat' first | with_reducible assumption | with_reducible apply State.kernelFault_memWf | with_reducible apply State.stopCopy_memWf | with_reducible apply State.stopTask_memWf | with_reducible apply ite_wf | split

theorem State.finishCopy_memWf {s : State} {c ch : Nat} {e : ChanEntry} (hs : MemWf s) : MemWf (State.finishCopy s c ch e) := by
  unfold State.finishCopy
  repeat' first | with_reducible assumption | with_reducible apply State.onEntry_memWf | with_reducible apply State.onTask_memWf | split

theorem State.runCopy_memWf {s : State} {c ch limit : Nat} {e : ChanEntry} (hs : MemWf s) : MemWf (State.runCopy s c ch limit e) := by
  unfold State.runCopy
  repeat' first | with_reducible assumption | with_reducible intro _ | with_reducible apply State.onCore_memWf | with_reducible apply runUnits_memWf | with_reducible apply copyUnit_memWf | with_reducible apply State.spend_memWf | with_reducible apply State.stirred_memWf | with_reducible apply State.noteRow_memWf | with_reducible apply State.stopCopy_memWf | with_reducible apply State.finishCopy_memWf | with_reducible apply ite_wf | split | dsimp only | (with_reducible refine prod1_out ?_ (by assumption))

theorem execCopyBoxRow_memWf {core ch : Nat} {s : State} (hs : MemWf s) : OutWf (execCopyBoxRow core ch s) := by
  unfold execCopyBoxRow
  repeat' first | with_reducible assumption | with_reducible apply State.runCopy_memWf | with_reducible apply OutWf.next | split

theorem execCopyCompletion_memWf {core ch : Nat} {s : State} (hs : MemWf s) : OutWf (execCopyCompletion core ch s) := by
  unfold execCopyCompletion
  repeat' first | with_reducible assumption | with_reducible apply State.closeCopy_memWf | with_reducible apply ite_outWf | with_reducible apply OutWf.next | split

theorem State.copyTask_memWf {s : State} {c n oper : Nat} (hs : MemWf s) : OutWf (State.copyTask s c n oper) := by
  unfold State.copyTask
  repeat' first | with_reducible assumption | with_reducible apply State.runCopy_memWf | with_reducible apply ite_outWf | with_reducible apply OutWf.next | split | dsimp only

theorem execCpy_memWf {core entry : Nat} {s : State} (hs : MemWf s) : OutWf (execCpy core entry s) := by
  unfold execCpy
  repeat' first | with_reducible assumption | with_reducible apply State.copyTask_memWf

theorem execCpyT8_memWf {core entry : Nat} {s : State} (hs : MemWf s) : OutWf (execCpyT8 core entry s) := by
  unfold execCpyT8
  repeat' first | with_reducible assumption | with_reducible apply State.copyTask_memWf

theorem execCpyT16_memWf {core entry : Nat} {s : State} (hs : MemWf s) : OutWf (execCpyT16 core entry s) := by
  unfold execCpyT16
  repeat' first | with_reducible assumption | with_reducible apply State.copyTask_memWf

theorem execGath_memWf {core entry : Nat} {s : State} (hs : MemWf s) : OutWf (execGath core entry s) := by
  unfold execGath
  repeat' first | with_reducible assumption | with_reducible apply State.copyTask_memWf

theorem execScat_memWf {core entry : Nat} {s : State} (hs : MemWf s) : OutWf (execScat core entry s) := by
  unfold execScat
  repeat' first | with_reducible assumption | with_reducible apply State.copyTask_memWf

theorem execCvt_memWf {core entry : Nat} {s : State} (hs : MemWf s) : OutWf (execCvt core entry s) := by
  unfold execCvt
  repeat' first | with_reducible assumption | with_reducible apply State.copyTask_memWf

theorem execFill_memWf {core entry : Nat} {s : State} (hs : MemWf s) : OutWf (execFill core entry s) := by
  unfold execFill
  repeat' first | with_reducible assumption | with_reducible apply State.copyTask_memWf

theorem execPsum_memWf {core entry : Nat} {s : State} (hs : MemWf s) : OutWf (execPsum core entry s) := by
  unfold execPsum
  repeat' first | with_reducible assumption | with_reducible apply State.copyTask_memWf

theorem execHist_memWf {core entry : Nat} {s : State} (hs : MemWf s) : OutWf (execHist core entry s) := by
  unfold execHist
  repeat' first | with_reducible assumption | with_reducible apply State.copyTask_memWf

theorem execAred_memWf {core entry : Nat} {s : State} (hs : MemWf s) : OutWf (execAred core entry s) := by
  unfold execAred
  repeat' first | with_reducible assumption | with_reducible apply State.copyTask_memWf

theorem execBcst_memWf {core entry : Nat} {s : State} (hs : MemWf s) : OutWf (execBcst core entry s) := by
  unfold execBcst
  repeat' first | with_reducible assumption | with_reducible apply State.copyTask_memWf

theorem execWst_memWf {core entry : Nat} {s : State} (hs : MemWf s) : OutWf (execWst core entry s) := by
  unfold execWst
  repeat' first | with_reducible assumption | with_reducible apply State.copyTask_memWf

theorem execCollectiveMessage_memWf {core entry rank : Nat} {data : ByteList} {s : State} (hs : MemWf s) :
    OutWf (execCollectiveMessage core entry rank data s) := by
  unfold execCollectiveMessage
  repeat' first | with_reducible assumption | with_reducible apply State.onCore_memWf | with_reducible apply ite_outWf | with_reducible apply OutWf.next | split

theorem State.endRound_memWf {s : State} {c n cause : Nat} {info : Word64} (hs : MemWf s) : MemWf (State.endRound s c n cause info) := by
  unfold State.endRound
  repeat' first | with_reducible assumption | with_reducible apply State.endTask_memWf | with_reducible apply State.errorRecord_memWf

theorem State.abandonRound_memWf {s : State} {c n cause : Nat} {info : Word64} (hs : MemWf s) : MemWf (State.abandonRound s c n cause info) := by
  unfold State.abandonRound
  repeat' first | with_reducible assumption | with_reducible intro _ | with_reducible apply State.tellPeers_memWf | with_reducible apply State.endRound_memWf | with_reducible apply foldl_wf | with_reducible apply ite_wf | split

theorem State.takeAbandon_memWf {s : State} {group round key cause : Nat} (hs : MemWf s) : MemWf (State.takeAbandon s group round key cause) := by
  unfold State.takeAbandon
  repeat' first | with_reducible assumption | with_reducible intro _ | with_reducible apply State.endRound_memWf | with_reducible apply foldl_wf | with_reducible apply ite_wf | split

theorem execCollectiveAbandon_memWf {core entry cause : Nat} {s : State} (hs : MemWf s) : OutWf (execCollectiveAbandon core entry cause s) := by
  unfold execCollectiveAbandon
  repeat' first | with_reducible assumption | with_reducible apply State.endRound_memWf | with_reducible apply ite_outWf | with_reducible apply OutWf.next | split

theorem State.copyRegion_memWf {s : State} {d dst src : Nat} (hs : MemWf s) : MemWf (State.copyRegion s d dst src) := by
  unfold State.copyRegion
  repeat' first | with_reducible assumption | with_reducible apply MemWf.h | with_reducible apply memCopy_wf | dsimp only | (refine MemWf.mk ?_; dsimp only)

theorem execHbmShadowBind_memWf {die lri : Nat} {s : State} (hs : MemWf s) : OutWf (execHbmShadowBind die lri s) := by
  unfold execHbmShadowBind
  repeat' first | with_reducible assumption | with_reducible apply State.setDie_memWf | with_reducible apply State.copyRegion_memWf | with_reducible apply State.onTask_memWf | with_reducible apply State.onCore_memWf | with_reducible apply State.stopRunning_memWf | with_reducible apply State.stopCopy_memWf | with_reducible apply MemWf.h | with_reducible apply ite_outWf | with_reducible apply OutWf.next | split | dsimp only | (refine MemWf.mk ?_; dsimp only)

/-! ## CoxTasks -/

theorem State.releasing_memWf {s : State} {c k : Nat} (hs : MemWf s) : MemWf (State.releasing s c k) := by
  unfold State.releasing
  repeat' first | with_reducible assumption | with_reducible apply State.pushWrites_memWf

theorem State.onCorePart_memWf {s : State} {c : Nat} {f : Part → Part} (hs : MemWf s) : MemWf (State.onCorePart s c f) := by
  unfold State.onCorePart
  repeat' first | with_reducible assumption | with_reducible apply State.onPart_memWf | split

theorem execTbar_memWf {g : Guard} {lvl : Nat} {s : State} (hs : MemWf s) : OutWf (execTbar g lvl s) := by
  unfold execTbar
  repeat' first | with_reducible assumption | with_reducible intro _ | with_reducible apply State.coxRun_memWf | with_reducible apply State.releasing_memWf | with_reducible apply State.onCorePart_memWf | with_reducible apply State.tellPeers_memWf | with_reducible apply ite_effWf | with_reducible apply EffWf.done | with_reducible apply EffWf.wait | with_reducible apply EffWf.stay | with_reducible apply EffWf.trap | split

theorem State.arriveAtBar_memWf {s : State} {part level team gen member : Nat} (hs : MemWf s) : MemWf (State.arriveAtBar s part level team gen member) := by
  unfold State.arriveAtBar
  repeat' first | with_reducible assumption | with_reducible apply State.setPart_memWf | with_reducible apply ite_wf

theorem execGangBarrierArrival_memWf {part level team gen member : Nat} {s : State} (hs : MemWf s) :
    OutWf (execGangBarrierArrival part level team gen member s) := by
  unfold execGangBarrierArrival
  repeat' first | with_reducible assumption | with_reducible apply State.arriveAtBar_memWf | with_reducible apply ite_outWf | with_reducible apply OutWf.next

theorem State.exitBars_memWf {s : State} {c k : Nat} (hs : MemWf s) : MemWf (State.exitBars s c k) := by
  unfold State.exitBars
  repeat' first | with_reducible assumption | with_reducible intro _ | with_reducible apply State.onCorePart_memWf | with_reducible apply State.tellPeers_memWf | with_reducible apply foldl_wf

theorem execTid_memWf {g : Guard} {d : Nat} {ts : TidSel} {s : State} (hs : MemWf s) : OutWf (execTid g d ts s) := by
  unfold execTid
  repeat' first | with_reducible assumption | with_reducible intro _ | with_reducible apply State.coxRun_memWf | with_reducible apply putS_memWf

theorem execCinit_memWf {g : Guard} {cb wm1 cnt : Nat} {s : State} (hs : MemWf s) : OutWf (execCinit g cb wm1 cnt s) := by
  unfold execCinit
  repeat' first | with_reducible assumption | with_reducible intro _ | with_reducible apply State.coxRun_memWf | with_reducible apply State.onCore_memWf | with_reducible apply ite_effWf | with_reducible apply EffWf.done | with_reducible apply EffWf.trap

theorem cexpEff_memWf {u : State} {c cb slot count : Nat} (hu : MemWf u) : EffWf (cexpEff u c cb slot count) := by
  unfold cexpEff
  repeat' first | with_reducible assumption | with_reducible apply State.onCore_memWf | with_reducible apply ite_effWf | with_reducible apply EffWf.done | with_reducible apply EffWf.trap | split

theorem execCexp_memWf {g : Guard} {cb slot a : Nat} {s : State} (hs : MemWf s) : OutWf (execCexp g cb slot a s) := by
  unfold execCexp
  repeat' first | with_reducible assumption | with_reducible intro _ | with_reducible apply State.coxRun_memWf | with_reducible apply cexpEff_memWf

theorem execCexpLong_memWf {g : Guard} {cb slot cnt : Nat} {s : State} (hs : MemWf s) : OutWf (execCexpLong g cb slot cnt s) := by
  unfold execCexpLong
  repeat' first | with_reducible assumption | with_reducible intro _ | with_reducible apply State.coxRun_memWf | with_reducible apply cexpEff_memWf

theorem execCwait_memWf {g : Guard} {cb slot p : Nat} {s : State} (hs : MemWf s) : OutWf (execCwait g cb slot p s) := by
  unfold execCwait
  repeat' first | with_reducible assumption | with_reducible intro _ | with_reducible apply State.coxRun_memWf | with_reducible apply State.setStrand_memWf | with_reducible apply ite_effWf | with_reducible apply EffWf.done | with_reducible apply EffWf.wait | with_reducible apply EffWf.trap | split

theorem execCtry_memWf {g : Guard} {p cb slot : Nat} {s : State} (hs : MemWf s) : OutWf (execCtry g p cb slot s) := by
  unfold execCtry
  repeat' first | with_reducible assumption | with_reducible intro _ | with_reducible apply State.coxRun_memWf | with_reducible apply State.setStrand_memWf | with_reducible apply EffWf.done | with_reducible apply EffWf.trap | split

theorem execCrel_memWf {g : Guard} {cb slot : Nat} {s : State} (hs : MemWf s) : OutWf (execCrel g cb slot s) := by
  unfold execCrel
  repeat' first | with_reducible assumption | with_reducible intro _ | with_reducible apply State.coxRun_memWf | with_reducible apply State.releasing_memWf | with_reducible apply State.onCore_memWf | with_reducible apply ite_effWf | with_reducible apply EffWf.done | with_reducible apply EffWf.stay | with_reducible apply EffWf.trap | split

theorem postEff_memWf {u : State} {c k : Nat} {t : Strand} {i : Instr} {a : Nat} {pd : Option Nat} (hu : MemWf u) : EffWf (postEff u c k t i a pd) := by
  unfold postEff
  repeat' first | with_reducible assumption | with_reducible apply State.onStrand_memWf | with_reducible apply State.releasing_memWf | with_reducible apply State.setCore_memWf | with_reducible apply ite_effWf | with_reducible apply EffWf.done | with_reducible apply EffWf.wait | with_reducible apply EffWf.stay | with_reducible apply EffWf.trap | split

theorem execPost_memWf {g : Guard} {a : Nat} {s : State} (hs : MemWf s) : OutWf (execPost g a s) := by
  unfold execPost
  repeat' first | with_reducible assumption | with_reducible intro _ | with_reducible apply State.coxRun_memWf | with_reducible apply postEff_memWf

theorem execPostNb_memWf {g : Guard} {p a : Nat} {s : State} (hs : MemWf s) : OutWf (execPostNb g p a s) := by
  unfold execPostNb
  repeat' first | with_reducible assumption | with_reducible intro _ | with_reducible apply State.coxRun_memWf | with_reducible apply postEff_memWf

theorem State.deliver_memWf {s : State} {c k p d : Nat} {r : ByteList} (hs : MemWf s) : MemWf (State.deliver s c k p d r) := by
  unfold State.deliver
  repeat' first | with_reducible assumption | with_reducible apply State.onStrand_memWf | with_reducible apply State.onCore_memWf | with_reducible apply ite_wf

theorem deliverEff_memWf {u : State} {c k p d : Nat} {waits : Bool} {push : State → State} {h : Hold} (hu : MemWf u) (hp : ∀ v, MemWf v → MemWf (push v)) :
    EffWf (deliverEff u c k p d waits push h) := by
  unfold deliverEff
  repeat' first | with_reducible assumption | with_reducible apply State.deliver_memWf | with_reducible apply ite_effWf | with_reducible apply EffWf.done | with_reducible apply EffWf.wait | with_reducible apply hp

theorem execPostt_memWf {g : Guard} {p a b core : Nat} {creg : Bool} {s : State} (hs : MemWf s) : OutWf (execPostt g p a b core creg s) := by
  unfold execPostt
  repeat' first | with_reducible assumption | with_reducible intro _ | with_reducible apply State.coxRun_memWf | with_reducible apply deliverEff_memWf | with_reducible apply State.releasing_memWf | with_reducible apply EffWf.trap | split | dsimp only

theorem postrGo_memWf {u : State} {c k p : Nat} {h : Hold} {m core : Nat} {fields : Word64} (hu : MemWf u) : EffWf (postrGo u c k p h m core fields) := by
  unfold postrGo
  repeat' first | with_reducible assumption | with_reducible apply State.onStrand_memWf | with_reducible apply State.pushWrites_memWf | with_reducible apply State.sendFabric_memWf | with_reducible apply MemWf.h | with_reducible apply ite_effWf | with_reducible apply EffWf.done | with_reducible apply EffWf.wait | with_reducible apply EffWf.trap | split | (refine MemWf.mk ?_; dsimp only)

theorem execPostr_memWf {g : Guard} {p a b core : Nat} {creg rel : Bool} {s : State} (hs : MemWf s) : OutWf (execPostr g p a b core creg rel s) := by
  unfold execPostr
  repeat' first | with_reducible assumption | with_reducible intro _ | with_reducible apply State.coxRun_memWf | with_reducible apply postrGo_memWf | with_reducible apply deliverEff_memWf | with_reducible apply State.pushWrites_memWf | with_reducible apply ite_effWf | with_reducible apply EffWf.trap | split

theorem dcEff_memWf {u : State} {c k n : Nat} {v : Int} {alone : Bool} {kind : DcKind} (hu : MemWf u) : EffWf (dcEff u c k n v alone kind) := by
  unfold dcEff
  repeat' first | with_reducible assumption | with_reducible apply State.releasing_memWf | with_reducible apply State.onCore_memWf | with_reducible apply ite_effWf | with_reducible apply EffWf.done | with_reducible apply EffWf.stay | with_reducible apply EffWf.trap

theorem dcsetEff_memWf {u : State} {c k n v : Nat} {t : Strand} (hu : MemWf u) : EffWf (dcsetEff u c k n v t) := by
  unfold dcsetEff
  repeat' first | with_reducible assumption | with_reducible apply dcEff_memWf

theorem execDcset_memWf {g : Guard} {n a : Nat} {s : State} (hs : MemWf s) : OutWf (execDcset g n a s) := by
  unfold execDcset
  repeat' first | with_reducible assumption | with_reducible intro _ | with_reducible apply State.coxRun_memWf | with_reducible apply dcsetEff_memWf

theorem execDcsetLong_memWf {g : Guard} {n v : Nat} {s : State} (hs : MemWf s) : OutWf (execDcsetLong g n v s) := by
  unfold execDcsetLong
  repeat' first | with_reducible assumption | with_reducible intro _ | with_reducible apply State.coxRun_memWf | with_reducible apply dcsetEff_memWf

theorem dcaddEff_memWf {u : State} {c k n : Nat} {d : Int} {t : Strand} (hu : MemWf u) : EffWf (dcaddEff u c k n d t) := by
  unfold dcaddEff
  repeat' first | with_reducible assumption | with_reducible apply dcEff_memWf

theorem execDcadd_memWf {g : Guard} {n a : Nat} {s : State} (hs : MemWf s) : OutWf (execDcadd g n a s) := by
  unfold execDcadd
  repeat' first | with_reducible assumption | with_reducible intro _ | with_reducible apply State.coxRun_memWf | with_reducible apply dcaddEff_memWf

theorem execDcaddLong_memWf {g : Guard} {n : Nat} {e : Word32} {s : State} (hs : MemWf s) : OutWf (execDcaddLong g n e s) := by
  unfold execDcaddLong
  repeat' first | with_reducible assumption | with_reducible intro _ | with_reducible apply State.coxRun_memWf | with_reducible apply dcaddEff_memWf

theorem execDcwait_memWf {g : Guard} {n : Nat} {s : State} (hs : MemWf s) : OutWf (execDcwait g n s) := by
  unfold execDcwait
  repeat' first | with_reducible assumption | with_reducible intro _ | with_reducible apply State.coxRun_memWf | with_reducible apply ite_effWf | with_reducible apply EffWf.done | with_reducible apply EffWf.wait

theorem State.combineDc_memWf {s : State} {c n : Nat} (hs : MemWf s) : MemWf (State.combineDc s c n) := by
  unfold State.combineDc
  repeat' first | with_reducible assumption | with_reducible intro _ | with_reducible apply State.onCore_memWf | with_reducible apply State.onStrand_memWf | with_reducible apply State.counterUnder_memWf | with_reducible apply foldl_wf | with_reducible apply ite_wf | split

theorem State.closeCore_memWf {s : State} {c : Nat} (hs : MemWf s) : MemWf (State.closeCore s c) := by
  unfold State.closeCore
  repeat' first | with_reducible assumption | with_reducible intro _ | with_reducible apply State.combineDc_memWf | with_reducible apply State.onCore_memWf | with_reducible apply foldl_wf

theorem State.closeCycle_memWf {s : State} (hs : MemWf s) : MemWf (State.closeCycle s) := by
  unfold State.closeCycle
  repeat' first | with_reducible assumption | with_reducible intro _ | with_reducible apply State.closeCore_memWf | with_reducible apply MemWf.h | with_reducible apply foldl_wf | dsimp only | (refine MemWf.mk ?_; dsimp only)

theorem State.startCopy_memWf {s : State} {c ch : Nat} {b : ByteList} (hs : MemWf s) : MemWf (State.startCopy s c ch b).1 := by
  unfold State.startCopy
  repeat' first | with_reducible assumption | with_reducible apply State.bumpId_memWf | with_reducible apply State.setCore_memWf | split | dsimp only

theorem staEff_memWf {u : State} {c k p : Nat} {off d : Word64} (hu : MemWf u) : EffWf (staEff u c k p off d) := by
  unfold staEff
  repeat' first | with_reducible assumption | with_reducible apply State.onStrand_memWf | with_reducible apply State.releasing_memWf | with_reducible apply State.startCopy_memWf | with_reducible apply State.setCore_memWf | with_reducible apply ite_effWf | with_reducible apply EffWf.done | with_reducible apply EffWf.stay | with_reducible apply EffWf.trap

theorem execSta_memWf {g : Guard} {p a b : Nat} {s : State} (hs : MemWf s) : OutWf (execSta g p a b s) := by
  unfold execSta
  repeat' first | with_reducible assumption | with_reducible intro _ | with_reducible apply State.coxRun_memWf | with_reducible apply staEff_memWf

theorem execStaLong_memWf {g : Guard} {p a b off : Nat} {s : State} (hs : MemWf s) : OutWf (execStaLong g p a b off s) := by
  unfold execStaLong
  repeat' first | with_reducible assumption | with_reducible intro _ | with_reducible apply State.coxRun_memWf | with_reducible apply staEff_memWf

theorem execSbind_memWf {g : Guard} {d a b prog cb entry : Nat} {s : State} (hs : MemWf s) : OutWf (execSbind g d a b prog cb entry s) := by
  unfold execSbind
  repeat' first | with_reducible assumption | with_reducible intro _ | with_reducible apply State.coxRun_memWf | with_reducible apply State.releasing_memWf | with_reducible apply State.onStrand_memWf | with_reducible apply State.onCore_memWf | with_reducible apply State.setCtx_memWf | with_reducible apply ite_effWf | with_reducible apply EffWf.done | with_reducible apply EffWf.stay | with_reducible apply EffWf.trap | split | dsimp only

theorem execCqpush_memWf {g : Guard} {p a stream : Nat} {s : State} (hs : MemWf s) : OutWf (execCqpush g p a stream s) := by
  unfold execCqpush
  repeat' first | with_reducible assumption | with_reducible intro _ | with_reducible apply State.coxRun_memWf | with_reducible apply State.releasing_memWf | with_reducible apply State.onStrand_memWf | with_reducible apply MemWf.h | with_reducible apply ite_effWf | with_reducible apply EffWf.done | with_reducible apply EffWf.stay | split | (refine MemWf.mk ?_; dsimp only)

theorem execSstop_memWf {g : Guard} {stream : Nat} {s : State} (hs : MemWf s) : OutWf (execSstop g stream s) := by
  unfold execSstop
  repeat' first | with_reducible assumption | with_reducible intro _ | with_reducible apply State.coxRun_memWf | with_reducible apply MemWf.h | with_reducible apply EffWf.done | split | (refine MemWf.mk ?_; dsimp only)

theorem State.yieldDone_memWf {s : State} {p : Nat} (hs : MemWf s) : MemWf (State.yieldDone s p) := by
  unfold State.yieldDone
  repeat' first | with_reducible assumption | with_reducible apply State.askSave_memWf | with_reducible apply ite_wf

theorem execYield_memWf {g : Guard} {p : Nat} {s : State} (hs : MemWf s) : OutWf (execYield g p s) := by
  unfold execYield
  repeat' first | with_reducible assumption | with_reducible intro _ | with_reducible apply State.coxRun_memWf | with_reducible apply State.setStrand_memWf | with_reducible apply State.yieldDone_memWf | with_reducible apply ite_effWf | with_reducible apply EffWf.done | with_reducible apply EffWf.over | split

theorem execLive_memWf {g : Guard} {a : Nat} {s : State} (hs : MemWf s) : OutWf (execLive g a s) := by
  unfold execLive
  repeat' first | with_reducible assumption | with_reducible intro _ | with_reducible apply State.coxRun_memWf | with_reducible apply State.onCore_memWf | with_reducible apply EffWf.done

theorem execLiveLong_memWf {g : Guard} {e : Word32} {s : State} (hs : MemWf s) : OutWf (execLiveLong g e s) := by
  unfold execLiveLong
  repeat' first | with_reducible assumption | with_reducible intro _ | with_reducible apply State.coxRun_memWf | with_reducible apply State.onCore_memWf | with_reducible apply EffWf.done

end Sys2Proof.Machine
end

