-- ==== Sys2Proof/Laws/MemoryUnits.lean ====
section
/-! SUPPORT. Keeping the canonical form of the byte memory: the other words of strands and contexts, packets, and the events of firmware, links, security, memory and errors. -/
namespace Sys2Proof.Machine

/-! ## Access -/

theorem State.ctxGoes_memWf {s : State} {m x : Nat} {t : Ctx} {pc : Nat} (hs : MemWf s) : MemWf (State.ctxGoes s m x t pc) := by
  unfold State.ctxGoes
  repeat' first | with_reducible assumption | with_reducible apply State.onCore_memWf | with_reducible apply State.setCtx_memWf | with_reducible apply State.spend_memWf

theorem State.ctxRun_memWf {s : State} {f : Nat → Nat → Ctx → State → AEff} (hs : MemWf s)
  (hf : ∀ m x t u, MemWf u → AEffWf (f m x t u)) : OutWf (State.ctxRun s f) := by
  unfold State.ctxRun
  split
  · split
    · exact .fault
    · rename_i m x _ _ t _
      have h := hf m x t s hs
      split <;> rename_i he <;> rw [he] at h <;> cases h
      · exact .next (State.setCtx_memWf hs)
      · exact .next (State.ctxFault_memWf hs)
      · exact .next (State.ctxFault_memWf (State.setCtx_memWf ‹_›))
      · exact .next (State.ctxGoes_memWf ‹_›)
      · exact ite_outWf (.next (State.ctxFault_memWf hs)) (.next (State.ctxGoes_memWf ‹_›))
  · exact .fault

theorem State.ctxAlu_memWf {s : State} {d a : Nat} {x : Src} {f : Word48 → Word48 → Word48} (hs : MemWf s) : OutWf (State.ctxAlu s d a x f) := by
  unfold State.ctxAlu
  repeat' first | with_reducible assumption | with_reducible intro _ | with_reducible apply State.ctxRun_memWf | with_reducible apply AEffWf.done

theorem execAnop_memWf {s : State} (hs : MemWf s) : OutWf (execAnop s) := by
  unfold execAnop
  repeat' first | with_reducible assumption | with_reducible intro _ | with_reducible apply State.ctxRun_memWf | with_reducible apply AEffWf.done

theorem execAmov_memWf {d : Nat} {x : Src} {s : State} (hs : MemWf s) : OutWf (execAmov d x s) := by
  unfold execAmov
  repeat' first | with_reducible assumption | with_reducible apply State.ctxAlu_memWf

theorem execAadd_memWf {d a : Nat} {x : Src} {s : State} (hs : MemWf s) : OutWf (execAadd d a x s) := by
  unfold execAadd
  repeat' first | with_reducible assumption | with_reducible apply State.ctxAlu_memWf

theorem execAsub_memWf {d a : Nat} {x : Src} {s : State} (hs : MemWf s) : OutWf (execAsub d a x s) := by
  unfold execAsub
  repeat' first | with_reducible assumption | with_reducible apply State.ctxAlu_memWf

theorem execAmul_memWf {d a : Nat} {x : Src} {s : State} (hs : MemWf s) : OutWf (execAmul d a x s) := by
  unfold execAmul
  repeat' first | with_reducible assumption | with_reducible apply State.ctxAlu_memWf

theorem execAshl_memWf {d a : Nat} {x : Src} {s : State} (hs : MemWf s) : OutWf (execAshl d a x s) := by
  unfold execAshl
  repeat' first | with_reducible assumption | with_reducible apply State.ctxAlu_memWf

theorem execAshr_memWf {d a : Nat} {x : Src} {s : State} (hs : MemWf s) : OutWf (execAshr d a x s) := by
  unfold execAshr
  repeat' first | with_reducible assumption | with_reducible apply State.ctxAlu_memWf

theorem execAand_memWf {d a : Nat} {x : Src} {s : State} (hs : MemWf s) : OutWf (execAand d a x s) := by
  unfold execAand
  repeat' first | with_reducible assumption | with_reducible apply State.ctxAlu_memWf

theorem execAmin_memWf {d a : Nat} {x : Src} {s : State} (hs : MemWf s) : OutWf (execAmin d a x s) := by
  unfold execAmin
  repeat' first | with_reducible assumption | with_reducible apply State.ctxAlu_memWf

theorem execAcmp_memWf {d a : Nat} {x : Src} {s : State} (hs : MemWf s) : OutWf (execAcmp d a x s) := by
  unfold execAcmp
  repeat' first | with_reducible assumption | with_reducible apply State.ctxAlu_memWf

theorem execAbr_memWf {cc : ACond} {a : Nat} {off : Imm17} {s : State} (hs : MemWf s) : OutWf (execAbr cc a off s) := by
  unfold execAbr
  repeat' first | with_reducible assumption | with_reducible intro _ | with_reducible apply State.ctxRun_memWf | with_reducible apply ite_aeffWf | with_reducible apply AEffWf.done | with_reducible apply AEffWf.jump

theorem execAjmp_memWf {x : Src} {s : State} (hs : MemWf s) : OutWf (execAjmp x s) := by
  unfold execAjmp
  repeat' first | with_reducible assumption | with_reducible intro _ | with_reducible apply State.ctxRun_memWf | with_reducible apply AEffWf.jump

theorem execAloop_memWf {n : Nat} {x : Src} {s : State} (hs : MemWf s) : OutWf (execAloop n x s) := by
  unfold execAloop
  repeat' first | with_reducible assumption | with_reducible intro _ | with_reducible apply State.ctxRun_memWf | with_reducible apply ite_aeffWf | with_reducible apply AEffWf.done | with_reducible apply AEffWf.hold | with_reducible apply AEffWf.fault | split

theorem execAend_memWf {n : Nat} {s : State} (hs : MemWf s) : OutWf (execAend n s) := by
  unfold execAend
  repeat' first | with_reducible assumption | with_reducible intro _ | with_reducible apply State.ctxRun_memWf | with_reducible apply ite_aeffWf | with_reducible apply AEffWf.done | with_reducible apply AEffWf.jump

theorem execAhalt_memWf {s : State} (hs : MemWf s) : OutWf (execAhalt s) := by
  unfold execAhalt
  repeat' first | with_reducible assumption | with_reducible intro _ | with_reducible apply State.ctxRun_memWf | with_reducible apply AEffWf.done

theorem State.readRow48_memWf {s : State} {w : Who} {va len : Nat} (hs : MemWf s) : ExcWf2 (State.readRow48 s w va len) := by
  unfold State.readRow48
  repeat' first | with_reducible assumption | with_reducible apply State.readG_memWf | with_reducible apply State.readV_memWf | with_reducible apply ite_excP | with_reducible apply excWf2_map | with_reducible apply ExcP.error | split | (with_reducible refine excWf2_out ?_ (by assumption))

theorem State.pushRows_memWf {w : Who} {len : Nat} {x2 : List (Option Nat)} {x3 : State} (hx3 : MemWf x3) : MemWf (State.pushRows w len x2 x3).2.1 := by
  induction x2 generalizing x3 with
  | nil => exact hx3
  | cons a r ih =>
    unfold State.pushRows
    split
    · exact hx3
    · next p hp =>
      refine ih ?_
      split at hp
      · cases hp; exact hx3
      · exact excWf2_pair (State.readRow48_memWf hx3) hp

theorem pushEff_memWf {m x : Nat} {t : Ctx} {dst : Nat} {shape : Word48} {rows : State → Except Cause (List (Option Nat) × State)} {s : State} (hs : MemWf s) (hr : ∀ u, MemWf u → ExcWf2 (rows u)) :
    AEffWf (pushEff m x t dst shape rows s) := by
  unfold pushEff
  repeat' first | with_reducible assumption | with_reducible apply State.pushRows_memWf | with_reducible apply State.onCore_memWf | with_reducible apply ite_aeffWf | with_reducible apply AEffWf.done | with_reducible apply AEffWf.hold | with_reducible apply AEffWf.fault | with_reducible apply AEffWf.part | with_reducible apply hr | split | dsimp only | (with_reducible refine excWf2_out ?_ (by assumption))

theorem execSpush_memWf {d a b : Nat} {s : State} (hs : MemWf s) : OutWf (execSpush d a b s) := by
  unfold execSpush
  repeat' first | with_reducible assumption | with_reducible intro _ | with_reducible apply State.ctxRun_memWf | with_reducible apply pushEff_memWf | with_reducible apply ExcP.ok

theorem State.indexRows_memWf {s : State} {m x : Nat} {t : Ctx} {a b : Nat} {sh : Word48} (hs : MemWf s) : ExcWf2 (State.indexRows s m x t a b sh) := by
  unfold State.indexRows
  dsimp only
  split
  · exact .error
  · next he =>
    have hu := State.pushRows_memWf (w := s.whoCtx m x t) (len := 4) (x2 := (List.range (bitsOf sh 27 16)).map fun q => some (rowAddr (t.read b) (4 * q))) hs
    rw [he] at hu
    split
    · exact .error
    · exact .ok hu

theorem execSpushi_memWf {d a b : Nat} {s : State} (hs : MemWf s) : OutWf (execSpushi d a b s) := by
  unfold execSpushi
  repeat' first | with_reducible assumption | with_reducible intro _ | with_reducible apply State.ctxRun_memWf | with_reducible apply pushEff_memWf | with_reducible apply State.indexRows_memWf

theorem execSwin_memWf {s : State} (hs : MemWf s) : OutWf (execSwin s) := by
  unfold execSwin
  repeat' first | with_reducible assumption | with_reducible intro _ | with_reducible apply State.ctxRun_memWf | with_reducible apply ite_aeffWf | with_reducible apply AEffWf.done | with_reducible apply AEffWf.hold | split

theorem execCqpop_memWf {d : Nat} {s : State} (hs : MemWf s) : OutWf (execCqpop d s) := by
  unfold execCqpop
  repeat' first | with_reducible assumption | with_reducible intro _ | with_reducible apply State.ctxRun_memWf | with_reducible apply AEffWf.done | with_reducible apply AEffWf.hold | split

theorem execAfence_memWf {s : State} (hs : MemWf s) : OutWf (execAfence s) := by
  unfold execAfence
  repeat' first | with_reducible assumption | with_reducible intro _ | with_reducible apply State.ctxRun_memWf | with_reducible apply ite_aeffWf | with_reducible apply AEffWf.done | with_reducible apply AEffWf.hold

theorem execIllegalAccessWord_memWf {w : Word32} {s : State} (hs : MemWf s) : OutWf (execIllegalAccessWord w s) := by
  unfold execIllegalAccessWord
  repeat' first | with_reducible assumption | with_reducible intro _ | with_reducible apply State.ctxRun_memWf | with_reducible apply AEffWf.fault

theorem execPushLand_memWf {mse ctx : Nat} {s : State} (hs : MemWf s) : OutWf (execPushLand mse ctx s) := by
  unfold execPushLand
  repeat' first | with_reducible assumption | with_reducible apply State.putLocal_memWf | with_reducible apply State.onCore_memWf | with_reducible apply State.setCtx_memWf | with_reducible apply OutWf.next | split | dsimp only

theorem execContextEnd_memWf {mse ctx : Nat} {s : State} (hs : MemWf s) : OutWf (execContextEnd mse ctx s) := by
  unfold execContextEnd
  repeat' first | with_reducible assumption | with_reducible apply State.onCore_memWf | with_reducible apply State.disown_memWf | with_reducible apply MemWf.h | with_reducible apply ite_outWf | with_reducible apply OutWf.next | split | dsimp only | (refine MemWf.mk ?_; dsimp only)

/-! ## CoxCompute -/

theorem execNop_memWf {g : Guard} {s : State} (hs : MemWf s) : OutWf (execNop g s) := by
  unfold execNop
  repeat' first | with_reducible assumption | with_reducible intro _ | with_reducible apply State.coxRun_memWf | with_reducible apply EffWf.done

theorem execAdd_memWf {g : Guard} {d a b : Nat} {s : State} (hs : MemWf s) : OutWf (execAdd g d a b s) := by
  unfold execAdd
  repeat' first | with_reducible assumption | with_reducible apply State.aluReg_memWf

theorem execAddLong_memWf {g : Guard} {d a : Nat} {e : Word32} {s : State} (hs : MemWf s) : OutWf (execAddLong g d a e s) := by
  unfold execAddLong
  repeat' first | with_reducible assumption | with_reducible apply State.aluLong_memWf

theorem execSub_memWf {g : Guard} {d a b : Nat} {s : State} (hs : MemWf s) : OutWf (execSub g d a b s) := by
  unfold execSub
  repeat' first | with_reducible assumption | with_reducible apply State.aluReg_memWf

theorem execSubLong_memWf {g : Guard} {d a : Nat} {e : Word32} {s : State} (hs : MemWf s) : OutWf (execSubLong g d a e s) := by
  unfold execSubLong
  repeat' first | with_reducible assumption | with_reducible apply State.aluLong_memWf

theorem execAnd_memWf {g : Guard} {d a b : Nat} {s : State} (hs : MemWf s) : OutWf (execAnd g d a b s) := by
  unfold execAnd
  repeat' first | with_reducible assumption | with_reducible apply State.aluReg_memWf

theorem execAndLong_memWf {g : Guard} {d a : Nat} {e : Word32} {s : State} (hs : MemWf s) : OutWf (execAndLong g d a e s) := by
  unfold execAndLong
  repeat' first | with_reducible assumption | with_reducible apply State.aluLong_memWf

theorem execOr_memWf {g : Guard} {d a b : Nat} {s : State} (hs : MemWf s) : OutWf (execOr g d a b s) := by
  unfold execOr
  repeat' first | with_reducible assumption | with_reducible apply State.aluReg_memWf

theorem execOrLong_memWf {g : Guard} {d a : Nat} {e : Word32} {s : State} (hs : MemWf s) : OutWf (execOrLong g d a e s) := by
  unfold execOrLong
  repeat' first | with_reducible assumption | with_reducible apply State.aluLong_memWf

theorem execXor_memWf {g : Guard} {d a b : Nat} {s : State} (hs : MemWf s) : OutWf (execXor g d a b s) := by
  unfold execXor
  repeat' first | with_reducible assumption | with_reducible apply State.aluReg_memWf

theorem execXorLong_memWf {g : Guard} {d a : Nat} {e : Word32} {s : State} (hs : MemWf s) : OutWf (execXorLong g d a e s) := by
  unfold execXorLong
  repeat' first | with_reducible assumption | with_reducible apply State.aluLong_memWf

theorem execAndn_memWf {g : Guard} {d a b : Nat} {s : State} (hs : MemWf s) : OutWf (execAndn g d a b s) := by
  unfold execAndn
  repeat' first | with_reducible assumption | with_reducible apply State.aluReg_memWf

theorem execAndnLong_memWf {g : Guard} {d a : Nat} {e : Word32} {s : State} (hs : MemWf s) : OutWf (execAndnLong g d a e s) := by
  unfold execAndnLong
  repeat' first | with_reducible assumption | with_reducible apply State.aluLong_memWf

theorem execShl_memWf {g : Guard} {d a b : Nat} {s : State} (hs : MemWf s) : OutWf (execShl g d a b s) := by
  unfold execShl
  repeat' first | with_reducible assumption | with_reducible apply State.aluReg_memWf

theorem execShlLong_memWf {g : Guard} {d a : Nat} {e : Word32} {s : State} (hs : MemWf s) : OutWf (execShlLong g d a e s) := by
  unfold execShlLong
  repeat' first | with_reducible assumption | with_reducible apply State.aluLong_memWf

theorem execShr_memWf {g : Guard} {d a b : Nat} {s : State} (hs : MemWf s) : OutWf (execShr g d a b s) := by
  unfold execShr
  repeat' first | with_reducible assumption | with_reducible apply State.aluReg_memWf

theorem execShrLong_memWf {g : Guard} {d a : Nat} {e : Word32} {s : State} (hs : MemWf s) : OutWf (execShrLong g d a e s) := by
  unfold execShrLong
  repeat' first | with_reducible assumption | with_reducible apply State.aluLong_memWf

theorem execSra_memWf {g : Guard} {d a b : Nat} {s : State} (hs : MemWf s) : OutWf (execSra g d a b s) := by
  unfold execSra
  repeat' first | with_reducible assumption | with_reducible apply State.aluReg_memWf

theorem execSraLong_memWf {g : Guard} {d a : Nat} {e : Word32} {s : State} (hs : MemWf s) : OutWf (execSraLong g d a e s) := by
  unfold execSraLong
  repeat' first | with_reducible assumption | with_reducible apply State.aluLong_memWf

theorem execRol_memWf {g : Guard} {d a b : Nat} {s : State} (hs : MemWf s) : OutWf (execRol g d a b s) := by
  unfold execRol
  repeat' first | with_reducible assumption | with_reducible apply State.aluReg_memWf

theorem execRolLong_memWf {g : Guard} {d a : Nat} {e : Word32} {s : State} (hs : MemWf s) : OutWf (execRolLong g d a e s) := by
  unfold execRolLong
  repeat' first | with_reducible assumption | with_reducible apply State.aluLong_memWf

theorem execMin_memWf {g : Guard} {d a b : Nat} {s : State} (hs : MemWf s) : OutWf (execMin g d a b s) := by
  unfold execMin
  repeat' first | with_reducible assumption | with_reducible apply State.aluReg_memWf

theorem execMinLong_memWf {g : Guard} {d a : Nat} {e : Word32} {s : State} (hs : MemWf s) : OutWf (execMinLong g d a e s) := by
  unfold execMinLong
  repeat' first | with_reducible assumption | with_reducible apply State.aluLong_memWf

theorem execMax_memWf {g : Guard} {d a b : Nat} {s : State} (hs : MemWf s) : OutWf (execMax g d a b s) := by
  unfold execMax
  repeat' first | with_reducible assumption | with_reducible apply State.aluReg_memWf

theorem execMaxLong_memWf {g : Guard} {d a : Nat} {e : Word32} {s : State} (hs : MemWf s) : OutWf (execMaxLong g d a e s) := by
  unfold execMaxLong
  repeat' first | with_reducible assumption | with_reducible apply State.aluLong_memWf

theorem execFmin_memWf {g : Guard} {d a b : Nat} {s : State} (hs : MemWf s) : OutWf (execFmin g d a b s) := by
  unfold execFmin
  repeat' first | with_reducible assumption | with_reducible apply State.aluReg_memWf

theorem execFminLong_memWf {g : Guard} {d a : Nat} {e : Word32} {s : State} (hs : MemWf s) : OutWf (execFminLong g d a e s) := by
  unfold execFminLong
  repeat' first | with_reducible assumption | with_reducible apply State.aluLong_memWf

theorem execFmax_memWf {g : Guard} {d a b : Nat} {s : State} (hs : MemWf s) : OutWf (execFmax g d a b s) := by
  unfold execFmax
  repeat' first | with_reducible assumption | with_reducible apply State.aluReg_memWf

theorem execFmaxLong_memWf {g : Guard} {d a : Nat} {e : Word32} {s : State} (hs : MemWf s) : OutWf (execFmaxLong g d a e s) := by
  unfold execFmaxLong
  repeat' first | with_reducible assumption | with_reducible apply State.aluLong_memWf

theorem execFsgn_memWf {g : Guard} {d a b : Nat} {s : State} (hs : MemWf s) : OutWf (execFsgn g d a b s) := by
  unfold execFsgn
  repeat' first | with_reducible assumption | with_reducible apply State.aluReg_memWf

theorem execFsgnLong_memWf {g : Guard} {d a : Nat} {e : Word32} {s : State} (hs : MemWf s) : OutWf (execFsgnLong g d a e s) := by
  unfold execFsgnLong
  repeat' first | with_reducible assumption | with_reducible apply State.aluLong_memWf

theorem execMul_memWf {g : Guard} {d a b : Nat} {s : State} (hs : MemWf s) : OutWf (execMul g d a b s) := by
  unfold execMul
  repeat' first | with_reducible assumption | with_reducible apply State.slowReg_memWf

theorem execMulLong_memWf {g : Guard} {d a : Nat} {e : Word32} {s : State} (hs : MemWf s) : OutWf (execMulLong g d a e s) := by
  unfold execMulLong
  repeat' first | with_reducible assumption | with_reducible apply State.slowLong_memWf

theorem execMulh_memWf {g : Guard} {d a b : Nat} {s : State} (hs : MemWf s) : OutWf (execMulh g d a b s) := by
  unfold execMulh
  repeat' first | with_reducible assumption | with_reducible apply State.slowReg_memWf

theorem execMulhLong_memWf {g : Guard} {d a : Nat} {e : Word32} {s : State} (hs : MemWf s) : OutWf (execMulhLong g d a e s) := by
  unfold execMulhLong
  repeat' first | with_reducible assumption | with_reducible apply State.slowLong_memWf

theorem execDiv_memWf {g : Guard} {d a b : Nat} {s : State} (hs : MemWf s) : OutWf (execDiv g d a b s) := by
  unfold execDiv
  repeat' first | with_reducible assumption | with_reducible apply State.slowReg_memWf

theorem execDivLong_memWf {g : Guard} {d a : Nat} {e : Word32} {s : State} (hs : MemWf s) : OutWf (execDivLong g d a e s) := by
  unfold execDivLong
  repeat' first | with_reducible assumption | with_reducible apply State.slowLong_memWf

theorem execRem_memWf {g : Guard} {d a b : Nat} {s : State} (hs : MemWf s) : OutWf (execRem g d a b s) := by
  unfold execRem
  repeat' first | with_reducible assumption | with_reducible apply State.slowReg_memWf

theorem execRemLong_memWf {g : Guard} {d a : Nat} {e : Word32} {s : State} (hs : MemWf s) : OutWf (execRemLong g d a e s) := by
  unfold execRemLong
  repeat' first | with_reducible assumption | with_reducible apply State.slowLong_memWf

theorem execFadd_memWf {g : Guard} {d a b : Nat} {s : State} (hs : MemWf s) : OutWf (execFadd g d a b s) := by
  unfold execFadd
  repeat' first | with_reducible assumption | with_reducible apply State.slowReg_memWf

theorem execFaddLong_memWf {g : Guard} {d a : Nat} {e : Word32} {s : State} (hs : MemWf s) : OutWf (execFaddLong g d a e s) := by
  unfold execFaddLong
  repeat' first | with_reducible assumption | with_reducible apply State.slowLong_memWf

theorem execFsub_memWf {g : Guard} {d a b : Nat} {s : State} (hs : MemWf s) : OutWf (execFsub g d a b s) := by
  unfold execFsub
  repeat' first | with_reducible assumption | with_reducible apply State.slowReg_memWf

theorem execFsubLong_memWf {g : Guard} {d a : Nat} {e : Word32} {s : State} (hs : MemWf s) : OutWf (execFsubLong g d a e s) := by
  unfold execFsubLong
  repeat' first | with_reducible assumption | with_reducible apply State.slowLong_memWf

theorem execFmul_memWf {g : Guard} {d a b : Nat} {s : State} (hs : MemWf s) : OutWf (execFmul g d a b s) := by
  unfold execFmul
  repeat' first | with_reducible assumption | with_reducible apply State.slowReg_memWf

theorem execFmulLong_memWf {g : Guard} {d a : Nat} {e : Word32} {s : State} (hs : MemWf s) : OutWf (execFmulLong g d a e s) := by
  unfold execFmulLong
  repeat' first | with_reducible assumption | with_reducible apply State.slowLong_memWf

theorem execFdiv_memWf {g : Guard} {d a b : Nat} {s : State} (hs : MemWf s) : OutWf (execFdiv g d a b s) := by
  unfold execFdiv
  repeat' first | with_reducible assumption | with_reducible apply State.slowReg_memWf

theorem execFdivLong_memWf {g : Guard} {d a : Nat} {e : Word32} {s : State} (hs : MemWf s) : OutWf (execFdivLong g d a e s) := by
  unfold execFdivLong
  repeat' first | with_reducible assumption | with_reducible apply State.slowLong_memWf

theorem execClz_memWf {g : Guard} {d a : Nat} {s : State} (hs : MemWf s) : OutWf (execClz g d a s) := by
  unfold execClz
  repeat' first | with_reducible assumption | with_reducible apply State.aluOne_memWf

theorem execCtz_memWf {g : Guard} {d a : Nat} {s : State} (hs : MemWf s) : OutWf (execCtz g d a s) := by
  unfold execCtz
  repeat' first | with_reducible assumption | with_reducible apply State.aluOne_memWf

theorem execPopc_memWf {g : Guard} {d a : Nat} {s : State} (hs : MemWf s) : OutWf (execPopc g d a s) := by
  unfold execPopc
  repeat' first | with_reducible assumption | with_reducible apply State.aluOne_memWf

theorem execSext_memWf {g : Guard} {d a wm1 : Nat} {s : State} (hs : MemWf s) : OutWf (execSext g d a wm1 s) := by
  unfold execSext
  repeat' first | with_reducible assumption | with_reducible apply State.aluOne_memWf

theorem execZext_memWf {g : Guard} {d a wm1 : Nat} {s : State} (hs : MemWf s) : OutWf (execZext g d a wm1 s) := by
  unfold execZext
  repeat' first | with_reducible assumption | with_reducible apply State.aluOne_memWf

theorem execMov_memWf {g : Guard} {d a : Nat} {s : State} (hs : MemWf s) : OutWf (execMov g d a s) := by
  unfold execMov
  repeat' first | with_reducible assumption | with_reducible apply State.aluOne_memWf

theorem execBfx_memWf {g : Guard} {d a pos wm1 : Nat} {sgn : Bool} {s : State} (hs : MemWf s) : OutWf (execBfx g d a pos wm1 sgn s) := by
  unfold execBfx
  repeat' first | with_reducible assumption | with_reducible intro _ | with_reducible apply State.coxRun_memWf | with_reducible apply putS_memWf

theorem execBfi_memWf {g : Guard} {d a pos wm1 : Nat} {s : State} (hs : MemWf s) : OutWf (execBfi g d a pos wm1 s) := by
  unfold execBfi
  repeat' first | with_reducible assumption | with_reducible intro _ | with_reducible apply State.coxRun_memWf | with_reducible apply putS_memWf

theorem execLi_memWf {g : Guard} {d : Nat} {i : Imm12} {s : State} (hs : MemWf s) : OutWf (execLi g d i s) := by
  unfold execLi
  repeat' first | with_reducible assumption | with_reducible intro _ | with_reducible apply State.coxRun_memWf | with_reducible apply putS_memWf

theorem execLiLong_memWf {g : Guard} {d : Nat} {e : Word32} {s : State} (hs : MemWf s) : OutWf (execLiLong g d e s) := by
  unfold execLiLong
  repeat' first | with_reducible assumption | with_reducible intro _ | with_reducible apply State.coxRun_memWf | with_reducible apply putS_memWf

theorem execLiH_memWf {g : Guard} {d : Nat} {e : Word32} {s : State} (hs : MemWf s) : OutWf (execLiH g d e s) := by
  unfold execLiH
  repeat' first | with_reducible assumption | with_reducible intro _ | with_reducible apply State.coxRun_memWf | with_reducible apply putS_memWf

theorem execSel_memWf {g : Guard} {d a b p : Nat} {neg : Bool} {s : State} (hs : MemWf s) : OutWf (execSel g d a b p neg s) := by
  unfold execSel
  repeat' first | with_reducible assumption | with_reducible intro _ | with_reducible apply State.coxRun_memWf | with_reducible apply putS_memWf

theorem execLea_memWf {g : Guard} {d : Nat} {i : Imm12} {s : State} (hs : MemWf s) : OutWf (execLea g d i s) := by
  unfold execLea
  repeat' first | with_reducible assumption | with_reducible intro _ | with_reducible apply State.coxRun_memWf | with_reducible apply putS_memWf

theorem execLeaLong_memWf {g : Guard} {d : Nat} {e : Word32} {s : State} (hs : MemWf s) : OutWf (execLeaLong g d e s) := by
  unfold execLeaLong
  repeat' first | with_reducible assumption | with_reducible intro _ | with_reducible apply State.coxRun_memWf | with_reducible apply putS_memWf

theorem execHoff_memWf {g : Guard} {d a h : Nat} {s : State} (hs : MemWf s) : OutWf (execHoff g d a h s) := by
  unfold execHoff
  repeat' first | with_reducible assumption | with_reducible intro _ | with_reducible apply State.coxRun_memWf | with_reducible apply State.setStrand_memWf | with_reducible apply ite_effWf | with_reducible apply EffWf.done | with_reducible apply EffWf.trap

theorem execCmp_memWf {g : Guard} {d a : Nat} {cc : CmpCond} {second : CmpSecond} {comb : Comb} {s : State} (hs : MemWf s) :
    OutWf (execCmp g d a cc second comb s) := by
  unfold execCmp
  repeat' first | with_reducible assumption | with_reducible intro _ | with_reducible apply State.coxRun_memWf | with_reducible apply State.setStrand_memWf | with_reducible apply EffWf.done

theorem State.predLogic_memWf {s : State} {f : Bool → Bool → Bool} {g : Guard} {d a b : Nat} (hs : MemWf s) : OutWf (State.predLogic s f g d a b) := by
  unfold State.predLogic
  repeat' first | with_reducible assumption | with_reducible intro _ | with_reducible apply State.coxRun_memWf | with_reducible apply State.setStrand_memWf | with_reducible apply EffWf.done

theorem execPand_memWf {g : Guard} {d a b : Nat} {s : State} (hs : MemWf s) : OutWf (execPand g d a b s) := by
  unfold execPand
  repeat' first | with_reducible assumption | with_reducible apply State.predLogic_memWf

theorem execPor_memWf {g : Guard} {d a b : Nat} {s : State} (hs : MemWf s) : OutWf (execPor g d a b s) := by
  unfold execPor
  repeat' first | with_reducible assumption | with_reducible apply State.predLogic_memWf

theorem execPxor_memWf {g : Guard} {d a b : Nat} {s : State} (hs : MemWf s) : OutWf (execPxor g d a b s) := by
  unfold execPxor
  repeat' first | with_reducible assumption | with_reducible apply State.predLogic_memWf

theorem execPnot_memWf {g : Guard} {d a : Nat} {s : State} (hs : MemWf s) : OutWf (execPnot g d a s) := by
  unfold execPnot
  repeat' first | with_reducible assumption | with_reducible apply State.predLogic_memWf

theorem execPget_memWf {g : Guard} {d : Nat} {s : State} (hs : MemWf s) : OutWf (execPget g d s) := by
  unfold execPget
  repeat' first | with_reducible assumption | with_reducible intro _ | with_reducible apply State.coxRun_memWf | with_reducible apply putS_memWf

theorem execPset_memWf {g : Guard} {a b : Nat} {s : State} (hs : MemWf s) : OutWf (execPset g a b s) := by
  unfold execPset
  repeat' first | with_reducible assumption | with_reducible intro _ | with_reducible apply State.coxRun_memWf | with_reducible apply State.setStrand_memWf | with_reducible apply EffWf.done

theorem execFfma_memWf {g : Guard} {d a b : Nat} {s : State} (hs : MemWf s) : OutWf (execFfma g d a b s) := by
  unfold execFfma
  repeat' first | with_reducible assumption | with_reducible apply State.slow_memWf

theorem execFcmp_memWf {g : Guard} {d a b : Nat} {cc : FcmpCond} {comb : Comb} {s : State} (hs : MemWf s) : OutWf (execFcmp g d a b cc comb s) := by
  unfold execFcmp
  repeat' first | with_reducible assumption | with_reducible apply State.slow_memWf

theorem execFcvt_memWf {g : Guard} {d a : Nat} {kind : FcvtKind} {mode : FMode} {s : State} (hs : MemWf s) : OutWf (execFcvt g d a kind mode s) := by
  unfold execFcvt
  repeat' first | with_reducible assumption | with_reducible apply State.slow_memWf

/-! ## CoxControl -/

theorem goTo_memWf {u : State} {target : Word64} (hu : MemWf u) : EffWf (goTo u target) := by
  unfold goTo
  repeat' first | with_reducible assumption | with_reducible apply ite_effWf | with_reducible apply EffWf.jump | with_reducible apply EffWf.trap

theorem execBr_memWf {g : Guard} {off : Imm18} {s : State} (hs : MemWf s) : OutWf (execBr g off s) := by
  unfold execBr
  repeat' first | with_reducible assumption | with_reducible intro _ | with_reducible apply State.coxRun_memWf | with_reducible apply goTo_memWf

theorem execBrLong_memWf {g : Guard} {e : Word32} {s : State} (hs : MemWf s) : OutWf (execBrLong g e s) := by
  unfold execBrLong
  repeat' first | with_reducible assumption | with_reducible intro _ | with_reducible apply State.coxRun_memWf | with_reducible apply goTo_memWf

theorem execCall_memWf {g : Guard} {d : Nat} {i : Imm12} {s : State} (hs : MemWf s) : OutWf (execCall g d i s) := by
  unfold execCall
  repeat' first | with_reducible assumption | with_reducible intro _ | with_reducible apply State.coxRun_memWf | with_reducible apply goTo_memWf | with_reducible apply State.setStrand_memWf

theorem execCallLong_memWf {g : Guard} {d : Nat} {e : Word32} {s : State} (hs : MemWf s) : OutWf (execCallLong g d e s) := by
  unfold execCallLong
  repeat' first | with_reducible assumption | with_reducible intro _ | with_reducible apply State.coxRun_memWf | with_reducible apply goTo_memWf | with_reducible apply State.setStrand_memWf

theorem execRet_memWf {g : Guard} {a : Nat} {s : State} (hs : MemWf s) : OutWf (execRet g a s) := by
  unfold execRet
  repeat' first | with_reducible assumption | with_reducible intro _ | with_reducible apply State.coxRun_memWf | with_reducible apply goTo_memWf

theorem execJr_memWf {g : Guard} {d a : Nat} {s : State} (hs : MemWf s) : OutWf (execJr g d a s) := by
  unfold execJr
  repeat' first | with_reducible assumption | with_reducible intro _ | with_reducible apply State.coxRun_memWf | with_reducible apply goTo_memWf | with_reducible apply State.setStrand_memWf

theorem loopEff_memWf {d : Nat} {off : Word64} {c k : Nat} {t : Strand} {u : State} (hu : MemWf u) : EffWf (loopEff d off c k t u) := by
  unfold loopEff
  repeat' first | with_reducible assumption | with_reducible apply State.setStrand_memWf | with_reducible apply goTo_memWf | with_reducible apply ite_effWf | with_reducible apply EffWf.done

theorem execLoop_memWf {g : Guard} {d : Nat} {i : Imm12} {s : State} (hs : MemWf s) : OutWf (execLoop g d i s) := by
  unfold execLoop
  repeat' first | with_reducible assumption | with_reducible intro _ | with_reducible apply State.coxRun_memWf | with_reducible apply loopEff_memWf

theorem execLoopLong_memWf {g : Guard} {d : Nat} {e : Word32} {s : State} (hs : MemWf s) : OutWf (execLoopLong g d e s) := by
  unfold execLoopLong
  repeat' first | with_reducible assumption | with_reducible intro _ | with_reducible apply State.coxRun_memWf | with_reducible apply loopEff_memWf

theorem dsptGo_memWf {d a nb : Nat} {table : ByteList} {c k : Nat} {t : Strand} {u : State} (hu : MemWf u) : EffWf (dsptGo d a nb table c k t u) := by
  unfold dsptGo
  repeat' first | with_reducible assumption | with_reducible apply goTo_memWf | with_reducible apply State.setStrand_memWf | with_reducible apply EffWf.done | split

theorem dsptRead_memWf {u : State} {c k tb n : Nat} {b : ByteList} {v : State} (hu : MemWf u) (e : dsptRead u c k tb n = .ok (some (b, v))) : MemWf v := by
  unfold dsptRead at e
  split at e
  · cases e
  · split at e
    · cases e
    · generalize hr : u.readV _ _ _ _ = r at e
      cases r with
      | error => cases e
      | ok p => cases e; exact excWf2_out (State.readV_memWf hu) hr

theorem execDspt_memWf {g : Guard} {d a nbm1 : Nat} {tab : DsptTable} {s : State} (hs : MemWf s) : OutWf (execDspt g d a nbm1 tab s) := by
  unfold execDspt
  repeat' first | with_reducible assumption | with_reducible intro _ | with_reducible apply State.coxRun_memWf | with_reducible apply dsptRead_memWf | with_reducible apply dsptGo_memWf | with_reducible apply ite_effWf | with_reducible apply EffWf.stay | with_reducible apply EffWf.trap | split

/-! ## Remap -/

theorem State.opRampctl_memWf {s : State} {d : Nat} {v : Word64} (hs : MemWf s) : MemWf (State.opRampctl s d v) := by
  unfold State.opRampctl
  repeat' first | with_reducible assumption | with_reducible apply State.onDie_memWf

theorem execRampctlWrite_memWf {die : Nat} {v : Word64} {s : State} (hs : MemWf s) : OutWf (execRampctlWrite die v s) := by
  unfold execRampctlWrite
  repeat' first | with_reducible assumption | with_reducible apply State.opRampctl_memWf | with_reducible apply ite_outWf | with_reducible apply OutWf.next

theorem execRampIntervalEnd_memWf {die : Nat} {s : State} (hs : MemWf s) : OutWf (execRampIntervalEnd die s) := by
  unfold execRampIntervalEnd
  repeat' first | with_reducible assumption | with_reducible apply State.setDie_memWf | with_reducible apply ite_outWf | with_reducible apply OutWf.next

theorem State.opRemapReq_memWf {s : State} {d : Nat} {v : Word64} (hs : MemWf s) : MemWf (State.opRemapReq s d v) := by
  unfold State.opRemapReq
  repeat' first | with_reducible assumption | with_reducible apply State.setDie_memWf | with_reducible apply ite_wf

theorem execRemapRequest_memWf {die : Nat} {v : Word64} {s : State} (hs : MemWf s) : OutWf (execRemapRequest die v s) := by
  unfold execRemapRequest
  repeat' first | with_reducible assumption | with_reducible apply State.opRemapReq_memWf | with_reducible apply ite_outWf | with_reducible apply OutWf.next

theorem execRemapEpochEnd_memWf {die : Nat} {s : State} (hs : MemWf s) : OutWf (execRemapEpochEnd die s) := by
  unfold execRemapEpochEnd
  repeat' first | with_reducible assumption | with_reducible apply State.setDie_memWf | with_reducible apply ite_outWf | with_reducible apply OutWf.next

theorem State.quiesce_memWf {s : State} {d lri : Nat} (hs : MemWf s) : MemWf (State.quiesce s d lri) := by
  unfold State.quiesce
  repeat' first | with_reducible assumption | with_reducible apply State.onDie_memWf

theorem State.unquiesce_memWf {s : State} {d lri : Nat} (hs : MemWf s) : MemWf (State.unquiesce s d lri) := by
  unfold State.unquiesce
  repeat' first | with_reducible assumption | with_reducible apply State.applyRit_memWf | with_reducible apply State.onDie_memWf

theorem State.movePoison_memWf {s : State} {d lri pri : Nat} (hs : MemWf s) : MemWf (State.movePoison s d lri pri) := by
  unfold State.movePoison
  repeat' first | with_reducible assumption | with_reducible intro _ | with_reducible apply State.errorRecord_memWf | with_reducible apply foldl_wf

theorem State.finishSwap_memWf {s : State} {d : Nat} {w : Swap} {b : Nat} (hs : MemWf s) : MemWf (State.finishSwap s d w b) := by
  unfold State.finishSwap
  repeat' first | with_reducible assumption | with_reducible apply State.copyRegion_memWf | with_reducible apply State.movePoison_memWf | with_reducible apply State.onDie_memWf | with_reducible apply State.unquiesce_memWf

theorem execRegionSwap_memWf {die : Nat} {s : State} (hs : MemWf s) : OutWf (execRegionSwap die s) := by
  unfold execRegionSwap
  repeat' first | with_reducible assumption | with_reducible apply State.finishSwap_memWf | with_reducible apply State.onDie_memWf | with_reducible apply State.quiesce_memWf | with_reducible apply ite_outWf | with_reducible apply OutWf.next | split

theorem State.endRetire_memWf {s : State} {failed : Bool} (hs : MemWf s) : MemWf (State.endRetire s failed) := by
  unfold State.endRetire
  repeat' first | with_reducible assumption | with_reducible apply State.onDie_memWf | with_reducible apply State.errorRecord_memWf | with_reducible apply MemWf.h | split | (refine MemWf.mk ?_; dsimp only)

theorem execSwapAbandon_memWf {die : Nat} {s : State} (hs : MemWf s) : OutWf (execSwapAbandon die s) := by
  unfold execSwapAbandon
  repeat' first | with_reducible assumption | with_reducible apply State.onDie_memWf | with_reducible apply State.unquiesce_memWf | with_reducible apply State.errorRecord_memWf | with_reducible apply State.endRetire_memWf | with_reducible apply ite_wf | with_reducible apply ite_outWf | with_reducible apply OutWf.next | split

theorem execChannelRetire_memWf {v : Word64} {s : State} (hs : MemWf s) : OutWf (execChannelRetire v s) := by
  unfold execChannelRetire
  repeat' first | with_reducible assumption | with_reducible apply State.opChannelRetire_memWf | with_reducible apply ite_outWf | with_reducible apply OutWf.next

theorem State.finishMove_memWf {s : State} {d : Nat} {w : Swap} (hs : MemWf s) : MemWf (State.finishMove s d w) := by
  unfold State.finishMove
  repeat' first | with_reducible assumption | with_reducible apply State.copyRegion_memWf | with_reducible apply State.movePoison_memWf | with_reducible apply State.unquiesce_memWf | with_reducible apply State.onDie_memWf | with_reducible apply State.endRetire_memWf | with_reducible apply MemWf.h | with_reducible apply ite_wf | split | dsimp only | (refine MemWf.mk ?_; dsimp only)

theorem execRetirementMove_memWf {die : Nat} {s : State} (hs : MemWf s) : OutWf (execRetirementMove die s) := by
  unfold execRetirementMove
  repeat' first | with_reducible assumption | with_reducible apply State.finishMove_memWf | with_reducible apply State.endRetire_memWf | with_reducible apply State.onDie_memWf | with_reducible apply State.quiesce_memWf | with_reducible apply MemWf.h | with_reducible apply ite_outWf | with_reducible apply OutWf.next | split | (refine MemWf.mk ?_; dsimp only)

/-! ## CoxSystem -/

theorem execMfs_memWf {g : Guard} {d n : Nat} {s : State} (hs : MemWf s) : OutWf (execMfs g d n s) := by
  unfold execMfs
  repeat' first | with_reducible assumption | with_reducible intro _ | with_reducible apply State.coxRun_memWf | with_reducible apply putS_memWf | with_reducible apply ite_effWf | with_reducible apply EffWf.trap | split

theorem execSttcfgWrite_memWf {core slot : Nat} {v : Word64} {s : State} (hs : MemWf s) : OutWf (execSttcfgWrite core slot v s) := by
  unfold execSttcfgWrite
  repeat' first | with_reducible assumption | with_reducible apply State.takeTrap_memWf | with_reducible apply State.setCore_memWf | with_reducible apply ite_outWf | with_reducible apply OutWf.next

theorem execSttcfgApply_memWf {core : Nat} {s : State} (hs : MemWf s) : OutWf (execSttcfgApply core s) := by
  unfold execSttcfgApply
  repeat' first | with_reducible assumption | with_reducible apply State.setCore_memWf | with_reducible apply ite_outWf | with_reducible apply OutWf.next | split | dsimp only

theorem sttEff_memWf {u : State} {c k : Nat} {t : Strand} {i : Instr} {v : Word64} (hu : MemWf u) : EffWf (sttEff u c k t i v) := by
  unfold sttEff
  repeat' first | with_reducible assumption | with_reducible apply State.setCore_memWf | with_reducible apply ite_effWf | with_reducible apply EffWf.done | with_reducible apply EffWf.wait | with_reducible apply EffWf.trap

theorem execMts_memWf {g : Guard} {n a : Nat} {s : State} (hs : MemWf s) : OutWf (execMts g n a s) := by
  unfold execMts
  repeat' first | with_reducible assumption | with_reducible intro _ | with_reducible apply State.coxRun_memWf | with_reducible apply State.setStrand_memWf | with_reducible apply sttEff_memWf | with_reducible apply State.onCore_memWf | with_reducible apply State.onCorePart_memWf | with_reducible apply State.onDie_memWf | with_reducible apply State.opRemapReq_memWf | with_reducible apply State.opModesel_memWf | with_reducible apply State.opRampctl_memWf | with_reducible apply ite_effWf | with_reducible apply EffWf.done | with_reducible apply EffWf.trap | split

theorem execTrap_memWf {g : Guard} {code : Nat} {s : State} (hs : MemWf s) : OutWf (execTrap g code s) := by
  unfold execTrap
  repeat' first | with_reducible assumption | with_reducible intro _ | with_reducible apply State.coxRun_memWf | with_reducible apply State.takeTrap_memWf | with_reducible apply State.setStrand_memWf | with_reducible apply ite_effWf | with_reducible apply EffWf.over | with_reducible apply EffWf.stay

theorem execRett_memWf {g : Guard} {s : State} (hs : MemWf s) : OutWf (execRett g s) := by
  unfold execRett
  repeat' first | with_reducible assumption | with_reducible intro _ | with_reducible apply State.coxRun_memWf | with_reducible apply State.setStrand_memWf | with_reducible apply ite_effWf | with_reducible apply EffWf.over | with_reducible apply EffWf.trap | split

theorem State.trapHere_memWf {s : State} {c k cause : Nat} {info info1 : Word64} (hs : MemWf s) : MemWf (State.trapHere s c k cause info info1) := by
  unfold State.trapHere
  repeat' first | with_reducible assumption | with_reducible apply State.idle_memWf | with_reducible apply State.takeTrap_memWf | with_reducible apply ite_wf

theorem execIllegalCoxWord_memWf {w e : Word32} {s : State} (hs : MemWf s) : OutWf (execIllegalCoxWord w e s) := by
  unfold execIllegalCoxWord
  repeat' first | with_reducible assumption | with_reducible apply State.trapHere_memWf | with_reducible apply OutWf.next | with_reducible apply OutWf.fault | split

theorem execInstructionFetchFault_memWf {cause : Nat} {info : Word64} {s : State} (hs : MemWf s) : OutWf (execInstructionFetchFault cause info s) := by
  unfold execInstructionFetchFault
  repeat' first | with_reducible assumption | with_reducible apply State.idle_memWf | with_reducible apply State.takeTrapAt_memWf | with_reducible apply State.setStrand_memWf | with_reducible apply State.disown_memWf | with_reducible apply State.trapHere_memWf | with_reducible apply State.kernelFault_memWf | with_reducible apply ite_outWf | with_reducible apply OutWf.next | with_reducible apply OutWf.fault | split

theorem execSys_memWf {g : Guard} {d a : Nat} {svc : Service} {s : State} (hs : MemWf s) : OutWf (execSys g d a svc s) := by
  unfold execSys
  repeat' first | with_reducible assumption | with_reducible intro _ | with_reducible apply State.coxRun_memWf | with_reducible apply State.setStrand_memWf | with_reducible apply MemWf.h | with_reducible apply EffWf.done | with_reducible apply EffWf.wait | split | (refine MemWf.mk ?_; dsimp only)

theorem execSysReply_memWf {core slot : Nat} {s : State} (hs : MemWf s) : OutWf (execSysReply core slot s) := by
  unfold execSysReply
  repeat' first | with_reducible assumption | with_reducible apply State.notify_memWf | with_reducible apply State.onStrand_memWf | with_reducible apply MemWf.h | with_reducible apply ite_outWf | with_reducible apply OutWf.next | split | (refine MemWf.mk ?_; dsimp only)

theorem execHalt_memWf {g : Guard} {s : State} (hs : MemWf s) : OutWf (execHalt g s) := by
  unfold execHalt
  repeat' first | with_reducible assumption | with_reducible intro _ | with_reducible apply State.coxRun_memWf | with_reducible apply State.setStrand_memWf | with_reducible apply State.askSave_memWf | with_reducible apply EffWf.over | split

theorem execExit_memWf {g : Guard} {s : State} (hs : MemWf s) : OutWf (execExit g s) := by
  unfold execExit
  repeat' first | with_reducible assumption | with_reducible intro _ | with_reducible apply State.coxRun_memWf | with_reducible apply State.exitBars_memWf | with_reducible apply State.setStrand_memWf | with_reducible apply State.yieldDone_memWf | with_reducible apply ite_effWf | with_reducible apply EffWf.wait | with_reducible apply EffWf.over | split

/-! ## HostEvents -/

theorem State.holdOutside_memWf {s : State} {i : HeldReq} {key : Nat} (hs : MemWf s) : MemWf (State.holdOutside s i key) := by
  unfold State.holdOutside
  repeat' first | with_reducible assumption | with_reducible apply State.bumpId_memWf | with_reducible apply State.arriveAt_memWf | with_reducible apply MemWf.h | with_reducible apply ite_wf | split | (refine MemWf.mk ?_; dsimp only)

theorem State.letOutside_memWf {s : State} (hs : MemWf s) : MemWf (State.letOutside s) := by
  unfold State.letOutside
  repeat' first | with_reducible assumption | with_reducible apply MemWf.h | split | (refine MemWf.mk ?_; dsimp only)

theorem execBar2Read_memWf {tag addr len : Nat} {s : State} (hs : MemWf s) : OutWf (execBar2Read tag addr len s) := by
  unfold execBar2Read
  repeat' first | with_reducible assumption | with_reducible intro _ | with_reducible apply State.send_memWf | with_reducible apply State.errorRecord_memWf | with_reducible apply State.letOutside_memWf | with_reducible apply State.serve_memWf | with_reducible apply State.holdOutside_memWf | with_reducible apply foldl_wf | with_reducible apply ite_wf | with_reducible apply ite_outWf | with_reducible apply OutWf.next | split

theorem State.bar2Piece_memWf {s : State} {p : Piece} {b : ByteList} (hs : MemWf s) : MemWf (State.bar2Piece s p b) := by
  unfold State.bar2Piece
  repeat' first | with_reducible assumption | with_reducible apply State.errorRecord_memWf | with_reducible apply State.writePiece_memWf | with_reducible apply State.serve_memWf | split

theorem execBar2Write_memWf {addr : Nat} {data : ByteList} {s : State} (hs : MemWf s) : OutWf (execBar2Write addr data s) := by
  unfold execBar2Write
  repeat' first | with_reducible assumption | with_reducible intro _ | with_reducible apply State.errorRecord_memWf | with_reducible apply State.letOutside_memWf | with_reducible apply State.holdOutside_memWf | with_reducible apply State.bar2Piece_memWf | with_reducible apply foldl_wf | with_reducible apply ite_outWf | with_reducible apply OutWf.next | split

theorem State.hostWrite_memWf {s : State} {priv : Bool} {report off size : Nat} {v : Word64} (hs : MemWf s) :
    MemWf (State.hostWrite s priv report off size v) := by
  unfold State.hostWrite
  repeat' first | with_reducible assumption | with_reducible apply State.errorRecord_memWf | with_reducible apply State.apertureWrite_memWf | with_reducible apply ite_wf

theorem State.hostRead_memWf {s : State} {org : RegOrigin} {off size : Nat} (hs : MemWf s) : MemWf (State.hostRead s org off size).1 := by
  unfold State.hostRead
  repeat' first | with_reducible assumption | with_reducible apply State.errorRecord_memWf | split | dsimp only

theorem State.readRegister_memWf {s : State} {tag : Nat} {org : RegOrigin} {off size : Nat} (hs : MemWf s) :
    MemWf (State.readRegister s tag org off size) := by
  unfold State.readRegister
  repeat' first | with_reducible assumption | with_reducible apply State.send_memWf | with_reducible apply State.hostRead_memWf | with_reducible apply ite_wf

theorem execRegisterWrite_memWf {org : RegOrigin} {off size : Nat} {v : Word64} {s : State} (hs : MemWf s) :
    OutWf (execRegisterWrite org off size v s) := by
  unfold execRegisterWrite
  repeat' first | with_reducible assumption | with_reducible apply State.holdOutside_memWf | with_reducible apply State.hostWrite_memWf | with_reducible apply State.letOutside_memWf | with_reducible apply State.apertureWrite_memWf | with_reducible apply ite_outWf | with_reducible apply OutWf.next | split

theorem execDoorbell_memWf {org : RegOrigin} {q : Nat} {v : Word32} {s : State} (hs : MemWf s) : OutWf (execDoorbell org q v s) := by
  unfold execDoorbell
  repeat' first | with_reducible assumption | with_reducible apply State.holdOutside_memWf | with_reducible apply State.opDoorbell_memWf | with_reducible apply State.letOutside_memWf | with_reducible apply ite_outWf | with_reducible apply OutWf.next

theorem execQueueEnable_memWf {q : Nat} {s : State} (hs : MemWf s) : OutWf (execQueueEnable q s) := by
  unfold execQueueEnable
  repeat' first | with_reducible assumption | with_reducible apply State.opQueueEnable_memWf | with_reducible apply ite_outWf | with_reducible apply OutWf.next

theorem execQueueDisable_memWf {q : Nat} {s : State} (hs : MemWf s) : OutWf (execQueueDisable q s) := by
  unfold execQueueDisable
  repeat' first | with_reducible assumption | with_reducible apply State.opQueueDisable_memWf | with_reducible apply ite_outWf | with_reducible apply OutWf.next

theorem execQckrel_memWf {q mask : Nat} {s : State} (hs : MemWf s) : OutWf (execQckrel q mask s) := by
  unfold execQckrel
  repeat' first | with_reducible assumption | with_reducible apply State.opQckrel_memWf | with_reducible apply ite_outWf | with_reducible apply OutWf.next

theorem execQerrRetry_memWf {q : Nat} {s : State} (hs : MemWf s) : OutWf (execQerrRetry q s) := by
  unfold execQerrRetry
  repeat' first | with_reducible assumption | with_reducible apply State.opQerrRetry_memWf | with_reducible apply ite_outWf | with_reducible apply OutWf.next

theorem execQerrSkip_memWf {q : Nat} {s : State} (hs : MemWf s) : OutWf (execQerrSkip q s) := by
  unfold execQerrSkip
  repeat' first | with_reducible assumption | with_reducible apply State.opQerrSkip_memWf | with_reducible apply ite_outWf | with_reducible apply OutWf.next

theorem execTlbInvalidateAll_memWf {kind : Nat} {s : State} (hs : MemWf s) : OutWf (execTlbInvalidateAll kind s) := by
  unfold execTlbInvalidateAll
  repeat' first | with_reducible assumption | with_reducible apply State.opTlbInv_memWf | with_reducible apply ite_outWf | with_reducible apply OutWf.next

theorem execTlbInvalidateRoot_memWf {s : State} (hs : MemWf s) : OutWf (execTlbInvalidateRoot s) := by
  unfold execTlbInvalidateRoot
  repeat' first | with_reducible assumption | with_reducible apply State.opTlbInv_memWf | with_reducible apply ite_outWf | with_reducible apply OutWf.next

theorem execTlbInvalidatePage_memWf {s : State} (hs : MemWf s) : OutWf (execTlbInvalidatePage s) := by
  unfold execTlbInvalidatePage
  repeat' first | with_reducible assumption | with_reducible apply State.opTlbInv_memWf | with_reducible apply ite_outWf | with_reducible apply OutWf.next

theorem State.dropTlb_memWf {s : State} {r : Nat × Nat × Nat} (hs : MemWf s) : MemWf (State.dropTlb s r) := by
  unfold State.dropTlb
  repeat' first | with_reducible assumption | with_reducible apply MemWf.h | dsimp only | (refine MemWf.mk ?_; dsimp only)

theorem execTlbinvComplete_memWf {s : State} (hs : MemWf s) : OutWf (execTlbinvComplete s) := by
  unfold execTlbinvComplete
  repeat' first | with_reducible assumption | with_reducible apply State.retryFetches_memWf | with_reducible apply State.dropTlb_memWf | with_reducible apply MemWf.h | with_reducible apply ite_outWf | with_reducible apply OutWf.next | split | dsimp only | (refine MemWf.mk ?_; dsimp only)

theorem execPreempt_memWf {q : Nat} {s : State} (hs : MemWf s) : OutWf (execPreempt q s) := by
  unfold execPreempt
  repeat' first | with_reducible assumption | with_reducible apply State.opPreempt_memWf | with_reducible apply ite_outWf | with_reducible apply OutWf.next

theorem execModeselWrite_memWf {v : Word64} {s : State} (hs : MemWf s) : OutWf (execModeselWrite v s) := by
  unfold execModeselWrite
  repeat' first | with_reducible assumption | with_reducible apply State.opModesel_memWf | with_reducible apply ite_outWf | with_reducible apply OutWf.next

theorem execRitWrite_memWf {die lri : Nat} {v : Word64} {s : State} (hs : MemWf s) : OutWf (execRitWrite die lri v s) := by
  unfold execRitWrite
  repeat' first | with_reducible assumption | with_reducible apply State.opRitWrite_memWf | with_reducible apply ite_outWf | with_reducible apply OutWf.next

theorem execNotificationWrite_memWf {q : Nat} {s : State} (hs : MemWf s) : OutWf (execNotificationWrite q s) := by
  unfold execNotificationWrite
  repeat' first | with_reducible assumption | with_reducible apply State.putNote_memWf | with_reducible apply State.onQueue_memWf | with_reducible apply ite_outWf | with_reducible apply OutWf.next | split

/-! ## Packets -/

theorem State.fetchFault_memWf {s : State} {q : Nat} {a : Word64} {c : Cause} (hs : MemWf s) : MemWf (State.fetchFault s q a c) := by
  unfold State.fetchFault
  repeat' first | with_reducible assumption | with_reducible apply State.await_memWf | with_reducible apply State.spend_memWf | with_reducible apply State.meetRefusal_memWf | with_reducible apply State.onQueue_memWf | with_reducible apply State.errorRecord_memWf | with_reducible apply State.packetFault_memWf | with_reducible apply ite_wf

theorem State.startNext_memWf {s : State} {q : Nat} (hs : MemWf s) : MemWf (State.startNext s q) := by
  unfold State.startNext
  repeat' first | with_reducible assumption | with_reducible apply State.onQueue_memWf | with_reducible apply State.fetchFault_memWf | with_reducible apply State.await_memWf | with_reducible apply State.spend_memWf | with_reducible apply State.packetFault_memWf | with_reducible apply State.bumpId_memWf | with_reducible apply State.setQueue_memWf | with_reducible apply ite_wf | split | dsimp only

theorem State.goOnSkips_memWf {s : State} {f : Nat} (hs : MemWf s) : MemWf (State.goOnSkips s f) := by
  unfold State.goOnSkips
  repeat' first | with_reducible assumption | with_reducible intro _ | with_reducible apply State.skipPacket_memWf | with_reducible apply foldl_wf

theorem State.startMany_memWf {s : State} {q x2 : Nat} (hs : MemWf s) : MemWf (State.startMany s q x2) := by
  induction x2 generalizing s with
  | zero => exact hs
  | succ n ih =>
    unfold State.startMany
    split
    · exact ih (State.startNext_memWf hs)
    · exact hs

theorem execFetcherTurn_memWf {f : Nat} {s : State} (hs : MemWf s) : OutWf (execFetcherTurn f s) := by
  unfold execFetcherTurn
  repeat' first | with_reducible assumption | with_reducible apply State.goOnSkips_memWf | with_reducible apply State.startMany_memWf | with_reducible apply State.startNext_memWf | with_reducible apply MemWf.h | with_reducible apply ite_outWf | with_reducible apply OutWf.next | split | (refine MemWf.mk ?_; dsimp only)

theorem State.onPacket_memWf {s : State} {q pid : Nat} {f : Packet → Packet} (hs : MemWf s) : MemWf (State.onPacket s q pid f) := by
  unfold State.onPacket
  repeat' first | with_reducible assumption | with_reducible apply State.onQueue_memWf

theorem State.beginPacket_memWf {s : State} {q pid type : Nat} {f : Packet → State → State} (hs : MemWf s)
  (hf : ∀ k u, MemWf u → MemWf (f k u)) : OutWf (State.beginPacket s q pid type f) := by
  unfold State.beginPacket
  repeat' first | with_reducible assumption | with_reducible apply State.onPacket_memWf | with_reducible apply ite_outWf | with_reducible apply OutWf.next | with_reducible apply hf | split

theorem State.packetData_memWf {s : State} {q pid : Nat} {a : Word64} {c : Cause} (hs : MemWf s) : MemWf (State.packetData s q pid a c) := by
  unfold State.packetData
  repeat' first | with_reducible assumption | with_reducible apply State.onPacket_memWf | with_reducible apply State.await_memWf | with_reducible apply State.spend_memWf | with_reducible apply State.abortPacket_memWf | with_reducible apply State.meetRefusal_memWf | with_reducible apply ite_wf

theorem State.pushHost_memWf {s : State} {w : Who} (hs : MemWf s) : MemWf (State.pushHost s w) := by
  unfold State.pushHost
  repeat' first | with_reducible assumption | with_reducible apply State.ask_memWf | split

theorem State.writeData_memWf {s : State} {w : Who} {a : Word64} {b : ByteList} (hs : MemWf s) : ExcWf (State.writeData s w a b) := by
  unfold State.writeData
  repeat' first | with_reducible assumption | with_reducible intro _ | with_reducible apply State.pushHost_memWf | with_reducible apply State.ask_memWf | with_reducible apply State.writeV_memWf | with_reducible apply ite_excP | with_reducible apply excWf_mapS | with_reducible apply ExcP.ok

theorem execNopPacket_memWf {q pid : Nat} {s : State} (hs : MemWf s) : OutWf (execNopPacket q pid s) := by
  unfold execNopPacket
  repeat' first | with_reducible assumption | with_reducible intro _ | with_reducible apply State.beginPacket_memWf | with_reducible apply State.finishPacket_memWf

theorem State.evalWait_memWf {s : State} {q : Nat} {k : Packet} (hs : MemWf s) : MemWf (State.evalWait s q k) := by
  unfold State.evalWait
  repeat' first | with_reducible assumption | with_reducible apply State.packetData_memWf | with_reducible apply State.spend_memWf | with_reducible apply State.abortPacket_memWf | with_reducible apply State.finishPacket_memWf | with_reducible apply ite_wf | split | dsimp only

theorem State.wakeWaits_memWf {s : State} {l : Option Loc} (hs : MemWf s) : MemWf (State.wakeWaits s l) := by
  unfold State.wakeWaits
  repeat' first | with_reducible assumption | with_reducible intro _ | with_reducible apply State.evalWait_memWf | with_reducible apply foldl_wf | with_reducible apply ite_wf

theorem execWait_memWf {q pid : Nat} {s : State} (hs : MemWf s) : OutWf (execWait q pid s) := by
  unfold execWait
  repeat' first | with_reducible assumption | with_reducible intro _ | with_reducible apply State.beginPacket_memWf | with_reducible apply State.evalWait_memWf

theorem execWaitPoll_memWf {q pid : Nat} {s : State} (hs : MemWf s) : OutWf (execWaitPoll q pid s) := by
  unfold execWaitPoll
  repeat' first | with_reducible assumption | with_reducible apply State.evalWait_memWf | with_reducible apply ite_outWf | with_reducible apply OutWf.next | split

theorem execSignal_memWf {q pid : Nat} {s : State} (hs : MemWf s) : OutWf (execSignal q pid s) := by
  unfold execSignal
  repeat' first | with_reducible assumption | with_reducible intro _ | with_reducible apply State.beginPacket_memWf | with_reducible apply State.writeData_memWf | with_reducible apply State.updateSignal_memWf | with_reducible apply State.packetData_memWf | with_reducible apply State.wakeWaits_memWf | with_reducible apply State.finishPacket_memWf | with_reducible apply State.sendMsix_memWf | split | dsimp only | (with_reducible refine excWf_out ?_ (by assumption))

theorem State.condSkip_memWf {s : State} {q pid n : Nat} (hs : MemWf s) : MemWf (State.condSkip s q pid n) := by
  unfold State.condSkip
  repeat' first | with_reducible assumption | with_reducible apply State.finishPacket_memWf | with_reducible apply State.setQueue_memWf | with_reducible apply State.onQueue_memWf | split

theorem execCond_memWf {q pid : Nat} {s : State} (hs : MemWf s) : OutWf (execCond q pid s) := by
  unfold execCond
  repeat' first | with_reducible assumption | with_reducible apply State.finishPacket_memWf | with_reducible apply State.condSkip_memWf | with_reducible apply State.onPacket_memWf | with_reducible apply State.packetData_memWf | with_reducible apply ite_wf | with_reducible apply ite_outWf | with_reducible apply OutWf.next | split | dsimp only

theorem execLoopPacket_memWf {q pid : Nat} {s : State} (hs : MemWf s) : OutWf (execLoopPacket q pid s) := by
  unfold execLoopPacket
  repeat' first | with_reducible assumption | with_reducible intro _ | with_reducible apply State.beginPacket_memWf | with_reducible apply State.packetData_memWf | with_reducible apply State.finishPacket_memWf | with_reducible apply State.onQueue_memWf | with_reducible apply ite_wf | split

theorem execIndirect_memWf {q pid : Nat} {s : State} (hs : MemWf s) : OutWf (execIndirect q pid s) := by
  unfold execIndirect
  repeat' first | with_reducible assumption | with_reducible intro _ | with_reducible apply State.beginPacket_memWf | with_reducible apply State.onQueue_memWf

theorem execCopy_memWf {q pid : Nat} {s : State} (hs : MemWf s) : OutWf (execCopy q pid s) := by
  unfold execCopy
  repeat' first | with_reducible assumption | with_reducible intro _ | with_reducible apply State.beginPacket_memWf | with_reducible apply State.packetData_memWf | with_reducible apply State.writeData_memWf | with_reducible apply State.finishPacket_memWf | split | dsimp only | (with_reducible refine excWf_out ?_ (by assumption))

theorem execFencePacket_memWf {q pid : Nat} {s : State} (hs : MemWf s) : OutWf (execFencePacket q pid s) := by
  unfold execFencePacket
  repeat' first | with_reducible assumption | with_reducible apply State.finishPacket_memWf | with_reducible apply State.onPacket_memWf | with_reducible apply State.ask_memWf | with_reducible apply ite_outWf | with_reducible apply OutWf.next | split

theorem execEndPacket_memWf {q pid : Nat} {s : State} (hs : MemWf s) : OutWf (execEndPacket q pid s) := by
  unfold execEndPacket
  repeat' first | with_reducible assumption | with_reducible apply State.finishPacket_memWf | with_reducible apply State.onPacket_memWf | with_reducible apply ite_outWf | with_reducible apply OutWf.next | split

theorem State.endPacket_memWf {s : State} {q : Nat} {k : Packet} (hs : MemWf s) : MemWf (State.endPacket s q k) := by
  unfold State.endPacket
  repeat' first | with_reducible assumption | with_reducible apply State.onQueue_memWf | with_reducible apply State.spend_memWf | with_reducible apply State.notify_memWf | with_reducible apply State.queueError_memWf | with_reducible apply State.errorRecord_memWf | with_reducible apply ite_wf | split

theorem State.signalDone_memWf {s : State} {q : Nat} {k : Packet} (hs : MemWf s) : ExcWf (State.signalDone s q k) := by
  unfold State.signalDone
  repeat' first | with_reducible assumption | with_reducible apply State.updateSignal_memWf | with_reducible apply ite_excP

theorem State.completePacket_memWf {s : State} {q : Nat} {k : Packet} (hs : MemWf s) : MemWf (State.completePacket s q k) := by
  unfold State.completePacket
  repeat' first | with_reducible assumption | with_reducible apply State.endPacket_memWf | with_reducible apply State.signalDone_memWf | with_reducible apply State.await_memWf | with_reducible apply State.errorRecord_memWf | with_reducible apply State.meetRefusal_memWf | with_reducible apply State.wakeWaits_memWf | with_reducible apply State.onPacket_memWf | with_reducible apply ite_wf | split | (with_reducible refine excWf_out ?_ (by assumption))

theorem execPacketCompletion_memWf {q pid : Nat} {s : State} (hs : MemWf s) : OutWf (execPacketCompletion q pid s) := by
  unfold execPacketCompletion
  repeat' first | with_reducible assumption | with_reducible apply State.onQueue_memWf | with_reducible apply State.completePacket_memWf | with_reducible apply ite_outWf | with_reducible apply OutWf.next | split | dsimp only

/-! ## Firmware -/

theorem State.rebooted_memWf {s : State} : MemWf s.rebooted := by
  exact ⟨rfl⟩

theorem execModuleReset_memWf {o : BootOutcome} {s : State} : OutWf (execModuleReset o s) := by
  unfold execModuleReset
  repeat' first | with_reducible apply State.rebooted_memWf | with_reducible apply State.errorRecord_memWf | with_reducible apply MemWf.h | with_reducible apply ite_outWf | with_reducible apply OutWf.next | split | dsimp only | (refine MemWf.mk ?_; dsimp only)

theorem State.fillSram_memWf {s : State} {n : Nat} {b : ByteList} (hs : MemWf s) : MemWf (State.fillSram s n b) := by
  unfold State.fillSram
  repeat' first | with_reducible assumption | with_reducible apply MemWf.h | with_reducible apply memSetList_wf | with_reducible apply tabClear_wf | (refine MemWf.mk ?_; dsimp only)

theorem execFwLoad_memWf {o : ImageCheck} {img : FwImage} {s : State} (hs : MemWf s) : OutWf (execFwLoad o img s) := by
  unfold execFwLoad
  repeat' first | with_reducible assumption | with_reducible apply State.errorRecord_memWf | with_reducible apply State.fillSram_memWf | with_reducible apply MemWf.h | with_reducible apply ite_outWf | with_reducible apply OutWf.next | split | dsimp only | (refine MemWf.mk ?_; dsimp only)

theorem execFwSwitch_memWf {s : State} (hs : MemWf s) : OutWf (execFwSwitch s) := by
  unfold execFwSwitch
  repeat' first | with_reducible assumption | with_reducible apply State.opFwctl_memWf | with_reducible apply ite_outWf | with_reducible apply OutWf.next

theorem State.releaseHolds_memWf {s : State} (hs : MemWf s) : MemWf (State.releaseHolds s) := by
  unfold State.releaseHolds
  repeat' first | with_reducible assumption | with_reducible apply MemWf.h | split | dsimp only | (refine MemWf.mk ?_; dsimp only)

theorem execFwSwitchHandover_memWf {o : SwitchOutcome} {s : State} (hs : MemWf s) : OutWf (execFwSwitchHandover o s) := by
  unfold execFwSwitchHandover
  repeat' first | with_reducible assumption | with_reducible apply State.releaseHolds_memWf | with_reducible apply State.errorRecord_memWf | with_reducible apply MemWf.h | with_reducible apply ite_outWf | with_reducible apply OutWf.next | split | dsimp only | (refine MemWf.mk ?_; dsimp only)

theorem execHeartbeat_memWf {s : State} (hs : MemWf s) : OutWf (execHeartbeat s) := by
  unfold execHeartbeat
  repeat' first | with_reducible assumption | with_reducible apply MemWf.h | with_reducible apply ite_outWf | with_reducible apply OutWf.next | dsimp only | (refine MemWf.mk ?_; dsimp only)

theorem execStateTableCommit_memWf {s : State} (hs : MemWf s) : OutWf (execStateTableCommit s) := by
  unfold execStateTableCommit
  repeat' first | with_reducible assumption | with_reducible apply MemWf.h | with_reducible apply ite_outWf | with_reducible apply OutWf.next | dsimp only | (refine MemWf.mk ?_; dsimp only)

theorem State.allQueuesError_memWf {s : State} {cause seq : Nat} (hs : MemWf s) : MemWf (State.allQueuesError s cause seq) := by
  unfold State.allQueuesError
  repeat' first | with_reducible assumption | with_reducible intro _ | with_reducible apply State.queueError_memWf | with_reducible apply foldl_wf

theorem State.firmwareFails_memWf {s : State} {reason : Nat} (hs : MemWf s) : MemWf (State.firmwareFails s reason) := by
  unfold State.firmwareFails
  repeat' first | with_reducible assumption | with_reducible apply State.errorRecord_memWf | with_reducible apply State.releaseHolds_memWf | with_reducible apply State.allQueuesError_memWf | with_reducible apply MemWf.h | with_reducible apply ite_wf | split | dsimp only | (refine MemWf.mk ?_; dsimp only)

theorem execHeartbeatTimeout_memWf {ctrlue : Bool} {s : State} (hs : MemWf s) : OutWf (execHeartbeatTimeout ctrlue s) := by
  unfold execHeartbeatTimeout
  repeat' first | with_reducible assumption | with_reducible apply State.firmwareFails_memWf | with_reducible apply ite_outWf | with_reducible apply OutWf.next

theorem State.endUnit_memWf {s : State} {u : UnitRef} {cause : Nat} {info : Word64} (hs : MemWf s) : MemWf (State.endUnit s u cause info) := by
  unfold State.endUnit
  repeat' first | with_reducible assumption | with_reducible apply State.forgetUnit_memWf | with_reducible apply State.endTask_memWf | with_reducible apply State.onTask_memWf | with_reducible apply State.abandonRound_memWf | with_reducible apply State.endCopy_memWf | with_reducible apply State.setCtx_memWf | split

theorem State.dropTrap_memWf {s : State} {seq : Nat} (hs : MemWf s) : MemWf (State.dropTrap s seq) := by
  unfold State.dropTrap
  repeat' first | with_reducible assumption | with_reducible apply MemWf.h | (refine MemWf.mk ?_; dsimp only)

theorem execUnitTrapResolution_memWf {seq : Nat} {s : State} (hs : MemWf s) : OutWf (execUnitTrapResolution seq s) := by
  unfold execUnitTrapResolution
  repeat' first | with_reducible assumption | with_reducible apply State.endUnit_memWf | with_reducible apply State.dropTrap_memWf | with_reducible apply ite_outWf | with_reducible apply OutWf.next | split

theorem State.retryUnit_memWf {s : State} {u : UnitRef} (hs : MemWf s) : MemWf (State.retryUnit s u) := by
  unfold State.retryUnit
  repeat' first | with_reducible assumption | with_reducible apply State.onCore_memWf | with_reducible apply State.onTask_memWf | with_reducible apply State.onEntry_memWf | with_reducible apply State.setCtx_memWf | split

theorem State.unitDone_memWf {s : State} {seq : Nat} {ends : Bool} (hs : MemWf s) : MemWf (State.unitDone s seq ends) := by
  unfold State.unitDone
  repeat' first | with_reducible assumption | with_reducible apply MemWf.h | (refine MemWf.mk ?_; dsimp only)

theorem execUnitRetry_memWf {seq : Nat} {s : State} (hs : MemWf s) : OutWf (execUnitRetry seq s) := by
  unfold execUnitRetry
  repeat' first | with_reducible assumption | with_reducible apply State.unitDone_memWf | with_reducible apply State.retryUnit_memWf | with_reducible apply State.dropTrap_memWf | with_reducible apply ite_outWf | with_reducible apply OutWf.next | split

theorem execUnitEnd_memWf {seq : Nat} {s : State} (hs : MemWf s) : OutWf (execUnitEnd seq s) := by
  unfold execUnitEnd
  repeat' first | with_reducible assumption | with_reducible apply State.unitDone_memWf | with_reducible apply State.endUnit_memWf | with_reducible apply State.dropTrap_memWf | with_reducible apply ite_outWf | with_reducible apply OutWf.next | split

theorem State.endStopped_memWf {s : State} (hs : MemWf s) : MemWf (State.endStopped s) := by
  unfold State.endStopped
  repeat' first | with_reducible assumption | with_reducible intro _ | with_reducible apply State.endUnit_memWf | with_reducible apply State.dropTrap_memWf | with_reducible apply foldl_wf

/-! ## Link -/

theorem State.opPctl_memWf {s : State} {n : Nat} {v : Word64} (hs : MemWf s) : MemWf (State.opPctl s n v) := by
  unfold State.opPctl
  repeat' first | with_reducible assumption | with_reducible apply State.setPort_memWf

theorem execPortEnable_memWf {port : Nat} {s : State} (hs : MemWf s) : OutWf (execPortEnable port s) := by
  unfold execPortEnable
  repeat' first | with_reducible assumption | with_reducible apply State.opPctl_memWf | with_reducible apply ite_outWf | with_reducible apply OutWf.next

theorem State.sendFlits_memWf {s : State} {port : Nat} {l : List Flit} (hs : MemWf s) : MemWf (State.sendFlits s port l) := by
  unfold State.sendFlits
  repeat' first | with_reducible assumption | with_reducible intro _ | with_reducible apply State.send_memWf | with_reducible apply State.setPort_memWf | with_reducible apply foldl_wf

theorem execLinkUp_memWf {port lanes peer : Nat} {s : State} (hs : MemWf s) : OutWf (execLinkUp port lanes peer s) := by
  unfold execLinkUp
  repeat' first | with_reducible assumption | with_reducible apply State.flushUnsent_memWf | with_reducible apply State.setPort_memWf | with_reducible apply ite_outWf | with_reducible apply OutWf.next

theorem State.clearCounters_memWf {s : State} {port : Nat} {second : Bool} (hs : MemWf s) : MemWf (State.clearCounters s port second) := by
  unfold State.clearCounters
  repeat' first | with_reducible assumption | with_reducible apply State.setPort_memWf

theorem execCounterClear_memWf {port : Nat} {second : Bool} {s : State} (hs : MemWf s) : OutWf (execCounterClear port second s) := by
  unfold execCounterClear
  repeat' first | with_reducible assumption | with_reducible apply State.clearCounters_memWf | with_reducible apply ite_outWf | with_reducible apply OutWf.next

theorem State.linkDown_memWf {s : State} {port reason : Nat} (hs : MemWf s) : MemWf (State.linkDown s port reason) := by
  unfold State.linkDown
  repeat' first | with_reducible assumption | with_reducible apply State.setPort_memWf | with_reducible apply State.sendFlits_memWf | with_reducible apply State.errorRecord_memWf | with_reducible apply MemWf.h | with_reducible apply ite_wf | split | (refine MemWf.mk ?_; dsimp only)

theorem execLinkDown_memWf {port reason : Nat} {s : State} (hs : MemWf s) : OutWf (execLinkDown port reason s) := by
  unfold execLinkDown
  repeat' first | with_reducible assumption | with_reducible apply State.linkDown_memWf | with_reducible apply ite_outWf | with_reducible apply OutWf.next

theorem State.badFlit_memWf {s : State} {port seq : Nat} (hs : MemWf s) : MemWf (State.badFlit s port seq) := by
  unfold State.badFlit
  repeat' first | with_reducible assumption | with_reducible apply State.send_memWf | with_reducible apply State.setPort_memWf

theorem State.replayFlits_memWf {s : State} {port from_ : Nat} (hs : MemWf s) : MemWf (State.replayFlits s port from_) := by
  unfold State.replayFlits
  repeat' first | with_reducible assumption | with_reducible intro _ | with_reducible apply State.send_memWf | with_reducible apply State.setPort_memWf | with_reducible apply State.linkDown_memWf | with_reducible apply foldl_wf | with_reducible apply ite_wf

theorem State.ackFlits_memWf {s : State} {port below : Nat} (hs : MemWf s) : MemWf (State.ackFlits s port below) := by
  unfold State.ackFlits
  repeat' first | with_reducible assumption | with_reducible apply State.flushUnsent_memWf | with_reducible apply State.setPort_memWf

theorem State.countFec_memWf {s : State} {port fec : Nat} (hs : MemWf s) : MemWf (State.countFec s port fec) := by
  unfold State.countFec
  repeat' first | with_reducible assumption | with_reducible apply State.setPort_memWf

theorem State.opTsync_memWf {s : State} {v : Word64} (hs : MemWf s) : MemWf (State.opTsync s v) := by
  unfold State.opTsync
  repeat' first | with_reducible assumption | with_reducible apply MemWf.h | with_reducible apply ite_wf | (refine MemWf.mk ?_; dsimp only)

theorem execRootAnnouncementSend_memWf {s : State} (hs : MemWf s) : OutWf (execRootAnnouncementSend s) := by
  unfold execRootAnnouncementSend
  repeat' first | with_reducible assumption | with_reducible intro _ | with_reducible apply State.send_memWf | with_reducible apply foldl_wf | with_reducible apply ite_outWf | with_reducible apply OutWf.next

theorem State.followTick_memWf {s : State} {id : Nat} {rt : Word64} (hs : MemWf s) : MemWf (State.followTick s id rt) := by
  unfold State.followTick
  repeat' first | with_reducible assumption | with_reducible apply MemWf.h | with_reducible apply ite_wf | dsimp only | (refine MemWf.mk ?_; dsimp only)

theorem execRootAnnouncementReceive_memWf {port id : Nat} {rootTick : Word64} {s : State} (hs : MemWf s) :
    OutWf (execRootAnnouncementReceive port id rootTick s) := by
  unfold execRootAnnouncementReceive
  repeat' first | with_reducible assumption | with_reducible intro _ | with_reducible apply State.followTick_memWf | with_reducible apply State.send_memWf | with_reducible apply MemWf.h | with_reducible apply foldl_wf | with_reducible apply ite_wf | with_reducible apply ite_outWf | with_reducible apply OutWf.next | (refine MemWf.mk ?_; dsimp only)

theorem execRootLost_memWf {s : State} (hs : MemWf s) : OutWf (execRootLost s) := by
  unfold execRootLost
  repeat' first | with_reducible assumption | with_reducible apply MemWf.h | with_reducible apply ite_outWf | with_reducible apply OutWf.next | (refine MemWf.mk ?_; dsimp only)

theorem execThermalThrottle_memWf {block : Block} {s : State} (hs : MemWf s) : OutWf (execThermalThrottle block s) := by
  unfold execThermalThrottle
  repeat' first | with_reducible assumption | with_reducible apply MemWf.h | with_reducible apply ite_outWf | with_reducible apply OutWf.next | (refine MemWf.mk ?_; dsimp only)

theorem execThermalRecovery_memWf {block : Block} {s : State} (hs : MemWf s) : OutWf (execThermalRecovery block s) := by
  unfold execThermalRecovery
  repeat' first | with_reducible assumption | with_reducible apply MemWf.h | with_reducible apply OutWf.next | (refine MemWf.mk ?_; dsimp only)

/-! ## Security -/

theorem State.zeroSlice_memWf {s : State} {c : Nat} (hs : MemWf s) : MemWf (State.zeroSlice s c) := by
  unfold State.zeroSlice
  repeat' first | with_reducible assumption | with_reducible apply State.onCore_memWf | with_reducible apply MemWf.h | with_reducible apply tabClear_wf | (refine MemWf.mk ?_; dsimp only)

theorem State.zeroSlices_memWf {s : State} {f : Nat → Bool} (hs : MemWf s) : MemWf (State.zeroSlices s f) := by
  unfold State.zeroSlices
  repeat' first | with_reducible assumption | with_reducible intro _ | with_reducible apply State.zeroSlice_memWf | with_reducible apply foldl_wf

theorem State.answer_memWf {s : State} {code : Nat} {words : NatList} (hs : MemWf s) : MemWf (State.answer s code words) := by
  unfold State.answer
  repeat' first | with_reducible assumption | with_reducible apply State.send_memWf

theorem State.inSession_memWf {s : State} {f : State → State} (hs : MemWf s) (hf : ∀ u, MemWf u → MemWf (f u)) : OutWf (State.inSession s f) := by
  unfold State.inSession
  repeat' first | with_reducible assumption | with_reducible apply State.answer_memWf | with_reducible apply ite_outWf | with_reducible apply OutWf.next | with_reducible apply hf

theorem execKeyAlloc_memWf {k : Nat} {s : State} (hs : MemWf s) : OutWf (execKeyAlloc k s) := by
  unfold execKeyAlloc
  repeat' first | with_reducible assumption | with_reducible intro _ | with_reducible apply State.inSession_memWf | with_reducible apply State.answer_memWf | with_reducible apply MemWf.h | with_reducible apply ite_wf | (refine MemWf.mk ?_; dsimp only)

theorem State.retireKey_memWf {s : State} {k : Nat} (hs : MemWf s) : MemWf (State.retireKey s k) := by
  unfold State.retireKey
  repeat' first | with_reducible assumption | with_reducible apply State.zeroSlices_memWf | with_reducible apply MemWf.h | dsimp only | (refine MemWf.mk ?_; dsimp only)

theorem State.endRetirements_memWf {s : State} (hs : MemWf s) : MemWf (State.endRetirements s) := by
  unfold State.endRetirements
  repeat' first | with_reducible assumption | with_reducible intro _ | with_reducible apply State.answer_memWf | with_reducible apply State.retireKey_memWf | with_reducible apply foldl_wf | with_reducible apply ite_wf

theorem execKeyRetire_memWf {k : Nat} {s : State} (hs : MemWf s) : OutWf (execKeyRetire k s) := by
  unfold execKeyRetire
  repeat' first | with_reducible assumption | with_reducible intro _ | with_reducible apply State.inSession_memWf | with_reducible apply State.answer_memWf | with_reducible apply State.retireKey_memWf | with_reducible apply MemWf.h | with_reducible apply ite_wf | split | dsimp only | (refine MemWf.mk ?_; dsimp only)

theorem State.erase_memWf {s : State} {all : Bool} (hs : MemWf s) : MemWf (State.erase s all) := by
  unfold State.erase
  repeat' first | with_reducible assumption | with_reducible intro _ | with_reducible apply State.endPart_memWf | with_reducible apply State.zeroSlices_memWf | with_reducible apply State.queueError_memWf | with_reducible apply State.tdiErrorAll_memWf | with_reducible apply State.errorRecord_memWf | with_reducible apply MemWf.h | with_reducible apply foldl_wf | split | dsimp only | (refine MemWf.mk ?_; dsimp only)

theorem State.alarm_memWf {s : State} {cause info policy : Nat} (hs : MemWf s) : MemWf (State.alarm s cause info policy) := by
  unfold State.alarm
  repeat' first | with_reducible assumption | with_reducible apply State.errorRecord_memWf | with_reducible apply State.erase_memWf | with_reducible apply ite_wf

theorem execTamper_memWf {sensor : Nat} {s : State} (hs : MemWf s) : OutWf (execTamper sensor s) := by
  unfold execTamper
  repeat' first | with_reducible assumption | with_reducible apply State.alarm_memWf | with_reducible apply ite_outWf | with_reducible apply OutWf.next

theorem execGlitch_memWf {detector : Nat} {s : State} (hs : MemWf s) : OutWf (execGlitch detector s) := by
  unfold execGlitch
  repeat' first | with_reducible assumption | with_reducible apply State.alarm_memWf | with_reducible apply ite_outWf | with_reducible apply OutWf.next

theorem execIdeFailure_memWf {stream : Nat} {s : State} (hs : MemWf s) : OutWf (execIdeFailure stream s) := by
  unfold execIdeFailure
  repeat' first | with_reducible assumption | with_reducible intro _ | with_reducible apply State.errorRecord_memWf | with_reducible apply State.tdiError_memWf | with_reducible apply MemWf.h | with_reducible apply foldl_wf | with_reducible apply ite_outWf | with_reducible apply OutWf.next | split | dsimp only | (refine MemWf.mk ?_; dsimp only)

theorem execLockInterfaceRequest_memWf {vf : Nat} {s : State} (hs : MemWf s) : OutWf (execLockInterfaceRequest vf s) := by
  unfold execLockInterfaceRequest
  repeat' first | with_reducible assumption | with_reducible intro _ | with_reducible apply State.inSession_memWf | with_reducible apply State.answer_memWf | with_reducible apply State.setVf_memWf | with_reducible apply ite_wf | split

theorem execStartInterfaceRequest_memWf {vf stream : Nat} {s : State} (hs : MemWf s) : OutWf (execStartInterfaceRequest vf stream s) := by
  unfold execStartInterfaceRequest
  repeat' first | with_reducible assumption | with_reducible intro _ | with_reducible apply State.inSession_memWf | with_reducible apply State.answer_memWf | with_reducible apply State.setVf_memWf | with_reducible apply ite_wf

theorem execStopInterfaceRequest_memWf {vf : Nat} {s : State} (hs : MemWf s) : OutWf (execStopInterfaceRequest vf s) := by
  unfold execStopInterfaceRequest
  repeat' first | with_reducible assumption | with_reducible intro _ | with_reducible apply State.inSession_memWf | with_reducible apply State.answer_memWf | with_reducible apply State.opQueueDisable_memWf | with_reducible apply State.setVf_memWf | with_reducible apply foldl_wf | with_reducible apply ite_wf

theorem execInterfaceUnlock_memWf {vf : Nat} {s : State} (hs : MemWf s) : OutWf (execInterfaceUnlock vf s) := by
  unfold execInterfaceUnlock
  repeat' first | with_reducible assumption | with_reducible apply State.setVf_memWf | with_reducible apply ite_outWf | with_reducible apply OutWf.next

theorem execGetDeviceInterfaceReport_memWf {vf : Nat} {s : State} (hs : MemWf s) : OutWf (execGetDeviceInterfaceReport vf s) := by
  unfold execGetDeviceInterfaceReport
  repeat' first | with_reducible assumption | with_reducible intro _ | with_reducible apply State.inSession_memWf | with_reducible apply State.answer_memWf | with_reducible apply ite_wf

theorem execGetDeviceInterfaceState_memWf {vf : Nat} {s : State} (hs : MemWf s) : OutWf (execGetDeviceInterfaceState vf s) := by
  unfold execGetDeviceInterfaceState
  repeat' first | with_reducible assumption | with_reducible intro _ | with_reducible apply State.inSession_memWf | with_reducible apply State.answer_memWf | with_reducible apply ite_wf

theorem execSpdmRequest_memWf {r : SpdmReq} {s : State} (hs : MemWf s) : OutWf (execSpdmRequest r s) := by
  unfold execSpdmRequest
  repeat' first | with_reducible assumption | with_reducible apply State.answer_memWf | with_reducible apply MemWf.h | with_reducible apply ite_wf | with_reducible apply ite_outWf | with_reducible apply OutWf.next | split | dsimp only | (refine MemWf.mk ?_; dsimp only)

theorem State.writePfItem_memWf {s : State} {item : Nat} {changes : Bool} {f : State → State} (hs : MemWf s) (hf : ∀ u, MemWf u → MemWf (f u)) :
    MemWf (State.writePfItem s item changes f) := by
  unfold State.writePfItem
  repeat' first | with_reducible assumption | with_reducible apply State.tdiErrorAll_memWf | with_reducible apply ite_wf | with_reducible apply hf

theorem State.writeVfItem_memWf {s : State} {v item : Nat} {changes : Bool} {f : Vf → Vf} (hs : MemWf s) :
    MemWf (State.writeVfItem s v item changes f) := by
  unfold State.writeVfItem
  repeat' first | with_reducible assumption | with_reducible apply State.tdiError_memWf | with_reducible apply State.setVf_memWf | with_reducible apply ite_wf

theorem execConfigurationWrite_memWf {item : ConfigItem} {v : Word64} {s : State} (hs : MemWf s) : OutWf (execConfigurationWrite item v s) := by
  unfold execConfigurationWrite
  repeat' first | with_reducible assumption | with_reducible intro _ | with_reducible apply State.flushUnsent_memWf | with_reducible apply State.opTsync_memWf | with_reducible apply State.opPctl_memWf | with_reducible apply State.clearCounters_memWf | with_reducible apply State.writePfItem_memWf | with_reducible apply State.writeVfItem_memWf | with_reducible apply MemWf.h | with_reducible apply ite_wf | with_reducible apply OutWf.next | split | (refine MemWf.mk ?_; dsimp only)

/-! ## MemEvents -/

theorem execAccessPerformed_memWf {core item : Nat} {scope : Scope} {s : State} (hs : MemWf s) : OutWf (execAccessPerformed core item scope s) := by
  unfold execAccessPerformed
  repeat' first | with_reducible assumption | with_reducible apply State.setCore_memWf | with_reducible apply ite_outWf | with_reducible apply OutWf.next

theorem execLoadReturn_memWf {core slot : Nat} {s : State} (hs : MemWf s) : OutWf (execLoadReturn core slot s) := by
  unfold execLoadReturn
  repeat' first | with_reducible assumption | with_reducible apply State.setStrand_memWf | with_reducible apply ite_outWf | with_reducible apply OutWf.next | split

theorem State.applyData_memWf {s : State} {e : CausalStore} (hs : MemWf s) : MemWf (State.applyData s e) := by
  unfold State.applyData
  repeat' first | with_reducible assumption | with_reducible apply State.touchLines_memWf | with_reducible apply State.cleanWords_memWf | with_reducible apply MemWf.h | with_reducible apply memSetList_wf | split | dsimp only | (refine MemWf.mk ?_; dsimp only)

theorem State.storeFailed_memWf {s : State} {c k item : Nat} {x : Cause} {place : Nat} (hs : MemWf s) : MemWf (State.storeFailed s c k item x place) := by
  unfold State.storeFailed
  repeat' first | with_reducible assumption | with_reducible apply State.errorRecord_memWf | with_reducible apply State.onCore_memWf | with_reducible apply State.onStrand_memWf

theorem State.landStore_memWf {s : State} {e : CausalStore} (hs : MemWf s) : MemWf (State.landStore s e) := by
  unfold State.landStore
  repeat' first | with_reducible assumption | with_reducible apply State.storeFailed_memWf | with_reducible apply State.applyData_memWf | with_reducible apply ite_wf | split

theorem execCausalStoreApply_memWf {die src : Nat} {s : State} (hs : MemWf s) : OutWf (execCausalStoreApply die src s) := by
  unfold execCausalStoreApply
  repeat' first | with_reducible assumption | with_reducible apply State.onDie_memWf | with_reducible apply State.landStore_memWf | with_reducible apply ite_outWf | with_reducible apply OutWf.next | split | dsimp only

theorem execCausalLoadServe_memWf {core slot : Nat} {s : State} (hs : MemWf s) : OutWf (execCausalLoadServe core slot s) := by
  unfold execCausalLoadServe
  repeat' first | with_reducible assumption | with_reducible apply State.setStrand_memWf | with_reducible apply ite_outWf | with_reducible apply OutWf.next | split | dsimp only

theorem State.answerPost_memWf {s : State} {c k : Nat} {v : Word64} (hs : MemWf s) : MemWf (State.answerPost s c k v) := by
  unfold State.answerPost
  repeat' first | with_reducible assumption | with_reducible apply State.onStrand_memWf

theorem State.pushedBy_memWf {s : State} {r : RemoteReq} (hs : MemWf s) : MemWf (State.pushedBy s r) := by
  unfold State.pushedBy
  repeat' first | with_reducible assumption | with_reducible apply MemWf.h | (refine MemWf.mk ?_; dsimp only)

theorem State.flushFailed_memWf {s : State} {c : Nat} {r : RemoteReq} {x : Cause} (hs : MemWf s) : MemWf (State.flushFailed s c r x) := by
  unfold State.flushFailed
  repeat' first | with_reducible assumption | with_reducible intro _ | with_reducible apply State.storeFailed_memWf | with_reducible apply State.pushedBy_memWf | with_reducible apply foldl_wf

theorem State.packetFailed_memWf {s : State} {q pid : Nat} {r : RemoteReq} {x : Cause} (hs : MemWf s) : MemWf (State.packetFailed s q pid r x) := by
  unfold State.packetFailed
  repeat' first | with_reducible assumption | with_reducible apply State.errorRecord_memWf | with_reducible apply State.packetData_memWf | with_reducible apply ite_wf | split

theorem State.queueFailed_memWf {s : State} {q : Nat} {r : RemoteReq} {x : Cause} (hs : MemWf s) : MemWf (State.queueFailed s q r x) := by
  unfold State.queueFailed
  repeat' first | with_reducible assumption | with_reducible apply State.errorRecord_memWf | with_reducible apply State.onQueue_memWf | with_reducible apply State.spend_memWf | with_reducible apply State.fetchFault_memWf | with_reducible apply State.packetFault_memWf | with_reducible apply ite_wf | split

theorem State.partFailed_memWf {s : State} {p : Nat} {x : Cause} (hs : MemWf s) : MemWf (State.partFailed s p x) := by
  unfold State.partFailed
  repeat' first | with_reducible assumption | with_reducible apply State.recordEnd_memWf

theorem State.failRequest_memWf {s : State} {r : RemoteReq} {x : Cause} (hs : MemWf s) : MemWf (State.failRequest s r x) := by
  unfold State.failRequest
  repeat' first | with_reducible assumption | with_reducible apply State.loadFailed_memWf | with_reducible apply State.disown_memWf | with_reducible apply State.storeFailed_memWf | with_reducible apply State.onStrand_memWf | with_reducible apply State.answerPost_memWf | with_reducible apply State.stopRunning_memWf | with_reducible apply State.stopCopy_memWf | with_reducible apply State.ctxFault_memWf | with_reducible apply State.packetFailed_memWf | with_reducible apply State.saveFail_memWf | with_reducible apply State.flushFailed_memWf | with_reducible apply State.queueFailed_memWf | with_reducible apply State.partFailed_memWf | split

theorem State.loadReceives_memWf {s : State} {c k item : Nat} {b : ByteList} (hs : MemWf s) : MemWf (State.loadReceives s c k item b) := by
  unfold State.loadReceives
  repeat' first | with_reducible assumption | with_reducible apply State.onStrand_memWf

theorem State.addReply_memWf {s : State} {r : RemoteReq} {b : ByteList} (hs : MemWf s) : MemWf (State.addReply s r b) := by
  unfold State.addReply
  repeat' first | with_reducible assumption | with_reducible apply MemWf.h | (refine MemWf.mk ?_; dsimp only)

theorem State.pieceReceived_memWf {s : State} {c k item : Nat} {r : RemoteReq} {b : ByteList} (hs : MemWf s) :
    MemWf (State.pieceReceived s c k item r b) := by
  unfold State.pieceReceived
  repeat' first | with_reducible assumption | with_reducible apply State.spend_memWf | with_reducible apply State.loadReceives_memWf | with_reducible apply MemWf.h | with_reducible apply ite_wf | dsimp only | (refine MemWf.mk ?_; dsimp only)

theorem State.packetGoesOn_memWf {s : State} {q pid : Nat} (hs : MemWf s) : MemWf (State.packetGoesOn s q pid) := by
  unfold State.packetGoesOn
  repeat' first | with_reducible assumption | with_reducible apply State.evalWait_memWf | with_reducible apply ite_wf | split

theorem State.finishRequest_memWf {s : State} {r : RemoteReq} {b : ByteList} (hs : MemWf s) : MemWf (State.finishRequest s r b) := by
  unfold State.finishRequest
  repeat' first | with_reducible assumption | with_reducible apply State.pieceReceived_memWf | with_reducible apply State.answerPost_memWf | with_reducible apply State.onStrand_memWf | with_reducible apply State.packetGoesOn_memWf | with_reducible apply State.addReply_memWf | with_reducible apply State.wakeWaits_memWf | with_reducible apply MemWf.h | with_reducible apply ite_wf | split | (refine MemWf.mk ?_; dsimp only)

theorem State.dropRequest_memWf {s : State} {req : Nat} (hs : MemWf s) : MemWf (State.dropRequest s req) := by
  unfold State.dropRequest
  repeat' first | with_reducible assumption | with_reducible apply MemWf.h | (refine MemWf.mk ?_; dsimp only)

theorem State.complete_memWf {s : State} {req : Nat} {r : RemoteResult} (hs : MemWf s) : MemWf (State.complete s req r) := by
  unfold State.complete
  repeat' first | with_reducible assumption | with_reducible apply State.failRequest_memWf | with_reducible apply State.dropRequest_memWf | with_reducible apply State.finishRequest_memWf | with_reducible apply State.pushedBy_memWf | with_reducible apply ite_wf | split

theorem execRemoteCompletion_memWf {req : Nat} {r : RemoteResult} {s : State} (hs : MemWf s) : OutWf (execRemoteCompletion req r s) := by
  unfold execRemoteCompletion
  repeat' first | with_reducible assumption | with_reducible apply State.complete_memWf | with_reducible apply OutWf.next

theorem execCompletionTimeout_memWf {req : Nat} {s : State} (hs : MemWf s) : OutWf (execCompletionTimeout req s) := by
  unfold execCompletionTimeout
  repeat' first | with_reducible assumption | with_reducible apply State.failRequest_memWf | with_reducible apply State.dropRequest_memWf | with_reducible apply OutWf.next | split

theorem State.arrive_memWf {s : State} {c : Nat} {r : ByteList} (hs : MemWf s) : MemWf (State.arrive s c r).1 := by
  unfold State.arrive
  repeat' first | with_reducible assumption | with_reducible apply State.onCore_memWf | split

theorem execIngressArrival_memWf {core : Nat} {rec : ByteList} {s : State} (hs : MemWf s) : OutWf (execIngressArrival core rec s) := by
  unfold execIngressArrival
  repeat' first | with_reducible assumption | with_reducible apply State.arrive_memWf | with_reducible apply ite_outWf | with_reducible apply OutWf.next

theorem State.servePeer_memWf {s : State} {r : PeerReq} {tag key addr n : Nat} {write : Bool} {f : State → List Piece → State × ByteList} (hs : MemWf s)
  (hf : ∀ u ps, MemWf u → MemWf (f u ps).1) : MemWf (State.servePeer s r tag key addr n write f) := by
  unfold State.servePeer
  repeat' first | with_reducible assumption | with_reducible intro _ | with_reducible apply State.send_memWf | with_reducible apply State.letOutside_memWf | with_reducible apply State.holdOutside_memWf | with_reducible apply State.serve_memWf | with_reducible apply foldl_wf | with_reducible apply ite_wf | with_reducible apply hf | split

theorem State.peerPut_memWf {s : State} {key : Nat} {ps : List Piece} {b : ByteList} (hs : MemWf s) : MemWf (State.peerPut s key ps b) := by
  unfold State.peerPut
  repeat' first | with_reducible assumption | with_reducible intro _ | with_reducible apply State.writePiece_memWf | with_reducible apply foldl_wf

theorem State.peerRequest_memWf {r : PeerReq} {s : State} (hs : MemWf s) : MemWf (State.peerRequest r s) := by
  unfold State.peerRequest
  repeat' first | with_reducible assumption | with_reducible intro _ | with_reducible apply State.servePeer_memWf | with_reducible apply State.peerPut_memWf | with_reducible apply State.holdOutside_memWf | with_reducible apply State.arrive_memWf | with_reducible apply State.letOutside_memWf | with_reducible apply State.send_memWf | with_reducible apply ite_wf | split

theorem execPeerRequest_memWf {r : PeerReq} {s : State} (hs : MemWf s) : OutWf (execPeerRequest r s) := by
  unfold execPeerRequest
  repeat' first | with_reducible assumption | with_reducible apply State.peerRequest_memWf | with_reducible apply ite_outWf | with_reducible apply OutWf.next

theorem State.runHeld_memWf {s : State} {n : Nat} (hs : MemWf s) : OutWf (State.runHeld s n) := by
  unfold State.runHeld
  repeat' first | with_reducible assumption | with_reducible apply execBar2Read_memWf | with_reducible apply execBar2Write_memWf | with_reducible apply execRegisterWrite_memWf | with_reducible apply execDoorbell_memWf | with_reducible apply execPeerRequest_memWf | with_reducible apply OutWf.next | split

/-! ## Errors -/

theorem execSramCorrectedError_memWf {loc : SramLoc} {s : State} (hs : MemWf s) : OutWf (execSramCorrectedError loc s) := by
  unfold execSramCorrectedError
  repeat' first | with_reducible assumption | with_reducible apply State.onCore_memWf | with_reducible apply State.errorRecord_memWf | with_reducible apply MemWf.h | with_reducible apply OutWf.next | split | (refine MemWf.mk ?_; dsimp only)

theorem State.decideAsked_memWf {s : State} (hs : MemWf s) : MemWf (State.decideAsked s) := by
  unfold State.decideAsked
  repeat' first | with_reducible assumption | with_reducible intro _ | with_reducible apply State.askedSave_memWf | with_reducible apply foldl_wf

theorem execFreezeEnd_memWf {loc : FreezeLoc} {s : State} (hs : MemWf s) : OutWf (execFreezeEnd loc s) := by
  unfold execFreezeEnd
  repeat' first | with_reducible assumption | with_reducible apply State.decideAsked_memWf | with_reducible apply State.onCore_memWf | with_reducible apply MemWf.h | with_reducible apply ite_outWf | with_reducible apply OutWf.next | split | (refine MemWf.mk ?_; dsimp only)

theorem State.poisonWord_memWf {s : State} {w : Nat} (hs : MemWf s) : MemWf (State.poisonWord s w) := by
  unfold State.poisonWord
  repeat' first | with_reducible assumption | with_reducible apply MemWf.h | with_reducible apply ite_wf | (refine MemWf.mk ?_; dsimp only)

theorem State.lostState_memWf {s : State} {part : Option Nat} {unit loc arr word : Nat} (hs : MemWf s) :
    MemWf (State.lostState s part unit loc arr word) := by
  unfold State.lostState
  repeat' first | with_reducible assumption | with_reducible apply State.saveFail_memWf | with_reducible apply State.recordEnd_memWf | with_reducible apply State.errorRecord_memWf | with_reducible apply ite_wf | split

theorem execSramUncorrectableError_memWf {loc : SramLoc} {s : State} (hs : MemWf s) : OutWf (execSramUncorrectableError loc s) := by
  unfold execSramUncorrectableError
  repeat' first | with_reducible assumption | with_reducible apply State.poisonWord_memWf | with_reducible apply State.lostState_memWf | with_reducible apply State.errorRecord_memWf | with_reducible apply State.onCore_memWf | with_reducible apply State.firmwareFails_memWf | with_reducible apply MemWf.h | with_reducible apply ite_wf | with_reducible apply ite_outWf | with_reducible apply OutWf.next | split | (refine MemWf.mk ?_; dsimp only)

theorem State.onLine_memWf {s : State} {key : Nat} {f : LineMeta → LineMeta} (hs : MemWf s) : MemWf (State.onLine s key f) := by
  unfold State.onLine
  repeat' first | with_reducible assumption | with_reducible apply MemWf.h | (refine MemWf.mk ?_; dsimp only)

theorem State.treeAlarm_memWf {s : State} {dpa : Nat} (hs : MemWf s) : MemWf (State.treeAlarm s dpa) := by
  unfold State.treeAlarm
  repeat' first | with_reducible assumption | with_reducible apply State.alarm_memWf | with_reducible apply ite_wf

theorem State.dropCached_memWf {s : State} {dpa level : Nat} (hs : MemWf s) : MemWf (State.dropCached s dpa level) := by
  unfold State.dropCached
  repeat' first | with_reducible assumption | with_reducible apply State.onDie_memWf | with_reducible apply State.treeAlarm_memWf | with_reducible apply State.errorRecord_memWf | with_reducible apply MemWf.h | with_reducible apply ite_wf | split | dsimp only | (refine MemWf.mk ?_; dsimp only)

theorem execTier0LineRead_memWf {dpa x1 : Nat} {o : LineOutcome} {s : State} (hs : MemWf s) : OutWf (execTier0LineRead dpa x1 o s) := by
  unfold execTier0LineRead
  repeat' first | with_reducible assumption | with_reducible apply State.errorRecord_memWf | with_reducible apply State.onLine_memWf | with_reducible apply State.treeAlarm_memWf | with_reducible apply State.dropCached_memWf | with_reducible apply MemWf.h | with_reducible apply ite_outWf | with_reducible apply OutWf.next | split | (refine MemWf.mk ?_; dsimp only)

theorem State.pageCame_memWf {s : State} {p : Nat} (hs : MemWf s) : MemWf (State.pageCame s p) := by
  unfold State.pageCame
  repeat' first | with_reducible assumption | with_reducible apply MemWf.h | dsimp only | (refine MemWf.mk ?_; dsimp only)

theorem State.refusePage_memWf {s : State} {p : Nat} (hs : MemWf s) : MemWf (State.refusePage s p) := by
  unfold State.refusePage
  repeat' first | with_reducible assumption | with_reducible apply State.pageCame_memWf | with_reducible apply MemWf.h | dsimp only | (refine MemWf.mk ?_; dsimp only)

theorem execAtsCompletion_memWf {iova : Nat} {r : AtsResult} {s : State} (hs : MemWf s) : OutWf (execAtsCompletion iova r s) := by
  unfold execAtsCompletion
  repeat' first | with_reducible assumption | with_reducible apply State.pageCame_memWf | with_reducible apply State.cachePage_memWf | with_reducible apply State.send_memWf | with_reducible apply State.refusePage_memWf | with_reducible apply MemWf.h | with_reducible apply ite_outWf | with_reducible apply OutWf.next | split | dsimp only | (refine MemWf.mk ?_; dsimp only)

theorem execPriResponse_memWf {iova : Nat} {ok : Bool} {s : State} (hs : MemWf s) : OutWf (execPriResponse iova ok s) := by
  unfold execPriResponse
  repeat' first | with_reducible assumption | with_reducible apply State.pageCame_memWf | with_reducible apply State.cachePage_memWf | with_reducible apply State.refusePage_memWf | with_reducible apply MemWf.h | with_reducible apply ite_outWf | with_reducible apply OutWf.next | dsimp only | (refine MemWf.mk ?_; dsimp only)

theorem execAtsInvalidationRequest_memWf {iova len : Nat} {s : State} (hs : MemWf s) : OutWf (execAtsInvalidationRequest iova len s) := by
  unfold execAtsInvalidationRequest
  repeat' first | with_reducible assumption | with_reducible apply MemWf.h | with_reducible apply OutWf.next | dsimp only | (refine MemWf.mk ?_; dsimp only)

theorem execAtsInvalidationComplete_memWf {s : State} (hs : MemWf s) : OutWf (execAtsInvalidationComplete s) := by
  unfold execAtsInvalidationComplete
  repeat' first | with_reducible assumption | with_reducible apply State.send_memWf | with_reducible apply MemWf.h | with_reducible apply ite_outWf | with_reducible apply OutWf.next | split | dsimp only | (refine MemWf.mk ?_; dsimp only)

/-! ## Flits -/

theorem State.takeMsg_memWf {s : State} {m : FlitMsg} (hs : MemWf s) : OptWf (State.takeMsg s m) := by
  unfold State.takeMsg
  repeat' first | with_reducible assumption | with_reducible apply State.peerRequest_memWf | with_reducible apply State.complete_memWf | with_reducible apply State.takeContribution_memWf | with_reducible apply State.takeAbandon_memWf | with_reducible apply State.arriveAtBar_memWf | with_reducible apply ite_wf | with_reducible apply OptWf.none | with_reducible apply OptWf.some | split

theorem State.takeMsgs_memWf {s : State} {x1 : List FlitMsg} (hs : MemWf s) : OptWf (State.takeMsgs s x1) := by
  induction x1 generalizing s with
  | nil => exact .some hs
  | cons m r ih =>
    unfold State.takeMsgs
    have h := State.takeMsg_memWf (m := m) hs
    generalize s.takeMsg m = o at h
    cases h with
    | none => exact .none
    | some h => exact ih h

theorem State.takeFlit_memWf {s : State} {port seq dest : Nat} {msgs : List FlitMsg} (hs : MemWf s) : MemWf (State.takeFlit s port seq dest msgs) := by
  unfold State.takeFlit
  repeat' first | with_reducible assumption | with_reducible apply State.takeMsgs_memWf | with_reducible apply State.setPort_memWf | with_reducible apply ite_wf | with_reducible apply OptWf.some | split | (with_reducible refine optWf_out ?_ (by assumption))

theorem execFlitReceive_memWf {port : Nat} {good : Bool} {flit : FlitIn} {s : State} (hs : MemWf s) :
    OutWf (execFlitReceive port good flit s) := by
  unfold execFlitReceive
  repeat' first | with_reducible assumption | with_reducible apply State.countFec_memWf | with_reducible apply State.badFlit_memWf | with_reducible apply State.takeFlit_memWf | with_reducible apply State.ackFlits_memWf | with_reducible apply State.replayFlits_memWf | with_reducible apply ite_outWf | with_reducible apply OutWf.next | split

end Sys2Proof.Machine
end

