-- ==== Sys2Proof/Laws/MemoryParts.lean ====
section
/-! SUPPORT. Keeping the canonical form of the byte memory: launches, vector kernels, matrix tasks, saves and resumes. -/
namespace Sys2Proof.Machine

/-! ## Vector -/

theorem State.readVreg_memWf {s : State} {c : Nat} {k : Kernel} {n : Nat} : AccWf0 (State.readVreg s c k n) := by
  unfold State.readVreg
  repeat' first | with_reducible exact True.intro | with_reducible apply AccP.ok | with_reducible apply AccP.bad | split

theorem State.readSel_memWf {s : State} {c : Nat} {k : Kernel} {w sel : Nat} : AccWf0 (State.readSel s c k w sel) := by
  unfold State.readSel
  repeat' first | with_reducible exact True.intro | with_reducible apply State.readVreg_memWf | with_reducible apply ite_accP | with_reducible apply AccP.ok

theorem State.putV_memWf {s : State} {c : Nat} {k : Kernel} {dst w : Nat} {l : Lanes} (hs : MemWf s) : MemWf (State.putV s c k dst w l).1 := by
  unfold State.putV
  repeat' first | with_reducible assumption | with_reducible apply State.cleanWords_memWf | with_reducible apply MemWf.h | with_reducible apply memSetList_wf | split | (refine MemWf.mk ?_; dsimp only)

theorem State.landOne_memWf {c : Nat} {p : State × Kernel} {r : VReplay} (hp : MemWf p.1) : MemWf (State.landOne c p r).1 := by
  unfold State.landOne
  repeat' first | with_reducible assumption | with_reducible apply State.putV_memWf | split

theorem State.landSome_memWf {c : Nat} {p : State × Kernel} {f : VReplay → Bool} (hp : MemWf p.1) : MemWf (State.landSome c p f).1 := by
  unfold State.landSome
  have : ∀ (l : List VReplay) (q : State × Kernel), MemWf q.1 → MemWf (l.foldl (State.landOne c) q).1 := by
    intro l
    induction l with
    | nil => exact fun _ h => h
    | cons a r ih => exact fun q h => ih _ (State.landOne_memWf h)
  exact this _ _ hp

theorem State.vecRun_memWf {s : State} {reads : List Nat} {dst : Nat} {f : Nat → Kernel → State → Acc (State × Option Kernel × Option (Nat × Lanes))} (hs : MemWf s)
  (hf : ∀ c k u, MemWf u → AccP (fun v => MemWf v.1) (f c k u)) : OutWf (State.vecRun s reads dst f) := by
  unfold State.vecRun
  split
  · rename_i c _
    split
    · rename_i k0 _
      dsimp only
      have hp : MemWf (State.landSome c (s, k0) fun r => decide (r.duePos ≤ k0.posn)).1 := State.landSome_memWf hs
      generalize (State.landSome c (s, k0) fun r => decide (r.duePos ≤ k0.posn)) = p at hp
      have h := hf c { p.2 with next := k0.next + 4 } p.1 hp
      split <;> rename_i he <;> rw [he] at h <;> cases h
      · exact .next (State.kernelFault_memWf hs)
      · exact .next (State.kernelFault_memWf hs)
      · exact .next (State.wait_memWf hs)
      · exact .next (State.spend_memWf (State.onCore_memWf ‹_›))
      · refine .next (State.spend_memWf (State.onCore_memWf ?_))
        split
        · assumption
        · exact State.putV_memWf (State.landSome_memWf ‹_›)
    · exact .fault
  · exact .fault

theorem State.vec1_memWf {s : State} {wb : Bool} {d a m : Nat} {t : VTy} {f : Nat → Nat} (hs : MemWf s) : OutWf (State.vec1 s wb d a m t f) := by
  unfold State.vec1
  repeat' first | with_reducible assumption | with_reducible intro _ | with_reducible apply State.vecRun_memWf | with_reducible apply State.readSel_memWf | with_reducible apply AccP.ok | with_reducible apply acc0_next

theorem State.vec2_memWf {s : State} {wb : Bool} {d a b m : Nat} {t : VTy} {f : Nat → Nat → Nat} (hs : MemWf s) : OutWf (State.vec2 s wb d a b m t f) := by
  unfold State.vec2
  repeat' first | with_reducible assumption | with_reducible intro _ | with_reducible apply State.vecRun_memWf | with_reducible apply State.readSel_memWf | with_reducible apply AccP.ok | with_reducible apply acc0_next

theorem execVnop_memWf {s : State} (hs : MemWf s) : OutWf (execVnop s) := by
  unfold execVnop
  repeat' first | with_reducible assumption | with_reducible intro _ | with_reducible apply State.vecRun_memWf | with_reducible apply AccP.ok

theorem execVadd_memWf {w : Bool} {d a b m : Nat} {t : VTy} {s : State} (hs : MemWf s) : OutWf (execVadd w d a b m t s) := by
  unfold execVadd
  repeat' first | with_reducible assumption | with_reducible apply State.vec2_memWf

theorem execVsub_memWf {w : Bool} {d a b m : Nat} {t : VTy} {s : State} (hs : MemWf s) : OutWf (execVsub w d a b m t s) := by
  unfold execVsub
  repeat' first | with_reducible assumption | with_reducible apply State.vec2_memWf

theorem execVmul_memWf {w : Bool} {d a b m : Nat} {t : VTy} {s : State} (hs : MemWf s) : OutWf (execVmul w d a b m t s) := by
  unfold execVmul
  repeat' first | with_reducible assumption | with_reducible apply State.vec2_memWf

theorem execVfma_memWf {w : Bool} {d a b m : Nat} {t : VTy} {s : State} (hs : MemWf s) : OutWf (execVfma w d a b m t s) := by
  unfold execVfma
  repeat' first | with_reducible assumption | with_reducible intro _ | with_reducible apply State.vecRun_memWf | with_reducible apply State.readSel_memWf | with_reducible apply AccP.ok | with_reducible apply acc0_next

theorem execVmin_memWf {w : Bool} {d a b m : Nat} {t : VTy} {s : State} (hs : MemWf s) : OutWf (execVmin w d a b m t s) := by
  unfold execVmin
  repeat' first | with_reducible assumption | with_reducible apply State.vec2_memWf

theorem execVmax_memWf {w : Bool} {d a b m : Nat} {t : VTy} {s : State} (hs : MemWf s) : OutWf (execVmax w d a b m t s) := by
  unfold execVmax
  repeat' first | with_reducible assumption | with_reducible apply State.vec2_memWf

theorem execVabs_memWf {w : Bool} {d a m : Nat} {t : VTy} {s : State} (hs : MemWf s) : OutWf (execVabs w d a m t s) := by
  unfold execVabs
  repeat' first | with_reducible assumption | with_reducible apply State.vec1_memWf

theorem execVneg_memWf {w : Bool} {d a m : Nat} {t : VTy} {s : State} (hs : MemWf s) : OutWf (execVneg w d a m t s) := by
  unfold execVneg
  repeat' first | with_reducible assumption | with_reducible apply State.vec1_memWf

theorem execVand_memWf {w : Bool} {d a b m : Nat} {t : VTy} {s : State} (hs : MemWf s) : OutWf (execVand w d a b m t s) := by
  unfold execVand
  repeat' first | with_reducible assumption | with_reducible apply State.vec2_memWf

theorem execVor_memWf {w : Bool} {d a b m : Nat} {t : VTy} {s : State} (hs : MemWf s) : OutWf (execVor w d a b m t s) := by
  unfold execVor
  repeat' first | with_reducible assumption | with_reducible apply State.vec2_memWf

theorem execVxor_memWf {w : Bool} {d a b m : Nat} {t : VTy} {s : State} (hs : MemWf s) : OutWf (execVxor w d a b m t s) := by
  unfold execVxor
  repeat' first | with_reducible assumption | with_reducible apply State.vec2_memWf

theorem execVshl_memWf {w : Bool} {d a b m : Nat} {t : ITy} {s : State} (hs : MemWf s) : OutWf (execVshl w d a b m t s) := by
  unfold execVshl
  repeat' first | with_reducible assumption | with_reducible apply State.vec2_memWf

theorem execVshr_memWf {w : Bool} {d a b m : Nat} {t : ITy} {s : State} (hs : MemWf s) : OutWf (execVshr w d a b m t s) := by
  unfold execVshr
  repeat' first | with_reducible assumption | with_reducible apply State.vec2_memWf

theorem execVsra_memWf {w : Bool} {d a b m : Nat} {t : ITy} {s : State} (hs : MemWf s) : OutWf (execVsra w d a b m t s) := by
  unfold execVsra
  repeat' first | with_reducible assumption | with_reducible apply State.vec2_memWf

theorem execVcmp_memWf {cc : VCond} {d a b m : Nat} {t : VTy} {s : State} (hs : MemWf s) : OutWf (execVcmp cc d a b m t s) := by
  unfold execVcmp
  repeat' first | with_reducible assumption | with_reducible intro _ | with_reducible apply State.vecRun_memWf | with_reducible apply State.readSel_memWf | with_reducible apply AccP.ok | with_reducible apply acc0_next

theorem execVsel_memWf {w : Bool} {d a b m : Nat} {t : VTy} {s : State} (hs : MemWf s) : OutWf (execVsel w d a b m t s) := by
  unfold execVsel
  repeat' first | with_reducible assumption | with_reducible intro _ | with_reducible apply State.vecRun_memWf | with_reducible apply State.readSel_memWf | with_reducible apply AccP.ok | with_reducible apply acc0_next

theorem execVmov_memWf {w : Bool} {d a m : Nat} {t : VTy} {s : State} (hs : MemWf s) : OutWf (execVmov w d a m t s) := by
  unfold execVmov
  repeat' first | with_reducible assumption | with_reducible apply State.vec1_memWf

theorem execVbcst_memWf {w : Bool} {d a b m : Nat} {t : VTy} {s : State} (hs : MemWf s) : OutWf (execVbcst w d a b m t s) := by
  unfold execVbcst
  repeat' first | with_reducible assumption | with_reducible intro _ | with_reducible apply State.vecRun_memWf | with_reducible apply State.readSel_memWf | with_reducible apply AccP.ok | with_reducible apply acc0_next

theorem execVprm_memWf {w : Bool} {d a b m : Nat} {t : VTy} {s : State} (hs : MemWf s) : OutWf (execVprm w d a b m t s) := by
  unfold execVprm
  repeat' first | with_reducible assumption | with_reducible intro _ | with_reducible apply State.vecRun_memWf | with_reducible apply State.readSel_memWf | with_reducible apply AccP.ok | with_reducible apply acc0_next

theorem State.drawV_memWf {s : State} {c : Nat} (hs : MemWf s) : MemWf (State.drawV s c).2 := by
  unfold State.drawV
  repeat' first | with_reducible assumption | with_reducible apply State.onCore_memWf

theorem execVcvt_memWf {w : Bool} {d a kind mode m : Nat} {s : State} (hs : MemWf s) : OutWf (execVcvt w d a kind mode m s) := by
  unfold execVcvt
  repeat' first | with_reducible assumption | with_reducible intro _ | with_reducible exact True.intro | with_reducible apply State.vecRun_memWf | with_reducible apply State.readSel_memWf | with_reducible apply State.drawV_memWf | with_reducible apply ite_accP | with_reducible apply AccP.ok | with_reducible apply acc0_next

theorem execVscl_memWf {w : Bool} {d a mw : Nat} {enc : Bool} {mode m : Nat} {s : State} (hs : MemWf s) : OutWf (execVscl w d a mw enc mode m s) := by
  unfold execVscl
  repeat' first | with_reducible assumption | with_reducible intro _ | with_reducible apply State.vecRun_memWf | with_reducible apply State.readSel_memWf | with_reducible apply State.drawV_memWf | with_reducible apply ite_accP | with_reducible apply AccP.ok | with_reducible apply acc0_next

theorem State.vecReduce_memWf {s : State} {w : Bool} {d a m : Nat} {t : VTy} {out : Nat} {f : List Nat → Nat} (hs : MemWf s) :
    OutWf (State.vecReduce s w d a m t out f) := by
  unfold State.vecReduce
  repeat' first | with_reducible assumption | with_reducible intro _ | with_reducible apply State.vecRun_memWf | with_reducible apply State.readSel_memWf | with_reducible apply AccP.ok | with_reducible apply acc0_next

theorem execVreds_memWf {w : Bool} {d a m : Nat} {t : VTy} {s : State} (hs : MemWf s) : OutWf (execVreds w d a m t s) := by
  unfold execVreds
  repeat' first | with_reducible assumption | with_reducible apply State.vecReduce_memWf

theorem execVredm_memWf {w : Bool} {d a m : Nat} {t : VTy} {s : State} (hs : MemWf s) : OutWf (execVredm w d a m t s) := by
  unfold execVredm
  repeat' first | with_reducible assumption | with_reducible apply State.vecReduce_memWf

theorem execVredn_memWf {w : Bool} {d a m : Nat} {t : VTy} {s : State} (hs : MemWf s) : OutWf (execVredn w d a m t s) := by
  unfold execVredn
  repeat' first | with_reducible assumption | with_reducible apply State.vecReduce_memWf

theorem State.vecSpecial_memWf {s : State} {f : SFn} {i : Instr} {a m : Nat} {t : FTy} (hs : MemWf s) : OutWf (State.vecSpecial s f i a m t) := by
  unfold State.vecSpecial
  repeat' first | with_reducible assumption | with_reducible intro _ | with_reducible apply State.vecRun_memWf | with_reducible apply State.readSel_memWf | with_reducible apply AccP.ok | with_reducible apply acc0_next

theorem execVexp2_memWf {w : Bool} {d a m : Nat} {t : FTy} {s : State} (hs : MemWf s) : OutWf (execVexp2 w d a m t s) := by
  unfold execVexp2
  repeat' first | with_reducible assumption | with_reducible apply State.vecSpecial_memWf

theorem execVlog2_memWf {w : Bool} {d a m : Nat} {t : FTy} {s : State} (hs : MemWf s) : OutWf (execVlog2 w d a m t s) := by
  unfold execVlog2
  repeat' first | with_reducible assumption | with_reducible apply State.vecSpecial_memWf

theorem execVrcp_memWf {w : Bool} {d a m : Nat} {t : FTy} {s : State} (hs : MemWf s) : OutWf (execVrcp w d a m t s) := by
  unfold execVrcp
  repeat' first | with_reducible assumption | with_reducible apply State.vecSpecial_memWf

theorem execVrsq_memWf {w : Bool} {d a m : Nat} {t : FTy} {s : State} (hs : MemWf s) : OutWf (execVrsq w d a m t s) := by
  unfold execVrsq
  repeat' first | with_reducible assumption | with_reducible apply State.vecSpecial_memWf

theorem execVsqrt_memWf {w : Bool} {d a m : Nat} {t : FTy} {s : State} (hs : MemWf s) : OutWf (execVsqrt w d a m t s) := by
  unfold execVsqrt
  repeat' first | with_reducible assumption | with_reducible apply State.vecSpecial_memWf

theorem execVsig_memWf {w : Bool} {d a m : Nat} {t : FTy} {s : State} (hs : MemWf s) : OutWf (execVsig w d a m t s) := by
  unfold execVsig
  repeat' first | with_reducible assumption | with_reducible apply State.vecSpecial_memWf

theorem execVtanh_memWf {w : Bool} {d a m : Nat} {t : FTy} {s : State} (hs : MemWf s) : OutWf (execVtanh w d a m t s) := by
  unfold execVtanh
  repeat' first | with_reducible assumption | with_reducible apply State.vecSpecial_memWf

theorem execVunp3_memWf {w : Bool} {d a off m : Nat} {t : VTy} {s : State} (hs : MemWf s) : OutWf (execVunp3 w d a off m t s) := by
  unfold execVunp3
  repeat' first | with_reducible assumption | with_reducible intro _ | with_reducible apply State.vecRun_memWf | with_reducible apply State.readSel_memWf | with_reducible apply AccP.ok | with_reducible apply acc0_next

theorem execMand_memWf {d a b : Nat} {s : State} (hs : MemWf s) : OutWf (execMand d a b s) := by
  unfold execMand
  repeat' first | with_reducible assumption | with_reducible intro _ | with_reducible apply State.vecRun_memWf | with_reducible apply AccP.ok

theorem execMor_memWf {d a b : Nat} {s : State} (hs : MemWf s) : OutWf (execMor d a b s) := by
  unfold execMor
  repeat' first | with_reducible assumption | with_reducible intro _ | with_reducible apply State.vecRun_memWf | with_reducible apply AccP.ok

theorem execMnot_memWf {d a : Nat} {s : State} (hs : MemWf s) : OutWf (execMnot d a s) := by
  unfold execMnot
  repeat' first | with_reducible assumption | with_reducible intro _ | with_reducible apply State.vecRun_memWf | with_reducible apply AccP.ok

theorem execVloop_memWf {a : Nat} {s : State} (hs : MemWf s) : OutWf (execVloop a s) := by
  unfold execVloop
  repeat' first | with_reducible assumption | with_reducible intro _ | with_reducible apply State.vecRun_memWf | with_reducible apply State.readSel_memWf | with_reducible apply ite_accP | with_reducible apply AccP.ok | with_reducible apply AccP.bad | with_reducible apply accP_of | with_reducible apply excP_true | with_reducible apply acc0_next | split

theorem execVend_memWf {s : State} (hs : MemWf s) : OutWf (execVend s) := by
  unfold execVend
  repeat' first | with_reducible assumption | with_reducible intro _ | with_reducible apply State.vecRun_memWf | with_reducible apply State.landSome_memWf | with_reducible apply State.onTask_memWf | with_reducible apply ite_accP | with_reducible apply AccP.ok | with_reducible apply AccP.wait | split

theorem execIllegalVectorWord_memWf {w : Word32} {s : State} (hs : MemWf s) : OutWf (execIllegalVectorWord w s) := by
  unfold execIllegalVectorWord
  repeat' first | with_reducible assumption | with_reducible intro _ | with_reducible apply State.vecRun_memWf | with_reducible apply AccP.bad

theorem State.acceptKernel_memWf {s : State} {c n : Nat} (hs : MemWf s) : MemWf (State.acceptKernel s c n) := by
  unfold State.acceptKernel
  repeat' first | with_reducible assumption | with_reducible apply State.stopTask_memWf | with_reducible apply State.onCore_memWf | with_reducible apply ite_wf | split

theorem execVk_memWf {core entry : Nat} {s : State} (hs : MemWf s) : OutWf (execVk core entry s) := by
  unfold execVk
  repeat' first | with_reducible assumption | with_reducible apply State.acceptKernel_memWf | with_reducible apply OutWf.next

theorem execVectorKernelStart_memWf {core : Nat} {s : State} (hs : MemWf s) : OutWf (execVectorKernelStart core s) := by
  unfold execVectorKernelStart
  repeat' first | with_reducible assumption | with_reducible apply State.acceptKernel_memWf | with_reducible apply State.onTask_memWf | with_reducible apply State.onCore_memWf | with_reducible apply ite_outWf | with_reducible apply OutWf.next | split | dsimp only

/-! ## Launch -/

theorem State.evict_memWf {s : State} {p : Nat} (hs : MemWf s) : MemWf (State.evict s p) := by
  unfold State.evict
  repeat' first | with_reducible assumption | with_reducible apply State.onPart_memWf | with_reducible apply State.askSave_memWf | with_reducible apply ite_wf

theorem State.seekVictims_memWf {s : State} {p : Nat} (hs : MemWf s) : MemWf (State.seekVictims s p) := by
  unfold State.seekVictims
  repeat' first | with_reducible assumption | with_reducible intro _ | with_reducible apply State.evict_memWf | with_reducible apply foldl_wf | with_reducible apply ite_wf | split | dsimp only

theorem State.packetFails_memWf {s : State} {q : Nat} {k : Packet} {x : Cause} (hs : MemWf s) : MemWf (State.packetFails s q k x) := by
  unfold State.packetFails
  repeat' first | with_reducible assumption | with_reducible apply State.meetRefusal_memWf | with_reducible apply State.abortPacket_memWf | with_reducible apply State.keepRecord_memWf

theorem State.launchStops_memWf {s : State} {q : Nat} {k : Packet} {x : Cause} (hs : MemWf s) : MemWf (State.launchStops s q k x) := by
  unfold State.launchStops
  repeat' first | with_reducible assumption | with_reducible apply State.packetData_memWf | with_reducible apply State.packetFails_memWf | with_reducible apply ite_wf

theorem State.partAsks_memWf {s : State} {q pid : Nat} {y : Part} (hs : MemWf s) : MemWf (State.partAsks s q pid y) := by
  unfold State.partAsks
  repeat' first | with_reducible assumption | with_reducible apply State.seekVictims_memWf | with_reducible apply State.spend_memWf | with_reducible apply State.onPacket_memWf | with_reducible apply State.setPart_memWf

theorem execLaunch_memWf {q pid : Nat} {s : State} (hs : MemWf s) : OutWf (execLaunch q pid s) := by
  unfold execLaunch
  repeat' first | with_reducible assumption | with_reducible intro _ | with_reducible apply State.beginPacket_memWf | with_reducible apply State.launchStops_memWf | with_reducible apply State.partAsks_memWf | split

theorem State.clearPool_memWf {s : State} {c : Nat} (hs : MemWf s) : MemWf (State.clearPool s c) := by
  unfold State.clearPool
  repeat' first | with_reducible assumption | with_reducible apply MemWf.h | with_reducible apply tabClear_wf | (refine MemWf.mk ?_; dsimp only)

theorem State.clearCore_memWf {s : State} {p : Part} {c : Nat} (hs : MemWf s) : MemWf (State.clearCore s p c) := by
  unfold State.clearCore
  repeat' first | with_reducible assumption | with_reducible apply State.clearPool_memWf | with_reducible apply State.zeroSlice_memWf | with_reducible apply ite_wf

theorem State.setUpCore_memWf {s : State} {pid : Nat} {p : Part} {l c : Nat} (hs : MemWf s) : MemWf (State.setUpCore s pid p l c) := by
  unfold State.setUpCore
  repeat' first | with_reducible assumption | with_reducible apply State.onCore_memWf | with_reducible apply State.clearCore_memWf

theorem State.loadProgs_memWf {s : State} {w : Who} {x2 : List Prog} (hs : MemWf s) : ExcWf (State.loadProgs s w x2) := by
  induction x2 generalizing s with
  | nil => exact .ok hs
  | cons q r ih =>
    unfold State.loadProgs
    split
    · exact .error
    · exact ih ⟨memSetList_wf hs.h _ _⟩

theorem State.partFails_memWf {s : State} {pid : Nat} {x : Cause} (hs : MemWf s) : MemWf (State.partFails s pid x) := by
  unfold State.partFails
  repeat' first | with_reducible assumption | with_reducible apply State.meetRefusal_memWf | with_reducible apply State.recordEnd_memWf

theorem execLaunchSetup_memWf {part : Nat} {place : Placement} {s : State} (hs : MemWf s) : OutWf (execLaunchSetup part place s) := by
  unfold execLaunchSetup
  repeat' first | with_reducible assumption | with_reducible intro _ | with_reducible apply State.seekVictims_memWf | with_reducible apply State.setUpCore_memWf | with_reducible apply State.loadProgs_memWf | with_reducible apply State.await_memWf | with_reducible apply State.partFails_memWf | with_reducible apply State.setPart_memWf | with_reducible apply State.spend_memWf | with_reducible apply foldl_wf | with_reducible apply ite_outWf | with_reducible apply OutWf.next | split | dsimp only | (with_reducible refine excWf_out ?_ (by assumption))

theorem State.startStrands_memWf {s : State} {p : Part} (hs : MemWf s) : MemWf (State.startStrands s p) := by
  unfold State.startStrands
  repeat' first | with_reducible assumption | with_reducible intro _ | with_reducible apply State.onCore_memWf | with_reducible apply foldl_wf

theorem execLaunchStart_memWf {part : Nat} {s : State} (hs : MemWf s) : OutWf (execLaunchStart part s) := by
  unfold execLaunchStart
  repeat' first | with_reducible assumption | with_reducible apply State.partFails_memWf | with_reducible apply State.askedSave_memWf | with_reducible apply State.setPart_memWf | with_reducible apply State.startStrands_memWf | with_reducible apply ite_outWf | with_reducible apply OutWf.next

theorem execLaunchComplete_memWf {part : Nat} {s : State} (hs : MemWf s) : OutWf (execLaunchComplete part s) := by
  unfold execLaunchComplete
  repeat' first | with_reducible assumption | with_reducible apply State.finishPacket_memWf | with_reducible apply State.onPart_memWf | with_reducible apply State.freePart_memWf | with_reducible apply ite_outWf | with_reducible apply OutWf.next

/-! ## Matrix -/

theorem State.loadLatch_memWf {s : State} {j : Job} {code lf xf xs : Nat} (hs : MemWf s) : AccWf (State.loadLatch s j code lf xf xs) := by
  unfold State.loadLatch
  repeat' first | with_reducible assumption | with_reducible intro _ | with_reducible apply State.inRegion_memWf | with_reducible apply State.engRead_memWf | with_reducible apply State.engReads_memWf | with_reducible apply State.accrue_memWf | with_reducible apply State.onCore_memWf | with_reducible apply AccP.ok | with_reducible apply AccP.bad | with_reducible apply acc2_next | with_reducible apply acc0_next | split | dsimp only

theorem Acc.keep_memWf {s : State} {a : Acc State} (hs : MemWf s) (ha : AccWf a) : AccWf (Acc.keep s a) := by
  unfold Acc.keep
  repeat' first | with_reducible assumption | with_reducible apply AccP.part | split

theorem wldUnit_memWf {j : Job} {x1 : Nat} {u : State} (hu : MemWf u) : AccWf (wldUnit j x1 u) := by
  unfold wldUnit
  repeat' first | with_reducible assumption | with_reducible apply State.loadLatch_memWf

theorem execWld_memWf {core entry : Nat} {s : State} (hs : MemWf s) : OutWf (execWld core entry s) := by
  unfold execWld
  repeat' first | with_reducible assumption | with_reducible intro _ | with_reducible apply State.runTask_memWf | with_reducible apply wldUnit_memWf

theorem State.readRow_memWf {s : State} {j : Job} {p n : Nat} (hs : MemWf s) : AccWf2 (State.readRow s j p n) := by
  unfold State.readRow
  repeat' first | with_reducible assumption | with_reducible intro _ | with_reducible apply State.inRegion_memWf | with_reducible apply State.engRead_memWf | with_reducible apply ite_accP | with_reducible apply AccP.bad | with_reducible apply acc0_next

theorem State.updateRow_memWf {s : State} {j : Job} {n : Nat} {fresh : Bool} {f : Nat → LaneAcc → LaneAcc} (hs : MemWf s) :
    AccWf (State.updateRow s j n fresh f) := by
  unfold State.updateRow
  repeat' first | with_reducible assumption | with_reducible intro _ | with_reducible apply State.inRegion_memWf | with_reducible apply State.engRead_memWf | with_reducible apply State.engPut_memWf | with_reducible apply State.accrue_memWf | with_reducible apply ite_accP | with_reducible apply AccP.ok | with_reducible apply accS_next | with_reducible apply acc2_next | with_reducible apply acc0_next

theorem forRows_memWf {f : Nat → State → Acc State} {x1 x2 : Nat} {x3 : State} (hx3 : MemWf x3)
  (hf : ∀ n u, MemWf u → AccWf (f n u)) : AccWf (forRows f x1 x2 x3) := by
  induction x1 generalizing x2 x3 with
  | zero => exact .ok hx3
  | succ n ih => exact accS_next (hf _ _ hx3) fun u hu => ih hu

theorem passUnit_memWf {start : Job → Nat → State → Acc State} {row : Job → Nat → Nat → State → Acc State} {j : Job} {k : Nat} {s : State} (hs : MemWf s)
  (h1 : ∀ j k s, MemWf s → AccWf (start j k s)) (h2 : ∀ j p r s, MemWf s → AccWf (row j p r s)) : AccWf (passUnit start row j k s) := by
  unfold passUnit
  repeat' first | with_reducible assumption | with_reducible apply ite_accP | with_reducible apply h1 | with_reducible apply h2

theorem State.countRows_memWf {s : State} {j : Job} {p : Nat} (hs : MemWf s) : MemWf (State.countRows s j p) := by
  unfold State.countRows
  repeat' first | with_reducible assumption | with_reducible apply State.accrue_memWf | with_reducible apply ite_wf

theorem State.productStart_memWf {zeroSkip : Bool} {j : Job} {p : Nat} {s : State} (hs : MemWf s) : AccWf (State.productStart zeroSkip j p s) := by
  unfold State.productStart
  repeat' first | with_reducible assumption | with_reducible apply State.countRows_memWf | with_reducible apply State.loadLatch_memWf | with_reducible apply ite_wf | with_reducible apply ite_accP | with_reducible apply AccP.ok | with_reducible apply AccP.bad

theorem State.productRow_memWf {zeroSkip : Bool} {j : Job} {p n : Nat} {s : State} (hs : MemWf s) : AccWf (State.productRow zeroSkip j p n s) := by
  unfold State.productRow
  repeat' first | with_reducible assumption | with_reducible intro _ | with_reducible apply State.readRow_memWf | with_reducible apply State.accrue_memWf | with_reducible apply State.updateRow_memWf | with_reducible apply acc2_next

theorem execMm_memWf {core entry : Nat} {s : State} (hs : MemWf s) : OutWf (execMm core entry s) := by
  unfold execMm
  repeat' first | with_reducible assumption | with_reducible intro _ | with_reducible apply State.runTask_memWf | with_reducible apply passUnit_memWf | with_reducible apply State.productStart_memWf | with_reducible apply State.productRow_memWf

theorem execMmz_memWf {core entry : Nat} {s : State} (hs : MemWf s) : OutWf (execMmz core entry s) := by
  unfold execMmz
  repeat' first | with_reducible assumption | with_reducible intro _ | with_reducible apply State.runTask_memWf | with_reducible apply passUnit_memWf | with_reducible apply State.productStart_memWf | with_reducible apply State.productRow_memWf

theorem State.spoilLatch_memWf {s : State} {j : Job} (hs : MemWf s) : MemWf (State.spoilLatch s j) := by
  unfold State.spoilLatch
  repeat' first | with_reducible assumption | with_reducible apply State.onCore_memWf

theorem State.scoreRow_memWf {s : State} {j : Job} {g : Nat} (hs : MemWf s) : AccWf2 (State.scoreRow s j g) := by
  unfold State.scoreRow
  repeat' first | with_reducible assumption | with_reducible intro _ | with_reducible apply State.readStream_memWf | with_reducible apply AccP.ok | with_reducible apply acc2_next

theorem rankUnit_memWf {row : Job → Nat → State → Acc State} {j : Job} {k : Nat} {s : State} (hs : MemWf s) (hr : ∀ j k s, MemWf s → AccWf (row j k s)) :
    AccWf (rankUnit row j k s) := by
  unfold rankUnit
  repeat' first | with_reducible assumption | with_reducible apply State.spoilLatch_memWf | with_reducible apply ite_accP | with_reducible apply AccP.ok | with_reducible apply hr

theorem mmcRow_memWf {j : Job} {g : Nat} {s : State} (hs : MemWf s) : AccWf (mmcRow j g s) := by
  unfold mmcRow
  repeat' first | with_reducible assumption | with_reducible intro _ | with_reducible apply State.scoreRow_memWf | with_reducible apply State.writeStream_memWf | with_reducible apply acc2_next

theorem execMmc_memWf {core entry : Nat} {s : State} (hs : MemWf s) : OutWf (execMmc core entry s) := by
  unfold execMmc
  repeat' first | with_reducible assumption | with_reducible intro _ | with_reducible apply State.runTask_memWf | with_reducible apply rankUnit_memWf | with_reducible apply mmcRow_memWf

theorem topkRow_memWf {j : Job} {g : Nat} {s : State} (hs : MemWf s) : AccWf (topkRow j g s) := by
  unfold topkRow
  repeat' first | with_reducible assumption | with_reducible intro _ | with_reducible apply State.scoreRow_memWf | with_reducible apply State.writeStream_memWf | with_reducible apply State.accrue_memWf | with_reducible apply AccP.ok | with_reducible apply accS_next | with_reducible apply acc2_next

theorem execTopk_memWf {core entry : Nat} {s : State} (hs : MemWf s) : OutWf (execTopk core entry s) := by
  unfold execTopk
  repeat' first | with_reducible assumption | with_reducible intro _ | with_reducible apply State.runTask_memWf | with_reducible apply rankUnit_memWf | with_reducible apply topkRow_memWf

theorem generatedStart_memWf {j : Job} {p : Nat} {s : State} (hs : MemWf s) : AccWf (generatedStart j p s) := by
  unfold generatedStart
  repeat' first | with_reducible assumption | with_reducible apply State.spoilLatch_memWf | with_reducible apply State.countRows_memWf | with_reducible apply AccP.ok

theorem State.indexRow_memWf {s : State} {j : Job} (hs : MemWf s) : AccWf2 (State.indexRow s j) := by
  unfold State.indexRow
  repeat' first | with_reducible assumption | with_reducible intro _ | with_reducible apply State.readStream_memWf | with_reducible apply ite_accP | with_reducible apply AccP.ok | with_reducible apply AccP.bad | with_reducible apply acc2_next

theorem permRow_memWf {j : Job} {p n : Nat} {s : State} (hs : MemWf s) : AccWf (permRow j p n s) := by
  unfold permRow
  repeat' first | with_reducible assumption | with_reducible intro _ | with_reducible apply State.indexRow_memWf | with_reducible apply State.readRow_memWf | with_reducible apply State.updateRow_memWf | with_reducible apply State.accrue_memWf | with_reducible apply acc2_next

theorem execPerm_memWf {core entry : Nat} {s : State} (hs : MemWf s) : OutWf (execPerm core entry s) := by
  unfold execPerm
  repeat' first | with_reducible assumption | with_reducible intro _ | with_reducible apply State.runTask_memWf | with_reducible apply passUnit_memWf | with_reducible apply generatedStart_memWf | with_reducible apply permRow_memWf

theorem rsumRow_memWf {j : Job} {p n : Nat} {s : State} (hs : MemWf s) : AccWf (rsumRow j p n s) := by
  unfold rsumRow
  repeat' first | with_reducible assumption | with_reducible intro _ | with_reducible apply State.readRow_memWf | with_reducible apply State.updateRow_memWf | with_reducible apply State.accrue_memWf | with_reducible apply acc2_next

theorem execRsum_memWf {core entry : Nat} {s : State} (hs : MemWf s) : OutWf (execRsum core entry s) := by
  unfold execRsum
  repeat' first | with_reducible assumption | with_reducible intro _ | with_reducible apply State.runTask_memWf | with_reducible apply passUnit_memWf | with_reducible apply generatedStart_memWf | with_reducible apply rsumRow_memWf

theorem trnUnit_memWf {j : Job} {x1 : Nat} {u : State} (hu : MemWf u) : AccWf (trnUnit j x1 u) := by
  unfold trnUnit
  repeat' first | with_reducible assumption | with_reducible intro _ | with_reducible apply State.engReads_memWf | with_reducible apply State.spoilLatch_memWf | with_reducible apply forRows_memWf | with_reducible apply Acc.keep_memWf | with_reducible apply State.inRegion_memWf | with_reducible apply State.engPut_memWf | with_reducible apply State.accrue_memWf | with_reducible apply AccP.bad | with_reducible apply acc2_next | with_reducible apply acc0_next | split | dsimp only

theorem execTrn_memWf {core entry : Nat} {s : State} (hs : MemWf s) : OutWf (execTrn core entry s) := by
  unfold execTrn
  repeat' first | with_reducible assumption | with_reducible intro _ | with_reducible apply State.runTask_memWf | with_reducible apply trnUnit_memWf

/-! ## Save -/

theorem execYieldDeadline_memWf {part : Nat} {s : State} (hs : MemWf s) : OutWf (execYieldDeadline part s) := by
  unfold execYieldDeadline
  repeat' first | with_reducible assumption | with_reducible apply State.askSave_memWf | with_reducible apply ite_outWf | with_reducible apply OutWf.next

theorem State.pushPosted_memWf {s : State} {p : Nat} (hs : MemWf s) : MemWf (State.pushPosted s p) := by
  unfold State.pushPosted
  repeat' first | with_reducible assumption | with_reducible intro _ | with_reducible apply State.pushWrites_memWf | with_reducible apply foldl_wf

theorem State.restStrand_memWf {s : State} {c k : Nat} (hs : MemWf s) : MemWf (State.restStrand s c k) := by
  unfold State.restStrand
  repeat' first | with_reducible assumption | with_reducible apply State.setStrand_memWf | with_reducible apply State.takeTrapAt_memWf | with_reducible apply ite_wf | split | dsimp only

theorem State.dropEnded_memWf {s : State} {p : Nat} (hs : MemWf s) : MemWf (State.dropEnded s p) := by
  unfold State.dropEnded
  repeat' first | with_reducible assumption | with_reducible intro _ | with_reducible apply State.onCore_memWf | with_reducible apply MemWf.h | with_reducible apply foldl_wf | with_reducible apply ite_wf | dsimp only | (refine MemWf.mk ?_; dsimp only)

theorem State.restPart_memWf {s : State} {p : Nat} (hs : MemWf s) : MemWf (State.restPart s p) := by
  unfold State.restPart
  repeat' first | with_reducible assumption | with_reducible intro _ | with_reducible apply State.dropEnded_memWf | with_reducible apply State.onCore_memWf | with_reducible apply State.restStrand_memWf | with_reducible apply foldl_wf

theorem State.withdraw_memWf {s : State} {p : Nat} (hs : MemWf s) : MemWf (State.withdraw s p) := by
  unfold State.withdraw
  repeat' first | with_reducible assumption | with_reducible apply MemWf.h | dsimp only | (refine MemWf.mk ?_; dsimp only)

theorem State.spoil_memWf {s : State} {w : Who} {a n : Nat} (hs : MemWf s) : MemWf (State.spoil s w a n) := by
  unfold State.spoil
  repeat' first | with_reducible assumption | with_reducible apply State.writeG_memWf | split | (with_reducible refine excWf_out ?_ (by assumption))

theorem State.storeImage_memWf {s : State} {p : Nat} {w : Who} {a : Nat} (hs : MemWf s) : MemWf (State.storeImage s p w a) := by
  unfold State.storeImage
  repeat' first | with_reducible assumption | with_reducible apply State.onPart_memWf | with_reducible apply State.freePart_memWf | with_reducible apply State.withdraw_memWf | with_reducible apply State.writeG_memWf | split | dsimp only | (with_reducible refine excWf_out ?_ (by assumption))

theorem State.imageFails_memWf {s : State} {p : Nat} {w : Who} {a at_ : Nat} {c : Cause} (hs : MemWf s) : MemWf (State.imageFails s p w a at_ c) := by
  unfold State.imageFails
  repeat' first | with_reducible assumption | with_reducible apply State.await_memWf | with_reducible apply State.saveFail_memWf | with_reducible apply State.spoil_memWf | with_reducible apply State.meetRefusal_memWf | with_reducible apply ite_wf

theorem State.writeImage_memWf {s : State} {p : Nat} (hs : MemWf s) : MemWf (State.writeImage s p) := by
  unfold State.writeImage
  repeat' first | with_reducible assumption | with_reducible apply State.saveFail_memWf | with_reducible apply State.imageFails_memWf | with_reducible apply State.spoil_memWf | with_reducible apply State.storeImage_memWf | with_reducible apply ite_wf | split

theorem execSaveStopped_memWf {part : Nat} {s : State} (hs : MemWf s) : OutWf (execSaveStopped part s) := by
  unfold execSaveStopped
  repeat' first | with_reducible assumption | with_reducible apply State.pushPosted_memWf | with_reducible apply State.restPart_memWf | with_reducible apply State.writeImage_memWf | with_reducible apply ite_wf | with_reducible apply ite_outWf | with_reducible apply OutWf.next

theorem execPreemptionComplete_memWf {part : Nat} {s : State} (hs : MemWf s) : OutWf (execPreemptionComplete part s) := by
  unfold execPreemptionComplete
  repeat' first | with_reducible assumption | with_reducible apply State.onPart_memWf | with_reducible apply State.finishPacket_memWf | with_reducible apply State.seekVictims_memWf | with_reducible apply ite_wf | with_reducible apply ite_outWf | with_reducible apply OutWf.next | split

/-! ## Resume -/

theorem State.freeSlotOf_memWf {s : State} {q a : Nat} (hs : MemWf s) : MemWf (State.freeSlotOf s q a) := by
  unfold State.freeSlotOf
  repeat' first | with_reducible assumption | with_reducible apply MemWf.h | dsimp only | (refine MemWf.mk ?_; dsimp only)

theorem execResume_memWf {q pid : Nat} {s : State} (hs : MemWf s) : OutWf (execResume q pid s) := by
  unfold execResume
  repeat' first | with_reducible assumption | with_reducible intro _ | with_reducible apply State.beginPacket_memWf | with_reducible apply State.freeSlotOf_memWf | with_reducible apply State.launchStops_memWf | with_reducible apply State.partAsks_memWf | split | dsimp only

theorem State.restoreMem_memWf {s : State} {c : Nat} {x : Core} {r : ByteList} (hs : MemWf s) : MemWf (State.restoreMem s c x r) := by
  unfold State.restoreMem
  repeat' first | with_reducible assumption | with_reducible intro _ | with_reducible apply MemWf.h | with_reducible apply foldl_wf | with_reducible apply memSetList_wf | (refine MemWf.mk ?_; dsimp only)

theorem State.rearrive_memWf {s : State} {pid c k : Nat} (hs : MemWf s) : MemWf (State.rearrive s pid c k) := by
  unfold State.rearrive
  repeat' first | with_reducible assumption | with_reducible intro _ | with_reducible apply State.setPart_memWf | with_reducible apply State.tellPeers_memWf | with_reducible apply foldl_wf | with_reducible apply ite_wf | split

theorem State.reaskPub_memWf {s : State} {c k : Nat} {q : ByteList} (hs : MemWf s) : MemWf (State.reaskPub s c k q) := by
  unfold State.reaskPub
  repeat' first | with_reducible assumption | with_reducible apply State.bumpId_memWf | with_reducible apply State.onStrand_memWf | with_reducible apply State.setStrand_memWf | with_reducible apply State.onCore_memWf | with_reducible apply State.askRegions_memWf | with_reducible apply ite_wf | split | dsimp only

theorem State.restoreShadows_memWf {s : State} {c : Nat} (hs : MemWf s) : MemWf (State.restoreShadows s c) := by
  unfold State.restoreShadows
  repeat' first | with_reducible assumption | with_reducible apply State.onCore_memWf

theorem State.restoreCtx_memWf {s : State} {pid : Nat} {r : ByteList} (hs : MemWf s) : MemWf (State.restoreCtx s pid r) := by
  unfold State.restoreCtx
  repeat' first | with_reducible assumption | with_reducible apply State.setCtx_memWf | split | dsimp only

theorem State.restoreCore_memWf {s : State} {pid : Nat} {p : Part} {lay : List (NatList × Nat × Nat)} {l c vc : Nat} {r : ByteList} (hs : MemWf s) :
    MemWf (State.restoreCore s pid p lay l c vc r) := by
  unfold State.restoreCore
  repeat' first | with_reducible assumption | with_reducible apply State.onCore_memWf | with_reducible apply State.zeroSlice_memWf | with_reducible apply State.clearPool_memWf | with_reducible apply State.restoreMem_memWf | with_reducible apply MemWf.h | dsimp only | (refine MemWf.mk ?_; dsimp only)

theorem State.restoreUnits_memWf {s : State} {pid : Nat} {b : ByteList} (hs : MemWf s) : MemWf (State.restoreUnits s pid b) := by
  unfold State.restoreUnits
  repeat' first | with_reducible assumption | with_reducible intro _ | with_reducible apply State.restoreCore_memWf | with_reducible apply State.reaskPub_memWf | with_reducible apply State.rearrive_memWf | with_reducible apply State.restoreShadows_memWf | with_reducible apply State.restoreCtx_memWf | with_reducible apply foldl_wf

theorem State.restoreFails_memWf {s : State} {pid : Nat} {p : Part} {cores : NatList} {a : Word64} (hs : MemWf s) :
    MemWf (State.restoreFails s pid p cores a) := by
  unfold State.restoreFails
  repeat' first | with_reducible assumption | with_reducible intro _ | with_reducible apply State.setUpCore_memWf | with_reducible apply State.partFails_memWf | with_reducible apply State.setPart_memWf | with_reducible apply foldl_wf

theorem execResumeRestore_memWf {part : Nat} {place : Placement} {s : State} (hs : MemWf s) : OutWf (execResumeRestore part place s) := by
  unfold execResumeRestore
  repeat' first | with_reducible assumption | with_reducible apply State.seekVictims_memWf | with_reducible apply State.loadProgs_memWf | with_reducible apply State.await_memWf | with_reducible apply State.restoreFails_memWf | with_reducible apply State.spend_memWf | with_reducible apply State.restoreUnits_memWf | with_reducible apply State.setPart_memWf | with_reducible apply ite_wf | with_reducible apply ite_outWf | with_reducible apply OutWf.next | split | dsimp only | (with_reducible refine excWf_out ?_ (by assumption))

theorem execHardwareResume_memWf {s : State} (hs : MemWf s) : OutWf (execHardwareResume s) := by
  unfold execHardwareResume
  repeat' first | with_reducible assumption | with_reducible apply State.freeSlotOf_memWf | with_reducible apply State.await_memWf | with_reducible apply State.partFails_memWf | with_reducible apply State.spend_memWf | with_reducible apply State.setPart_memWf | with_reducible apply ite_wf | with_reducible apply OutWf.next | split | dsimp only

/-! ## VectorMemory -/

theorem accMap_memWf {α β : Type} {f : α → Acc β} {l : List α} (hf : ∀ a, AccWf0 (f a)) : AccWf0 (accMap f l) := by
  induction l with
  | nil => exact .ok True.intro
  | cons a r ih => exact acc0_next (hf a) fun b => acc0_next ih fun _ => .ok True.intro

theorem State.laneSlots_memWf {s : State} {j : Job} {g write : Bool} {w : Nat} {aligned addrs : List Nat} : AccWf0 (State.laneSlots s j g write w aligned addrs) := by
  unfold State.laneSlots
  repeat' first | with_reducible intro _ | with_reducible apply accMap_memWf | with_reducible apply State.inRegion_memWf | with_reducible apply AccP.bad | split | dsimp only

theorem State.laneAccess_memWf {s : State} {c : Nat} {k : Kernel} {pair : Nat} {g : Bool} {sz : Nat} {rb : ByteList} {m w : Nat} {write : Bool} : AccWf0 (State.laneAccess s c k pair g sz rb m w write) := by
  unfold State.laneAccess
  repeat' first | with_reducible intro _ | with_reducible exact True.intro | with_reducible apply State.laneSlots_memWf | with_reducible apply ite_accP | with_reducible apply AccP.ok | with_reducible apply AccP.bad | with_reducible apply acc0_next

theorem State.readRuns_memWf {j : Job} {space w ea : Nat} {x4 : List (Nat × Nat × Nat)} {x5 : State} (hx5 : MemWf x5) :
    AccWf2 (State.readRuns j space w ea x4 x5) := by
  induction x4 generalizing x5 with
  | nil => exact .ok hx5
  | cons a r ih =>
    unfold State.readRuns
    exact acc2_next (State.engRead_memWf hx5) fun b u hu => acc2_next (ih hu) fun c v hv => .ok hv

theorem execVld_memWf {w : Bool} {d pair : Nat} {g : Bool} {sz b m : Nat} {t : VTy} {s : State} (hs : MemWf s) : OutWf (execVld w d pair g sz b m t s) := by
  unfold execVld
  repeat' first | with_reducible assumption | with_reducible intro _ | with_reducible apply State.vecRun_memWf | with_reducible apply State.readSel_memWf | with_reducible apply State.laneAccess_memWf | with_reducible apply State.readRuns_memWf | with_reducible apply AccP.ok | with_reducible apply acc2_next | with_reducible apply acc0_next

theorem State.writeRuns_memWf {j : Job} {space w ea : Nat} {b : ByteList} {x5 : List (Nat × Nat × Nat)} {x6 : State} (hx6 : MemWf x6) :
    AccWf (State.writeRuns j space w ea b x5 x6) := by
  induction x5 generalizing x6 with
  | nil => exact .ok hx6
  | cons a r ih =>
    unfold State.writeRuns
    exact accS_next (State.engWrite_memWf hx6) fun u hu => ih hu

theorem execVst_memWf {d pair : Nat} {g : Bool} {sz b m : Nat} {t : VTy} {s : State} (hs : MemWf s) : OutWf (execVst d pair g sz b m t s) := by
  unfold execVst
  repeat' first | with_reducible assumption | with_reducible intro _ | with_reducible apply State.vecRun_memWf | with_reducible apply State.readSel_memWf | with_reducible apply State.laneAccess_memWf | with_reducible apply State.readVreg_memWf | with_reducible apply State.landSome_memWf | with_reducible apply State.writeRuns_memWf | with_reducible apply AccP.ok | with_reducible apply accS_next | with_reducible apply acc0_next

theorem execVgth_memWf {w : Bool} {d pair : Nat} {g : Bool} {b m : Nat} {t : VTy} {s : State} (hs : MemWf s) : OutWf (execVgth w d pair g b m t s) := by
  unfold execVgth
  repeat' first | with_reducible assumption | with_reducible intro _ | with_reducible apply State.vecRun_memWf | with_reducible apply State.readSel_memWf | with_reducible apply State.laneSlots_memWf | with_reducible apply State.engReads_memWf | with_reducible apply AccP.ok | with_reducible apply acc2_next | with_reducible apply acc0_next

/-! ## Waits -/

theorem execActivityTimeout_memWf {core : Nat} {s : State} (hs : MemWf s) : OutWf (execActivityTimeout core s) := by
  unfold execActivityTimeout
  repeat' first | with_reducible assumption | with_reducible apply State.onCore_memWf | with_reducible apply ite_outWf | with_reducible apply OutWf.next

theorem State.sendProbe_memWf {s : State} {p round : Nat} (hs : MemWf s) : MemWf (State.sendProbe s p round) := by
  unfold State.sendProbe
  repeat' first | with_reducible assumption | with_reducible intro _ | with_reducible apply State.onPart_memWf | with_reducible apply State.onCore_memWf | with_reducible apply foldl_wf

theorem State.restartProbe_memWf {s : State} {p : Nat} (hs : MemWf s) : MemWf (State.restartProbe s p) := by
  unfold State.restartProbe
  repeat' first | with_reducible assumption | with_reducible apply State.onPart_memWf | with_reducible apply State.onCore_memWf | split | dsimp only

theorem execWaitProbeOriginate_memWf {part : Nat} {s : State} (hs : MemWf s) : OutWf (execWaitProbeOriginate part s) := by
  unfold execWaitProbeOriginate
  repeat' first | with_reducible assumption | with_reducible apply State.sendProbe_memWf | with_reducible apply ite_outWf | with_reducible apply OutWf.next | split

theorem State.waitCycle_memWf {s : State} {p : Nat} (hs : MemWf s) : MemWf (State.waitCycle s p) := by
  unfold State.waitCycle
  repeat' first | with_reducible assumption | with_reducible apply State.stopPart_memWf | with_reducible apply State.restartProbe_memWf

theorem execWaitProbeReturn_memWf {part : Nat} {s : State} (hs : MemWf s) : OutWf (execWaitProbeReturn part s) := by
  unfold execWaitProbeReturn
  repeat' first | with_reducible assumption | with_reducible apply State.onPart_memWf | with_reducible apply State.restartProbe_memWf | with_reducible apply State.sendProbe_memWf | with_reducible apply State.waitCycle_memWf | with_reducible apply ite_outWf | with_reducible apply OutWf.next | split

/-! ## Step -/

theorem State.afterMove_memWf {s : State} {ends : Bool} (hs : MemWf s) : MemWf (State.afterMove s ends) := by
  unfold State.afterMove
  repeat' first | with_reducible assumption | with_reducible apply State.endRetirements_memWf | with_reducible apply State.endStopped_memWf | with_reducible apply State.closeCycle_memWf | with_reducible apply MemWf.h | with_reducible apply ite_wf | (refine MemWf.mk ?_; dsimp only)

theorem State.beforeMove_memWf {s : State} (hs : MemWf s) : MemWf (State.beforeMove s) := by
  unfold State.beforeMove
  repeat' first | with_reducible assumption | with_reducible apply State.stampReady_memWf | with_reducible apply State.sameCycle_memWf | with_reducible apply State.passTime_memWf | with_reducible apply ite_wf

end Sys2Proof.Machine
end

