-- ==== Sys2Proof/Laws/State.lean ====
section
/-! SUPPORT. What each named update leaves of each field of State, and reading a place after writing it. -/
namespace Sys2Proof.Machine

/-! ## setCore -/

section
variable (s : State) (c : Nat) (x : Core)
@[simp] theorem State.setCore_steps : (s.setCore c x).steps = s.steps := rfl
@[simp] theorem State.setCore_agenda : (s.setCore c x).agenda = s.agenda := rfl
@[simp] theorem State.setCore_shared : (s.setCore c x).shared = s.shared := rfl
@[simp] theorem State.setCore_pace : (s.setCore c x).pace = s.pace := rfl
@[simp] theorem State.setCore_turn : (s.setCore c x).turn = s.turn := rfl
@[simp] theorem State.setCore_port : (s.setCore c x).port = s.port := rfl
@[simp] theorem State.setCore_nextId : (s.setCore c x).nextId = s.nextId := rfl
@[simp] theorem State.setCore_cycle : (s.setCore c x).cycle = s.cycle := rfl
@[simp] theorem State.setCore_tick : (s.setCore c x).tick = s.tick := rfl
@[simp] theorem State.setCore_tickLag : (s.setCore c x).tickLag = s.tickLag := rfl
@[simp] theorem State.setCore_mem : (s.setCore c x).mem = s.mem := rfl
@[simp] theorem State.setCore_lines : (s.setCore c x).lines = s.lines := rfl
@[simp] theorem State.setCore_ctrs : (s.setCore c x).ctrs = s.ctrs := rfl
@[simp] theorem State.setCore_shadowCtr : (s.setCore c x).shadowCtr = s.shadowCtr := rfl
@[simp] theorem State.setCore_nodeCtrs : (s.setCore c x).nodeCtrs = s.nodeCtrs := rfl
@[simp] theorem State.setCore_cacheBad : (s.setCore c x).cacheBad = s.cacheBad := rfl
@[simp] theorem State.setCore_poisoned : (s.setCore c x).poisoned = s.poisoned := rfl
@[simp] theorem State.setCore_cores : (s.setCore c x).cores = tabPut s.cores c x := rfl
@[simp] theorem State.setCore_ctxs : (s.setCore c x).ctxs = s.ctxs := rfl
@[simp] theorem State.setCore_parts : (s.setCore c x).parts = s.parts := rfl
@[simp] theorem State.setCore_dies : (s.setCore c x).dies = s.dies := rfl
@[simp] theorem State.setCore_queues : (s.setCore c x).queues = s.queues := rfl
@[simp] theorem State.setCore_lastServed : (s.setCore c x).lastServed = s.lastServed := rfl
@[simp] theorem State.setCore_lastCtx : (s.setCore c x).lastCtx = s.lastCtx := rfl
@[simp] theorem State.setCore_vfs : (s.setCore c x).vfs = s.vfs := rfl
@[simp] theorem State.setCore_numVfs : (s.setCore c x).numVfs = s.numVfs := rfl
@[simp] theorem State.setCore_vfEnable : (s.setCore c x).vfEnable = s.vfEnable := rfl
@[simp] theorem State.setCore_vfBar0 : (s.setCore c x).vfBar0 = s.vfBar0 := rfl
@[simp] theorem State.setCore_bar2Base : (s.setCore c x).bar2Base = s.bar2Base := rfl
@[simp] theorem State.setCore_ports : (s.setCore c x).ports = s.ports := rfl
@[simp] theorem State.setCore_modid : (s.setCore c x).modid = s.modid := rfl
@[simp] theorem State.setCore_tsync : (s.setCore c x).tsync = s.tsync := rfl
@[simp] theorem State.setCore_rtmo : (s.setCore c x).rtmo = s.rtmo := rfl
@[simp] theorem State.setCore_root : (s.setCore c x).root = s.root := rfl
@[simp] theorem State.setCore_rootSeen : (s.setCore c x).rootSeen = s.rootSeen := rfl
@[simp] theorem State.setCore_rootFix : (s.setCore c x).rootFix = s.rootFix := rfl
@[simp] theorem State.setCore_synced : (s.setCore c x).synced = s.synced := rfl
@[simp] theorem State.setCore_crewTlb : (s.setCore c x).crewTlb = s.crewTlb := rfl
@[simp] theorem State.setCore_mseTlb : (s.setCore c x).mseTlb = s.mseTlb := rfl
@[simp] theorem State.setCore_modesel : (s.setCore c x).modesel = s.modesel := rfl
@[simp] theorem State.setCore_waitpoll : (s.setCore c x).waitpoll = s.waitpoll := rfl
@[simp] theorem State.setCore_tlbBusy : (s.setCore c x).tlbBusy = s.tlbBusy := rfl
@[simp] theorem State.setCore_tlbQueue : (s.setCore c x).tlbQueue = s.tlbQueue := rfl
@[simp] theorem State.setCore_tlbKind : (s.setCore c x).tlbKind = s.tlbKind := rfl
@[simp] theorem State.setCore_tlbinvr : (s.setCore c x).tlbinvr = s.tlbinvr := rfl
@[simp] theorem State.setCore_tlbinva : (s.setCore c x).tlbinva = s.tlbinva := rfl
@[simp] theorem State.setCore_preemptReg : (s.setCore c x).preemptReg = s.preemptReg := rfl
@[simp] theorem State.setCore_fwimg : (s.setCore c x).fwimg = s.fwimg := rfl
@[simp] theorem State.setCore_fwctl : (s.setCore c x).fwctl = s.fwctl := rfl
@[simp] theorem State.setCore_errbase : (s.setCore c x).errbase = s.errbase := rfl
@[simp] theorem State.setCore_errwr : (s.setCore c x).errwr = s.errwr := rfl
@[simp] theorem State.setCore_errrd : (s.setCore c x).errrd = s.errrd := rfl
@[simp] theorem State.setCore_errctl : (s.setCore c x).errctl = s.errctl := rfl
@[simp] theorem State.setCore_errlost : (s.setCore c x).errlost = s.errlost := rfl
@[simp] theorem State.setCore_errseq : (s.setCore c x).errseq = s.errseq := rfl
@[simp] theorem State.setCore_unitres : (s.setCore c x).unitres = s.unitres := rfl
@[simp] theorem State.setCore_unitActs : (s.setCore c x).unitActs = s.unitActs := rfl
@[simp] theorem State.setCore_chret : (s.setCore c x).chret = s.chret := rfl
@[simp] theorem State.setCore_chleft : (s.setCore c x).chleft = s.chleft := rfl
@[simp] theorem State.setCore_chbusy : (s.setCore c x).chbusy = s.chbusy := rfl
@[simp] theorem State.setCore_chmoving : (s.setCore c x).chmoving = s.chmoving := rfl
@[simp] theorem State.setCore_chfailed : (s.setCore c x).chfailed = s.chfailed := rfl
@[simp] theorem State.setCore_waitcfg : (s.setCore c x).waitcfg = s.waitcfg := rfl
@[simp] theorem State.setCore_fw : (s.setCore c x).fw = s.fw := rfl
@[simp] theorem State.setCore_keel : (s.setCore c x).keel = s.keel := rfl
@[simp] theorem State.setCore_xlat : (s.setCore c x).xlat = s.xlat := rfl
@[simp] theorem State.setCore_requests : (s.setCore c x).requests = s.requests := rfl
@[simp] theorem State.setCore_posted : (s.setCore c x).posted = s.posted := rfl
@[simp] theorem State.setCore_replies : (s.setCore c x).replies = s.replies := rfl
@[simp] theorem State.setCore_arrivals : (s.setCore c x).arrivals = s.arrivals := rfl
@[simp] theorem State.setCore_outside : (s.setCore c x).outside = s.outside := rfl
@[simp] theorem State.setCore_unsent : (s.setCore c x).unsent = s.unsent := rfl
@[simp] theorem State.setCore_traps : (s.setCore c x).traps = s.traps := rfl
@[simp] theorem State.setCore_sysreqs : (s.setCore c x).sysreqs = s.sysreqs := rfl
@[simp] theorem State.setCore_throttled : (s.setCore c x).throttled = s.throttled := rfl
@[simp] theorem State.setCore_frozenMse : (s.setCore c x).frozenMse = s.frozenMse := rfl
@[simp] theorem State.setCore_ide : (s.setCore c x).ide = s.ide := rfl
end

/-! ## setStrand -/

section
variable (s : State) (c k : Nat) (t : Strand)
@[simp] theorem State.setStrand_steps : (s.setStrand c k t).steps = s.steps := rfl
@[simp] theorem State.setStrand_agenda : (s.setStrand c k t).agenda = s.agenda := rfl
@[simp] theorem State.setStrand_shared : (s.setStrand c k t).shared = s.shared := rfl
@[simp] theorem State.setStrand_pace : (s.setStrand c k t).pace = s.pace := rfl
@[simp] theorem State.setStrand_turn : (s.setStrand c k t).turn = s.turn := rfl
@[simp] theorem State.setStrand_port : (s.setStrand c k t).port = s.port := rfl
@[simp] theorem State.setStrand_nextId : (s.setStrand c k t).nextId = s.nextId := rfl
@[simp] theorem State.setStrand_cycle : (s.setStrand c k t).cycle = s.cycle := rfl
@[simp] theorem State.setStrand_tick : (s.setStrand c k t).tick = s.tick := rfl
@[simp] theorem State.setStrand_tickLag : (s.setStrand c k t).tickLag = s.tickLag := rfl
@[simp] theorem State.setStrand_mem : (s.setStrand c k t).mem = s.mem := rfl
@[simp] theorem State.setStrand_lines : (s.setStrand c k t).lines = s.lines := rfl
@[simp] theorem State.setStrand_ctrs : (s.setStrand c k t).ctrs = s.ctrs := rfl
@[simp] theorem State.setStrand_shadowCtr : (s.setStrand c k t).shadowCtr = s.shadowCtr := rfl
@[simp] theorem State.setStrand_nodeCtrs : (s.setStrand c k t).nodeCtrs = s.nodeCtrs := rfl
@[simp] theorem State.setStrand_cacheBad : (s.setStrand c k t).cacheBad = s.cacheBad := rfl
@[simp] theorem State.setStrand_poisoned : (s.setStrand c k t).poisoned = s.poisoned := rfl
@[simp] theorem State.setStrand_cores : (s.setStrand c k t).cores = tabPut s.cores c ((s.core c).setStrand k t) := rfl
@[simp] theorem State.setStrand_ctxs : (s.setStrand c k t).ctxs = s.ctxs := rfl
@[simp] theorem State.setStrand_parts : (s.setStrand c k t).parts = s.parts := rfl
@[simp] theorem State.setStrand_dies : (s.setStrand c k t).dies = s.dies := rfl
@[simp] theorem State.setStrand_queues : (s.setStrand c k t).queues = s.queues := rfl
@[simp] theorem State.setStrand_lastServed : (s.setStrand c k t).lastServed = s.lastServed := rfl
@[simp] theorem State.setStrand_lastCtx : (s.setStrand c k t).lastCtx = s.lastCtx := rfl
@[simp] theorem State.setStrand_vfs : (s.setStrand c k t).vfs = s.vfs := rfl
@[simp] theorem State.setStrand_numVfs : (s.setStrand c k t).numVfs = s.numVfs := rfl
@[simp] theorem State.setStrand_vfEnable : (s.setStrand c k t).vfEnable = s.vfEnable := rfl
@[simp] theorem State.setStrand_vfBar0 : (s.setStrand c k t).vfBar0 = s.vfBar0 := rfl
@[simp] theorem State.setStrand_bar2Base : (s.setStrand c k t).bar2Base = s.bar2Base := rfl
@[simp] theorem State.setStrand_ports : (s.setStrand c k t).ports = s.ports := rfl
@[simp] theorem State.setStrand_modid : (s.setStrand c k t).modid = s.modid := rfl
@[simp] theorem State.setStrand_tsync : (s.setStrand c k t).tsync = s.tsync := rfl
@[simp] theorem State.setStrand_rtmo : (s.setStrand c k t).rtmo = s.rtmo := rfl
@[simp] theorem State.setStrand_root : (s.setStrand c k t).root = s.root := rfl
@[simp] theorem State.setStrand_rootSeen : (s.setStrand c k t).rootSeen = s.rootSeen := rfl
@[simp] theorem State.setStrand_rootFix : (s.setStrand c k t).rootFix = s.rootFix := rfl
@[simp] theorem State.setStrand_synced : (s.setStrand c k t).synced = s.synced := rfl
@[simp] theorem State.setStrand_crewTlb : (s.setStrand c k t).crewTlb = s.crewTlb := rfl
@[simp] theorem State.setStrand_mseTlb : (s.setStrand c k t).mseTlb = s.mseTlb := rfl
@[simp] theorem State.setStrand_modesel : (s.setStrand c k t).modesel = s.modesel := rfl
@[simp] theorem State.setStrand_waitpoll : (s.setStrand c k t).waitpoll = s.waitpoll := rfl
@[simp] theorem State.setStrand_tlbBusy : (s.setStrand c k t).tlbBusy = s.tlbBusy := rfl
@[simp] theorem State.setStrand_tlbQueue : (s.setStrand c k t).tlbQueue = s.tlbQueue := rfl
@[simp] theorem State.setStrand_tlbKind : (s.setStrand c k t).tlbKind = s.tlbKind := rfl
@[simp] theorem State.setStrand_tlbinvr : (s.setStrand c k t).tlbinvr = s.tlbinvr := rfl
@[simp] theorem State.setStrand_tlbinva : (s.setStrand c k t).tlbinva = s.tlbinva := rfl
@[simp] theorem State.setStrand_preemptReg : (s.setStrand c k t).preemptReg = s.preemptReg := rfl
@[simp] theorem State.setStrand_fwimg : (s.setStrand c k t).fwimg = s.fwimg := rfl
@[simp] theorem State.setStrand_fwctl : (s.setStrand c k t).fwctl = s.fwctl := rfl
@[simp] theorem State.setStrand_errbase : (s.setStrand c k t).errbase = s.errbase := rfl
@[simp] theorem State.setStrand_errwr : (s.setStrand c k t).errwr = s.errwr := rfl
@[simp] theorem State.setStrand_errrd : (s.setStrand c k t).errrd = s.errrd := rfl
@[simp] theorem State.setStrand_errctl : (s.setStrand c k t).errctl = s.errctl := rfl
@[simp] theorem State.setStrand_errlost : (s.setStrand c k t).errlost = s.errlost := rfl
@[simp] theorem State.setStrand_errseq : (s.setStrand c k t).errseq = s.errseq := rfl
@[simp] theorem State.setStrand_unitres : (s.setStrand c k t).unitres = s.unitres := rfl
@[simp] theorem State.setStrand_unitActs : (s.setStrand c k t).unitActs = s.unitActs := rfl
@[simp] theorem State.setStrand_chret : (s.setStrand c k t).chret = s.chret := rfl
@[simp] theorem State.setStrand_chleft : (s.setStrand c k t).chleft = s.chleft := rfl
@[simp] theorem State.setStrand_chbusy : (s.setStrand c k t).chbusy = s.chbusy := rfl
@[simp] theorem State.setStrand_chmoving : (s.setStrand c k t).chmoving = s.chmoving := rfl
@[simp] theorem State.setStrand_chfailed : (s.setStrand c k t).chfailed = s.chfailed := rfl
@[simp] theorem State.setStrand_waitcfg : (s.setStrand c k t).waitcfg = s.waitcfg := rfl
@[simp] theorem State.setStrand_fw : (s.setStrand c k t).fw = s.fw := rfl
@[simp] theorem State.setStrand_keel : (s.setStrand c k t).keel = s.keel := rfl
@[simp] theorem State.setStrand_xlat : (s.setStrand c k t).xlat = s.xlat := rfl
@[simp] theorem State.setStrand_requests : (s.setStrand c k t).requests = s.requests := rfl
@[simp] theorem State.setStrand_posted : (s.setStrand c k t).posted = s.posted := rfl
@[simp] theorem State.setStrand_replies : (s.setStrand c k t).replies = s.replies := rfl
@[simp] theorem State.setStrand_arrivals : (s.setStrand c k t).arrivals = s.arrivals := rfl
@[simp] theorem State.setStrand_outside : (s.setStrand c k t).outside = s.outside := rfl
@[simp] theorem State.setStrand_unsent : (s.setStrand c k t).unsent = s.unsent := rfl
@[simp] theorem State.setStrand_traps : (s.setStrand c k t).traps = s.traps := rfl
@[simp] theorem State.setStrand_sysreqs : (s.setStrand c k t).sysreqs = s.sysreqs := rfl
@[simp] theorem State.setStrand_throttled : (s.setStrand c k t).throttled = s.throttled := rfl
@[simp] theorem State.setStrand_frozenMse : (s.setStrand c k t).frozenMse = s.frozenMse := rfl
@[simp] theorem State.setStrand_ide : (s.setStrand c k t).ide = s.ide := rfl
end

/-! ## setPart -/

section
variable (s : State) (p : Nat) (x : Part)
@[simp] theorem State.setPart_steps : (s.setPart p x).steps = s.steps := rfl
@[simp] theorem State.setPart_agenda : (s.setPart p x).agenda = s.agenda := rfl
@[simp] theorem State.setPart_shared : (s.setPart p x).shared = s.shared := rfl
@[simp] theorem State.setPart_pace : (s.setPart p x).pace = s.pace := rfl
@[simp] theorem State.setPart_turn : (s.setPart p x).turn = s.turn := rfl
@[simp] theorem State.setPart_port : (s.setPart p x).port = s.port := rfl
@[simp] theorem State.setPart_nextId : (s.setPart p x).nextId = s.nextId := rfl
@[simp] theorem State.setPart_cycle : (s.setPart p x).cycle = s.cycle := rfl
@[simp] theorem State.setPart_tick : (s.setPart p x).tick = s.tick := rfl
@[simp] theorem State.setPart_tickLag : (s.setPart p x).tickLag = s.tickLag := rfl
@[simp] theorem State.setPart_mem : (s.setPart p x).mem = s.mem := rfl
@[simp] theorem State.setPart_lines : (s.setPart p x).lines = s.lines := rfl
@[simp] theorem State.setPart_ctrs : (s.setPart p x).ctrs = s.ctrs := rfl
@[simp] theorem State.setPart_shadowCtr : (s.setPart p x).shadowCtr = s.shadowCtr := rfl
@[simp] theorem State.setPart_nodeCtrs : (s.setPart p x).nodeCtrs = s.nodeCtrs := rfl
@[simp] theorem State.setPart_cacheBad : (s.setPart p x).cacheBad = s.cacheBad := rfl
@[simp] theorem State.setPart_poisoned : (s.setPart p x).poisoned = s.poisoned := rfl
@[simp] theorem State.setPart_cores : (s.setPart p x).cores = s.cores := rfl
@[simp] theorem State.setPart_ctxs : (s.setPart p x).ctxs = s.ctxs := rfl
@[simp] theorem State.setPart_parts : (s.setPart p x).parts = tabPut s.parts p x := rfl
@[simp] theorem State.setPart_dies : (s.setPart p x).dies = s.dies := rfl
@[simp] theorem State.setPart_queues : (s.setPart p x).queues = s.queues := rfl
@[simp] theorem State.setPart_lastServed : (s.setPart p x).lastServed = s.lastServed := rfl
@[simp] theorem State.setPart_lastCtx : (s.setPart p x).lastCtx = s.lastCtx := rfl
@[simp] theorem State.setPart_vfs : (s.setPart p x).vfs = s.vfs := rfl
@[simp] theorem State.setPart_numVfs : (s.setPart p x).numVfs = s.numVfs := rfl
@[simp] theorem State.setPart_vfEnable : (s.setPart p x).vfEnable = s.vfEnable := rfl
@[simp] theorem State.setPart_vfBar0 : (s.setPart p x).vfBar0 = s.vfBar0 := rfl
@[simp] theorem State.setPart_bar2Base : (s.setPart p x).bar2Base = s.bar2Base := rfl
@[simp] theorem State.setPart_ports : (s.setPart p x).ports = s.ports := rfl
@[simp] theorem State.setPart_modid : (s.setPart p x).modid = s.modid := rfl
@[simp] theorem State.setPart_tsync : (s.setPart p x).tsync = s.tsync := rfl
@[simp] theorem State.setPart_rtmo : (s.setPart p x).rtmo = s.rtmo := rfl
@[simp] theorem State.setPart_root : (s.setPart p x).root = s.root := rfl
@[simp] theorem State.setPart_rootSeen : (s.setPart p x).rootSeen = s.rootSeen := rfl
@[simp] theorem State.setPart_rootFix : (s.setPart p x).rootFix = s.rootFix := rfl
@[simp] theorem State.setPart_synced : (s.setPart p x).synced = s.synced := rfl
@[simp] theorem State.setPart_crewTlb : (s.setPart p x).crewTlb = s.crewTlb := rfl
@[simp] theorem State.setPart_mseTlb : (s.setPart p x).mseTlb = s.mseTlb := rfl
@[simp] theorem State.setPart_modesel : (s.setPart p x).modesel = s.modesel := rfl
@[simp] theorem State.setPart_waitpoll : (s.setPart p x).waitpoll = s.waitpoll := rfl
@[simp] theorem State.setPart_tlbBusy : (s.setPart p x).tlbBusy = s.tlbBusy := rfl
@[simp] theorem State.setPart_tlbQueue : (s.setPart p x).tlbQueue = s.tlbQueue := rfl
@[simp] theorem State.setPart_tlbKind : (s.setPart p x).tlbKind = s.tlbKind := rfl
@[simp] theorem State.setPart_tlbinvr : (s.setPart p x).tlbinvr = s.tlbinvr := rfl
@[simp] theorem State.setPart_tlbinva : (s.setPart p x).tlbinva = s.tlbinva := rfl
@[simp] theorem State.setPart_preemptReg : (s.setPart p x).preemptReg = s.preemptReg := rfl
@[simp] theorem State.setPart_fwimg : (s.setPart p x).fwimg = s.fwimg := rfl
@[simp] theorem State.setPart_fwctl : (s.setPart p x).fwctl = s.fwctl := rfl
@[simp] theorem State.setPart_errbase : (s.setPart p x).errbase = s.errbase := rfl
@[simp] theorem State.setPart_errwr : (s.setPart p x).errwr = s.errwr := rfl
@[simp] theorem State.setPart_errrd : (s.setPart p x).errrd = s.errrd := rfl
@[simp] theorem State.setPart_errctl : (s.setPart p x).errctl = s.errctl := rfl
@[simp] theorem State.setPart_errlost : (s.setPart p x).errlost = s.errlost := rfl
@[simp] theorem State.setPart_errseq : (s.setPart p x).errseq = s.errseq := rfl
@[simp] theorem State.setPart_unitres : (s.setPart p x).unitres = s.unitres := rfl
@[simp] theorem State.setPart_unitActs : (s.setPart p x).unitActs = s.unitActs := rfl
@[simp] theorem State.setPart_chret : (s.setPart p x).chret = s.chret := rfl
@[simp] theorem State.setPart_chleft : (s.setPart p x).chleft = s.chleft := rfl
@[simp] theorem State.setPart_chbusy : (s.setPart p x).chbusy = s.chbusy := rfl
@[simp] theorem State.setPart_chmoving : (s.setPart p x).chmoving = s.chmoving := rfl
@[simp] theorem State.setPart_chfailed : (s.setPart p x).chfailed = s.chfailed := rfl
@[simp] theorem State.setPart_waitcfg : (s.setPart p x).waitcfg = s.waitcfg := rfl
@[simp] theorem State.setPart_fw : (s.setPart p x).fw = s.fw := rfl
@[simp] theorem State.setPart_keel : (s.setPart p x).keel = s.keel := rfl
@[simp] theorem State.setPart_xlat : (s.setPart p x).xlat = s.xlat := rfl
@[simp] theorem State.setPart_requests : (s.setPart p x).requests = s.requests := rfl
@[simp] theorem State.setPart_posted : (s.setPart p x).posted = s.posted := rfl
@[simp] theorem State.setPart_replies : (s.setPart p x).replies = s.replies := rfl
@[simp] theorem State.setPart_arrivals : (s.setPart p x).arrivals = s.arrivals := rfl
@[simp] theorem State.setPart_outside : (s.setPart p x).outside = s.outside := rfl
@[simp] theorem State.setPart_unsent : (s.setPart p x).unsent = s.unsent := rfl
@[simp] theorem State.setPart_traps : (s.setPart p x).traps = s.traps := rfl
@[simp] theorem State.setPart_sysreqs : (s.setPart p x).sysreqs = s.sysreqs := rfl
@[simp] theorem State.setPart_throttled : (s.setPart p x).throttled = s.throttled := rfl
@[simp] theorem State.setPart_frozenMse : (s.setPart p x).frozenMse = s.frozenMse := rfl
@[simp] theorem State.setPart_ide : (s.setPart p x).ide = s.ide := rfl
end

/-! ## setDie -/

section
variable (s : State) (d : Nat) (x : Die)
@[simp] theorem State.setDie_steps : (s.setDie d x).steps = s.steps := rfl
@[simp] theorem State.setDie_agenda : (s.setDie d x).agenda = s.agenda := rfl
@[simp] theorem State.setDie_shared : (s.setDie d x).shared = s.shared := rfl
@[simp] theorem State.setDie_pace : (s.setDie d x).pace = s.pace := rfl
@[simp] theorem State.setDie_turn : (s.setDie d x).turn = s.turn := rfl
@[simp] theorem State.setDie_port : (s.setDie d x).port = s.port := rfl
@[simp] theorem State.setDie_nextId : (s.setDie d x).nextId = s.nextId := rfl
@[simp] theorem State.setDie_cycle : (s.setDie d x).cycle = s.cycle := rfl
@[simp] theorem State.setDie_tick : (s.setDie d x).tick = s.tick := rfl
@[simp] theorem State.setDie_tickLag : (s.setDie d x).tickLag = s.tickLag := rfl
@[simp] theorem State.setDie_mem : (s.setDie d x).mem = s.mem := rfl
@[simp] theorem State.setDie_lines : (s.setDie d x).lines = s.lines := rfl
@[simp] theorem State.setDie_ctrs : (s.setDie d x).ctrs = s.ctrs := rfl
@[simp] theorem State.setDie_shadowCtr : (s.setDie d x).shadowCtr = s.shadowCtr := rfl
@[simp] theorem State.setDie_nodeCtrs : (s.setDie d x).nodeCtrs = s.nodeCtrs := rfl
@[simp] theorem State.setDie_cacheBad : (s.setDie d x).cacheBad = s.cacheBad := rfl
@[simp] theorem State.setDie_poisoned : (s.setDie d x).poisoned = s.poisoned := rfl
@[simp] theorem State.setDie_cores : (s.setDie d x).cores = s.cores := rfl
@[simp] theorem State.setDie_ctxs : (s.setDie d x).ctxs = s.ctxs := rfl
@[simp] theorem State.setDie_parts : (s.setDie d x).parts = s.parts := rfl
@[simp] theorem State.setDie_dies : (s.setDie d x).dies = tabPut s.dies d x := rfl
@[simp] theorem State.setDie_queues : (s.setDie d x).queues = s.queues := rfl
@[simp] theorem State.setDie_lastServed : (s.setDie d x).lastServed = s.lastServed := rfl
@[simp] theorem State.setDie_lastCtx : (s.setDie d x).lastCtx = s.lastCtx := rfl
@[simp] theorem State.setDie_vfs : (s.setDie d x).vfs = s.vfs := rfl
@[simp] theorem State.setDie_numVfs : (s.setDie d x).numVfs = s.numVfs := rfl
@[simp] theorem State.setDie_vfEnable : (s.setDie d x).vfEnable = s.vfEnable := rfl
@[simp] theorem State.setDie_vfBar0 : (s.setDie d x).vfBar0 = s.vfBar0 := rfl
@[simp] theorem State.setDie_bar2Base : (s.setDie d x).bar2Base = s.bar2Base := rfl
@[simp] theorem State.setDie_ports : (s.setDie d x).ports = s.ports := rfl
@[simp] theorem State.setDie_modid : (s.setDie d x).modid = s.modid := rfl
@[simp] theorem State.setDie_tsync : (s.setDie d x).tsync = s.tsync := rfl
@[simp] theorem State.setDie_rtmo : (s.setDie d x).rtmo = s.rtmo := rfl
@[simp] theorem State.setDie_root : (s.setDie d x).root = s.root := rfl
@[simp] theorem State.setDie_rootSeen : (s.setDie d x).rootSeen = s.rootSeen := rfl
@[simp] theorem State.setDie_rootFix : (s.setDie d x).rootFix = s.rootFix := rfl
@[simp] theorem State.setDie_synced : (s.setDie d x).synced = s.synced := rfl
@[simp] theorem State.setDie_crewTlb : (s.setDie d x).crewTlb = s.crewTlb := rfl
@[simp] theorem State.setDie_mseTlb : (s.setDie d x).mseTlb = s.mseTlb := rfl
@[simp] theorem State.setDie_modesel : (s.setDie d x).modesel = s.modesel := rfl
@[simp] theorem State.setDie_waitpoll : (s.setDie d x).waitpoll = s.waitpoll := rfl
@[simp] theorem State.setDie_tlbBusy : (s.setDie d x).tlbBusy = s.tlbBusy := rfl
@[simp] theorem State.setDie_tlbQueue : (s.setDie d x).tlbQueue = s.tlbQueue := rfl
@[simp] theorem State.setDie_tlbKind : (s.setDie d x).tlbKind = s.tlbKind := rfl
@[simp] theorem State.setDie_tlbinvr : (s.setDie d x).tlbinvr = s.tlbinvr := rfl
@[simp] theorem State.setDie_tlbinva : (s.setDie d x).tlbinva = s.tlbinva := rfl
@[simp] theorem State.setDie_preemptReg : (s.setDie d x).preemptReg = s.preemptReg := rfl
@[simp] theorem State.setDie_fwimg : (s.setDie d x).fwimg = s.fwimg := rfl
@[simp] theorem State.setDie_fwctl : (s.setDie d x).fwctl = s.fwctl := rfl
@[simp] theorem State.setDie_errbase : (s.setDie d x).errbase = s.errbase := rfl
@[simp] theorem State.setDie_errwr : (s.setDie d x).errwr = s.errwr := rfl
@[simp] theorem State.setDie_errrd : (s.setDie d x).errrd = s.errrd := rfl
@[simp] theorem State.setDie_errctl : (s.setDie d x).errctl = s.errctl := rfl
@[simp] theorem State.setDie_errlost : (s.setDie d x).errlost = s.errlost := rfl
@[simp] theorem State.setDie_errseq : (s.setDie d x).errseq = s.errseq := rfl
@[simp] theorem State.setDie_unitres : (s.setDie d x).unitres = s.unitres := rfl
@[simp] theorem State.setDie_unitActs : (s.setDie d x).unitActs = s.unitActs := rfl
@[simp] theorem State.setDie_chret : (s.setDie d x).chret = s.chret := rfl
@[simp] theorem State.setDie_chleft : (s.setDie d x).chleft = s.chleft := rfl
@[simp] theorem State.setDie_chbusy : (s.setDie d x).chbusy = s.chbusy := rfl
@[simp] theorem State.setDie_chmoving : (s.setDie d x).chmoving = s.chmoving := rfl
@[simp] theorem State.setDie_chfailed : (s.setDie d x).chfailed = s.chfailed := rfl
@[simp] theorem State.setDie_waitcfg : (s.setDie d x).waitcfg = s.waitcfg := rfl
@[simp] theorem State.setDie_fw : (s.setDie d x).fw = s.fw := rfl
@[simp] theorem State.setDie_keel : (s.setDie d x).keel = s.keel := rfl
@[simp] theorem State.setDie_xlat : (s.setDie d x).xlat = s.xlat := rfl
@[simp] theorem State.setDie_requests : (s.setDie d x).requests = s.requests := rfl
@[simp] theorem State.setDie_posted : (s.setDie d x).posted = s.posted := rfl
@[simp] theorem State.setDie_replies : (s.setDie d x).replies = s.replies := rfl
@[simp] theorem State.setDie_arrivals : (s.setDie d x).arrivals = s.arrivals := rfl
@[simp] theorem State.setDie_outside : (s.setDie d x).outside = s.outside := rfl
@[simp] theorem State.setDie_unsent : (s.setDie d x).unsent = s.unsent := rfl
@[simp] theorem State.setDie_traps : (s.setDie d x).traps = s.traps := rfl
@[simp] theorem State.setDie_sysreqs : (s.setDie d x).sysreqs = s.sysreqs := rfl
@[simp] theorem State.setDie_throttled : (s.setDie d x).throttled = s.throttled := rfl
@[simp] theorem State.setDie_frozenMse : (s.setDie d x).frozenMse = s.frozenMse := rfl
@[simp] theorem State.setDie_ide : (s.setDie d x).ide = s.ide := rfl
end

/-! ## setQueue -/

section
variable (s : State) (q : Nat) (x : Queue)
@[simp] theorem State.setQueue_steps : (s.setQueue q x).steps = s.steps := rfl
@[simp] theorem State.setQueue_agenda : (s.setQueue q x).agenda = s.agenda := rfl
@[simp] theorem State.setQueue_shared : (s.setQueue q x).shared = s.shared := rfl
@[simp] theorem State.setQueue_pace : (s.setQueue q x).pace = s.pace := rfl
@[simp] theorem State.setQueue_turn : (s.setQueue q x).turn = s.turn := rfl
@[simp] theorem State.setQueue_port : (s.setQueue q x).port = s.port := rfl
@[simp] theorem State.setQueue_nextId : (s.setQueue q x).nextId = s.nextId := rfl
@[simp] theorem State.setQueue_cycle : (s.setQueue q x).cycle = s.cycle := rfl
@[simp] theorem State.setQueue_tick : (s.setQueue q x).tick = s.tick := rfl
@[simp] theorem State.setQueue_tickLag : (s.setQueue q x).tickLag = s.tickLag := rfl
@[simp] theorem State.setQueue_mem : (s.setQueue q x).mem = s.mem := rfl
@[simp] theorem State.setQueue_lines : (s.setQueue q x).lines = s.lines := rfl
@[simp] theorem State.setQueue_ctrs : (s.setQueue q x).ctrs = s.ctrs := rfl
@[simp] theorem State.setQueue_shadowCtr : (s.setQueue q x).shadowCtr = s.shadowCtr := rfl
@[simp] theorem State.setQueue_nodeCtrs : (s.setQueue q x).nodeCtrs = s.nodeCtrs := rfl
@[simp] theorem State.setQueue_cacheBad : (s.setQueue q x).cacheBad = s.cacheBad := rfl
@[simp] theorem State.setQueue_poisoned : (s.setQueue q x).poisoned = s.poisoned := rfl
@[simp] theorem State.setQueue_cores : (s.setQueue q x).cores = s.cores := rfl
@[simp] theorem State.setQueue_ctxs : (s.setQueue q x).ctxs = s.ctxs := rfl
@[simp] theorem State.setQueue_parts : (s.setQueue q x).parts = s.parts := rfl
@[simp] theorem State.setQueue_dies : (s.setQueue q x).dies = s.dies := rfl
@[simp] theorem State.setQueue_queues : (s.setQueue q x).queues = tabPut s.queues q x := rfl
@[simp] theorem State.setQueue_lastServed : (s.setQueue q x).lastServed = s.lastServed := rfl
@[simp] theorem State.setQueue_lastCtx : (s.setQueue q x).lastCtx = s.lastCtx := rfl
@[simp] theorem State.setQueue_vfs : (s.setQueue q x).vfs = s.vfs := rfl
@[simp] theorem State.setQueue_numVfs : (s.setQueue q x).numVfs = s.numVfs := rfl
@[simp] theorem State.setQueue_vfEnable : (s.setQueue q x).vfEnable = s.vfEnable := rfl
@[simp] theorem State.setQueue_vfBar0 : (s.setQueue q x).vfBar0 = s.vfBar0 := rfl
@[simp] theorem State.setQueue_bar2Base : (s.setQueue q x).bar2Base = s.bar2Base := rfl
@[simp] theorem State.setQueue_ports : (s.setQueue q x).ports = s.ports := rfl
@[simp] theorem State.setQueue_modid : (s.setQueue q x).modid = s.modid := rfl
@[simp] theorem State.setQueue_tsync : (s.setQueue q x).tsync = s.tsync := rfl
@[simp] theorem State.setQueue_rtmo : (s.setQueue q x).rtmo = s.rtmo := rfl
@[simp] theorem State.setQueue_root : (s.setQueue q x).root = s.root := rfl
@[simp] theorem State.setQueue_rootSeen : (s.setQueue q x).rootSeen = s.rootSeen := rfl
@[simp] theorem State.setQueue_rootFix : (s.setQueue q x).rootFix = s.rootFix := rfl
@[simp] theorem State.setQueue_synced : (s.setQueue q x).synced = s.synced := rfl
@[simp] theorem State.setQueue_crewTlb : (s.setQueue q x).crewTlb = s.crewTlb := rfl
@[simp] theorem State.setQueue_mseTlb : (s.setQueue q x).mseTlb = s.mseTlb := rfl
@[simp] theorem State.setQueue_modesel : (s.setQueue q x).modesel = s.modesel := rfl
@[simp] theorem State.setQueue_waitpoll : (s.setQueue q x).waitpoll = s.waitpoll := rfl
@[simp] theorem State.setQueue_tlbBusy : (s.setQueue q x).tlbBusy = s.tlbBusy := rfl
@[simp] theorem State.setQueue_tlbQueue : (s.setQueue q x).tlbQueue = s.tlbQueue := rfl
@[simp] theorem State.setQueue_tlbKind : (s.setQueue q x).tlbKind = s.tlbKind := rfl
@[simp] theorem State.setQueue_tlbinvr : (s.setQueue q x).tlbinvr = s.tlbinvr := rfl
@[simp] theorem State.setQueue_tlbinva : (s.setQueue q x).tlbinva = s.tlbinva := rfl
@[simp] theorem State.setQueue_preemptReg : (s.setQueue q x).preemptReg = s.preemptReg := rfl
@[simp] theorem State.setQueue_fwimg : (s.setQueue q x).fwimg = s.fwimg := rfl
@[simp] theorem State.setQueue_fwctl : (s.setQueue q x).fwctl = s.fwctl := rfl
@[simp] theorem State.setQueue_errbase : (s.setQueue q x).errbase = s.errbase := rfl
@[simp] theorem State.setQueue_errwr : (s.setQueue q x).errwr = s.errwr := rfl
@[simp] theorem State.setQueue_errrd : (s.setQueue q x).errrd = s.errrd := rfl
@[simp] theorem State.setQueue_errctl : (s.setQueue q x).errctl = s.errctl := rfl
@[simp] theorem State.setQueue_errlost : (s.setQueue q x).errlost = s.errlost := rfl
@[simp] theorem State.setQueue_errseq : (s.setQueue q x).errseq = s.errseq := rfl
@[simp] theorem State.setQueue_unitres : (s.setQueue q x).unitres = s.unitres := rfl
@[simp] theorem State.setQueue_unitActs : (s.setQueue q x).unitActs = s.unitActs := rfl
@[simp] theorem State.setQueue_chret : (s.setQueue q x).chret = s.chret := rfl
@[simp] theorem State.setQueue_chleft : (s.setQueue q x).chleft = s.chleft := rfl
@[simp] theorem State.setQueue_chbusy : (s.setQueue q x).chbusy = s.chbusy := rfl
@[simp] theorem State.setQueue_chmoving : (s.setQueue q x).chmoving = s.chmoving := rfl
@[simp] theorem State.setQueue_chfailed : (s.setQueue q x).chfailed = s.chfailed := rfl
@[simp] theorem State.setQueue_waitcfg : (s.setQueue q x).waitcfg = s.waitcfg := rfl
@[simp] theorem State.setQueue_fw : (s.setQueue q x).fw = s.fw := rfl
@[simp] theorem State.setQueue_keel : (s.setQueue q x).keel = s.keel := rfl
@[simp] theorem State.setQueue_xlat : (s.setQueue q x).xlat = s.xlat := rfl
@[simp] theorem State.setQueue_requests : (s.setQueue q x).requests = s.requests := rfl
@[simp] theorem State.setQueue_posted : (s.setQueue q x).posted = s.posted := rfl
@[simp] theorem State.setQueue_replies : (s.setQueue q x).replies = s.replies := rfl
@[simp] theorem State.setQueue_arrivals : (s.setQueue q x).arrivals = s.arrivals := rfl
@[simp] theorem State.setQueue_outside : (s.setQueue q x).outside = s.outside := rfl
@[simp] theorem State.setQueue_unsent : (s.setQueue q x).unsent = s.unsent := rfl
@[simp] theorem State.setQueue_traps : (s.setQueue q x).traps = s.traps := rfl
@[simp] theorem State.setQueue_sysreqs : (s.setQueue q x).sysreqs = s.sysreqs := rfl
@[simp] theorem State.setQueue_throttled : (s.setQueue q x).throttled = s.throttled := rfl
@[simp] theorem State.setQueue_frozenMse : (s.setQueue q x).frozenMse = s.frozenMse := rfl
@[simp] theorem State.setQueue_ide : (s.setQueue q x).ide = s.ide := rfl
end

/-! ## setCtx -/

section
variable (s : State) (m n : Nat) (x : Ctx)
@[simp] theorem State.setCtx_steps : (s.setCtx m n x).steps = s.steps := rfl
@[simp] theorem State.setCtx_agenda : (s.setCtx m n x).agenda = s.agenda := rfl
@[simp] theorem State.setCtx_shared : (s.setCtx m n x).shared = s.shared := rfl
@[simp] theorem State.setCtx_pace : (s.setCtx m n x).pace = s.pace := rfl
@[simp] theorem State.setCtx_turn : (s.setCtx m n x).turn = s.turn := rfl
@[simp] theorem State.setCtx_port : (s.setCtx m n x).port = s.port := rfl
@[simp] theorem State.setCtx_nextId : (s.setCtx m n x).nextId = s.nextId := rfl
@[simp] theorem State.setCtx_cycle : (s.setCtx m n x).cycle = s.cycle := rfl
@[simp] theorem State.setCtx_tick : (s.setCtx m n x).tick = s.tick := rfl
@[simp] theorem State.setCtx_tickLag : (s.setCtx m n x).tickLag = s.tickLag := rfl
@[simp] theorem State.setCtx_mem : (s.setCtx m n x).mem = s.mem := rfl
@[simp] theorem State.setCtx_lines : (s.setCtx m n x).lines = s.lines := rfl
@[simp] theorem State.setCtx_ctrs : (s.setCtx m n x).ctrs = s.ctrs := rfl
@[simp] theorem State.setCtx_shadowCtr : (s.setCtx m n x).shadowCtr = s.shadowCtr := rfl
@[simp] theorem State.setCtx_nodeCtrs : (s.setCtx m n x).nodeCtrs = s.nodeCtrs := rfl
@[simp] theorem State.setCtx_cacheBad : (s.setCtx m n x).cacheBad = s.cacheBad := rfl
@[simp] theorem State.setCtx_poisoned : (s.setCtx m n x).poisoned = s.poisoned := rfl
@[simp] theorem State.setCtx_cores : (s.setCtx m n x).cores = s.cores := rfl
@[simp] theorem State.setCtx_ctxs : (s.setCtx m n x).ctxs = tabPut s.ctxs (ctxKey m n) x := rfl
@[simp] theorem State.setCtx_parts : (s.setCtx m n x).parts = s.parts := rfl
@[simp] theorem State.setCtx_dies : (s.setCtx m n x).dies = s.dies := rfl
@[simp] theorem State.setCtx_queues : (s.setCtx m n x).queues = s.queues := rfl
@[simp] theorem State.setCtx_lastServed : (s.setCtx m n x).lastServed = s.lastServed := rfl
@[simp] theorem State.setCtx_lastCtx : (s.setCtx m n x).lastCtx = s.lastCtx := rfl
@[simp] theorem State.setCtx_vfs : (s.setCtx m n x).vfs = s.vfs := rfl
@[simp] theorem State.setCtx_numVfs : (s.setCtx m n x).numVfs = s.numVfs := rfl
@[simp] theorem State.setCtx_vfEnable : (s.setCtx m n x).vfEnable = s.vfEnable := rfl
@[simp] theorem State.setCtx_vfBar0 : (s.setCtx m n x).vfBar0 = s.vfBar0 := rfl
@[simp] theorem State.setCtx_bar2Base : (s.setCtx m n x).bar2Base = s.bar2Base := rfl
@[simp] theorem State.setCtx_ports : (s.setCtx m n x).ports = s.ports := rfl
@[simp] theorem State.setCtx_modid : (s.setCtx m n x).modid = s.modid := rfl
@[simp] theorem State.setCtx_tsync : (s.setCtx m n x).tsync = s.tsync := rfl
@[simp] theorem State.setCtx_rtmo : (s.setCtx m n x).rtmo = s.rtmo := rfl
@[simp] theorem State.setCtx_root : (s.setCtx m n x).root = s.root := rfl
@[simp] theorem State.setCtx_rootSeen : (s.setCtx m n x).rootSeen = s.rootSeen := rfl
@[simp] theorem State.setCtx_rootFix : (s.setCtx m n x).rootFix = s.rootFix := rfl
@[simp] theorem State.setCtx_synced : (s.setCtx m n x).synced = s.synced := rfl
@[simp] theorem State.setCtx_crewTlb : (s.setCtx m n x).crewTlb = s.crewTlb := rfl
@[simp] theorem State.setCtx_mseTlb : (s.setCtx m n x).mseTlb = s.mseTlb := rfl
@[simp] theorem State.setCtx_modesel : (s.setCtx m n x).modesel = s.modesel := rfl
@[simp] theorem State.setCtx_waitpoll : (s.setCtx m n x).waitpoll = s.waitpoll := rfl
@[simp] theorem State.setCtx_tlbBusy : (s.setCtx m n x).tlbBusy = s.tlbBusy := rfl
@[simp] theorem State.setCtx_tlbQueue : (s.setCtx m n x).tlbQueue = s.tlbQueue := rfl
@[simp] theorem State.setCtx_tlbKind : (s.setCtx m n x).tlbKind = s.tlbKind := rfl
@[simp] theorem State.setCtx_tlbinvr : (s.setCtx m n x).tlbinvr = s.tlbinvr := rfl
@[simp] theorem State.setCtx_tlbinva : (s.setCtx m n x).tlbinva = s.tlbinva := rfl
@[simp] theorem State.setCtx_preemptReg : (s.setCtx m n x).preemptReg = s.preemptReg := rfl
@[simp] theorem State.setCtx_fwimg : (s.setCtx m n x).fwimg = s.fwimg := rfl
@[simp] theorem State.setCtx_fwctl : (s.setCtx m n x).fwctl = s.fwctl := rfl
@[simp] theorem State.setCtx_errbase : (s.setCtx m n x).errbase = s.errbase := rfl
@[simp] theorem State.setCtx_errwr : (s.setCtx m n x).errwr = s.errwr := rfl
@[simp] theorem State.setCtx_errrd : (s.setCtx m n x).errrd = s.errrd := rfl
@[simp] theorem State.setCtx_errctl : (s.setCtx m n x).errctl = s.errctl := rfl
@[simp] theorem State.setCtx_errlost : (s.setCtx m n x).errlost = s.errlost := rfl
@[simp] theorem State.setCtx_errseq : (s.setCtx m n x).errseq = s.errseq := rfl
@[simp] theorem State.setCtx_unitres : (s.setCtx m n x).unitres = s.unitres := rfl
@[simp] theorem State.setCtx_unitActs : (s.setCtx m n x).unitActs = s.unitActs := rfl
@[simp] theorem State.setCtx_chret : (s.setCtx m n x).chret = s.chret := rfl
@[simp] theorem State.setCtx_chleft : (s.setCtx m n x).chleft = s.chleft := rfl
@[simp] theorem State.setCtx_chbusy : (s.setCtx m n x).chbusy = s.chbusy := rfl
@[simp] theorem State.setCtx_chmoving : (s.setCtx m n x).chmoving = s.chmoving := rfl
@[simp] theorem State.setCtx_chfailed : (s.setCtx m n x).chfailed = s.chfailed := rfl
@[simp] theorem State.setCtx_waitcfg : (s.setCtx m n x).waitcfg = s.waitcfg := rfl
@[simp] theorem State.setCtx_fw : (s.setCtx m n x).fw = s.fw := rfl
@[simp] theorem State.setCtx_keel : (s.setCtx m n x).keel = s.keel := rfl
@[simp] theorem State.setCtx_xlat : (s.setCtx m n x).xlat = s.xlat := rfl
@[simp] theorem State.setCtx_requests : (s.setCtx m n x).requests = s.requests := rfl
@[simp] theorem State.setCtx_posted : (s.setCtx m n x).posted = s.posted := rfl
@[simp] theorem State.setCtx_replies : (s.setCtx m n x).replies = s.replies := rfl
@[simp] theorem State.setCtx_arrivals : (s.setCtx m n x).arrivals = s.arrivals := rfl
@[simp] theorem State.setCtx_outside : (s.setCtx m n x).outside = s.outside := rfl
@[simp] theorem State.setCtx_unsent : (s.setCtx m n x).unsent = s.unsent := rfl
@[simp] theorem State.setCtx_traps : (s.setCtx m n x).traps = s.traps := rfl
@[simp] theorem State.setCtx_sysreqs : (s.setCtx m n x).sysreqs = s.sysreqs := rfl
@[simp] theorem State.setCtx_throttled : (s.setCtx m n x).throttled = s.throttled := rfl
@[simp] theorem State.setCtx_frozenMse : (s.setCtx m n x).frozenMse = s.frozenMse := rfl
@[simp] theorem State.setCtx_ide : (s.setCtx m n x).ide = s.ide := rfl
end

/-! ## setVf -/

section
variable (s : State) (v : Nat) (x : Vf)
@[simp] theorem State.setVf_steps : (s.setVf v x).steps = s.steps := rfl
@[simp] theorem State.setVf_agenda : (s.setVf v x).agenda = s.agenda := rfl
@[simp] theorem State.setVf_shared : (s.setVf v x).shared = s.shared := rfl
@[simp] theorem State.setVf_pace : (s.setVf v x).pace = s.pace := rfl
@[simp] theorem State.setVf_turn : (s.setVf v x).turn = s.turn := rfl
@[simp] theorem State.setVf_port : (s.setVf v x).port = s.port := rfl
@[simp] theorem State.setVf_nextId : (s.setVf v x).nextId = s.nextId := rfl
@[simp] theorem State.setVf_cycle : (s.setVf v x).cycle = s.cycle := rfl
@[simp] theorem State.setVf_tick : (s.setVf v x).tick = s.tick := rfl
@[simp] theorem State.setVf_tickLag : (s.setVf v x).tickLag = s.tickLag := rfl
@[simp] theorem State.setVf_mem : (s.setVf v x).mem = s.mem := rfl
@[simp] theorem State.setVf_lines : (s.setVf v x).lines = s.lines := rfl
@[simp] theorem State.setVf_ctrs : (s.setVf v x).ctrs = s.ctrs := rfl
@[simp] theorem State.setVf_shadowCtr : (s.setVf v x).shadowCtr = s.shadowCtr := rfl
@[simp] theorem State.setVf_nodeCtrs : (s.setVf v x).nodeCtrs = s.nodeCtrs := rfl
@[simp] theorem State.setVf_cacheBad : (s.setVf v x).cacheBad = s.cacheBad := rfl
@[simp] theorem State.setVf_poisoned : (s.setVf v x).poisoned = s.poisoned := rfl
@[simp] theorem State.setVf_cores : (s.setVf v x).cores = s.cores := rfl
@[simp] theorem State.setVf_ctxs : (s.setVf v x).ctxs = s.ctxs := rfl
@[simp] theorem State.setVf_parts : (s.setVf v x).parts = s.parts := rfl
@[simp] theorem State.setVf_dies : (s.setVf v x).dies = s.dies := rfl
@[simp] theorem State.setVf_queues : (s.setVf v x).queues = s.queues := rfl
@[simp] theorem State.setVf_lastServed : (s.setVf v x).lastServed = s.lastServed := rfl
@[simp] theorem State.setVf_lastCtx : (s.setVf v x).lastCtx = s.lastCtx := rfl
@[simp] theorem State.setVf_vfs : (s.setVf v x).vfs = tabPut s.vfs v x := rfl
@[simp] theorem State.setVf_numVfs : (s.setVf v x).numVfs = s.numVfs := rfl
@[simp] theorem State.setVf_vfEnable : (s.setVf v x).vfEnable = s.vfEnable := rfl
@[simp] theorem State.setVf_vfBar0 : (s.setVf v x).vfBar0 = s.vfBar0 := rfl
@[simp] theorem State.setVf_bar2Base : (s.setVf v x).bar2Base = s.bar2Base := rfl
@[simp] theorem State.setVf_ports : (s.setVf v x).ports = s.ports := rfl
@[simp] theorem State.setVf_modid : (s.setVf v x).modid = s.modid := rfl
@[simp] theorem State.setVf_tsync : (s.setVf v x).tsync = s.tsync := rfl
@[simp] theorem State.setVf_rtmo : (s.setVf v x).rtmo = s.rtmo := rfl
@[simp] theorem State.setVf_root : (s.setVf v x).root = s.root := rfl
@[simp] theorem State.setVf_rootSeen : (s.setVf v x).rootSeen = s.rootSeen := rfl
@[simp] theorem State.setVf_rootFix : (s.setVf v x).rootFix = s.rootFix := rfl
@[simp] theorem State.setVf_synced : (s.setVf v x).synced = s.synced := rfl
@[simp] theorem State.setVf_crewTlb : (s.setVf v x).crewTlb = s.crewTlb := rfl
@[simp] theorem State.setVf_mseTlb : (s.setVf v x).mseTlb = s.mseTlb := rfl
@[simp] theorem State.setVf_modesel : (s.setVf v x).modesel = s.modesel := rfl
@[simp] theorem State.setVf_waitpoll : (s.setVf v x).waitpoll = s.waitpoll := rfl
@[simp] theorem State.setVf_tlbBusy : (s.setVf v x).tlbBusy = s.tlbBusy := rfl
@[simp] theorem State.setVf_tlbQueue : (s.setVf v x).tlbQueue = s.tlbQueue := rfl
@[simp] theorem State.setVf_tlbKind : (s.setVf v x).tlbKind = s.tlbKind := rfl
@[simp] theorem State.setVf_tlbinvr : (s.setVf v x).tlbinvr = s.tlbinvr := rfl
@[simp] theorem State.setVf_tlbinva : (s.setVf v x).tlbinva = s.tlbinva := rfl
@[simp] theorem State.setVf_preemptReg : (s.setVf v x).preemptReg = s.preemptReg := rfl
@[simp] theorem State.setVf_fwimg : (s.setVf v x).fwimg = s.fwimg := rfl
@[simp] theorem State.setVf_fwctl : (s.setVf v x).fwctl = s.fwctl := rfl
@[simp] theorem State.setVf_errbase : (s.setVf v x).errbase = s.errbase := rfl
@[simp] theorem State.setVf_errwr : (s.setVf v x).errwr = s.errwr := rfl
@[simp] theorem State.setVf_errrd : (s.setVf v x).errrd = s.errrd := rfl
@[simp] theorem State.setVf_errctl : (s.setVf v x).errctl = s.errctl := rfl
@[simp] theorem State.setVf_errlost : (s.setVf v x).errlost = s.errlost := rfl
@[simp] theorem State.setVf_errseq : (s.setVf v x).errseq = s.errseq := rfl
@[simp] theorem State.setVf_unitres : (s.setVf v x).unitres = s.unitres := rfl
@[simp] theorem State.setVf_unitActs : (s.setVf v x).unitActs = s.unitActs := rfl
@[simp] theorem State.setVf_chret : (s.setVf v x).chret = s.chret := rfl
@[simp] theorem State.setVf_chleft : (s.setVf v x).chleft = s.chleft := rfl
@[simp] theorem State.setVf_chbusy : (s.setVf v x).chbusy = s.chbusy := rfl
@[simp] theorem State.setVf_chmoving : (s.setVf v x).chmoving = s.chmoving := rfl
@[simp] theorem State.setVf_chfailed : (s.setVf v x).chfailed = s.chfailed := rfl
@[simp] theorem State.setVf_waitcfg : (s.setVf v x).waitcfg = s.waitcfg := rfl
@[simp] theorem State.setVf_fw : (s.setVf v x).fw = s.fw := rfl
@[simp] theorem State.setVf_keel : (s.setVf v x).keel = s.keel := rfl
@[simp] theorem State.setVf_xlat : (s.setVf v x).xlat = s.xlat := rfl
@[simp] theorem State.setVf_requests : (s.setVf v x).requests = s.requests := rfl
@[simp] theorem State.setVf_posted : (s.setVf v x).posted = s.posted := rfl
@[simp] theorem State.setVf_replies : (s.setVf v x).replies = s.replies := rfl
@[simp] theorem State.setVf_arrivals : (s.setVf v x).arrivals = s.arrivals := rfl
@[simp] theorem State.setVf_outside : (s.setVf v x).outside = s.outside := rfl
@[simp] theorem State.setVf_unsent : (s.setVf v x).unsent = s.unsent := rfl
@[simp] theorem State.setVf_traps : (s.setVf v x).traps = s.traps := rfl
@[simp] theorem State.setVf_sysreqs : (s.setVf v x).sysreqs = s.sysreqs := rfl
@[simp] theorem State.setVf_throttled : (s.setVf v x).throttled = s.throttled := rfl
@[simp] theorem State.setVf_frozenMse : (s.setVf v x).frozenMse = s.frozenMse := rfl
@[simp] theorem State.setVf_ide : (s.setVf v x).ide = s.ide := rfl
end

/-! ## setPort -/

section
variable (s : State) (n : Nat) (x : Port)
@[simp] theorem State.setPort_steps : (s.setPort n x).steps = s.steps := rfl
@[simp] theorem State.setPort_agenda : (s.setPort n x).agenda = s.agenda := rfl
@[simp] theorem State.setPort_shared : (s.setPort n x).shared = s.shared := rfl
@[simp] theorem State.setPort_pace : (s.setPort n x).pace = s.pace := rfl
@[simp] theorem State.setPort_turn : (s.setPort n x).turn = s.turn := rfl
@[simp] theorem State.setPort_port : (s.setPort n x).port = s.port := rfl
@[simp] theorem State.setPort_nextId : (s.setPort n x).nextId = s.nextId := rfl
@[simp] theorem State.setPort_cycle : (s.setPort n x).cycle = s.cycle := rfl
@[simp] theorem State.setPort_tick : (s.setPort n x).tick = s.tick := rfl
@[simp] theorem State.setPort_tickLag : (s.setPort n x).tickLag = s.tickLag := rfl
@[simp] theorem State.setPort_mem : (s.setPort n x).mem = s.mem := rfl
@[simp] theorem State.setPort_lines : (s.setPort n x).lines = s.lines := rfl
@[simp] theorem State.setPort_ctrs : (s.setPort n x).ctrs = s.ctrs := rfl
@[simp] theorem State.setPort_shadowCtr : (s.setPort n x).shadowCtr = s.shadowCtr := rfl
@[simp] theorem State.setPort_nodeCtrs : (s.setPort n x).nodeCtrs = s.nodeCtrs := rfl
@[simp] theorem State.setPort_cacheBad : (s.setPort n x).cacheBad = s.cacheBad := rfl
@[simp] theorem State.setPort_poisoned : (s.setPort n x).poisoned = s.poisoned := rfl
@[simp] theorem State.setPort_cores : (s.setPort n x).cores = s.cores := rfl
@[simp] theorem State.setPort_ctxs : (s.setPort n x).ctxs = s.ctxs := rfl
@[simp] theorem State.setPort_parts : (s.setPort n x).parts = s.parts := rfl
@[simp] theorem State.setPort_dies : (s.setPort n x).dies = s.dies := rfl
@[simp] theorem State.setPort_queues : (s.setPort n x).queues = s.queues := rfl
@[simp] theorem State.setPort_lastServed : (s.setPort n x).lastServed = s.lastServed := rfl
@[simp] theorem State.setPort_lastCtx : (s.setPort n x).lastCtx = s.lastCtx := rfl
@[simp] theorem State.setPort_vfs : (s.setPort n x).vfs = s.vfs := rfl
@[simp] theorem State.setPort_numVfs : (s.setPort n x).numVfs = s.numVfs := rfl
@[simp] theorem State.setPort_vfEnable : (s.setPort n x).vfEnable = s.vfEnable := rfl
@[simp] theorem State.setPort_vfBar0 : (s.setPort n x).vfBar0 = s.vfBar0 := rfl
@[simp] theorem State.setPort_bar2Base : (s.setPort n x).bar2Base = s.bar2Base := rfl
@[simp] theorem State.setPort_ports : (s.setPort n x).ports = tabPut s.ports n x := rfl
@[simp] theorem State.setPort_modid : (s.setPort n x).modid = s.modid := rfl
@[simp] theorem State.setPort_tsync : (s.setPort n x).tsync = s.tsync := rfl
@[simp] theorem State.setPort_rtmo : (s.setPort n x).rtmo = s.rtmo := rfl
@[simp] theorem State.setPort_root : (s.setPort n x).root = s.root := rfl
@[simp] theorem State.setPort_rootSeen : (s.setPort n x).rootSeen = s.rootSeen := rfl
@[simp] theorem State.setPort_rootFix : (s.setPort n x).rootFix = s.rootFix := rfl
@[simp] theorem State.setPort_synced : (s.setPort n x).synced = s.synced := rfl
@[simp] theorem State.setPort_crewTlb : (s.setPort n x).crewTlb = s.crewTlb := rfl
@[simp] theorem State.setPort_mseTlb : (s.setPort n x).mseTlb = s.mseTlb := rfl
@[simp] theorem State.setPort_modesel : (s.setPort n x).modesel = s.modesel := rfl
@[simp] theorem State.setPort_waitpoll : (s.setPort n x).waitpoll = s.waitpoll := rfl
@[simp] theorem State.setPort_tlbBusy : (s.setPort n x).tlbBusy = s.tlbBusy := rfl
@[simp] theorem State.setPort_tlbQueue : (s.setPort n x).tlbQueue = s.tlbQueue := rfl
@[simp] theorem State.setPort_tlbKind : (s.setPort n x).tlbKind = s.tlbKind := rfl
@[simp] theorem State.setPort_tlbinvr : (s.setPort n x).tlbinvr = s.tlbinvr := rfl
@[simp] theorem State.setPort_tlbinva : (s.setPort n x).tlbinva = s.tlbinva := rfl
@[simp] theorem State.setPort_preemptReg : (s.setPort n x).preemptReg = s.preemptReg := rfl
@[simp] theorem State.setPort_fwimg : (s.setPort n x).fwimg = s.fwimg := rfl
@[simp] theorem State.setPort_fwctl : (s.setPort n x).fwctl = s.fwctl := rfl
@[simp] theorem State.setPort_errbase : (s.setPort n x).errbase = s.errbase := rfl
@[simp] theorem State.setPort_errwr : (s.setPort n x).errwr = s.errwr := rfl
@[simp] theorem State.setPort_errrd : (s.setPort n x).errrd = s.errrd := rfl
@[simp] theorem State.setPort_errctl : (s.setPort n x).errctl = s.errctl := rfl
@[simp] theorem State.setPort_errlost : (s.setPort n x).errlost = s.errlost := rfl
@[simp] theorem State.setPort_errseq : (s.setPort n x).errseq = s.errseq := rfl
@[simp] theorem State.setPort_unitres : (s.setPort n x).unitres = s.unitres := rfl
@[simp] theorem State.setPort_unitActs : (s.setPort n x).unitActs = s.unitActs := rfl
@[simp] theorem State.setPort_chret : (s.setPort n x).chret = s.chret := rfl
@[simp] theorem State.setPort_chleft : (s.setPort n x).chleft = s.chleft := rfl
@[simp] theorem State.setPort_chbusy : (s.setPort n x).chbusy = s.chbusy := rfl
@[simp] theorem State.setPort_chmoving : (s.setPort n x).chmoving = s.chmoving := rfl
@[simp] theorem State.setPort_chfailed : (s.setPort n x).chfailed = s.chfailed := rfl
@[simp] theorem State.setPort_waitcfg : (s.setPort n x).waitcfg = s.waitcfg := rfl
@[simp] theorem State.setPort_fw : (s.setPort n x).fw = s.fw := rfl
@[simp] theorem State.setPort_keel : (s.setPort n x).keel = s.keel := rfl
@[simp] theorem State.setPort_xlat : (s.setPort n x).xlat = s.xlat := rfl
@[simp] theorem State.setPort_requests : (s.setPort n x).requests = s.requests := rfl
@[simp] theorem State.setPort_posted : (s.setPort n x).posted = s.posted := rfl
@[simp] theorem State.setPort_replies : (s.setPort n x).replies = s.replies := rfl
@[simp] theorem State.setPort_arrivals : (s.setPort n x).arrivals = s.arrivals := rfl
@[simp] theorem State.setPort_outside : (s.setPort n x).outside = s.outside := rfl
@[simp] theorem State.setPort_unsent : (s.setPort n x).unsent = s.unsent := rfl
@[simp] theorem State.setPort_traps : (s.setPort n x).traps = s.traps := rfl
@[simp] theorem State.setPort_sysreqs : (s.setPort n x).sysreqs = s.sysreqs := rfl
@[simp] theorem State.setPort_throttled : (s.setPort n x).throttled = s.throttled := rfl
@[simp] theorem State.setPort_frozenMse : (s.setPort n x).frozenMse = s.frozenMse := rfl
@[simp] theorem State.setPort_ide : (s.setPort n x).ide = s.ide := rfl
end

/-! ## send -/

section
variable (s : State) (m : PortMsg)
@[simp] theorem State.send_steps : (s.send m).steps = s.steps := rfl
@[simp] theorem State.send_agenda : (s.send m).agenda = s.agenda := rfl
@[simp] theorem State.send_shared : (s.send m).shared = s.shared := rfl
@[simp] theorem State.send_pace : (s.send m).pace = s.pace := rfl
@[simp] theorem State.send_turn : (s.send m).turn = s.turn := rfl
@[simp] theorem State.send_port : (s.send m).port = s.port ++ [m] := rfl
@[simp] theorem State.send_nextId : (s.send m).nextId = s.nextId := rfl
@[simp] theorem State.send_cycle : (s.send m).cycle = s.cycle := rfl
@[simp] theorem State.send_tick : (s.send m).tick = s.tick := rfl
@[simp] theorem State.send_tickLag : (s.send m).tickLag = s.tickLag := rfl
@[simp] theorem State.send_mem : (s.send m).mem = s.mem := rfl
@[simp] theorem State.send_lines : (s.send m).lines = s.lines := rfl
@[simp] theorem State.send_ctrs : (s.send m).ctrs = s.ctrs := rfl
@[simp] theorem State.send_shadowCtr : (s.send m).shadowCtr = s.shadowCtr := rfl
@[simp] theorem State.send_nodeCtrs : (s.send m).nodeCtrs = s.nodeCtrs := rfl
@[simp] theorem State.send_cacheBad : (s.send m).cacheBad = s.cacheBad := rfl
@[simp] theorem State.send_poisoned : (s.send m).poisoned = s.poisoned := rfl
@[simp] theorem State.send_cores : (s.send m).cores = s.cores := rfl
@[simp] theorem State.send_ctxs : (s.send m).ctxs = s.ctxs := rfl
@[simp] theorem State.send_parts : (s.send m).parts = s.parts := rfl
@[simp] theorem State.send_dies : (s.send m).dies = s.dies := rfl
@[simp] theorem State.send_queues : (s.send m).queues = s.queues := rfl
@[simp] theorem State.send_lastServed : (s.send m).lastServed = s.lastServed := rfl
@[simp] theorem State.send_lastCtx : (s.send m).lastCtx = s.lastCtx := rfl
@[simp] theorem State.send_vfs : (s.send m).vfs = s.vfs := rfl
@[simp] theorem State.send_numVfs : (s.send m).numVfs = s.numVfs := rfl
@[simp] theorem State.send_vfEnable : (s.send m).vfEnable = s.vfEnable := rfl
@[simp] theorem State.send_vfBar0 : (s.send m).vfBar0 = s.vfBar0 := rfl
@[simp] theorem State.send_bar2Base : (s.send m).bar2Base = s.bar2Base := rfl
@[simp] theorem State.send_ports : (s.send m).ports = s.ports := rfl
@[simp] theorem State.send_modid : (s.send m).modid = s.modid := rfl
@[simp] theorem State.send_tsync : (s.send m).tsync = s.tsync := rfl
@[simp] theorem State.send_rtmo : (s.send m).rtmo = s.rtmo := rfl
@[simp] theorem State.send_root : (s.send m).root = s.root := rfl
@[simp] theorem State.send_rootSeen : (s.send m).rootSeen = s.rootSeen := rfl
@[simp] theorem State.send_rootFix : (s.send m).rootFix = s.rootFix := rfl
@[simp] theorem State.send_synced : (s.send m).synced = s.synced := rfl
@[simp] theorem State.send_crewTlb : (s.send m).crewTlb = s.crewTlb := rfl
@[simp] theorem State.send_mseTlb : (s.send m).mseTlb = s.mseTlb := rfl
@[simp] theorem State.send_modesel : (s.send m).modesel = s.modesel := rfl
@[simp] theorem State.send_waitpoll : (s.send m).waitpoll = s.waitpoll := rfl
@[simp] theorem State.send_tlbBusy : (s.send m).tlbBusy = s.tlbBusy := rfl
@[simp] theorem State.send_tlbQueue : (s.send m).tlbQueue = s.tlbQueue := rfl
@[simp] theorem State.send_tlbKind : (s.send m).tlbKind = s.tlbKind := rfl
@[simp] theorem State.send_tlbinvr : (s.send m).tlbinvr = s.tlbinvr := rfl
@[simp] theorem State.send_tlbinva : (s.send m).tlbinva = s.tlbinva := rfl
@[simp] theorem State.send_preemptReg : (s.send m).preemptReg = s.preemptReg := rfl
@[simp] theorem State.send_fwimg : (s.send m).fwimg = s.fwimg := rfl
@[simp] theorem State.send_fwctl : (s.send m).fwctl = s.fwctl := rfl
@[simp] theorem State.send_errbase : (s.send m).errbase = s.errbase := rfl
@[simp] theorem State.send_errwr : (s.send m).errwr = s.errwr := rfl
@[simp] theorem State.send_errrd : (s.send m).errrd = s.errrd := rfl
@[simp] theorem State.send_errctl : (s.send m).errctl = s.errctl := rfl
@[simp] theorem State.send_errlost : (s.send m).errlost = s.errlost := rfl
@[simp] theorem State.send_errseq : (s.send m).errseq = s.errseq := rfl
@[simp] theorem State.send_unitres : (s.send m).unitres = s.unitres := rfl
@[simp] theorem State.send_unitActs : (s.send m).unitActs = s.unitActs := rfl
@[simp] theorem State.send_chret : (s.send m).chret = s.chret := rfl
@[simp] theorem State.send_chleft : (s.send m).chleft = s.chleft := rfl
@[simp] theorem State.send_chbusy : (s.send m).chbusy = s.chbusy := rfl
@[simp] theorem State.send_chmoving : (s.send m).chmoving = s.chmoving := rfl
@[simp] theorem State.send_chfailed : (s.send m).chfailed = s.chfailed := rfl
@[simp] theorem State.send_waitcfg : (s.send m).waitcfg = s.waitcfg := rfl
@[simp] theorem State.send_fw : (s.send m).fw = s.fw := rfl
@[simp] theorem State.send_keel : (s.send m).keel = s.keel := rfl
@[simp] theorem State.send_xlat : (s.send m).xlat = s.xlat := rfl
@[simp] theorem State.send_requests : (s.send m).requests = s.requests := rfl
@[simp] theorem State.send_posted : (s.send m).posted = s.posted := rfl
@[simp] theorem State.send_replies : (s.send m).replies = s.replies := rfl
@[simp] theorem State.send_arrivals : (s.send m).arrivals = s.arrivals := rfl
@[simp] theorem State.send_outside : (s.send m).outside = s.outside := rfl
@[simp] theorem State.send_unsent : (s.send m).unsent = s.unsent := rfl
@[simp] theorem State.send_traps : (s.send m).traps = s.traps := rfl
@[simp] theorem State.send_sysreqs : (s.send m).sysreqs = s.sysreqs := rfl
@[simp] theorem State.send_throttled : (s.send m).throttled = s.throttled := rfl
@[simp] theorem State.send_frozenMse : (s.send m).frozenMse = s.frozenMse := rfl
@[simp] theorem State.send_ide : (s.send m).ide = s.ide := rfl
end

/-! ## bumpId -/

section
variable (s : State)
@[simp] theorem State.bumpId_steps : (s.bumpId).steps = s.steps := rfl
@[simp] theorem State.bumpId_agenda : (s.bumpId).agenda = s.agenda := rfl
@[simp] theorem State.bumpId_shared : (s.bumpId).shared = s.shared := rfl
@[simp] theorem State.bumpId_pace : (s.bumpId).pace = s.pace := rfl
@[simp] theorem State.bumpId_turn : (s.bumpId).turn = s.turn := rfl
@[simp] theorem State.bumpId_port : (s.bumpId).port = s.port := rfl
@[simp] theorem State.bumpId_nextId : (s.bumpId).nextId = s.nextId + 1 := rfl
@[simp] theorem State.bumpId_cycle : (s.bumpId).cycle = s.cycle := rfl
@[simp] theorem State.bumpId_tick : (s.bumpId).tick = s.tick := rfl
@[simp] theorem State.bumpId_tickLag : (s.bumpId).tickLag = s.tickLag := rfl
@[simp] theorem State.bumpId_mem : (s.bumpId).mem = s.mem := rfl
@[simp] theorem State.bumpId_lines : (s.bumpId).lines = s.lines := rfl
@[simp] theorem State.bumpId_ctrs : (s.bumpId).ctrs = s.ctrs := rfl
@[simp] theorem State.bumpId_shadowCtr : (s.bumpId).shadowCtr = s.shadowCtr := rfl
@[simp] theorem State.bumpId_nodeCtrs : (s.bumpId).nodeCtrs = s.nodeCtrs := rfl
@[simp] theorem State.bumpId_cacheBad : (s.bumpId).cacheBad = s.cacheBad := rfl
@[simp] theorem State.bumpId_poisoned : (s.bumpId).poisoned = s.poisoned := rfl
@[simp] theorem State.bumpId_cores : (s.bumpId).cores = s.cores := rfl
@[simp] theorem State.bumpId_ctxs : (s.bumpId).ctxs = s.ctxs := rfl
@[simp] theorem State.bumpId_parts : (s.bumpId).parts = s.parts := rfl
@[simp] theorem State.bumpId_dies : (s.bumpId).dies = s.dies := rfl
@[simp] theorem State.bumpId_queues : (s.bumpId).queues = s.queues := rfl
@[simp] theorem State.bumpId_lastServed : (s.bumpId).lastServed = s.lastServed := rfl
@[simp] theorem State.bumpId_lastCtx : (s.bumpId).lastCtx = s.lastCtx := rfl
@[simp] theorem State.bumpId_vfs : (s.bumpId).vfs = s.vfs := rfl
@[simp] theorem State.bumpId_numVfs : (s.bumpId).numVfs = s.numVfs := rfl
@[simp] theorem State.bumpId_vfEnable : (s.bumpId).vfEnable = s.vfEnable := rfl
@[simp] theorem State.bumpId_vfBar0 : (s.bumpId).vfBar0 = s.vfBar0 := rfl
@[simp] theorem State.bumpId_bar2Base : (s.bumpId).bar2Base = s.bar2Base := rfl
@[simp] theorem State.bumpId_ports : (s.bumpId).ports = s.ports := rfl
@[simp] theorem State.bumpId_modid : (s.bumpId).modid = s.modid := rfl
@[simp] theorem State.bumpId_tsync : (s.bumpId).tsync = s.tsync := rfl
@[simp] theorem State.bumpId_rtmo : (s.bumpId).rtmo = s.rtmo := rfl
@[simp] theorem State.bumpId_root : (s.bumpId).root = s.root := rfl
@[simp] theorem State.bumpId_rootSeen : (s.bumpId).rootSeen = s.rootSeen := rfl
@[simp] theorem State.bumpId_rootFix : (s.bumpId).rootFix = s.rootFix := rfl
@[simp] theorem State.bumpId_synced : (s.bumpId).synced = s.synced := rfl
@[simp] theorem State.bumpId_crewTlb : (s.bumpId).crewTlb = s.crewTlb := rfl
@[simp] theorem State.bumpId_mseTlb : (s.bumpId).mseTlb = s.mseTlb := rfl
@[simp] theorem State.bumpId_modesel : (s.bumpId).modesel = s.modesel := rfl
@[simp] theorem State.bumpId_waitpoll : (s.bumpId).waitpoll = s.waitpoll := rfl
@[simp] theorem State.bumpId_tlbBusy : (s.bumpId).tlbBusy = s.tlbBusy := rfl
@[simp] theorem State.bumpId_tlbQueue : (s.bumpId).tlbQueue = s.tlbQueue := rfl
@[simp] theorem State.bumpId_tlbKind : (s.bumpId).tlbKind = s.tlbKind := rfl
@[simp] theorem State.bumpId_tlbinvr : (s.bumpId).tlbinvr = s.tlbinvr := rfl
@[simp] theorem State.bumpId_tlbinva : (s.bumpId).tlbinva = s.tlbinva := rfl
@[simp] theorem State.bumpId_preemptReg : (s.bumpId).preemptReg = s.preemptReg := rfl
@[simp] theorem State.bumpId_fwimg : (s.bumpId).fwimg = s.fwimg := rfl
@[simp] theorem State.bumpId_fwctl : (s.bumpId).fwctl = s.fwctl := rfl
@[simp] theorem State.bumpId_errbase : (s.bumpId).errbase = s.errbase := rfl
@[simp] theorem State.bumpId_errwr : (s.bumpId).errwr = s.errwr := rfl
@[simp] theorem State.bumpId_errrd : (s.bumpId).errrd = s.errrd := rfl
@[simp] theorem State.bumpId_errctl : (s.bumpId).errctl = s.errctl := rfl
@[simp] theorem State.bumpId_errlost : (s.bumpId).errlost = s.errlost := rfl
@[simp] theorem State.bumpId_errseq : (s.bumpId).errseq = s.errseq := rfl
@[simp] theorem State.bumpId_unitres : (s.bumpId).unitres = s.unitres := rfl
@[simp] theorem State.bumpId_unitActs : (s.bumpId).unitActs = s.unitActs := rfl
@[simp] theorem State.bumpId_chret : (s.bumpId).chret = s.chret := rfl
@[simp] theorem State.bumpId_chleft : (s.bumpId).chleft = s.chleft := rfl
@[simp] theorem State.bumpId_chbusy : (s.bumpId).chbusy = s.chbusy := rfl
@[simp] theorem State.bumpId_chmoving : (s.bumpId).chmoving = s.chmoving := rfl
@[simp] theorem State.bumpId_chfailed : (s.bumpId).chfailed = s.chfailed := rfl
@[simp] theorem State.bumpId_waitcfg : (s.bumpId).waitcfg = s.waitcfg := rfl
@[simp] theorem State.bumpId_fw : (s.bumpId).fw = s.fw := rfl
@[simp] theorem State.bumpId_keel : (s.bumpId).keel = s.keel := rfl
@[simp] theorem State.bumpId_xlat : (s.bumpId).xlat = s.xlat := rfl
@[simp] theorem State.bumpId_requests : (s.bumpId).requests = s.requests := rfl
@[simp] theorem State.bumpId_posted : (s.bumpId).posted = s.posted := rfl
@[simp] theorem State.bumpId_replies : (s.bumpId).replies = s.replies := rfl
@[simp] theorem State.bumpId_arrivals : (s.bumpId).arrivals = s.arrivals := rfl
@[simp] theorem State.bumpId_outside : (s.bumpId).outside = s.outside := rfl
@[simp] theorem State.bumpId_unsent : (s.bumpId).unsent = s.unsent := rfl
@[simp] theorem State.bumpId_traps : (s.bumpId).traps = s.traps := rfl
@[simp] theorem State.bumpId_sysreqs : (s.bumpId).sysreqs = s.sysreqs := rfl
@[simp] theorem State.bumpId_throttled : (s.bumpId).throttled = s.throttled := rfl
@[simp] theorem State.bumpId_frozenMse : (s.bumpId).frozenMse = s.frozenMse := rfl
@[simp] theorem State.bumpId_ide : (s.bumpId).ide = s.ide := rfl
end

/-! ## A strand of a core -/

section
variable (x : Core) (k : Nat) (t : Strand)
@[simp] theorem Core.setStrand_part : (x.setStrand k t).part = x.part := rfl
@[simp] theorem Core.setStrand_lcore : (x.setStrand k t).lcore = x.lcore := rfl
@[simp] theorem Core.setStrand_partw : (x.setStrand k t).partw = x.partw := rfl
@[simp] theorem Core.setStrand_handles : (x.setStrand k t).handles = x.handles := rfl
@[simp] theorem Core.setStrand_strands : (x.setStrand k t).strands = x.strands.setIfInBounds k t := rfl
@[simp] theorem Core.setStrand_lastSlot : (x.setStrand k t).lastSlot = x.lastSlot := rfl
@[simp] theorem Core.setStrand_spm : (x.setStrand k t).spm = x.spm := rfl
@[simp] theorem Core.setStrand_reserved : (x.setStrand k t).reserved = x.reserved := rfl
@[simp] theorem Core.setStrand_retiring : (x.setStrand k t).retiring = x.retiring := rfl
@[simp] theorem Core.setStrand_pubs : (x.setStrand k t).pubs = x.pubs := rfl
@[simp] theorem Core.setStrand_dcs : (x.setStrand k t).dcs = x.dcs := rfl
@[simp] theorem Core.setStrand_bars : (x.setStrand k t).bars = x.bars := rfl
@[simp] theorem Core.setStrand_track : (x.setStrand k t).track = x.track := rfl
@[simp] theorem Core.setStrand_items : (x.setStrand k t).items = x.items := rfl
@[simp] theorem Core.setStrand_sttcfg : (x.setStrand k t).sttcfg = x.sttcfg := rfl
@[simp] theorem Core.setStrand_sttPend : (x.setStrand k t).sttPend = x.sttPend := rfl
@[simp] theorem Core.setStrand_tags : (x.setStrand k t).tags = x.tags := rfl
@[simp] theorem Core.setStrand_stampNext : (x.setStrand k t).stampNext = x.stampNext := rfl
@[simp] theorem Core.setStrand_templates : (x.setStrand k t).templates = x.templates := rfl
@[simp] theorem Core.setStrand_chans : (x.setStrand k t).chans = x.chans := rfl
@[simp] theorem Core.setStrand_window : (x.setStrand k t).window = x.window := rfl
@[simp] theorem Core.setStrand_ageNext : (x.setStrand k t).ageNext = x.ageNext := rfl
@[simp] theorem Core.setStrand_ingress : (x.setStrand k t).ingress = x.ingress := rfl
@[simp] theorem Core.setStrand_ingressTurn : (x.setStrand k t).ingressTurn = x.ingressTurn := rfl
@[simp] theorem Core.setStrand_lval : (x.setStrand k t).lval = x.lval := rfl
@[simp] theorem Core.setStrand_lfmt : (x.setStrand k t).lfmt = x.lfmt := rfl
@[simp] theorem Core.setStrand_lmant : (x.setStrand k t).lmant = x.lmant := rfl
@[simp] theorem Core.setStrand_lexp : (x.setStrand k t).lexp = x.lexp := rfl
@[simp] theorem Core.setStrand_srsv : (x.setStrand k t).srsv = x.srsv := rfl
@[simp] theorem Core.setStrand_srsc : (x.setStrand k t).srsc = x.srsc := rfl
@[simp] theorem Core.setStrand_livem : (x.setStrand k t).livem = x.livem := rfl
@[simp] theorem Core.setStrand_staged : (x.setStrand k t).staged = x.staged := rfl
@[simp] theorem Core.setStrand_kernel : (x.setStrand k t).kernel = x.kernel := rfl
@[simp] theorem Core.setStrand_contribs : (x.setStrand k t).contribs = x.contribs := rfl
@[simp] theorem Core.setStrand_rounds : (x.setStrand k t).rounds = x.rounds := rfl
@[simp] theorem Core.setStrand_tlb : (x.setStrand k t).tlb = x.tlb := rfl
@[simp] theorem Core.setStrand_active : (x.setStrand k t).active = x.active := rfl
@[simp] theorem Core.setStrand_fresh : (x.setStrand k t).fresh = x.fresh := rfl
@[simp] theorem Core.setStrand_quiet : (x.setStrand k t).quiet = x.quiet := rfl
@[simp] theorem Core.setStrand_frozen : (x.setStrand k t).frozen = x.frozen := rfl
@[simp] theorem Core.setStrand_wkey : (x.setStrand k t).wkey = x.wkey := rfl
@[simp] theorem Core.setStrand_lead : (x.setStrand k t).lead = x.lead := rfl
@[simp] theorem Core.setStrand_lastPost : (x.setStrand k t).lastPost = x.lastPost := rfl
@[simp] theorem Core.setStrand_lastChan : (x.setStrand k t).lastChan = x.lastChan := rfl
@[simp] theorem Core.setStrand_dcNow : (x.setStrand k t).dcNow = x.dcNow := rfl
@[simp] theorem Core.setStrand_wasActive : (x.setStrand k t).wasActive = x.wasActive := rfl
@[simp] theorem Core.setStrand_wasFresh : (x.setStrand k t).wasFresh = x.wasFresh := rfl
end

/-! ## Reading after writing -/

@[simp] theorem State.core_setCore_self (s : State) (c : Nat) (x : Core) : (s.setCore c x).core c = x := by
  simp [State.core]
theorem State.core_setCore_other (s : State) {c d : Nat} (x : Core) (h : d ≠ c) : (s.setCore c x).core d = s.core d := by
  simp [State.core, tabGet_put_other _ _ _ h]
@[simp] theorem State.setCore_setCore (s : State) (c : Nat) (x y : Core) : (s.setCore c x).setCore c y = s.setCore c y := by
  simp [State.setCore]
@[simp] theorem State.part_setPart_self (s : State) (p : Nat) (x : Part) : (s.setPart p x).part p = x := by
  simp [State.part]
theorem State.part_setPart_other (s : State) {p q : Nat} (x : Part) (h : q ≠ p) : (s.setPart p x).part q = s.part q := by
  simp [State.part, tabGet_put_other _ _ _ h]
@[simp] theorem State.die_setDie_self (s : State) (d : Nat) (x : Die) : (s.setDie d x).die d = x := by
  simp [State.die]
theorem State.die_setDie_other (s : State) {d e : Nat} (x : Die) (h : e ≠ d) : (s.setDie d x).die e = s.die e := by
  simp [State.die, tabGet_put_other _ _ _ h]
@[simp] theorem State.queue_setQueue_self (s : State) (q : Nat) (x : Queue) : (s.setQueue q x).queue q = x := by
  simp [State.queue]
theorem State.queue_setQueue_other (s : State) {q r : Nat} (x : Queue) (h : r ≠ q) : (s.setQueue q x).queue r = s.queue r := by
  simp [State.queue, tabGet_put_other _ _ _ h]
@[simp] theorem State.vf_setVf_self (s : State) (v : Nat) (x : Vf) : (s.setVf v x).vf v = x := by
  simp [State.vf]
@[simp] theorem State.nport_setPort_self (s : State) (n : Nat) (x : Port) : (s.setPort n x).nport n = x := by
  simp [State.nport]
@[simp] theorem State.ctx_setCtx_self (s : State) (m n : Nat) (x : Ctx) : (s.setCtx m n x).ctx m n = some x := by
  simp [State.ctx]

theorem Core.strand_setStrand_self (x : Core) {k : Nat} (t : Strand) (h : k < 4) : (x.setStrand k t).strand k = t := by
  simp [Core.strand, Core.setStrand, h]
theorem Core.strand_setStrand_other (x : Core) {k j : Nat} (t : Strand) (h : j ≠ k) : (x.setStrand k t).strand j = x.strand j := by
  simp [Core.strand, Core.setStrand, Ne.symm h]
@[simp] theorem Core.setStrand_setStrand (x : Core) (k : Nat) (t u : Strand) : (x.setStrand k t).setStrand k u = x.setStrand k u := by
  unfold Core.setStrand
  congr 1
  ext i hi
  by_cases h : k = i <;> simp [h]

theorem State.strand_setStrand_self (s : State) (c : Nat) {k : Nat} (t : Strand) (h : k < 4) : (s.setStrand c k t).strand c k = t := by
  simp [State.strand, State.setStrand, Core.strand_setStrand_self _ _ h]
theorem State.strand_setStrand_slot (s : State) (c : Nat) {k j : Nat} (t : Strand) (h : j ≠ k) :
    (s.setStrand c k t).strand c j = s.strand c j := by
  simp [State.strand, State.setStrand, Core.strand_setStrand_other _ _ h]
theorem State.strand_setStrand_core (s : State) {c d : Nat} (k j : Nat) (t : Strand) (h : d ≠ c) :
    (s.setStrand c k t).strand d j = s.strand d j := by
  simp [State.strand, State.setStrand, State.core_setCore_other _ _ h]
@[simp] theorem State.setStrand_setStrand (s : State) (c k : Nat) (t u : Strand) :
    (s.setStrand c k t).setStrand c k u = s.setStrand c k u := by
  simp [State.setStrand]

end Sys2Proof.Machine
end

