-- ==== Sys2Proof/Laws/Run.lean ====
section
/-! SUPPORT. What the wrappers of Cox, vector and access words answer: the outcome for each effect of a word, and every outcome they can have. -/
namespace Sys2Proof.Machine

/-! ## Strands -/

section
variable {s : State} {c k : Nat} {long : Bool} {g : Guard} {uses : List Nat} {f : Nat → Nat → Strand → State → Eff}

/-- An instruction whose guard does not hold goes on at the next word with no effect (R173). -/
theorem State.coxRun_unguarded (h : s.Ready c k g) (hg : (s.guarded c k g).guard g = false) :
    s.coxRun long g uses f = .next ((s.setStrand c k (s.guarded c k g)).past c k ((s.guarded c k g).pc + wordBytes long)) := by
  unfold State.coxRun
  rw [h.turn]
  simp [h.free, h.room, hg]

/-- An instruction whose guard holds waits, with no effect, for a load outside the module that it uses (R174, R203). -/
theorem State.coxRun_operands (h : s.Ready c k g) (hg : (s.guarded c k g).guard g = true) (hw : (s.guarded c k g).mustWait uses = true) :
    s.coxRun long g uses f = .next (s.idle c) := by
  unfold State.coxRun
  rw [h.turn]
  simp [h.free, h.room, hg, hw]

/-- Once an instruction issues, its effect alone decides. -/
theorem State.coxRun_issues (h : s.Issues c k g uses) :
    s.coxRun long g uses f = match f c k (s.found c k g uses) (s.issued c k g uses) with
      | .done u => .next (u.past c k ((s.found c k g uses).pc + wordBytes long))
      | .jump u a => .next (u.past c k a)
      | .wait u h => .next (u.holds c k h)
      | .stay u => .next (u.idle c)
      | .trap cause info info1 =>
        if cause < 4 then .next (((s.issued c k g uses).await ((s.issued c k g uses).whoStrand c k) ⟨cause, info, info1⟩).idle c)
        else if (s.found c k g uses).loads.any (·.val.isNone) then .next ((s.issued c k g uses).idle c)
        else .next ((s.issued c k g uses).takeTrap c k cause info info1)
      | .over u => .next u := by
  unfold State.coxRun
  rw [h.turn]
  simp only [h.free, h.room, h.guard, h.operands, Bool.or_self, Bool.not_true, Bool.false_eq_true, if_false]
  rfl

theorem State.coxRun_done (h : s.Issues c k g uses) {u : State} (hf : f c k (s.found c k g uses) (s.issued c k g uses) = .done u) :
    s.coxRun long g uses f = .next (u.past c k ((s.found c k g uses).pc + wordBytes long)) := by
  rw [State.coxRun_issues h, hf]

theorem State.coxRun_jump (h : s.Issues c k g uses) {u : State} {a : Word64}
    (hf : f c k (s.found c k g uses) (s.issued c k g uses) = .jump u a) : s.coxRun long g uses f = .next (u.past c k a) := by
  rw [State.coxRun_issues h, hf]

theorem State.coxRun_wait (h : s.Issues c k g uses) {u : State} {w : Hold}
    (hf : f c k (s.found c k g uses) (s.issued c k g uses) = .wait u w) : s.coxRun long g uses f = .next (u.holds c k w) := by
  rw [State.coxRun_issues h, hf]

theorem State.coxRun_stay (h : s.Issues c k g uses) {u : State} (hf : f c k (s.found c k g uses) (s.issued c k g uses) = .stay u) :
    s.coxRun long g uses f = .next (u.idle c) := by
  rw [State.coxRun_issues h, hf]

theorem State.coxRun_over (h : s.Issues c k g uses) {u : State} (hf : f c k (s.found c k g uses) (s.issued c k g uses) = .over u) :
    s.coxRun long g uses f = .next u := by
  rw [State.coxRun_issues h, hf]

theorem State.coxRun_trap (h : s.Issues c k g uses) {cause : Nat} {info info1 : Word64}
    (hl : (s.found c k g uses).loads.any (·.val.isNone) = false) (hc : ¬ cause < 4)
    (hf : f c k (s.found c k g uses) (s.issued c k g uses) = .trap cause info info1) :
    s.coxRun long g uses f = .next ((s.issued c k g uses).takeTrap c k cause info info1) := by
  rw [State.coxRun_issues h, hf]
  simp [hl, hc]

/-- A word that must wait for its guard, or for one of 16 loads outside the module, changes nothing. -/
theorem State.coxRun_waits (ht : s.turn = .strand c k) (h : (s.turned c k).mustWait [64 + g.p] = true ∨ (s.turned c k).full = true) :
    s.coxRun long g uses f = .next (s.idle c) := by
  unfold State.coxRun
  rw [ht]
  rcases h with h | h <;> simp [h]

/-- A strand's word never refuses, and stops only without the turn. -/
theorem State.coxRun_next (ht : s.turn = .strand c k) : ∃ t, s.coxRun long g uses f = .next t := by
  unfold State.coxRun
  rw [ht]
  dsimp only
  repeat' split
  all_goals exact ⟨_, rfl⟩

end

/-- The strand that an instruction finds stands in the state it issues in. -/
theorem State.strand_issued (s : State) (c : Nat) {k : Nat} (g : Guard) (uses : List Nat) (h : k < 4) :
    (s.issued c k g uses).strand c k = s.found c k g uses := State.strand_setStrand_self _ _ _ h

/-- Going on after a change to the strand alone. -/
theorem State.past_issued_setStrand (s : State) (c : Nat) {k : Nat} (g : Guard) (uses : List Nat) (t : Strand) (a : Word64) :
    ((s.issued c k g uses).setStrand c k t).past c k a = (s.setStrand c k t).past c k a := by
  simp [State.issued]

theorem State.past_setStrand (s : State) (c : Nat) {k : Nat} (t : Strand) (a : Word64) (h : k < 4) :
    (s.setStrand c k t).past c k a = s.setStrand c k { t with pc := a, hold := none, got := [] } := by
  simp [State.past, State.onStrand, State.strand_setStrand_self _ _ _ h]

/-! What going on, holding and issuing leave of the module. -/

section
variable (s : State) (c k : Nat) (a : Word64) (h : Hold) (g : Guard) (uses : List Nat)
@[simp] theorem State.past_mem : (s.past c k a).mem = s.mem := rfl
@[simp] theorem State.past_ctxs : (s.past c k a).ctxs = s.ctxs := rfl
@[simp] theorem State.past_parts : (s.past c k a).parts = s.parts := rfl
@[simp] theorem State.past_dies : (s.past c k a).dies = s.dies := rfl
@[simp] theorem State.past_queues : (s.past c k a).queues = s.queues := rfl
@[simp] theorem State.past_port : (s.past c k a).port = s.port := rfl
@[simp] theorem State.past_nextId : (s.past c k a).nextId = s.nextId := rfl
@[simp] theorem State.past_requests : (s.past c k a).requests = s.requests := rfl
@[simp] theorem State.past_traps : (s.past c k a).traps = s.traps := rfl
@[simp] theorem State.past_sysreqs : (s.past c k a).sysreqs = s.sysreqs := rfl
@[simp] theorem State.past_steps : (s.past c k a).steps = s.steps := rfl
@[simp] theorem State.past_cycle : (s.past c k a).cycle = s.cycle := rfl
@[simp] theorem State.past_tick : (s.past c k a).tick = s.tick := rfl
@[simp] theorem State.past_errseq : (s.past c k a).errseq = s.errseq := rfl
@[simp] theorem State.past_poisoned : (s.past c k a).poisoned = s.poisoned := rfl
@[simp] theorem State.past_lines : (s.past c k a).lines = s.lines := rfl
@[simp] theorem State.past_ctrs : (s.past c k a).ctrs = s.ctrs := rfl
@[simp] theorem State.past_fw : (s.past c k a).fw = s.fw := rfl
@[simp] theorem State.past_keel : (s.past c k a).keel = s.keel := rfl
@[simp] theorem State.past_xlat : (s.past c k a).xlat = s.xlat := rfl
@[simp] theorem State.past_ports : (s.past c k a).ports = s.ports := rfl
@[simp] theorem State.holds_mem : (s.holds c k h).mem = s.mem := rfl
@[simp] theorem State.holds_ctxs : (s.holds c k h).ctxs = s.ctxs := rfl
@[simp] theorem State.holds_parts : (s.holds c k h).parts = s.parts := rfl
@[simp] theorem State.holds_dies : (s.holds c k h).dies = s.dies := rfl
@[simp] theorem State.holds_queues : (s.holds c k h).queues = s.queues := rfl
@[simp] theorem State.holds_port : (s.holds c k h).port = s.port := rfl
@[simp] theorem State.holds_nextId : (s.holds c k h).nextId = s.nextId := rfl
@[simp] theorem State.holds_requests : (s.holds c k h).requests = s.requests := rfl
@[simp] theorem State.holds_traps : (s.holds c k h).traps = s.traps := rfl
@[simp] theorem State.holds_sysreqs : (s.holds c k h).sysreqs = s.sysreqs := rfl
@[simp] theorem State.holds_steps : (s.holds c k h).steps = s.steps := rfl
@[simp] theorem State.holds_cycle : (s.holds c k h).cycle = s.cycle := rfl
@[simp] theorem State.holds_tick : (s.holds c k h).tick = s.tick := rfl
@[simp] theorem State.holds_errseq : (s.holds c k h).errseq = s.errseq := rfl
@[simp] theorem State.holds_poisoned : (s.holds c k h).poisoned = s.poisoned := rfl
@[simp] theorem State.holds_lines : (s.holds c k h).lines = s.lines := rfl
@[simp] theorem State.holds_ctrs : (s.holds c k h).ctrs = s.ctrs := rfl
@[simp] theorem State.holds_fw : (s.holds c k h).fw = s.fw := rfl
@[simp] theorem State.holds_keel : (s.holds c k h).keel = s.keel := rfl
@[simp] theorem State.holds_xlat : (s.holds c k h).xlat = s.xlat := rfl
@[simp] theorem State.holds_ports : (s.holds c k h).ports = s.ports := rfl
@[simp] theorem State.issued_mem : (s.issued c k g uses).mem = s.mem := rfl
@[simp] theorem State.issued_ctxs : (s.issued c k g uses).ctxs = s.ctxs := rfl
@[simp] theorem State.issued_parts : (s.issued c k g uses).parts = s.parts := rfl
@[simp] theorem State.issued_dies : (s.issued c k g uses).dies = s.dies := rfl
@[simp] theorem State.issued_queues : (s.issued c k g uses).queues = s.queues := rfl
@[simp] theorem State.issued_port : (s.issued c k g uses).port = s.port := rfl
@[simp] theorem State.issued_nextId : (s.issued c k g uses).nextId = s.nextId := rfl
@[simp] theorem State.issued_requests : (s.issued c k g uses).requests = s.requests := rfl
@[simp] theorem State.issued_traps : (s.issued c k g uses).traps = s.traps := rfl
@[simp] theorem State.issued_sysreqs : (s.issued c k g uses).sysreqs = s.sysreqs := rfl
@[simp] theorem State.issued_steps : (s.issued c k g uses).steps = s.steps := rfl
@[simp] theorem State.issued_cycle : (s.issued c k g uses).cycle = s.cycle := rfl
@[simp] theorem State.issued_tick : (s.issued c k g uses).tick = s.tick := rfl
@[simp] theorem State.issued_errseq : (s.issued c k g uses).errseq = s.errseq := rfl
@[simp] theorem State.issued_poisoned : (s.issued c k g uses).poisoned = s.poisoned := rfl
@[simp] theorem State.issued_lines : (s.issued c k g uses).lines = s.lines := rfl
@[simp] theorem State.issued_ctrs : (s.issued c k g uses).ctrs = s.ctrs := rfl
@[simp] theorem State.issued_fw : (s.issued c k g uses).fw = s.fw := rfl
@[simp] theorem State.issued_keel : (s.issued c k g uses).keel = s.keel := rfl
@[simp] theorem State.issued_xlat : (s.issued c k g uses).xlat = s.xlat := rfl
@[simp] theorem State.issued_ports : (s.issued c k g uses).ports = s.ports := rfl
end

/-- A core after one of its strands has changed. -/
@[simp] theorem State.core_setStrand_self (s : State) (c k : Nat) (t : Strand) : (s.setStrand c k t).core c = (s.core c).setStrand k t := by
  simp [State.setStrand]
theorem State.core_setStrand_other (s : State) {c d : Nat} (k : Nat) (t : Strand) (h : d ≠ c) : (s.setStrand c k t).core d = s.core d := by
  simp [State.setStrand, State.core_setCore_other _ _ h]
@[simp] theorem State.strand_setCore_self (s : State) (c k : Nat) (x : Core) : (s.setCore c x).strand c k = x.strand k := by
  simp [State.strand]
@[simp] theorem State.core_past (s : State) (c k : Nat) (a : Word64) :
    (s.past c k a).core c = (s.core c).setStrand k { s.strand c k with pc := a, hold := none, got := [] } := by simp [State.past, State.onStrand]
theorem State.core_past_other (s : State) {c d : Nat} (k : Nat) (a : Word64) (h : d ≠ c) : (s.past c k a).core d = s.core d := by
  simp [State.past, State.onStrand, State.core_setStrand_other _ _ _ h]
theorem State.strand_past (s : State) (c : Nat) {k : Nat} (a : Word64) (h : k < 4) :
    (s.past c k a).strand c k = { s.strand c k with pc := a, hold := none, got := [] } := State.strand_setStrand_self _ _ _ h
@[simp] theorem State.core_holds (s : State) (c k : Nat) (w : Hold) :
    (s.holds c k w).core c = (s.core c).setStrand k { s.strand c k with hold := some w } := by simp [State.holds, State.onStrand]
theorem State.strand_holds (s : State) (c : Nat) {k : Nat} (w : Hold) (h : k < 4) :
    (s.holds c k w).strand c k = { s.strand c k with hold := some w } := State.strand_setStrand_self _ _ _ h
@[simp] theorem State.core_issued (s : State) (c k : Nat) (g : Guard) (uses : List Nat) :
    (s.issued c k g uses).core c = (s.core c).setStrand k (s.found c k g uses) := by simp [State.issued]

/-- The launch part of a core, and a part, do not change with a strand. -/
@[simp] theorem State.corePart_setStrand (s : State) (c k : Nat) (t : Strand) (d : Nat) : (s.setStrand c k t).corePart d = s.corePart d := by
  unfold State.corePart
  by_cases h : d = c
  · subst h; rw [State.core_setStrand_self]; rfl
  · rw [State.core_setStrand_other _ _ _ h]; rfl
@[simp] theorem State.corePart_issued (s : State) (c k : Nat) (g : Guard) (uses : List Nat) (d : Nat) :
    (s.issued c k g uses).corePart d = s.corePart d := State.corePart_setStrand _ _ _ _ _
@[simp] theorem State.corePart_past (s : State) (c k : Nat) (a : Word64) (d : Nat) : (s.past c k a).corePart d = s.corePart d :=
  State.corePart_setStrand _ _ _ _ _
@[simp] theorem State.corePart_holds (s : State) (c k : Nat) (w : Hold) (d : Nat) : (s.holds c k w).corePart d = s.corePart d :=
  State.corePart_setStrand _ _ _ _ _

/-! ## Access contexts -/

section
variable {s : State} {m x : Nat} {t : Ctx} {f : Nat → Nat → Ctx → State → AEff}

theorem State.ctxRun_turn (h : s.CtxTurn m x t) :
    s.ctxRun f = match f m x t s with
      | .hold => .next (s.setCtx m x { t with waits := true })
      | .fault c => .next (s.ctxFault m x c)
      | .part t1 u c => .next ((u.setCtx m x t1).ctxFault m x c)
      | .done t1 u => .next (u.ctxGoes m x t1 (t1.apc + 1))
      | .jump t1 u pc =>
        if pc < 0 ∨ pc ≥ ((((s.progOf t).map (·.len)).getD 0 / 4 : Nat) : Int) then .next (s.ctxFault m x ⟨0x314, w64 pc, 0⟩)
        else .next (u.ctxGoes m x t1 pc.toNat) := by
  cases e : f m x t s <;> simp only [State.ctxRun, h.turn, h.here, e]

/-- A word that goes on at the next one. -/
theorem State.ctxRun_done (h : s.CtxTurn m x t) {t1 : Ctx} {u : State} (hf : f m x t s = .done t1 u) :
    s.ctxRun f = .next (u.ctxGoes m x t1 (t1.apc + 1)) := by
  rw [State.ctxRun_turn h, hf]

end

/-! ## Vector kernels -/

section
variable {s : State} {c : Nat} {k : Kernel} {reads : List Nat} {dst : Nat}
  {f : Nat → Kernel → State → Acc (State × Option Kernel × Option (Nat × Lanes))}

theorem State.vecRun_turn (h : s.KernelTurn c k) :
    s.vecRun reads dst f = match f c { (s.vecFound c k).2 with next := k.next + 4 } (s.vecFound c k).1 with
      | .bad x => .next (s.kernelFault c x)
      | .part _ x => .next (s.kernelFault c x)
      | .wait w => .next (s.wait w)
      | .ok (u, none, _) => .next ((u.onCore c fun x => { x with kernel := none, active := true, fresh := true }).spend (.task c k.entry))
      | .ok (u, some q, none) => .next (State.vecWord (u, q) c k.entry (k.posn + 1) reads)
      | .ok (u, some q, some (w, l)) => .next (State.vecWrote (u, q) c k.entry k.posn reads dst w l) := by
  unfold State.vecRun
  rw [h.turn]
  dsimp only
  rw [h.here]
  dsimp only [State.vecFound]
  split <;> rename_i he <;> rw [he]
  rename_i u q out
  cases out <;> rfl

end

end Sys2Proof.Machine
end

