-- ==== Sys2Proof/Machine/Encrypt.lean ====
section
/-! DEFINITION. What stands in the stacks for a line of tier 0 and for a counter block (R371, R372): ciphertext and MACs, computed from the plain bytes and counters that State holds. The spec names AES-256 and KMAC256; their definitions are the published ones (FIPS 197, SP 800-185; log 105). -/
namespace Sys2Proof.Machine

/-! ## AES-256 (FIPS 197) -/

/-- Multiplication by x in the field of AES. -/
def xtime (b : Byte) : Byte := (b <<< 1) ^^^ (if b.getLsbD 7 then 0x1B#8 else 0)

/-- Multiplication in the field of AES, over the bits n - 1 to 0 of the second operand. -/
def gmulBits (a b : Byte) : Nat → Byte
  | 0 => 0
  | n + 1 => xtime (gmulBits a b n) ^^^ (if b.getLsbD (7 - n) then a else 0)

def gmul (a b : Byte) : Byte := gmulBits a b 8

/-- a to the power 2^(n+1) - 2; with n = 7 the inverse, 0 for 0. -/
def gpow (a : Byte) : Nat → Byte
  | 0 => 1
  | n + 1 => let p := gpow a n; gmul (gmul p p) (gmul a a)

/-- The substitution of a byte. -/
def sbox (a : Byte) : Byte :=
  let b := gpow a 7
  b ^^^ b.rotateLeft 1 ^^^ b.rotateLeft 2 ^^^ b.rotateLeft 3 ^^^ b.rotateLeft 4 ^^^ 0x63#8

def xorBytes (a b : ByteList) : ByteList := List.zipWith (· ^^^ ·) a b

/-- The next word of the key schedule of a key of 8 words: i is its number, the list holds the words before it, the last one first. -/
def nextKeyWord (i : Nat) (l : List ByteList) (rcon : Byte) : ByteList :=
  let t := l.headD []
  let u := if i % 8 = 0 then xorBytes (((t.drop 1) ++ t.take 1).map sbox) [rcon, 0, 0, 0] else if i % 8 = 4 then t.map sbox else t
  xorBytes (l.getD 7 []) u

/-- The key schedule: n more words. -/
def keyWords : Nat → Nat → Byte → List ByteList → List ByteList
  | 0, _, _, l => l.reverse
  | n + 1, i, rcon, l => keyWords n (i + 1) (if i % 8 = 0 then xtime rcon else rcon) (nextKeyWord i l rcon :: l)

/-- ShiftRows of a block, column by column. -/
def shiftRows (b : ByteList) : ByteList := (List.range 16).map fun i => b.getD ((i + 4 * (i % 4)) % 16) 0

/-- MixColumns. -/
def mixColumns (b : ByteList) : ByteList :=
  (List.range 16).map fun i =>
    let at_ := fun (k : Nat) => b.getD (i / 4 * 4 + (i + k) % 4) 0
    xtime (at_ 0) ^^^ (xtime (at_ 1) ^^^ at_ 1) ^^^ at_ 2 ^^^ at_ 3

/-- AES-256 of a block of 16 bytes under a key of 32. -/
def aes256 (key block : ByteList) : ByteList :=
  let w := keyWords 52 8 1#8 (chunks 4 8 key).reverse
  let rk := fun (r : Nat) => ((w.drop (4 * r)).take 4).flatten
  let mid := (List.range 13).foldl (fun b r => xorBytes (mixColumns (shiftRows (b.map sbox))) (rk (r + 1))) (xorBytes block (rk 0))
  xorBytes (shiftRows (mid.map sbox)) (rk 14)

/-! ## KMAC256 (SP 800-185) -/

/-- Bytes of a number, the most significant first, at least one. -/
def bigEndian (n : Nat) : ByteList := if n < 256 then [BitVec.ofNat 8 n] else [BitVec.ofNat 8 (n / 256), BitVec.ofNat 8 n]

def leftEncode (n : Nat) : ByteList := BitVec.ofNat 8 (bigEndian n).length :: bigEndian n
def rightEncode (n : Nat) : ByteList := bigEndian n ++ [BitVec.ofNat 8 (bigEndian n).length]
def encodeString (b : ByteList) : ByteList := leftEncode (8 * b.length) ++ b

/-- Padding with zeros to a multiple of 136 bytes. -/
def bytePad (b : ByteList) : ByteList :=
  let c := leftEncode 136 ++ b
  c ++ List.replicate ((136 - c.length % 136) % 136) 0#8

/-- The padding of cSHAKE256: 0x04, zeros, and the top bit of the last byte of a block. -/
def cshakePad (b : ByteList) : ByteList :=
  let n := 136 - b.length % 136
  b ++ (if n = 1 then [0x84#8] else [0x04#8] ++ List.replicate (n - 2) 0#8 ++ [0x80#8])

/-- KMAC256 with an output of 64 bits: the key, the bytes, the customization string. -/
def kmac64 (key b custom : ByteList) : Word64 :=
  let name : ByteList := [0x4B#8, 0x4D#8, 0x41#8, 0x43#8]
  let p := cshakePad (bytePad (encodeString name ++ encodeString custom) ++ bytePad (encodeString key) ++ b ++ rightEncode 64)
  ((chunks 136 (p.length / 136) p).foldl absorbBlock (Vector.replicate 25 0))[0]?.getD 0

/-! ## Lines and counter blocks (R371, R372) -/

/-- The input Q_i (R371), its bits [127:120] first (log 105). -/
def lineInput (ctr la k i : Nat) : ByteList := (leBytes 16 (ctr * 2 ^ 72 + la * 2 ^ 38 + k * 2 ^ 31 + i)).reverse

/-- The ciphertext of a line's 64 bytes under the key pair of a tag. -/
def cipherLine (tag ctr la k : Nat) (b : ByteList) : ByteList :=
  (List.range 4).flatMap fun i => xorBytes (slice b (16 * i) 16) (aes256 (Config.dataKey tag) (lineInput ctr la k i))

/-- The customization string DRML (R371). -/
def drml : ByteList := [0x44#8, 0x52#8, 0x4D#8, 0x4C#8]

/-- The MAC of a line's ciphertext with its counter, logical address and key identifier (R371; log 105). -/
def lineMac (tag ctr la k : Nat) (cipher : ByteList) : Word64 :=
  kmac64 (Config.macKey tag) (cipher ++ leBytes 7 ctr ++ leBytes 5 la ++ leBytes 1 k) drml

/-- What the stacks hold of the physical line at a key, written last under an identifier: its ciphertext and its MAC; plain zeros and MAC 0 before any write (R371). -/
def State.storedLine (s : State) (key k : Nat) : ByteList × Word64 :=
  let m := s.lineAt key
  let b := memList s.mem (key / 64 * 64) 64
  if m.tag = 0 then (b, 0)
  else
    let c := cipherLine m.tag m.ctr.toNat (m.la % 2 ^ 34) k b
    (c, lineMac m.tag m.ctr.toNat (m.la % 2 ^ 34) k c)

/-- The counters of the leaf block or tree node that covers a device physical address: those of its 8 lines, or the ones it holds for its 8 children (R372). -/
def State.blockCounters (s : State) (level dpa : Nat) : List (BitVec 56) :=
  let n := dpa / 64 / 8 ^ (level + 1)
  if level = 0 then tabList 0 s.ctrs (8 * n) 8 else (List.range 8).map fun i => s.nodeCtr (level - 1 + 16 * (8 * n + i))

/-- The MAC of a leaf block or tree node (R372): over its counters, under identifier 0's MAC key, bound to the counter that its parent holds for it. -/
def State.blockMac (s : State) (level dpa : Nat) : Word64 :=
  kmac64 (Config.macKey (s.keyTag 0)) ((s.blockCounters level dpa).flatMap (fun c => leBytes 7 c.toNat) ++ leBytes 7 (s.nodeCtr (treeNode level dpa)).toNat) drml

end Sys2Proof.Machine
end

