-- ==== Sys2Proof/Tests/Slice0.lean ====
section
/-! SUPPORT. Tests: instruction words written out from the encoding tables of the spec and what they decode to; ill-formed terms for each check of WellFormed; for every statement with hypotheses a state and operands that meet them; single steps, with the results that the spec's worked examples give. -/
open Sys2Proof Sys2Proof.Machine

set_option Elab.async false

namespace Sys2Proof.Tests

theorem test_decode_cox_integer : ∀ x ∈ ([
    (0x1C08A30E, 0x00000000, .add ⟨3, true⟩ 5 6 7),
    (0x1C10A30E, 0x00000000, .sub ⟨3, true⟩ 5 6 7),
    (0x1C18A30E, 0x00000000, .mul ⟨3, true⟩ 5 6 7),
    (0x1C20A30E, 0x00000000, .mulh ⟨3, true⟩ 5 6 7),
    (0x1C28A30E, 0x00000000, .div ⟨3, true⟩ 5 6 7),
    (0x1C30A30E, 0x00000000, .rem ⟨3, true⟩ 5 6 7),
    (0x1C40A30E, 0x00000000, .and ⟨3, true⟩ 5 6 7),
    (0x1C48A30E, 0x00000000, .or ⟨3, true⟩ 5 6 7),
    (0x1C50A30E, 0x00000000, .xor ⟨3, true⟩ 5 6 7),
    (0x1C58A30E, 0x00000000, .andn ⟨3, true⟩ 5 6 7),
    (0x1C60A30E, 0x00000000, .shl ⟨3, true⟩ 5 6 7),
    (0x1C68A30E, 0x00000000, .shr ⟨3, true⟩ 5 6 7),
    (0x1C70A30E, 0x00000000, .sra ⟨3, true⟩ 5 6 7),
    (0x1C78A30E, 0x00000000, .rol ⟨3, true⟩ 5 6 7),
    (0x1C80A30E, 0x00000000, .min ⟨3, true⟩ 5 6 7),
    (0x1C88A30E, 0x00000000, .max ⟨3, true⟩ 5 6 7)] : List (Nat × Nat × Instr)),
    decodeCoxPair x.1 x.2.1 = some x.2.2 := by decide +kernel

theorem test_decode_cox_integerLong : ∀ x ∈ ([
    (0x0008A301, 0x000186A0, .addLong ⟨0, false⟩ 5 6 0x000186A0),
    (0x0010A301, 0x000186A0, .subLong ⟨0, false⟩ 5 6 0x000186A0),
    (0x0018A301, 0x000186A0, .mulLong ⟨0, false⟩ 5 6 0x000186A0),
    (0x0020A301, 0x000186A0, .mulhLong ⟨0, false⟩ 5 6 0x000186A0),
    (0x0028A301, 0x000186A0, .divLong ⟨0, false⟩ 5 6 0x000186A0),
    (0x0030A301, 0x000186A0, .remLong ⟨0, false⟩ 5 6 0x000186A0),
    (0x0040A301, 0x000186A0, .andLong ⟨0, false⟩ 5 6 0x000186A0),
    (0x0048A301, 0x000186A0, .orLong ⟨0, false⟩ 5 6 0x000186A0),
    (0x0050A301, 0x000186A0, .xorLong ⟨0, false⟩ 5 6 0x000186A0),
    (0x0058A301, 0x000186A0, .andnLong ⟨0, false⟩ 5 6 0x000186A0),
    (0x0060A301, 0x000186A0, .shlLong ⟨0, false⟩ 5 6 0x000186A0),
    (0x0068A301, 0x000186A0, .shrLong ⟨0, false⟩ 5 6 0x000186A0),
    (0x0070A301, 0x000186A0, .sraLong ⟨0, false⟩ 5 6 0x000186A0),
    (0x0078A301, 0x000186A0, .rolLong ⟨0, false⟩ 5 6 0x000186A0),
    (0x0080A301, 0x000186A0, .minLong ⟨0, false⟩ 5 6 0x000186A0),
    (0x0088A301, 0x000186A0, .maxLong ⟨0, false⟩ 5 6 0x000186A0)] : List (Nat × Nat × Instr)),
    decodeCoxPair x.1 x.2.1 = some x.2.2 := by decide +kernel

theorem test_decode_cox_unary : ∀ x ∈ ([
    (0xB897E080, 0x00000000, .clz ⟨23, false⟩ 63 1),
    (0xB89FE080, 0x00000000, .ctz ⟨23, false⟩ 63 1),
    (0xB8A7E080, 0x00000000, .popc ⟨23, false⟩ 63 1),
    (0xB8D7E080, 0x00000000, .mov ⟨23, false⟩ 63 1),
    (0x00B850BE, 0x00000000, .sext ⟨0, false⟩ 2 33 31),
    (0x00C050BE, 0x00000000, .zext ⟨0, false⟩ 2 33 31),
    (0x00C93FFA, 0x00000000, .li ⟨0, false⟩ 9 0xFFD),
    (0x00C92001, 0x80000000, .liLong ⟨0, false⟩ 9 0x80000000),
    (0x00C92081, 0x12345678, .liH ⟨0, false⟩ 9 0x12345678),
    (0x00E13004, 0x00000000, .lea ⟨0, false⟩ 9 0x802),
    (0x00E12001, 0xFFFFFF00, .leaLong ⟨0, false⟩ 9 0xFFFFFF00)] : List (Nat × Nat × Instr)),
    decodeCoxPair x.1 x.2.1 = some x.2.2 := by decide +kernel

theorem test_decode_cox_fields : ∀ x ∈ ([
    (0x00A8A301, 0x000010C8, .bfx ⟨0, false⟩ 5 6 8 3 true),
    (0x00B0A301, 0x000003F0, .bfi ⟨0, false⟩ 5 6 48 15),
    (0x00D8A30F, 0x00000037, .sel ⟨0, false⟩ 5 6 7 23 true),
    (0x00E8A301, 0x000000FF, .hoff ⟨0, false⟩ 5 6 255),
    (0x0100A381, 0xFFFD0035, .cmp ⟨0, false⟩ 5 7 .ge (.imm 0xFFFD) .and),
    (0x0102E393, 0x00000049, .cmp ⟨0, false⟩ 23 7 .geu (.reg 9) .or)] : List (Nat × Nat × Instr)),
    decodeCoxPair x.1 x.2.1 = some x.2.2 := by decide +kernel

theorem test_decode_cox_predicates : ∀ x ∈ ([
    (0x01082B2E, 0x00000000, .pand ⟨0, false⟩ 1 22 23),
    (0x01102B2E, 0x00000000, .por ⟨0, false⟩ 1 22 23),
    (0x01182B2E, 0x00000000, .pxor ⟨0, false⟩ 1 22 23),
    (0x01202B00, 0x00000000, .pnot ⟨0, false⟩ 1 22),
    (0x012FC000, 0x00000000, .pget ⟨0, false⟩ 62),
    (0x01301EFC, 0x00000000, .pset ⟨0, false⟩ 61 62)] : List (Nat × Nat × Instr)),
    decodeCoxPair x.1 x.2.1 = some x.2.2 := by decide +kernel

theorem test_decode_cox_floating : ∀ x ∈ ([
    (0x0540A30E, 0x00000000, .fadd ⟨0, true⟩ 5 6 7),
    (0x0140A301, 0x3F800000, .faddLong ⟨0, false⟩ 5 6 0x3F800000),
    (0x0548A30E, 0x00000000, .fsub ⟨0, true⟩ 5 6 7),
    (0x0148A301, 0x3F800000, .fsubLong ⟨0, false⟩ 5 6 0x3F800000),
    (0x0550A30E, 0x00000000, .fmul ⟨0, true⟩ 5 6 7),
    (0x0150A301, 0x3F800000, .fmulLong ⟨0, false⟩ 5 6 0x3F800000),
    (0x0560A30E, 0x00000000, .fdiv ⟨0, true⟩ 5 6 7),
    (0x0160A301, 0x3F800000, .fdivLong ⟨0, false⟩ 5 6 0x3F800000),
    (0x0568A30E, 0x00000000, .fmin ⟨0, true⟩ 5 6 7),
    (0x0168A301, 0x3F800000, .fminLong ⟨0, false⟩ 5 6 0x3F800000),
    (0x0570A30E, 0x00000000, .fmax ⟨0, true⟩ 5 6 7),
    (0x0170A301, 0x3F800000, .fmaxLong ⟨0, false⟩ 5 6 0x3F800000),
    (0x0588A30E, 0x00000000, .fsgn ⟨0, true⟩ 5 6 7),
    (0x0188A301, 0x3F800000, .fsgnLong ⟨0, false⟩ 5 6 0x3F800000),
    (0x0158A30E, 0x00000000, .ffma ⟨0, false⟩ 5 6 7),
    (0x0178430F, 0x00000006, .fcmp ⟨0, false⟩ 2 6 7 .un .write),
    (0x0180A324, 0x00000000, .fcvt ⟨0, false⟩ 5 6 .bf16F32 .rpi)] : List (Nat × Nat × Instr)),
    decodeCoxPair x.1 x.2.1 = some x.2.2 := by decide +kernel

theorem test_decode_cox_control : ∀ x ∈ ([
    (0x01C7FFFC, 0x00000000, .br ⟨0, false⟩ 0x3FFFE),
    (0x01C00001, 0xFFFFFFFE, .brLong ⟨0, false⟩ 0xFFFFFFFE),
    (0x01CFCFFE, 0x00000000, .call ⟨0, false⟩ 62 0x7FF),
    (0x01CFC001, 0x00001000, .callLong ⟨0, false⟩ 62 0x00001000),
    (0x01D01F00, 0x00000000, .ret ⟨0, false⟩ 62),
    (0x01D82100, 0x00000000, .jr ⟨0, false⟩ 1 2),
    (0x01E09FFC, 0x00000000, .loop ⟨0, false⟩ 4 0xFFE),
    (0x01E08001, 0xFFFFFFFE, .loopLong ⟨0, false⟩ 4 0xFFFFFFFE),
    (0x01E94587, 0x00000300, .dspt ⟨0, false⟩ 10 11 3 (.rel 0x300)),
    (0x01E945BF, 0x001FFFF8, .dspt ⟨0, false⟩ 10 11 15 (.loc 0x1FFFF8))] : List (Nat × Nat × Instr)),
    decodeCoxPair x.1 x.2.1 = some x.2.2 := by decide +kernel

theorem test_decode_cox_memory : ∀ x ∈ ([
    (0x0200A355, 0x00000040, .ldLong ⟨0, false⟩ 5 6 .w .g false true 0x40),
    (0x0200A320, 0x00000000, .ld ⟨0, false⟩ 5 6 .b .l true false),
    (0x0208A32E, 0x00000000, .st ⟨0, false⟩ 5 6 .d .c true),
    (0x0208A313, 0xFFFFFFF8, .stLong ⟨0, false⟩ 5 6 .h .g false 0xFFFFFFF8),
    (0x0210A37E, 0x00000000, .probe ⟨0, false⟩ 5 6 0x3F),
    (0x0210A301, 0x00000080, .probeLong ⟨0, false⟩ 5 6 0x80),
    (0x02180300, 0x00000000, .unpin ⟨0, false⟩ 6),
    (0x0220A30F, 0x000005D8, .amo ⟨0, false⟩ 5 6 7 .swap .c .d .gang),
    (0x0228A30F, 0x0000BCA0, .cas ⟨0, false⟩ 5 6 7 .g .w .package 23)] : List (Nat × Nat × Instr)),
    decodeCoxPair x.1 x.2.1 = some x.2.2 := by decide +kernel

theorem test_decode_cox_order : ∀ x ∈ ([
    (0x0240000A, 0x00000000, .fence ⟨0, false⟩ .gang),
    (0x02488013, 0x00008805, .fenceR ⟨0, false⟩ .package [.handle 5, .regs 8 .g]),
    (0x0257E001, 0x0000007E, .track ⟨0, false⟩ 31 (.regs 62 .c)),
    (0x025BE000, 0x00000000, .untrack ⟨0, false⟩ 31),
    (0x02600001, 0x000000FF, .pub ⟨0, false⟩ (.handle 255)),
    (0x0280000E, 0x00000000, .tbar ⟨0, false⟩ 7)] : List (Nat × Nat × Instr)),
    decodeCoxPair x.1 x.2.1 = some x.2.2 := by decide +kernel

theorem test_decode_cox_tasks : ∀ x ∈ ([
    (0x0288A01E, 0x00000000, .tid ⟨0, false⟩ 5 (.f 7)),
    (0x0288A022, 0x00000000, .tid ⟨0, false⟩ 5 .t),
    (0x02950001, 0xFFFFFF0F, .cinit ⟨0, false⟩ 40 15 0xFFFFFF),
    (0x029D0412, 0x00000000, .cexp ⟨0, false⟩ 40 9 8),
    (0x029D0013, 0x00001000, .cexpLong ⟨0, false⟩ 40 9 0x1000),
    (0x02A50192, 0x00000000, .cwait ⟨0, false⟩ 40 9 3),
    (0x02AD0012, 0x00000000, .crel ⟨0, false⟩ 40 9),
    (0x02B07412, 0x00000000, .ctry ⟨0, false⟩ 3 40 9),
    (0x02C01400, 0x00000000, .post ⟨0, false⟩ 40),
    (0x02C07402, 0x00000000, .postNb ⟨0, false⟩ 3 40),
    (0x02C87453, 0x00000BFF, .postr ⟨0, false⟩ 3 40 41 1023 false true),
    (0x02D07453, 0x00000400, .postt ⟨0, false⟩ 3 40 41 0 true),
    (0x02D07401, 0x000001FF, .postt ⟨0, false⟩ 3 40 0 511 false),
    (0x02DFF40E, 0x00000000, .dcset ⟨0, false⟩ 511 40),
    (0x02D82003, 0x000FFFFF, .dcsetLong ⟨0, false⟩ 65 0xFFFFF),
    (0x02E03402, 0x00000000, .dcadd ⟨0, false⟩ 65 40),
    (0x02E02003, 0xFFFFFFFF, .dcaddLong ⟨0, false⟩ 65 0xFFFFFFFF),
    (0x02E84004, 0x00000000, .dcwait ⟨0, false⟩ 130),
    (0x02F07452, 0x00000000, .sta ⟨0, false⟩ 3 40 41),
    (0x02F07453, 0x0000FFFF, .staLong ⟨0, false⟩ 3 40 41 0xFFFF),
    (0x0300A30F, 0x0FFF3F7F, .sbind ⟨0, false⟩ 5 6 7 127 63 0xFFF),
    (0x0308740E, 0x00000000, .cqpush ⟨0, false⟩ 3 40 7),
    (0x0310000E, 0x00000000, .sstop ⟨0, false⟩ 7)] : List (Nat × Nat × Instr)),
    decodeCoxPair x.1 x.2.1 = some x.2.2 := by decide +kernel

theorem test_decode_cox_system : ∀ x ∈ ([
    (0x03186000, 0x00000000, .yield ⟨0, false⟩ 3),
    (0x03201400, 0x00000000, .live ⟨0, false⟩ 40),
    (0x03200001, 0xFFFF0000, .liveLong ⟨0, false⟩ 0xFFFF0000),
    (0x03800246, 0x00000000, .trap ⟨0, false⟩ 0x123),
    (0x0388A302, 0x00000000, .sys ⟨0, false⟩ 5 6 .notify),
    (0x03900000, 0x00000000, .rett ⟨0, false⟩),
    (0x0398A208, 0x00000000, .mfs ⟨0, false⟩ 5 0x104),
    (0x03A08308, 0x00000000, .mts ⟨0, false⟩ 0x104 6),
    (0xBFA80000, 0x00000000, .halt ⟨23, true⟩),
    (0x03B00000, 0x00000000, .exit ⟨0, false⟩),
    (0x08000000, 0x00000000, .nop ⟨1, false⟩)] : List (Nat × Nat × Instr)),
    decodeCoxPair x.1 x.2.1 = some x.2.2 := by decide +kernel

theorem test_decode_vector_lanes : ∀ x ∈ ([
    (0x07FC0A7C, .vadd true 63 64 83 7 .f32),
    (0x0BFC0A7D, .vsub true 63 64 83 7 .bf16),
    (0x0FFC0A7E, .vmul true 63 64 83 7 .i32),
    (0x13FC0A7F, .vfma true 63 64 83 7 .i16),
    (0x17FC0A7C, .vmin true 63 64 83 7 .f32),
    (0x1BFC0A7D, .vmax true 63 64 83 7 .bf16),
    (0x27FC0A7E, .vand true 63 64 83 7 .i32),
    (0x2BFC0A7F, .vor true 63 64 83 7 .i16),
    (0x2FFC0A7C, .vxor true 63 64 83 7 .f32),
    (0x47FC0A7D, .vsel true 63 64 83 7 .bf16),
    (0x4FFC0A7E, .vbcst true 63 64 83 7 .i32),
    (0xAFFC0A7F, .vprm true 63 64 83 7 .i16),
    (0x101818C5, .vfma false 3 1 70 1 .bf16),
    (0x30082062, .vshl false 1 2 3 0 .i32),
    (0x34082063, .vshr false 1 2 3 0 .i16),
    (0x38082062, .vsra false 1 2 3 0 .i32),
    (0x1C0C3008, .vabs false 1 67 2 .f32),
    (0x200C3009, .vneg false 1 67 2 .bf16),
    (0x480C300A, .vmov false 1 67 2 .i32),
    (0x600C300B, .vreds false 1 67 2 .i16),
    (0x640C3008, .vredm false 1 67 2 .f32),
    (0x680C3009, .vredn false 1 67 2 .bf16)] : List (Nat × Instr)),
    decodeVector x.1 = some x.2 := by decide +kernel

theorem test_decode_vector_others : ∀ x ∈ ([
    (0x7008200C, .vexp2 false 1 2 3 .f32),
    (0x7408200D, .vlog2 false 1 2 3 .bf16),
    (0x7808200C, .vrcp false 1 2 3 .f32),
    (0x7C08200D, .vrsq false 1 2 3 .bf16),
    (0x8008200C, .vsqrt false 1 2 3 .f32),
    (0x8408200D, .vsig false 1 2 3 .bf16),
    (0x8808200C, .vtanh false 1 2 3 .f32),
    (0x41F82073, .vcmp .ltu 7 2 3 4 .i16),
    (0x41882070, .vcmp .un 1 2 3 4 .f32),
    (0x52286984, .vcvt true 5 6 9 4 1),
    (0x54286D84, .vscl false 5 6 6 true 4 1),
    (0xA22FC845, .vld true 5 7 true 4 66 1 .bf16),
    (0xA42A1847, .vst 5 2 false 1 66 1 .i16),
    (0xA82A8846, .vgth false 5 2 true 66 1 .i32),
    (0xB0286FE4, .vunp3 false 5 6 127 1 .f32),
    (0xC00820E0, .mand 1 2 7),
    (0xC4382020, .mor 7 2 1),
    (0xC8382000, .mnot 7 2),
    (0xE0053000, .vloop 83),
    (0xE4000000, .vend),
    (0x00000000, .vnop)] : List (Nat × Instr)),
    decodeVector x.1 = some x.2 := by decide +kernel

theorem test_decode_access : ∀ x ∈ ([
    (0x08CA0040, .aadd 3 2 (.imm 64)),
    (0x0BC80007, .aadd 15 2 (.reg 7)),
    (0x0FCBFFFF, .asub 15 2 (.imm 0x1FFFF)),
    (0x13C80007, .amul 15 2 (.reg 7)),
    (0x17CBFFFF, .ashl 15 2 (.imm 0x1FFFF)),
    (0x1BC80007, .ashr 15 2 (.reg 7)),
    (0x1FCBFFFF, .aand 15 2 (.imm 0x1FFFF)),
    (0x23C80007, .amin 15 2 (.reg 7)),
    (0x27CBFFFF, .acmp 15 2 (.imm 0x1FFFF)),
    (0x0503FFFE, .amov 4 (.imm 0x1FFFE)),
    (0x0500000F, .amov 4 (.reg 15)),
    (0x4167FFFD, .abr .lez 9 0x1FFFD),
    (0x44000003, .ajmp (.reg 3)),
    (0x4403FFF0, .ajmp (.imm 0x1FFF0)),
    (0x48C20064, .aloop 3 (.imm 100)),
    (0x4CC00000, .aend 3),
    (0x50000000, .ahalt),
    (0x60480003, .spush 1 2 3),
    (0x6448000E, .spushi 1 2 14),
    (0x68000000, .swin),
    (0x6E400000, .cqpop 9),
    (0x70000000, .afence),
    (0x00000000, .anop)] : List (Nat × Instr)),
    decodeAccess x.1 = some x.2 := by decide +kernel

theorem test_ill_formed_1 : ∀ i ∈ ([
    .nop ⟨24, true⟩, .add ⟨24, true⟩ 1 1 1, .add ⟨0, false⟩ 64 1 1, .add ⟨0, false⟩ 1 64 1, .add ⟨0, false⟩ 1 1 64, .addLong ⟨24, true⟩ 1 1 5,
    .addLong ⟨0, false⟩ 64 1 5, .addLong ⟨0, false⟩ 1 64 5, .sub ⟨24, true⟩ 1 1 1, .sub ⟨0, false⟩ 64 1 1, .sub ⟨0, false⟩ 1 64 1,
    .sub ⟨0, false⟩ 1 1 64, .subLong ⟨24, true⟩ 1 1 5, .subLong ⟨0, false⟩ 64 1 5, .subLong ⟨0, false⟩ 1 64 5, .mul ⟨24, true⟩ 1 1 1,
    .mul ⟨0, false⟩ 64 1 1, .mul ⟨0, false⟩ 1 64 1, .mul ⟨0, false⟩ 1 1 64, .mulLong ⟨24, true⟩ 1 1 5, .mulLong ⟨0, false⟩ 64 1 5,
    .mulLong ⟨0, false⟩ 1 64 5, .mulh ⟨24, true⟩ 1 1 1, .mulh ⟨0, false⟩ 64 1 1, .mulh ⟨0, false⟩ 1 64 1, .mulh ⟨0, false⟩ 1 1 64,
    .mulhLong ⟨24, true⟩ 1 1 5, .mulhLong ⟨0, false⟩ 64 1 5, .mulhLong ⟨0, false⟩ 1 64 5, .div ⟨24, true⟩ 1 1 1, .div ⟨0, false⟩ 64 1 1,
    .div ⟨0, false⟩ 1 64 1, .div ⟨0, false⟩ 1 1 64, .divLong ⟨24, true⟩ 1 1 5, .divLong ⟨0, false⟩ 64 1 5, .divLong ⟨0, false⟩ 1 64 5,
    .rem ⟨24, true⟩ 1 1 1, .rem ⟨0, false⟩ 64 1 1, .rem ⟨0, false⟩ 1 64 1, .rem ⟨0, false⟩ 1 1 64, .remLong ⟨24, true⟩ 1 1 5,
    .remLong ⟨0, false⟩ 64 1 5, .remLong ⟨0, false⟩ 1 64 5, .and ⟨24, true⟩ 1 1 1, .and ⟨0, false⟩ 64 1 1, .and ⟨0, false⟩ 1 64 1,
    .and ⟨0, false⟩ 1 1 64, .andLong ⟨24, true⟩ 1 1 5, .andLong ⟨0, false⟩ 64 1 5, .andLong ⟨0, false⟩ 1 64 5, .or ⟨24, true⟩ 1 1 1,
    .or ⟨0, false⟩ 64 1 1, .or ⟨0, false⟩ 1 64 1, .or ⟨0, false⟩ 1 1 64, .orLong ⟨24, true⟩ 1 1 5, .orLong ⟨0, false⟩ 64 1 5, .orLong ⟨0, false⟩ 1 64 5,
    .xor ⟨24, true⟩ 1 1 1, .xor ⟨0, false⟩ 64 1 1, .xor ⟨0, false⟩ 1 64 1, .xor ⟨0, false⟩ 1 1 64, .xorLong ⟨24, true⟩ 1 1 5,
    .xorLong ⟨0, false⟩ 64 1 5, .xorLong ⟨0, false⟩ 1 64 5, .andn ⟨24, true⟩ 1 1 1, .andn ⟨0, false⟩ 64 1 1, .andn ⟨0, false⟩ 1 64 1,
    .andn ⟨0, false⟩ 1 1 64, .andnLong ⟨24, true⟩ 1 1 5, .andnLong ⟨0, false⟩ 64 1 5, .andnLong ⟨0, false⟩ 1 64 5, .shl ⟨24, true⟩ 1 1 1,
    .shl ⟨0, false⟩ 64 1 1, .shl ⟨0, false⟩ 1 64 1, .shl ⟨0, false⟩ 1 1 64, .shlLong ⟨24, true⟩ 1 1 5, .shlLong ⟨0, false⟩ 64 1 5,
    .shlLong ⟨0, false⟩ 1 64 5, .shr ⟨24, true⟩ 1 1 1, .shr ⟨0, false⟩ 64 1 1, .shr ⟨0, false⟩ 1 64 1, .shr ⟨0, false⟩ 1 1 64,
    .shrLong ⟨24, true⟩ 1 1 5, .shrLong ⟨0, false⟩ 64 1 5, .shrLong ⟨0, false⟩ 1 64 5, .sra ⟨24, true⟩ 1 1 1, .sra ⟨0, false⟩ 64 1 1,
    .sra ⟨0, false⟩ 1 64 1, .sra ⟨0, false⟩ 1 1 64, .sraLong ⟨24, true⟩ 1 1 5, .sraLong ⟨0, false⟩ 64 1 5, .sraLong ⟨0, false⟩ 1 64 5,
    .rol ⟨24, true⟩ 1 1 1, .rol ⟨0, false⟩ 64 1 1, .rol ⟨0, false⟩ 1 64 1, .rol ⟨0, false⟩ 1 1 64, .rolLong ⟨24, true⟩ 1 1 5,
    .rolLong ⟨0, false⟩ 64 1 5, .rolLong ⟨0, false⟩ 1 64 5, .min ⟨24, true⟩ 1 1 1] : List Instr), i.wf = false := by decide +kernel

theorem test_ill_formed_2 : ∀ i ∈ ([
    .min ⟨0, false⟩ 64 1 1, .min ⟨0, false⟩ 1 64 1, .min ⟨0, false⟩ 1 1 64, .minLong ⟨24, true⟩ 1 1 5, .minLong ⟨0, false⟩ 64 1 5,
    .minLong ⟨0, false⟩ 1 64 5, .max ⟨24, true⟩ 1 1 1, .max ⟨0, false⟩ 64 1 1, .max ⟨0, false⟩ 1 64 1, .max ⟨0, false⟩ 1 1 64,
    .maxLong ⟨24, true⟩ 1 1 5, .maxLong ⟨0, false⟩ 64 1 5, .maxLong ⟨0, false⟩ 1 64 5, .clz ⟨24, true⟩ 1 1, .clz ⟨0, false⟩ 64 1, .clz ⟨0, false⟩ 1 64,
    .ctz ⟨24, true⟩ 1 1, .ctz ⟨0, false⟩ 64 1, .ctz ⟨0, false⟩ 1 64, .popc ⟨24, true⟩ 1 1, .popc ⟨0, false⟩ 64 1, .popc ⟨0, false⟩ 1 64,
    .bfx ⟨24, true⟩ 1 1 1 1 false, .bfx ⟨0, false⟩ 64 1 1 1 false, .bfx ⟨0, false⟩ 1 64 1 1 false, .bfx ⟨0, false⟩ 1 1 64 1 false,
    .bfx ⟨0, false⟩ 1 1 1 64 false, .bfi ⟨24, true⟩ 1 1 1 1, .bfi ⟨0, false⟩ 64 1 1 1, .bfi ⟨0, false⟩ 1 64 1 1, .bfi ⟨0, false⟩ 1 1 64 1,
    .bfi ⟨0, false⟩ 1 1 1 64, .sext ⟨24, true⟩ 1 1 1, .sext ⟨0, false⟩ 64 1 1, .sext ⟨0, false⟩ 1 64 1, .sext ⟨0, false⟩ 1 1 64, .zext ⟨24, true⟩ 1 1 1,
    .zext ⟨0, false⟩ 64 1 1, .zext ⟨0, false⟩ 1 64 1, .zext ⟨0, false⟩ 1 1 64, .li ⟨24, true⟩ 1 5, .li ⟨0, false⟩ 64 5, .liLong ⟨24, true⟩ 1 5,
    .liLong ⟨0, false⟩ 64 5, .liH ⟨24, true⟩ 1 5, .liH ⟨0, false⟩ 64 5, .mov ⟨24, true⟩ 1 1, .mov ⟨0, false⟩ 64 1, .mov ⟨0, false⟩ 1 64,
    .sel ⟨24, true⟩ 1 1 1 1 false, .sel ⟨0, false⟩ 64 1 1 1 false, .sel ⟨0, false⟩ 1 64 1 1 false, .sel ⟨0, false⟩ 1 1 64 1 false,
    .sel ⟨0, false⟩ 1 1 1 24 false, .lea ⟨24, true⟩ 1 5, .lea ⟨0, false⟩ 64 5, .leaLong ⟨24, true⟩ 1 5, .leaLong ⟨0, false⟩ 64 5,
    .hoff ⟨24, true⟩ 1 1 1, .hoff ⟨0, false⟩ 64 1 1, .hoff ⟨0, false⟩ 1 64 1, .hoff ⟨0, false⟩ 1 1 256, .cmp ⟨24, true⟩ 1 1 .eq (.reg 1) .write,
    .cmp ⟨0, false⟩ 1 1 .eq (.reg 64) .write, .cmp ⟨0, false⟩ 1 64 .eq (.reg 1) .write, .cmp ⟨0, false⟩ 24 1 .eq (.reg 1) .write,
    .pand ⟨24, true⟩ 1 1 1, .pand ⟨0, false⟩ 24 1 1, .pand ⟨0, false⟩ 1 24 1, .pand ⟨0, false⟩ 1 1 24, .por ⟨24, true⟩ 1 1 1, .por ⟨0, false⟩ 24 1 1,
    .por ⟨0, false⟩ 1 24 1, .por ⟨0, false⟩ 1 1 24, .pxor ⟨24, true⟩ 1 1 1, .pxor ⟨0, false⟩ 24 1 1, .pxor ⟨0, false⟩ 1 24 1, .pxor ⟨0, false⟩ 1 1 24,
    .pnot ⟨24, true⟩ 1 1, .pnot ⟨0, false⟩ 24 1, .pnot ⟨0, false⟩ 1 24, .pget ⟨24, true⟩ 1, .pget ⟨0, false⟩ 64, .pset ⟨24, true⟩ 1 1,
    .pset ⟨0, false⟩ 64 1, .pset ⟨0, false⟩ 1 64, .fadd ⟨24, true⟩ 1 1 1, .fadd ⟨0, false⟩ 64 1 1, .fadd ⟨0, false⟩ 1 64 1, .fadd ⟨0, false⟩ 1 1 64,
    .faddLong ⟨24, true⟩ 1 1 5, .faddLong ⟨0, false⟩ 64 1 5, .faddLong ⟨0, false⟩ 1 64 5, .fsub ⟨24, true⟩ 1 1 1, .fsub ⟨0, false⟩ 64 1 1,
    .fsub ⟨0, false⟩ 1 64 1, .fsub ⟨0, false⟩ 1 1 64, .fsubLong ⟨24, true⟩ 1 1 5, .fsubLong ⟨0, false⟩ 64 1 5, .fsubLong ⟨0, false⟩ 1 64 5] : List Instr), i.wf = false := by decide +kernel

theorem test_ill_formed_3 : ∀ i ∈ ([
    .fmul ⟨24, true⟩ 1 1 1, .fmul ⟨0, false⟩ 64 1 1, .fmul ⟨0, false⟩ 1 64 1, .fmul ⟨0, false⟩ 1 1 64, .fmulLong ⟨24, true⟩ 1 1 5,
    .fmulLong ⟨0, false⟩ 64 1 5, .fmulLong ⟨0, false⟩ 1 64 5, .ffma ⟨24, true⟩ 1 1 1, .ffma ⟨0, false⟩ 64 1 1, .ffma ⟨0, false⟩ 1 64 1,
    .ffma ⟨0, false⟩ 1 1 64, .fdiv ⟨24, true⟩ 1 1 1, .fdiv ⟨0, false⟩ 64 1 1, .fdiv ⟨0, false⟩ 1 64 1, .fdiv ⟨0, false⟩ 1 1 64,
    .fdivLong ⟨24, true⟩ 1 1 5, .fdivLong ⟨0, false⟩ 64 1 5, .fdivLong ⟨0, false⟩ 1 64 5, .fmin ⟨24, true⟩ 1 1 1, .fmin ⟨0, false⟩ 64 1 1,
    .fmin ⟨0, false⟩ 1 64 1, .fmin ⟨0, false⟩ 1 1 64, .fminLong ⟨24, true⟩ 1 1 5, .fminLong ⟨0, false⟩ 64 1 5, .fminLong ⟨0, false⟩ 1 64 5,
    .fmax ⟨24, true⟩ 1 1 1, .fmax ⟨0, false⟩ 64 1 1, .fmax ⟨0, false⟩ 1 64 1, .fmax ⟨0, false⟩ 1 1 64, .fmaxLong ⟨24, true⟩ 1 1 5,
    .fmaxLong ⟨0, false⟩ 64 1 5, .fmaxLong ⟨0, false⟩ 1 64 5, .fcmp ⟨24, true⟩ 1 1 1 .eq .write, .fcmp ⟨0, false⟩ 1 64 1 .eq .write,
    .fcmp ⟨0, false⟩ 1 1 64 .eq .write, .fcmp ⟨0, false⟩ 24 1 1 .eq .write, .fcvt ⟨24, true⟩ 1 1 .i64F32 .rne, .fcvt ⟨0, false⟩ 64 1 .i64F32 .rne,
    .fcvt ⟨0, false⟩ 1 64 .i64F32 .rne, .fsgn ⟨24, true⟩ 1 1 1, .fsgn ⟨0, false⟩ 64 1 1, .fsgn ⟨0, false⟩ 1 64 1, .fsgn ⟨0, false⟩ 1 1 64,
    .fsgnLong ⟨24, true⟩ 1 1 5, .fsgnLong ⟨0, false⟩ 64 1 5, .fsgnLong ⟨0, false⟩ 1 64 5, .br ⟨24, true⟩ 5, .brLong ⟨24, true⟩ 5, .call ⟨24, true⟩ 1 5,
    .call ⟨0, false⟩ 64 5, .callLong ⟨24, true⟩ 1 5, .callLong ⟨0, false⟩ 64 5, .ret ⟨24, true⟩ 1, .ret ⟨0, false⟩ 64, .jr ⟨24, true⟩ 1 1,
    .jr ⟨0, false⟩ 64 1, .jr ⟨0, false⟩ 1 64, .loop ⟨24, true⟩ 1 5, .loop ⟨0, false⟩ 64 5, .loopLong ⟨24, true⟩ 1 5, .loopLong ⟨0, false⟩ 64 5,
    .dspt ⟨24, true⟩ 1 1 1 (.rel 8), .dspt ⟨0, false⟩ 64 1 1 (.rel 8), .dspt ⟨0, false⟩ 1 64 1 (.rel 8), .dspt ⟨0, false⟩ 1 1 16 (.rel 8),
    .ld ⟨24, true⟩ 1 1 .w .l false false, .ld ⟨0, false⟩ 64 1 .w .l false false, .ld ⟨0, false⟩ 1 64 .w .l false false,
    .ld ⟨0, false⟩ 1 1 .d .l false true, .ldLong ⟨24, true⟩ 1 1 .w .l false false 5, .ldLong ⟨0, false⟩ 64 1 .w .l false false 5,
    .ldLong ⟨0, false⟩ 1 64 .w .l false false 5, .ldLong ⟨0, false⟩ 1 1 .d .l false true 5, .st ⟨24, true⟩ 1 1 .w .l false,
    .st ⟨0, false⟩ 64 1 .w .l false, .st ⟨0, false⟩ 1 64 .w .l false, .stLong ⟨24, true⟩ 1 1 .w .l false 5, .stLong ⟨0, false⟩ 64 1 .w .l false 5,
    .stLong ⟨0, false⟩ 1 64 .w .l false 5, .probe ⟨24, true⟩ 1 1 5, .probe ⟨0, false⟩ 64 1 5, .probe ⟨0, false⟩ 1 64 5, .probeLong ⟨24, true⟩ 1 1 5,
    .probeLong ⟨0, false⟩ 64 1 5, .probeLong ⟨0, false⟩ 1 64 5, .unpin ⟨24, true⟩ 1, .unpin ⟨0, false⟩ 64, .amo ⟨24, true⟩ 1 1 1 .add .l .w .die,
    .amo ⟨0, false⟩ 64 1 1 .add .l .w .die, .amo ⟨0, false⟩ 1 64 1 .add .l .w .die, .amo ⟨0, false⟩ 1 1 64 .add .l .w .die,
    .cas ⟨24, true⟩ 1 1 1 .l .w .die 1, .cas ⟨0, false⟩ 64 1 1 .l .w .die 1, .cas ⟨0, false⟩ 1 64 1 .l .w .die 1, .cas ⟨0, false⟩ 1 1 64 .l .w .die 1,
    .cas ⟨0, false⟩ 1 1 1 .l .w .die 24, .fence ⟨24, true⟩ .die, .fenceR ⟨24, true⟩ .die [.handle 1], .fenceR ⟨0, false⟩ .die [],
    .fenceR ⟨0, false⟩ .die [.handle 1, .handle 1, .handle 1, .handle 1, .handle 1]] : List Instr), i.wf = false := by decide +kernel

theorem test_ill_formed_4 : ∀ i ∈ ([
    .fenceR ⟨0, false⟩ .die [.handle 1, .regs 63 .g], .track ⟨24, true⟩ 1 (.handle 1), .track ⟨0, false⟩ 1 (.handle 0),
    .track ⟨0, false⟩ 1 (.handle 256), .track ⟨0, false⟩ 1 (.regs 63 .l), .track ⟨0, false⟩ 32 (.handle 1), .untrack ⟨24, true⟩ 1,
    .untrack ⟨0, false⟩ 32, .pub ⟨24, true⟩ (.handle 1), .pub ⟨0, false⟩ (.handle 0), .pub ⟨0, false⟩ (.handle 256), .pub ⟨0, false⟩ (.regs 63 .l),
    .tbar ⟨24, true⟩ 1, .tbar ⟨0, false⟩ 8, .tid ⟨24, true⟩ 1 .n, .tid ⟨0, false⟩ 1 (.x 8), .tid ⟨0, false⟩ 1 (.f 8), .tid ⟨0, false⟩ 64 .n,
    .cinit ⟨24, true⟩ 1 1 1, .cinit ⟨0, false⟩ 64 1 1, .cinit ⟨0, false⟩ 1 16 1, .cinit ⟨0, false⟩ 1 1 16777216, .cinit ⟨0, false⟩ 1 1 0,
    .cexp ⟨24, true⟩ 1 1 1, .cexp ⟨0, false⟩ 1 1 64, .cexp ⟨0, false⟩ 64 1 1, .cexp ⟨0, false⟩ 1 16 1, .cexpLong ⟨24, true⟩ 1 1 1,
    .cexpLong ⟨0, false⟩ 64 1 1, .cexpLong ⟨0, false⟩ 1 16 1, .cexpLong ⟨0, false⟩ 1 1 16777216, .cexpLong ⟨0, false⟩ 1 1 0, .cwait ⟨24, true⟩ 1 1 1,
    .cwait ⟨0, false⟩ 64 1 1, .cwait ⟨0, false⟩ 1 16 1, .cwait ⟨0, false⟩ 1 1 24, .crel ⟨24, true⟩ 1 1, .crel ⟨0, false⟩ 64 1, .crel ⟨0, false⟩ 1 16,
    .ctry ⟨24, true⟩ 1 1 1, .ctry ⟨0, false⟩ 24 1 1, .ctry ⟨0, false⟩ 1 64 1, .ctry ⟨0, false⟩ 1 1 16, .post ⟨24, true⟩ 1, .post ⟨0, false⟩ 64,
    .postNb ⟨24, true⟩ 1 1, .postNb ⟨0, false⟩ 1 64, .postNb ⟨0, false⟩ 24 1, .postr ⟨24, true⟩ 1 1 1 1 false false,
    .postr ⟨0, false⟩ 1 64 1 1 false false, .postr ⟨0, false⟩ 1 1 64 1 false false, .postr ⟨0, false⟩ 24 1 1 1 false false,
    .postr ⟨0, false⟩ 1 1 1 1024 false false, .postt ⟨24, true⟩ 1 1 0 1 false, .postt ⟨0, false⟩ 1 64 0 1 false, .postt ⟨0, false⟩ 1 1 64 1 false,
    .postt ⟨0, false⟩ 24 1 0 1 false, .postt ⟨0, false⟩ 1 1 0 1024 false, .postt ⟨0, false⟩ 1 1 1 1 false, .dcset ⟨24, true⟩ 1 1,
    .dcset ⟨0, false⟩ 1 64, .dcset ⟨0, false⟩ 512 1, .dcsetLong ⟨24, true⟩ 1 1, .dcsetLong ⟨0, false⟩ 512 1, .dcsetLong ⟨0, false⟩ 1 1048576,
    .dcadd ⟨24, true⟩ 1 1, .dcadd ⟨0, false⟩ 1 64, .dcadd ⟨0, false⟩ 512 1, .dcaddLong ⟨24, true⟩ 1 5, .dcaddLong ⟨0, false⟩ 512 5,
    .dcwait ⟨24, true⟩ 1, .dcwait ⟨0, false⟩ 512, .sta ⟨24, true⟩ 1 1 1, .sta ⟨0, false⟩ 1 64 1, .sta ⟨0, false⟩ 1 1 64, .sta ⟨0, false⟩ 24 1 1,
    .staLong ⟨24, true⟩ 1 1 1 1, .staLong ⟨0, false⟩ 1 64 1 1, .staLong ⟨0, false⟩ 1 1 64 1, .staLong ⟨0, false⟩ 24 1 1 1,
    .staLong ⟨0, false⟩ 1 1 1 65536, .sbind ⟨24, true⟩ 1 1 1 1 1 1, .sbind ⟨0, false⟩ 64 1 1 1 1 1, .sbind ⟨0, false⟩ 1 64 1 1 1 1,
    .sbind ⟨0, false⟩ 1 1 64 1 1 1, .sbind ⟨0, false⟩ 1 1 1 128 1 1, .sbind ⟨0, false⟩ 1 1 1 1 64 1, .sbind ⟨0, false⟩ 1 1 1 1 1 4096,
    .cqpush ⟨24, true⟩ 1 1 1, .cqpush ⟨0, false⟩ 1 64 1, .cqpush ⟨0, false⟩ 24 1 1, .cqpush ⟨0, false⟩ 1 1 8, .sstop ⟨24, true⟩ 1, .sstop ⟨0, false⟩ 8,
    .yield ⟨24, true⟩ 1, .yield ⟨0, false⟩ 24, .live ⟨24, true⟩ 1, .live ⟨0, false⟩ 64, .liveLong ⟨24, true⟩ 5, .trap ⟨24, true⟩ 1] : List Instr), i.wf = false := by decide +kernel

theorem test_ill_formed_5 : ∀ i ∈ ([
    .trap ⟨0, false⟩ 4096, .sys ⟨24, true⟩ 1 1 .echo, .sys ⟨0, false⟩ 64 1 .echo, .sys ⟨0, false⟩ 1 64 .echo, .rett ⟨24, true⟩, .mfs ⟨24, true⟩ 1 1,
    .mfs ⟨0, false⟩ 64 1, .mfs ⟨0, false⟩ 1 4096, .mts ⟨24, true⟩ 1 1, .mts ⟨0, false⟩ 1 64, .mts ⟨0, false⟩ 4096 1, .halt ⟨24, true⟩, .exit ⟨24, true⟩,
    .vadd false 64 1 1 1 .f32, .vadd false 1 84 1 1 .f32, .vadd false 1 1 84 1 .f32, .vadd false 1 1 1 8 .f32, .vsub false 64 1 1 1 .f32,
    .vsub false 1 84 1 1 .f32, .vsub false 1 1 84 1 .f32, .vsub false 1 1 1 8 .f32, .vmul false 64 1 1 1 .f32, .vmul false 1 84 1 1 .f32,
    .vmul false 1 1 84 1 .f32, .vmul false 1 1 1 8 .f32, .vfma false 64 1 1 1 .f32, .vfma false 1 84 1 1 .f32, .vfma false 1 1 84 1 .f32,
    .vfma false 1 1 1 8 .f32, .vmin false 64 1 1 1 .f32, .vmin false 1 84 1 1 .f32, .vmin false 1 1 84 1 .f32, .vmin false 1 1 1 8 .f32,
    .vmax false 64 1 1 1 .f32, .vmax false 1 84 1 1 .f32, .vmax false 1 1 84 1 .f32, .vmax false 1 1 1 8 .f32, .vabs false 64 1 1 .f32,
    .vabs false 1 84 1 .f32, .vabs false 1 1 8 .f32, .vneg false 64 1 1 .f32, .vneg false 1 84 1 .f32, .vneg false 1 1 8 .f32,
    .vand false 64 1 1 1 .f32, .vand false 1 84 1 1 .f32, .vand false 1 1 84 1 .f32, .vand false 1 1 1 8 .f32, .vor false 64 1 1 1 .f32,
    .vor false 1 84 1 1 .f32, .vor false 1 1 84 1 .f32, .vor false 1 1 1 8 .f32, .vxor false 64 1 1 1 .f32, .vxor false 1 84 1 1 .f32,
    .vxor false 1 1 84 1 .f32, .vxor false 1 1 1 8 .f32, .vshl false 64 1 1 1 .i32, .vshl false 1 84 1 1 .i32, .vshl false 1 1 84 1 .i32,
    .vshl false 1 1 1 8 .i32, .vshr false 64 1 1 1 .i32, .vshr false 1 84 1 1 .i32, .vshr false 1 1 84 1 .i32, .vshr false 1 1 1 8 .i32,
    .vsra false 64 1 1 1 .i32, .vsra false 1 84 1 1 .i32, .vsra false 1 1 84 1 .i32, .vsra false 1 1 1 8 .i32, .vcmp .eq 1 84 1 1 .f32,
    .vcmp .eq 1 1 84 1 .f32, .vcmp .eq 1 1 1 8 .f32, .vcmp .eq 8 1 1 1 .f32, .vcmp .un 1 1 1 1 .i32, .vcmp .un 1 1 1 1 .i16, .vcmp .ltu 1 1 1 1 .f32,
    .vcmp .ltu 1 1 1 1 .bf16, .vsel false 64 1 1 1 .f32, .vsel false 1 84 1 1 .f32, .vsel false 1 1 84 1 .f32, .vsel false 1 1 1 8 .f32,
    .vmov false 64 1 1 .f32, .vmov false 1 84 1 .f32, .vmov false 1 1 8 .f32, .vbcst false 64 1 1 1 .f32, .vbcst false 1 84 1 1 .f32,
    .vbcst false 1 1 84 1 .f32, .vbcst false 1 1 1 8 .f32, .vcvt false 64 1 1 0 1, .vcvt false 1 84 1 0 1, .vcvt false 1 1 1 0 8,
    .vcvt false 1 1 16 0 1, .vcvt false 1 1 7 1 1, .vcvt false 1 1 15 1 1, .vcvt false 1 1 8 5 1, .vscl false 64 1 1 false 0 1,
    .vscl false 1 84 1 false 0 1, .vscl false 1 1 1 false 0 8, .vscl false 1 1 7 false 0 1, .vscl false 1 1 1 false 5 1, .vscl false 1 1 1 false 1 1,
    .vreds false 64 1 1 .f32] : List Instr), i.wf = false := by decide +kernel

theorem test_ill_formed_6 : ∀ i ∈ ([
    .vreds false 1 84 1 .f32, .vreds false 1 1 8 .f32, .vredm false 64 1 1 .f32, .vredm false 1 84 1 .f32, .vredm false 1 1 8 .f32,
    .vredn false 64 1 1 .f32, .vredn false 1 84 1 .f32, .vredn false 1 1 8 .f32, .vexp2 false 64 1 1 .f32, .vexp2 false 1 84 1 .f32,
    .vexp2 false 1 1 8 .f32, .vlog2 false 64 1 1 .f32, .vlog2 false 1 84 1 .f32, .vlog2 false 1 1 8 .f32, .vrcp false 64 1 1 .f32,
    .vrcp false 1 84 1 .f32, .vrcp false 1 1 8 .f32, .vrsq false 64 1 1 .f32, .vrsq false 1 84 1 .f32, .vrsq false 1 1 8 .f32, .vsqrt false 64 1 1 .f32,
    .vsqrt false 1 84 1 .f32, .vsqrt false 1 1 8 .f32, .vsig false 64 1 1 .f32, .vsig false 1 84 1 .f32, .vsig false 1 1 8 .f32,
    .vtanh false 64 1 1 .f32, .vtanh false 1 84 1 .f32, .vtanh false 1 1 8 .f32, .vld false 64 1 false 1 1 1 .f32, .vld false 1 1 false 1 84 1 .f32,
    .vld false 1 1 false 1 1 8 .f32, .vld false 1 8 false 1 1 1 .f32, .vld false 1 1 false 5 1 1 .f32, .vst 64 1 false 1 1 1 .f32,
    .vst 1 1 false 1 84 1 .f32, .vst 1 1 false 1 1 8 .f32, .vst 1 8 false 1 1 1 .f32, .vst 1 1 false 5 1 1 .f32, .vgth false 64 1 false 1 1 .f32,
    .vgth false 1 1 false 84 1 .f32, .vgth false 1 1 false 1 8 .f32, .vgth false 1 8 false 1 1 .f32, .vprm false 64 1 1 1 .f32,
    .vprm false 1 84 1 1 .f32, .vprm false 1 1 84 1 .f32, .vprm false 1 1 1 8 .f32, .vunp3 false 64 1 1 1 .f32, .vunp3 false 1 84 1 1 .f32,
    .vunp3 false 1 1 1 8 .f32, .vunp3 false 1 1 128 1 .f32, .mand 8 1 1, .mand 1 8 1, .mand 1 1 8, .mor 8 1 1, .mor 1 8 1, .mor 1 1 8, .mnot 8 1,
    .mnot 1 8, .vloop 84, .amov 1 (.reg 16), .amov 16 (.reg 1), .aadd 1 1 (.reg 16), .aadd 16 1 (.reg 1), .aadd 1 16 (.reg 1), .asub 1 1 (.reg 16),
    .asub 16 1 (.reg 1), .asub 1 16 (.reg 1), .amul 1 1 (.reg 16), .amul 16 1 (.reg 1), .amul 1 16 (.reg 1), .ashl 1 1 (.reg 16), .ashl 16 1 (.reg 1),
    .ashl 1 16 (.reg 1), .ashr 1 1 (.reg 16), .ashr 16 1 (.reg 1), .ashr 1 16 (.reg 1), .aand 1 1 (.reg 16), .aand 16 1 (.reg 1), .aand 1 16 (.reg 1),
    .amin 1 1 (.reg 16), .amin 16 1 (.reg 1), .amin 1 16 (.reg 1), .acmp 1 1 (.reg 16), .acmp 16 1 (.reg 1), .acmp 1 16 (.reg 1), .abr .eqz 16 5,
    .ajmp (.reg 16), .aloop 1 (.reg 16), .aloop 4 (.reg 1), .aend 4, .spush 16 1 1, .spush 1 16 1, .spush 1 1 16, .spushi 16 1 1, .spushi 1 16 1,
    .spushi 1 1 15, .cqpop 16] : List Instr), i.wf = false := by decide +kernel

theorem test_well_formed_1 : ∀ i ∈ ([
    .nop ⟨0, false⟩, .add ⟨0, false⟩ 1 1 1, .addLong ⟨0, false⟩ 1 1 5, .sub ⟨0, false⟩ 1 1 1, .subLong ⟨0, false⟩ 1 1 5, .mul ⟨0, false⟩ 1 1 1,
    .mulLong ⟨0, false⟩ 1 1 5, .mulh ⟨0, false⟩ 1 1 1, .mulhLong ⟨0, false⟩ 1 1 5, .div ⟨0, false⟩ 1 1 1, .divLong ⟨0, false⟩ 1 1 5,
    .rem ⟨0, false⟩ 1 1 1, .remLong ⟨0, false⟩ 1 1 5, .and ⟨0, false⟩ 1 1 1, .andLong ⟨0, false⟩ 1 1 5, .or ⟨0, false⟩ 1 1 1, .orLong ⟨0, false⟩ 1 1 5,
    .xor ⟨0, false⟩ 1 1 1, .xorLong ⟨0, false⟩ 1 1 5, .andn ⟨0, false⟩ 1 1 1, .andnLong ⟨0, false⟩ 1 1 5, .shl ⟨0, false⟩ 1 1 1,
    .shlLong ⟨0, false⟩ 1 1 5, .shr ⟨0, false⟩ 1 1 1, .shrLong ⟨0, false⟩ 1 1 5, .sra ⟨0, false⟩ 1 1 1, .sraLong ⟨0, false⟩ 1 1 5,
    .rol ⟨0, false⟩ 1 1 1, .rolLong ⟨0, false⟩ 1 1 5, .min ⟨0, false⟩ 1 1 1, .minLong ⟨0, false⟩ 1 1 5, .max ⟨0, false⟩ 1 1 1,
    .maxLong ⟨0, false⟩ 1 1 5, .clz ⟨0, false⟩ 1 1, .ctz ⟨0, false⟩ 1 1, .popc ⟨0, false⟩ 1 1, .bfx ⟨0, false⟩ 1 1 1 1 false, .bfi ⟨0, false⟩ 1 1 1 1,
    .sext ⟨0, false⟩ 1 1 1, .zext ⟨0, false⟩ 1 1 1, .li ⟨0, false⟩ 1 5, .liLong ⟨0, false⟩ 1 5, .liH ⟨0, false⟩ 1 5, .mov ⟨0, false⟩ 1 1,
    .sel ⟨0, false⟩ 1 1 1 1 false, .lea ⟨0, false⟩ 1 5, .leaLong ⟨0, false⟩ 1 5, .hoff ⟨0, false⟩ 1 1 1, .cmp ⟨0, false⟩ 1 1 .eq (.reg 1) .write,
    .pand ⟨0, false⟩ 1 1 1, .por ⟨0, false⟩ 1 1 1, .pxor ⟨0, false⟩ 1 1 1, .pnot ⟨0, false⟩ 1 1, .pget ⟨0, false⟩ 1, .pset ⟨0, false⟩ 1 1,
    .fadd ⟨0, false⟩ 1 1 1, .faddLong ⟨0, false⟩ 1 1 5, .fsub ⟨0, false⟩ 1 1 1, .fsubLong ⟨0, false⟩ 1 1 5, .fmul ⟨0, false⟩ 1 1 1,
    .fmulLong ⟨0, false⟩ 1 1 5, .ffma ⟨0, false⟩ 1 1 1, .fdiv ⟨0, false⟩ 1 1 1, .fdivLong ⟨0, false⟩ 1 1 5, .fmin ⟨0, false⟩ 1 1 1,
    .fminLong ⟨0, false⟩ 1 1 5, .fmax ⟨0, false⟩ 1 1 1, .fmaxLong ⟨0, false⟩ 1 1 5, .fcmp ⟨0, false⟩ 1 1 1 .eq .write,
    .fcvt ⟨0, false⟩ 1 1 .i64F32 .rne, .fsgn ⟨0, false⟩ 1 1 1, .fsgnLong ⟨0, false⟩ 1 1 5, .br ⟨0, false⟩ 5, .brLong ⟨0, false⟩ 5, .call ⟨0, false⟩ 1 5,
    .callLong ⟨0, false⟩ 1 5, .ret ⟨0, false⟩ 1, .jr ⟨0, false⟩ 1 1, .loop ⟨0, false⟩ 1 5, .loopLong ⟨0, false⟩ 1 5, .dspt ⟨0, false⟩ 1 1 1 (.rel 8),
    .ld ⟨0, false⟩ 1 1 .w .l false false, .ldLong ⟨0, false⟩ 1 1 .w .l false false 5, .st ⟨0, false⟩ 1 1 .w .l false,
    .stLong ⟨0, false⟩ 1 1 .w .l false 5, .probe ⟨0, false⟩ 1 1 5, .probeLong ⟨0, false⟩ 1 1 5, .unpin ⟨0, false⟩ 1,
    .amo ⟨0, false⟩ 1 1 1 .add .l .w .die, .cas ⟨0, false⟩ 1 1 1 .l .w .die 1, .fence ⟨0, false⟩ .die, .fenceR ⟨0, false⟩ .die [.handle 1],
    .track ⟨0, false⟩ 1 (.handle 1), .untrack ⟨0, false⟩ 1, .pub ⟨0, false⟩ (.handle 1), .tbar ⟨0, false⟩ 1, .tid ⟨0, false⟩ 1 .n,
    .cinit ⟨0, false⟩ 1 1 1, .cexp ⟨0, false⟩ 1 1 1, .cexpLong ⟨0, false⟩ 1 1 1] : List Instr), i.wf = true := by decide +kernel

theorem test_well_formed_2 : ∀ i ∈ ([
    .cwait ⟨0, false⟩ 1 1 1, .crel ⟨0, false⟩ 1 1, .ctry ⟨0, false⟩ 1 1 1, .post ⟨0, false⟩ 1, .postNb ⟨0, false⟩ 1 1,
    .postr ⟨0, false⟩ 1 1 1 1 false false, .postt ⟨0, false⟩ 1 1 0 1 false, .dcset ⟨0, false⟩ 1 1, .dcsetLong ⟨0, false⟩ 1 1, .dcadd ⟨0, false⟩ 1 1,
    .dcaddLong ⟨0, false⟩ 1 5, .dcwait ⟨0, false⟩ 1, .sta ⟨0, false⟩ 1 1 1, .staLong ⟨0, false⟩ 1 1 1 1, .sbind ⟨0, false⟩ 1 1 1 1 1 1,
    .cqpush ⟨0, false⟩ 1 1 1, .sstop ⟨0, false⟩ 1, .yield ⟨0, false⟩ 1, .live ⟨0, false⟩ 1, .liveLong ⟨0, false⟩ 5, .trap ⟨0, false⟩ 1,
    .sys ⟨0, false⟩ 1 1 .echo, .rett ⟨0, false⟩, .mfs ⟨0, false⟩ 1 1, .mts ⟨0, false⟩ 1 1, .halt ⟨0, false⟩, .exit ⟨0, false⟩, .vadd false 1 1 1 1 .f32,
    .vsub false 1 1 1 1 .f32, .vmul false 1 1 1 1 .f32, .vfma false 1 1 1 1 .f32, .vmin false 1 1 1 1 .f32, .vmax false 1 1 1 1 .f32,
    .vabs false 1 1 1 .f32, .vneg false 1 1 1 .f32, .vand false 1 1 1 1 .f32, .vor false 1 1 1 1 .f32, .vxor false 1 1 1 1 .f32,
    .vshl false 1 1 1 1 .i32, .vshr false 1 1 1 1 .i32, .vsra false 1 1 1 1 .i32, .vcmp .eq 1 1 1 1 .f32, .vsel false 1 1 1 1 .f32,
    .vmov false 1 1 1 .f32, .vbcst false 1 1 1 1 .f32, .vcvt false 1 1 1 0 1, .vscl false 1 1 1 false 0 1, .vreds false 1 1 1 .f32,
    .vredm false 1 1 1 .f32, .vredn false 1 1 1 .f32, .vexp2 false 1 1 1 .f32, .vlog2 false 1 1 1 .f32, .vrcp false 1 1 1 .f32, .vrsq false 1 1 1 .f32,
    .vsqrt false 1 1 1 .f32, .vsig false 1 1 1 .f32, .vtanh false 1 1 1 .f32, .vld false 1 1 false 1 1 1 .f32, .vst 1 1 false 1 1 1 .f32,
    .vgth false 1 1 false 1 1 .f32, .vprm false 1 1 1 1 .f32, .vunp3 false 1 1 1 1 .f32, .mand 1 1 1, .mor 1 1 1, .mnot 1 1, .vloop 1, .amov 1 (.reg 1),
    .aadd 1 1 (.reg 1), .asub 1 1 (.reg 1), .amul 1 1 (.reg 1), .ashl 1 1 (.reg 1), .ashr 1 1 (.reg 1), .aand 1 1 (.reg 1), .amin 1 1 (.reg 1),
    .acmp 1 1 (.reg 1), .abr .eqz 1 5, .ajmp (.reg 1), .aloop 1 (.reg 1), .aend 1, .spush 1 1 1, .spushi 1 1 1, .cqpop 1] : List Instr), i.wf = true := by decide +kernel

/-! ## Witnesses: hypotheses of the statements, met by small states -/

/-- What State.Issues asks for, as a check. -/
def issuesB (s : State) (c k : Nat) (g : Guard) (uses : List Nat) : Bool :=
  s.turn = .strand c k && k < 4 && !(s.turned c k).mustWait [64 + g.p] && !(s.turned c k).full
    && (s.guarded c k g).guard g && !(s.guarded c k g).mustWait uses

theorem issues_of_check {s : State} {c k : Nat} {g : Guard} {uses : List Nat} (h : issuesB s c k g uses = true) : s.Issues c k g uses := by
  simp only [issuesB, Bool.and_eq_true, decide_eq_true_eq, Bool.not_eq_true'] at h
  exact { turn := h.1.1.1.1.1, slot := h.1.1.1.1.2, free := h.1.1.1.2, room := h.1.1.2, guard := h.1.2, operands := h.2 }

def okB {ε α : Type} (e : Except ε α) (p : α → Bool) : Bool :=
  match e with
  | .ok x => p x
  | .error _ => false

theorem ok_of_check {ε α : Type} {e : Except ε α} {p : α → Bool} (h : okB e p = true) : ∃ x, e = .ok x ∧ p x = true := by
  cases e with
  | ok x => exact ⟨x, rfl, h⟩
  | error _ => cases h

def errB {ε α : Type} (e : Except ε α) (p : ε → Bool) : Bool :=
  match e with
  | .ok _ => false
  | .error x => p x

theorem error_of_check {ε α : Type} {e : Except ε α} {p : ε → Bool} (h : errB e p = true) : ∃ x, e = .error x ∧ p x = true := by
  cases e with
  | ok _ => cases h
  | error x => exact ⟨x, rfl, h⟩

def someB {α : Type} (o : Option α) (p : α → Bool) : Bool :=
  match o with
  | some x => p x
  | none => false

theorem some_of_check {α : Type} {o : Option α} {p : α → Bool} (h : someB o p = true) : ∃ x, o = some x ∧ p x = true := by
  cases o with
  | some x => exact ⟨x, rfl, h⟩
  | none => cases h

def g0 : Guard := ⟨0, false⟩
/-- The strand of slot 3 of core 1023, which belongs to no part. -/
def wFar : State := { State.reset with turn := .strand 1023 3 }
/-- A strand of a running part on core 0. -/
def wRun (f : Strand → Strand) : State := { (State.reset.placeCox 0).onStrand 0 0 f with turn := .strand 0 0, agenda := [] }
def wRegs (l : List (Nat × Word64)) : State := wRun fun t => l.foldl (fun u p => u.writeS p.1 p.2) t
def wCore (l : List (Nat × Word64)) (f : Core → Core) : State := (wRegs l).onCore 0 f
def wFound (s : State) : Strand := s.strand 0 0
/-- No load of the strand waits for its value. -/
def stillB (s : State) : Bool := !(s.strand 0 0).loads.any (·.val.isNone)
def predUses : List Nat := (List.range 24).map (64 + ·)

theorem witness_IntegerForms : ∀ b ∈ ([issuesB wFar 1023 3 g0 [63, 62, 61], issuesB wFar 1023 3 g0 [63, 62], issuesB wFar 1023 3 g0 [0],
  issuesB wFar 1023 3 g0 [63, 62, 61, 64 + 23], issuesB (wRun fun t => { t with preds := 0x800001 }) 0 0 ⟨23, false⟩ [1, 2, 3]] : List Bool),
  b = true := by decide +kernel

theorem witness_LaterResults : ∀ b ∈ ([issuesB wFar 1023 3 g0 [63, 62, 61], issuesB wFar 1023 3 ⟨23, true⟩ [63, 62]] : List Bool), b = true := by
  decide +kernel

theorem witness_DivisionAndRemainder : ∀ b ∈ (let s := wRegs [(1, 0x8000000000000000), (2, 0xFFFFFFFFFFFFFFFF), (3, 7)]
  [issuesB s 0 0 g0 [5, 1, 2], (wFound s).readS 1 = 0x8000000000000000, (wFound s).readS 2 = 0xFFFFFFFFFFFFFFFF,
   issuesB s 0 0 g0 [5, 3, 0], issuesB s 0 0 g0 [5, 3, 1], issuesB s 0 0 g0 [5, 3]] : List Bool), b = true := by decide +kernel

theorem witness_FloatMinMaxSign : ∀ b ∈ (let s := wRegs [(1, 0x7FC00001), (2, 0x80000000), (3, 0)]
  let nan := fun n => (fpVal fmtF32 (((wFound s).readS n).toNat % 2 ^ 32)).isNan
  [issuesB s 0 0 g0 [5, 1, 1], issuesB s 0 0 g0 [5, 1, 2], issuesB s 0 0 g0 [5, 2, 3], issuesB s 0 0 g0 [5, 3, 2], issuesB s 0 0 g0 [5, 3, 3],
   issuesB s 0 0 g0 [5, 3], nan 1, !nan 2, !nan 3] : List Bool), b = true := by decide +kernel

theorem witness_ComparisonPredicates : ∀ b ∈ ([issuesB wFar 1023 3 g0 ([64 + 23, 63] ++ cmpUses (.reg 62)),
  issuesB wFar 1023 3 g0 ([64 + 0, 63] ++ cmpUses (.imm 0xFFFF)), issuesB wFar 1023 3 g0 [64 + 23, 63, 62]] : List Bool), b = true := by decide +kernel

theorem witness_PredicateLogic : ∀ b ∈ ([issuesB wFar 1023 3 g0 [64 + 23, 64 + 22, 64 + 0], issuesB wFar 1023 3 g0 [64 + 23, 64 + 22, 64 + 22],
  issuesB wFar 1023 3 g0 (63 :: predUses), issuesB wFar 1023 3 g0 ([63, 62] ++ predUses)] : List Bool), b = true := by decide +kernel

theorem witness_ConversionsAndHandleOffsets : ∀ b ∈ (let s := wCore [] fun x => { x with handles := [⟨0, 0, 0, 0, [], [], 0⟩, ⟨0, 0, 2, 64, [4, 4], [64], 256⟩] }
  [issuesB s 0 0 g0 [5, 6], (s.core 0).handles[1]?.isSome, issuesB s 0 0 g0 [5, 6], (s.core 0).handles.length ≤ 2, stillB s] : List Bool), b = true := by
  decide +kernel

theorem witness_ControlTransfers : ∀ b ∈ (let s := wRegs [(1, 0x1FFFFFFFFFFFFFC), (2, 0x200000000000000), (3, 2)]
  let t := wFound s
  let e : Word32 := 0x7FFFFFFF
  let low := (wRun fun t => { t with pc := 0 })
  [issuesB s 0 0 g0 [], issuesB s 0 0 g0 [5], issuesB s 0 0 g0 [1], issuesB s 0 0 g0 [5, 1], (t.readS 1).toNat % 4 = 0, (t.readS 1).toNat < 2 ^ 57,
   !((t.readS 2).toNat < 2 ^ 57), !((t.readS 3).toNat % 4 = 0), (t.pc + 4 * e.signExtend 64).toNat < 2 ^ 57,
   issuesB low 0 0 g0 [5], ((wFound low).pc + 4 * (0x800 : Imm12).signExtend 64).toNat ≥ 2 ^ 57, stillB low, stillB s] : List Bool), b = true := by
  decide +kernel

theorem witness_CountedLoops : ∀ b ∈ (let s := wRegs [(1, 1), (2, 2)]
  let t := wFound s
  [issuesB s 0 0 g0 [1], t.readS 1 - 1 = 0, issuesB s 0 0 g0 [2], t.readS 2 - 1 ≠ 0, issuesB s 0 0 g0 [0], t.readS 0 - 1 ≠ 0,
   (t.pc + 4 * (0xFFF : Imm12).signExtend 64).toNat % 4 = 0, (t.pc + 4 * (0xFFF : Imm12).signExtend 64).toNat < 2 ^ 57] : List Bool), b = true := by
  decide +kernel

/-- A bucket table of two entries, 16 to 12 and 4 to 8, in the local space and in HBM. -/
def wTable : State :=
  let s := wRegs [(1, 4), (2, 5), (3, 17)]
  let b : ByteList := leBytes 4 16 ++ leBytes 4 12 ++ leBytes 4 4 ++ leBytes 4 8
  { s with mem := memSetList (memSetList s.mem 65792 b) (poolKey 0 0x1FFFF0) b }

theorem witness_BucketDispatch : ∀ b ∈ (let s := wTable
  let t := wFound s
  let u := s.issued 0 0 g0 [5, 1]
  let tb := t.pc + (0x100 : Word32).signExtend 64
  let cap := fun (b : ByteList) n => field b (8 * n) 4
  let go := fun (b : ByteList) n => (t.pc + (BitVec.ofNat 32 (field b (8 * n + 4) 4)).signExtend 64).toNat
  [issuesB s 0 0 g0 [5, 1], issuesB s 0 0 g0 [5, 2], issuesB s 0 0 g0 [5, 3], tb.toNat % 8 = 0, tb.toNat % 65536 + 16 ≤ 65536, tb.toNat < 2 ^ 57,
   okB (u.placeOf 0 0 .g tb 16 .read false false) fun pl => !u.ownOrder 0 0 pl.keys,
   okB (u.readV (u.whoStrand 0 0) .read tb.toNat 16) fun r => let y := r.2.strand 0 0
     (y.readS 1).toNat ≤ cap r.1 0 && (y.readS 2).toNat ≤ cap r.1 0 && go r.1 0 % 4 = 0 && go r.1 0 < 2 ^ 57 && cap r.1 0 < (y.readS 3).toNat && cap r.1 1 < (y.readS 3).toNat,
   0x1FFFF0 % 8192 + 16 ≤ 8192, !u.ownOrder 0 0 ((List.range 16).filterMap fun i => u.localKey 0 false (0x1FFFF0 + i)),
   okB (u.readLocalChecked 0 0x1FFFF0 16) fun r => (t.readS 2).toNat ≤ cap r 0 && cap r 0 < (t.readS 3).toNat && cap r 1 < (t.readS 3).toNat] : List Bool), b = true := by decide +kernel

/-- An access that its place lets through at once. -/
def freePlace (u : State) (ea : Word64) (sp : Space) (n : Nat) (kind : AKind) (al nl write full : Bool) : Bool :=
  okB (u.placeOf 0 0 sp ea n kind al nl) fun pl => !pl.touchesDevice && !pl.outside && (u.placeHeld 0 0 pl).isNone && !u.ownOrder 0 0 pl.keys
    && (u.placeCause 0 0 write full pl).isNone

/-- A core of two pages of scratchpad, with a peer of the same part beside it. -/
def wMem (l : List (Nat × Word64)) : State :=
  let f : Core → Core := fun x => { x with part := some 0, partw := 0x00100101, spm := [(0, ⟨3, 0, true, false, false⟩), (7, ⟨0, 0, true, false, false⟩)] }
  ((wCore l f).onCore 63 f).setPart 0 { placedPart with cores := [0, 63] }

theorem witness_LoadsInsideTheModule : ∀ b ∈ (let s := wMem [(1, 0x1FFFFF), (2, 65536), (3, 0x7E10000), (4, 65535)]
  let u := s.issued 0 0 g0 [5, 1]
  [issuesB s 0 0 g0 [5, 1], freePlace u 0x1FFFFF .l 1 .read false false false false, freePlace u 65536 .g 8 .read true true false false,
   freePlace u 0x7E10000 .c 4 .read true true false false, freePlace u 0x7E10000 .c 4 .read false false false false, !(wFound s).causalWaits] : List Bool),
  b = true := by decide +kernel

theorem witness_StoresInsideTheModule : ∀ b ∈ (let s := wMem [(1, 0x1FFFFF), (2, 65536)]
  let u := s.issued 0 0 g0 [5, 1]
  [issuesB s 0 0 g0 [5, 1], Memory.wf s.mem, freePlace u 0x1FFFFF .l 1 .write false false true false, freePlace u 65536 .g 8 .write true true true true,
   freePlace u 0x7E10000 .c 4 .write true true true false, !(wFound s).causalWaits,
   okB (u.placeOf 0 0 .l 0x1FFFFC 4 .write false false) fun pl => match pl with
     | .pool home off ks => home = 0 && off = 0x1FFFFC && ks = [poolKey 0 0x1FFFFC, poolKey 0 0x1FFFFD, poolKey 0 0x1FFFFE, poolKey 0 0x1FFFFF]
     | .glob _ => false] : List Bool),
  b = true := by decide +kernel

theorem witness_AccessFaults : ∀ b ∈ (let s := wMem []
  let u := s.issued 0 0 g0 [5, 1]
  [issuesB s 0 0 g0 [5, 1], stillB s, u.badForm 0 .l 0x200000 1, u.badForm 0 .l 0x1FFFFF 2, u.badForm 0 .c 0 4, u.badForm 0 .g 0x1FFFFFFFFFFFFFF 2,
   !u.badForm 0 .g 65538 4 && (65538 : Word64).toNat % 4 ≠ 0, !u.badForm 0 .l 4 4 && (4 : Word64).toNat % 4 = 0,
   !u.badForm 0 .c 0x210000 4 && u.foreignPeer 0 .c 0x210000] : List Bool), b = true := by decide +kernel

/-- Pages of a peer module and of the host in the TLB, one host page translated, a link up on CD0. -/
def wOutside : State :=
  let s := wCore [(1, 131072), (2, 196608)] fun x => { x with tlb := [placedTlb, ⟨0, 131072, 65536, 0x2000001001F#64⟩, ⟨0, 196608, 65536, 0x2F#64⟩] }
  { s with modid := 0x8001, ports := [(0, { Port.reset with pctl := 1, up := true, lanes := 4, peer := 1 })], xlat := { s.xlat with cache := [0] } }

theorem witness_AccessesOutsideTheModule : ∀ b ∈ (let s := wOutside
  let u := s.issued 0 0 g0 [5, 1]
  let out := fun ea k n => okB (u.placeOf 0 0 .g ea 8 k false false) fun pl => (u.placeHeld 0 0 pl).isNone && !u.ownOrder 0 0 pl.keys && (match pl with
    | .glob [(p, _)] => p.loc.tier = n
    | _ => false)
  [issuesB s 0 0 g0 [5, 1], issuesB s 0 0 g0 [5, 2], !u.noRoute (coreDie 0), out 131072 .read 1, out 131072 .write 1, out 196608 .read 2, out 196608 .write 2]
  : List Bool), b = true := by decide +kernel

theorem witness_AtomicsInsideTheModule : ∀ b ∈ (let s := wMem [(1, 0x1FFFF8), (2, 65536), (4, 0), (5, 1)]
  let u := s.issued 0 0 g0 [4, 1, 3]
  let host := wOutside
  let v := host.issued 0 0 g0 [5, 2, 1]
  [issuesB s 0 0 g0 [4, 1, 3], issuesB s 0 0 g0 [4, 1, 3, 64 + 23], freePlace u 0x1FFFF8 .l 8 .atomic true false true false,
   freePlace u 65536 .g 4 .atomic true false true false, !u.onHost 0 0 .l 0x1FFFF8, !u.onHost 0 0 .g 65536,
   issuesB host 0 0 g0 [5, 2, 1], stillB v, (wFound v).readS 2 = 196608, !v.badForm 0 .g 196608 8, v.onHost 0 0 .g 196608,
   okB (u.placeOf 0 0 .l 0x1FFFF8 8 .atomic true false) fun pl => leNat (u.readPlace pl) = ((wFound s).readS 4).toNat && leNat (u.readPlace pl) ≠ ((wFound s).readS 5).toNat]
  : List Bool), b = true := by decide +kernel

theorem witness_ScratchCache : ∀ b ∈ (let one := fun st pins => wCore [(1, 0), (2, 4096)] fun x => { x with partw := 0x100, sttcfg := 0x8, spm := [(0, ⟨0, 0, true, false, false⟩)], tags := [(0, ⟨0, st, pins, 0⟩)] }
  let blk := fun (s : State) (va : Word64) => va.toNat / sttBlock (s.core 0).sttcfg * sttBlock (s.core 0).sttcfg
  let held := fun s va => someB ((s.core 0).tagOf (blk s va)) fun n => ((s.core 0).tagAt n).pins < 255 && sttSlots (s.core 0).sttcfg ≠ 0
  let v := one .valid 254
  let p := one .valid 1
  let f := one .filling 0
  let z := one .valid 0
  let none_ := wRegs []
  [issuesB v 0 0 g0 [5, 1], held v 0, ((v.core 0).tagAt 0).st = .valid, issuesB f 0 0 g0 [5, 1], held f 0, ((f.core 0).tagAt 0).st ≠ .valid,
   issuesB z 0 0 g0 [5, 2], ((z.core 0).tagOf (blk z 4096)).isNone, (z.core 0).sttPend.isNone, ((z.core 0).chan (sttChan (z.core 0).sttcfg)).length < 128,
   (z.core 0).victim.isSome, sttSlots (z.core 0).sttcfg ≠ 0, issuesB none_ 0 0 g0 [5, 1], sttSlots (none_.core 0).sttcfg = 0, stillB none_,
   issuesB p 0 0 g0 [1], someB ((p.core 0).tagOf (blk p 0)) fun n => 0 < ((p.core 0).tagAt n).pins,
   issuesB z 0 0 g0 [2], ((z.core 0).tagOf (blk z 4096)).isNone, issuesB z 0 0 g0 [1], someB ((z.core 0).tagOf (blk z 0)) fun n => ((z.core 0).tagAt n).pins = 0, stillB z]
  : List Bool), b = true := by decide +kernel

/-- One counted store that is performed at die scope. -/
def wItem (sc : Option Scope) (h : Option Hold) : State :=
  (wCore [(1, 4096), (2, 8192)] fun x => { x with items := [⟨7, .access 0 false, sc, 1, 2⟩], track := [(0, ⟨0, .l, 4096, 8192⟩)] }).onStrand 0 0
    fun t => { t with hold := h }

theorem witness_FencesWaitForTheirItems : ∀ b ∈ (let done := wItem (some .gang) none
  let open_ := wItem (some .die) none
  let held := wItem (some .die) (some ⟨.fence g0 .gang, [7], 0, none, []⟩)
  let all := fun (s : State) (sc : Scope) => (s.core 0).items.all fun i => i.atScope sc
  let r := fun (s : State) => okB (rangesOf (s.core 0) (s.found 0 0 g0 (rangeUses [.regs 1 .l])) [.regs 1 .l]) fun l => (s.core 0).rangeSet 0 l = [7]
  [issuesB done 0 0 g0 [], all done .gang, issuesB open_ 0 0 g0 [], all open_ .die, !all open_ .package, issuesB held 0 0 g0 [], !all held .gang,
   issuesB done 0 0 g0 (rangeUses [.regs 1 .l]), r done, issuesB open_ 0 0 g0 (rangeUses [.regs 1 .l]), r open_, (wFound open_).hold = none] : List Bool),
  b = true := by decide +kernel

theorem witness_TrackingSlots : ∀ b ∈ (let s := wItem (some .die) none
  [issuesB s 0 0 g0 (rangeUses [.regs 1 .l]), okB (rangeOf (s.core 0) (s.found 0 0 g0 (rangeUses [.regs 1 .l])) (.regs 1 .l)) fun _ => true,
   (tabFind (s.core 0).track 31).isNone, (tabFind (s.core 0).track 0).isSome, stillB s, issuesB s 0 0 g0 [], tabRising (s.core 0).track] : List Bool),
  b = true := by decide +kernel

/-- Scratchpad page 0 and HBM region 0 with a shadow; a peer core of the same part and one of another. -/
def wShadow (h : Option Hold) : State :=
  let f : Core → Core := fun x => { x with part := some 0, partw := 0x00000100, spm := [(0, ⟨3, 4, true, true, false⟩), (1, ⟨0, 0, true, false, false⟩)], handles := [⟨0, 0, 0, 0, [], [], 0⟩, ⟨2, 0, 1, 0, [64], [], 256⟩] }
  let s := ((wCore [(1, 0), (2, 1), (3, 8192), (4, 8193), (5, 0x7E00000), (6, 0x7E00001), (7, 0x7E02000), (8, 0x7E02001), (9, 0x200000), (10, 0x200001), (11, 65536), (12, 65540), (13, 0x200000000000001), (14, 0x200000000000002)] f).onCore 63 f)
  (s.onDie 0 fun y => { y with rit := [(0, { RitEntry.init 0 with shv := true, spri := 9 })] }).onStrand 0 0 fun t => { t with hold := h }

theorem witness_PublishInstruction : ∀ b ∈ (let s := wShadow none
  let held := fun p => { wShadow (some ⟨.pub g0 (.regs 1 .l), [3], 0, none, []⟩) with cores := (wShadow (some ⟨.pub g0 (.regs 1 .l), [3], 0, none, []⟩)).cores.map fun q =>
    (q.1, { q.2 with pubs := if p then [⟨3, [0], none⟩] else [] }) }
  let r := fun n sp => issuesB s 0 0 g0 (rangeUses [.regs n sp]) && okB (rangeOf (s.core 0) (s.found 0 0 g0 (rangeUses [.regs n sp])) (.regs n sp)) fun _ => true
  let pl := fun n => (s.core 0).shadowPages (n : Nat) (n + 1)
  let noRegion := s.onDie 0 fun y => { y with rit := [] }
  let isEmpty := fun (l : List (Nat × Nat)) => l.isEmpty
  [issuesB (held false) 0 0 g0 (rangeUses [.regs 1 .l]), !(held false).pubOpen 3, issuesB (held true) 0 0 g0 (rangeUses [.regs 1 .l]), (held true).pubOpen 3,
   r 1 .l, pl 0 = [0], r 3 .l, pl 8192 = [], r 5 .c, (s.core 63).part = (s.core 0).part, (s.core 63).shadowPages 0 1 = [0], r 7 .c, (s.core 63).shadowPages 8192 8193 = [],
   r 9 .c, (s.core 1).part ≠ (s.core 0).part, r 11 .g, okB (s.shadowRegions (s.whoStrand 0 0) 65536 65540) (!isEmpty ·), issuesB noRegion 0 0 g0 (rangeUses [.regs 11 .g]), okB (noRegion.shadowRegions (noRegion.whoStrand 0 0) 65536 65540) isEmpty,
   r 13 .g, stillB s, okB (rangeOf (s.core 0) (s.found 0 0 g0 (rangeUses [.handle 1])) (.handle 1)) fun l => l.space = .w, issuesB s 0 0 g0 (rangeUses [.handle 1])] : List Bool),
  b = true := by decide +kernel

/-- What State.Ready asks for, as a check. -/
def readyB (s : State) (c k : Nat) (g : Guard) : Bool := s.turn = .strand c k && k < 4 && !(s.turned c k).mustWait [64 + g.p] && !(s.turned c k).full

/-- Two strands of one team; the other one runs, has arrived, or has exited. -/
def wTeam (st : StrandStatus) (arr : List (Nat × Nat)) (h : Option Hold) (scope : Nat) : State :=
  let s := (wRun fun t => { t with team := [0, 1], hold := h }).onStrand 0 1 fun t => { t with team := [0, 0], status := st }
  s.setPart 0 { placedPart with levels := [⟨5, scope, 1⟩, ⟨6, 1, 4⟩], bars := [⟨0, 0, 0xFFFF, arr⟩] }

theorem witness_TeamBarrierInstruction : ∀ b ∈ (let s := wTeam .runnable [] none 3
  let ended := wTeam .exited [] none 5
  let came := wTeam .runnable [(0xFFFF, 1)] none 1
  let held := fun g => wTeam .runnable [] (some ⟨.tbar g0 0, [], g, none, []⟩) 3
  let b := fun (s : State) => (s.corePart 0).barAt 0 ((s.corePart 0).teamKey 0 (s.found 0 0 g0 []).team)
  let ready := fun (s : State) => issuesB s 0 0 g0 [] && !s.releaseWaits 0 0 && !(s.corePart 0).spans 0 && (s.core 0).part = some 0 && (wFound s).hold.isNone
  let isOver := fun (s : State) => (s.members (s.corePart 0) 0 (s.found 0 0 g0 []).team).all fun q => (s.strand q.1 q.2).status == .exited
    || (b s).arrived.contains ((b s).gen.toNat, s.memberNo q.1 q.2) || s.memberNo q.1 q.2 == s.memberNo 0 0
  [readyB s 0 0 ⟨23, false⟩, (s.guarded 0 0 ⟨23, false⟩).guard ⟨23, false⟩ = false, issuesB s 0 0 g0 [], ¬((s.corePart 0).levels.length > 2), stillB s,
   ready s, !isOver s, ready ended, isOver ended, ended.ownAtGang 0 0, ready came, isOver came, issuesB (held 0xFFFF) 0 0 g0 [], (b (held 0xFFFF)).gen.toNat = 0xFFFF,
   issuesB (held 0xFFFE) 0 0 g0 [], (b (held 0xFFFE)).gen.toNat ≠ 0xFFFE] : List Bool), b = true := by decide +kernel

theorem witness_TeamIndicesAndScheduling : ∀ b ∈ (let s := wTeam .runnable [] none 3
  let l := (s.corePart 0).levels
  let three := (s.onPart 0 fun p => { p with levels := [⟨3, 3, 2⟩, ⟨4, 2, 4⟩, ⟨5, 1, 4⟩] }).onStrand 0 0 fun t => { t with team := [1, 3, 3] }
  let asked := s.onPart 0 fun p => { p with yreq := true }
  [issuesB s 0 0 g0 [], issuesB s 0 0 g0 [63], issuesB s 0 0 g0 [0], l[1]?.isSome, l.length ≤ 7, l.length = 2, (s.found 0 0 g0 [0]).team = [0, 1],
   issuesB three 0 0 g0 [63], (three.corePart 0).levels.length = 3, (three.found 0 0 g0 [63]).team = [1, 3, 3],
   issuesB s 0 0 g0 [64 + 23], !(s.corePart 0).yreq, issuesB asked 0 0 g0 [64 + 1], (asked.corePart 0).yreq, (asked.core 0).part = some 0, 0 ∈ (asked.part 0).cores,
   ((0, 1) : Nat × Nat) ≠ (0, 0), (asked.strand 0 1).status = .runnable] : List Bool), b = true := by decide +kernel

theorem witness_SystemRegisters : ∀ b ∈ (let s := wRegs [(1, 0)]
  let root := s.onPart 0 fun p => { p with priv := true }
  let open_ := wRegs [(1, 0)]
  [issuesB s 0 0 g0 [63], !(s.corePart 0).priv, stillB s, issuesB root 0 0 g0 [63], (root.corePart 0).priv, issuesB root 0 0 g0 [1], (root.core 0).part = some 0,
   issuesB open_ 0 0 g0 [1], !(open_.core 0).sttBad ((wFound open_).readS 1), (open_.core 0).sttPend.isNone, !(open_.core 0).fillsOpen, (wFound open_).hold.isNone]
  : List Bool), b = true := by decide +kernel

def wSlot (y : CatchSlot) (st : Option Nat) (l : List (Nat × Word64)) : State := wCore l fun x => { x with bars := [(63, ⟨[y], st⟩)] }

theorem witness_CatchBarrierInstructions : ∀ b ∈ (let s := wSlot ⟨16, 0, false, false, none, false⟩ none [(1, 0xFFFFFF), (2, 1)]
  let full := wSlot ⟨16, 16, true, true, none, true⟩ (some 0) [(1, 0xFFFFFF)]
  let slot := fun (s : State) n => ((s.core 0).bar 63).slots[n]?
  [issuesB s 0 0 g0 [], ((s.core 0).bar 63).stream.isNone, stillB s, issuesB full 0 0 g0 [], ((full.core 0).bar 63).stream.isSome, stillB full,
   (slot s 0).isSome, (slot s 1).isNone, someB (slot s 0) fun y => !y.awaiting && !y.latched && y.phase = (wFound s).readP 23, someB (slot full 0) fun y => y.awaiting && y.latched && y.phase ≠ (wFound full).readP 23,
   !full.releaseWaits 0 0, issuesB s 0 0 g0 [1], issuesB s 0 0 g0 [2], ((wFound s).readS 1).toNat < 2 ^ 24, 0 < ((wFound s).readS 2).toNat,
   issuesB s 0 0 g0 [64 + 23], issuesB s 0 0 g0 [64 + 0], issuesB full 0 0 g0 [64 + 23], issuesB full 0 0 g0 [64 + 0]] : List Bool), b = true := by decide +kernel

/-- A region of handle 0: mode bits, space, first byte, length. -/
def reg0 (rd wr space first len : Nat) : Nat := rd * 2 ^ 12 + wr * 2 ^ 13 + (if space = 2 then 2 ^ 15 else 0) + first * 2 ^ 16 + len * 2 ^ 80 + space * 2 ^ 116
/-- A region of a handle: origins and extents of dimensions 0 and 1. -/
def regH (h rd wr o0 o1 e0 e1 : Nat) : Nat := h + rd * 2 ^ 12 + wr * 2 ^ 13 + o0 * 2 ^ 16 + o1 * 2 ^ 32 + e0 * 2 ^ 80 + e1 * 2 ^ 92
/-- A task record (R118): class, operation, formats, region counts, regions by slot, PARAM. -/
def recOf (cls oper afmt wfmt nrd nwr : Nat) (gs : List (Nat × Nat)) (param : Nat) : ByteList :=
  gs.foldl (fun b g => putField b (16 + 16 * g.1) 16 g.2) (leBytes 8 (cls + oper * 2 ^ 8 + afmt * 2 ^ 16 + wfmt * 2 ^ 24) ++ leBytes 8 ((nrd + 4 * nwr) * 2 ^ 32)
    ++ List.replicate 104 0#8 ++ leBytes 8 param)
/-- FILL of 16 bytes at local offset 4,096. -/
def recFill : ByteList := recOf 3 0x46 0x0A 0 0 1 [(3, reg0 0 1 0 4096 16)] 7

/-- A window entry as it is admitted. -/
def taskOf (r : ByteList) : TaskRec :=
  ⟨r, .admitted, 0, 0, true, true, 0, [], [], [], false, false, [], false, false, 0, ⟨false, false, false, false, false, false, 0⟩, 0, [], [], none, 0⟩

def wPost (r : ByteList) (f : Core → Core) : State :=
  let s := wCore [(1, 0x1FFF80), (2, 0), (3, 0x100000000)] f
  let t := { s with mem := memSetList s.mem (poolKey 0 0x1FFF80) r, modid := 0x8001, ports := [(0, { Port.reset with pctl := 1, up := true, lanes := 4, peer := 1 })] }
  (t.onCore 63 fun x => { x with part := some 0, lcore := 1 }).setPart 0 { placedPart with cores := [0, 63], modules := [1, 2] }

theorem witness_PostingRecords : ∀ b ∈ (let s := wPost recFill id
  let bad := wPost (recFill.set 1 0) id
  let full := wPost recFill fun x => { x with window := (List.range 256).map fun n => (n, { taskOf recFill with st := .done, age := n }) }
  let gang := (wPost recFill id).onPart 0 fun p => { p with gang := true, levels := [⟨0, 5, 2⟩, ⟨5, 1, 1⟩] }
  let ok := fun (s : State) (uses : List Nat) => issuesB s 0 0 g0 uses && !s.releaseWaits 0 0 && okB (s.postRecord 0 0x1FFF80) fun _ => true
  let held := s.onStrand 0 0 fun t => { t with hold := some ⟨.postr g0 1 1 2 0 false false, [0], 1, some 1, []⟩ }
  let admits := fun (s : State) => (!(s.core 0).ingressTurn || (s.core 0).ingress.isEmpty) && (s.core 0).postTurn 0
  let goes := fun (s : State) => (s.core 0).freeEntry.isSome && admits s
  let theirs := wPost recFill fun x => { x with ingressTurn := true, ingress := [recFill] }
  let other := (wPost recFill fun x => { x with lastPost := 0 }).onStrand 0 1 fun t => { t with hold := some ⟨.post g0 1, [], 0, none, []⟩ }
  ([ok s [1], goes s, ok theirs [1], (theirs.core 0).freeEntry.isSome, !admits theirs, ok other [1], (other.core 0).freeEntry.isSome, !admits other, !(s.core 63).frozen, okB (s.recordCheck 0 0x1FFF80 recFill) fun _ => true, ok bad [1], goes bad, errB (bad.recordCheck 0 0x1FFF80 (recFill.set 1 0)) fun e => 4 ≤ e.code, stillB bad] : List Bool) ++ ([
   ok full [1], (full.core 0).freeEntry.isNone, ok s [1, 64 + 23], ok full [1, 64 + 1], ok s [64 + 23, 1, 2], s.coreOf (s.corePart 0) 1 = some 63, s.coreOf (s.corePart 0) 0 = some 0,
   (wFound s).hold.isNone, ((wFound s).readS 2).toNat / 2 ^ 32 % 2 ^ 16 = 0, 1 < (s.corePart 0).cores.length, !(s.corePart 0).gang,
   (s.core 0).items.all fun i => i.atScope .gang, ok gang [64 + 1, 1, 3], ((wFound gang).readS 3).toNat / 2 ^ 32 % 2 ^ 16 = 1, (gang.corePart 0).gang, (gang.corePart 0).gidx = 0,
   1 < (gang.corePart 0).span 0, !gang.noRoute (coreDie 0), !gang.fabricWaits (coreDie 0), (gang.core 0).items.isEmpty, ok gang [64 + 1, 1, 2], (wFound gang).hold.isNone, issuesB held 0 0 g0 [64 + 1, 1, 2]] : List Bool) : List Bool), b = true := by decide +kernel

theorem witness_DependenceCounters : ∀ b ∈ (let s := wCore [(1, 0xFFFFF), (2, 0), (3, 0x100000), (4, 0xFFFFFFFFFFFFFFFF)] fun x => { x with dcs := [(511, 1)] }
  let sh : State := { s with shared := true }
  let was := (wCore [(1, 0)] fun x => { x with dcs := [(511, 1)] }).onStrand 0 0 fun t => { t with hold := some ⟨.dcwait g0 511, [], 1, none, []⟩ }
  [!s.shared, sh.shared, issuesB sh 0 0 g0 [1], issuesB sh 0 0 g0 [2], !sh.releaseWaits 0 0, issuesB sh 0 0 g0 [], issuesB was 0 0 g0 [],
   someB (was.found 0 0 g0 []).hold fun h => h.gen = 1 && h.instr = .dcwait g0 511, (wFound s).hold.isNone,
   issuesB s 0 0 g0 [1], issuesB s 0 0 g0 [2], issuesB s 0 0 g0 [3], issuesB s 0 0 g0 [4], !s.releaseWaits 0 0, stillB s, (s.core 0).dc 511 = 1, (s.core 0).dc 0 = 0,
   issuesB s 0 0 g0 [], ((s.core 0).dc 511 + ((wFound s).readS 4).toInt : Int) = 0, ((s.core 0).dc 0 + ((wFound s).readS 4).toInt : Int) < 0] : List Bool), b = true := by decide +kernel

theorem witness_CopyAperture : ∀ b ∈ (let s := wCore [(1, 0x4000), (2, 0x7FF8), (3, 0), (4, 0x38), (5, 0x40), (6, 0x8000), (7, 4), (8, 0xFFFFFFFF), (9, 0x3FF8)] id
  let full := wCore [(3, 0)] fun x => { x with chans := x.chans.setIfInBounds 0 (List.replicate 128 ⟨0, [], 0, .sta, false, false, [], []⟩) }
  let copy := fun (s : State) => patchTemplate ((s.core 0).template 0) 0
  let saved := s.onPart 0 fun p => { p with phase := .saving }
  [!s.savingCore 0, saved.savingCore 0, issuesB saved 0 0 g0 [64 + 1, 3, 0], !saved.releaseWaits 0 0, !(saved.core 0).templateBad (saved.corePart 0) (copy saved), !full.releaseWaits 0 0, issuesB s 0 0 g0 [64 + 23, 1, 8], issuesB s 0 0 g0 [64 + 1, 2, 8], issuesB s 0 0 g0 [64 + 1, 3, 0], issuesB s 0 0 g0 [64 + 1, 4, 0], !(s.core 0).templateBad (s.corePart 0) (copy s),
   !s.releaseWaits 0 0, ((s.core 0).chan 7).length < 128, issuesB full 0 0 g0 [64 + 1, 3, 0], ¬(((full.core 0).chan 0).length < 128), !(full.core 0).templateBad (full.corePart 0) (copy full),
   issuesB s 0 0 g0 [64 + 1, 5, 0], issuesB s 0 0 g0 [64 + 1, 6, 0], issuesB s 0 0 g0 [64 + 1, 7, 0], issuesB s 0 0 g0 [64 + 1, 9, 0], stillB s] : List Bool), b = true := by decide +kernel

/-- A launch with one access program of 16 words and one or no free context; stream 0 bound to a queue of n values. -/
def wStream (bound : Bool) (n : Nat) (stop : Bool) (ctxs : List Nat) : State :=
  let s := ((wCore [(1, 5), (2, 6)] fun x => { x with bars := [(63, ⟨[⟨16, 0, false, false, none, false⟩], none⟩)] }).setPart 0
    { placedPart with progs := [⟨127, 1, 64, 0, 0, ctxs⟩] })
  if bound then s.setCtx 0 7 { Ctx.start 0 0 0 0 63 0 with cq := List.replicate n 1, stopping := stop, halted := stop } else s

theorem witness_StreamInstructions : ∀ b ∈ (let s := wStream false 0 false [7]
  let none_ := wStream false 0 false []
  let st := fun n stop => wStream true n stop [7]
  let first := fun (s : State) => ((([7] : List Nat).mergeSort (· ≤ ·)).find? fun j => (s.ctx 127 j).isNone) = some 7
  [issuesB s 0 0 g0 [63, 1, 2], (s.corePart 0).progs[0]?.isSome, 15 < 64 / 4, ((s.core 0).bar 63).slots ≠ [], ((s.core 0).bar 63).stream.isNone, !s.releaseWaits 0 0, (s.core 0).part = some 0,
   first s, ((List.range 8).find? fun j => (s.streamOf 0 j).isNone) = some 0, issuesB none_ 0 0 g0 [63, 1, 2], (none_.corePart 0).progs[0]?.isSome,
   issuesB s 0 0 g0 [64 + 23, 1], (s.streamOf 0 7).isNone, issuesB (st 15 false) 0 0 g0 [64 + 23, 1], someB ((st 15 false).streamOf 0 0) fun q => q.2.cq.length < 16 && !q.2.halted,
   someB ((st 16 false).streamOf 0 0) fun q => q.2.cq.length ≥ 16, someB ((st 0 true).streamOf 0 0) fun q => q.2.halted, !s.releaseWaits 0 0, issuesB (st 0 false) 0 0 g0 [], issuesB s 0 0 g0 []] : List Bool),
  b = true := by decide +kernel

/-- A strand with a handler and a frame in scratchpad page 0 or nowhere. -/
def wTrap (f : Strand → Strand) (m : Memory) : State :=
  let s := (wCore [] fun x => { x with partw := 0x00000100, spm := [(0, ⟨3, 0, true, false, false⟩)] }).onStrand 0 0
    fun t => f { t with tvec := 0x2000, tframe := 0x40 }
  { s with mem := m }

theorem witness_TakingATrap : ∀ b ∈ (let s := wTrap id []
  let find := fun (s : State) c k => (((s.strand c k).landAll).rebased s.cycle.toNat).retire s.cycle.toNat
  let far := find wFar 1023 3
  let t := find s 0 0
  [Memory.wf s.mem, t.tvec ≠ 0, !t.inh, (s.core 0).frameOk t.frameOff, t.inflight.isEmpty, someB ((List.range 1424).mapM fun i => s.localKey 0 false (t.frameOff + i)) fun ks => ks == ((List.range 1424).map fun i => poolKey 0 (24576 + 64 + i)),
   far.tvec = 0, (wFar.core 1023).part.isNone, ((wTrap (fun t => { t with inh := true }) []).strand 0 0).inh,
   !(s.core 0).frameOk 0x1FFFC0] : List Bool), b = true := by decide +kernel

theorem witness_SoftwareTrapAndReturn : ∀ b ∈ (let s := wTrap (fun t => { t with inh := true }) []
  let free := wTrap id []
  let busy := wTrap (fun t => { t with inh := true }) (memSetList [] (poolKey 0 (24576 + 64 + 0x280)) [16#8])
  let one := wTrap (fun t => { t with inh := true }) (memSetList (memSetList [] (poolKey 0 (24576 + 64 + 0x280)) [1#8]) (poolKey 0 (24576 + 64 + 0x290)) (leBytes 4 0x0018A30E ++ leBytes 4 0 ++ [2#8, 1#8]))
  let reads := fun (s : State) n => okB ((s.issued 0 0 g0 (List.range 88)).readLocalChecked 0 (s.found 0 0 g0 (List.range 88)).frameOff 1424) fun f =>
    field f 0x280 4 = n && (frameEntries f).all fun e => (s.core 0).replayBad e = (n == 16)
  [issuesB s 0 0 g0 [], stillB s, issuesB s 0 0 g0 (List.range 88), (s.found 0 0 g0 (List.range 88)).inh, reads s 0, issuesB free 0 0 g0 (List.range 88), !(wFound free).inh, stillB free,
   reads busy 16, reads one 1] : List Bool), b = true := by decide +kernel

theorem witness_FirmwareRequestsAndEnds : ∀ b ∈ (let s := wRegs []
  let held := wRun fun t => { t with hold := some ⟨.sys g0 63 1 .echo, [], 0, some 9, []⟩ }
  let open_ := wRun fun t => { t with loads := [⟨7, 5, none, 0, true, 8, false, none, 0, none, none, 65536⟩] }
  [issuesB s 0 0 g0 [63, 1], (wFound s).hold.isNone, issuesB held 0 0 g0 [63, 1], someB (wFound held).hold fun h => h.answer = some 9, issuesB s 0 0 g0 [], (s.core 0).part = some 0,
   issuesB wFar 1023 3 g0 [], (wFar.core 1023).part.isNone, issuesB s 0 0 g0 [], stillB s, !(s.corePart 0).yreq, issuesB open_ 0 0 g0 [], !stillB open_] : List Bool), b = true := by decide +kernel

theorem witness_WordsThatAreNoInstruction : ∀ b ∈ (let k := { (State.reset.placeKernel 0) with turn := .kernel 0 }
  let a := { (State.reset.placeAccess 0) with turn := .context 0 0 }
  [wFar.turn = .strand 1023 3, (wFar.strand 1023 3).loads.isEmpty, (wFar.strand 1023 3).failed.isEmpty, k.turn = .kernel 0, (k.core 0).kernel.isSome, a.turn = .context 0 0,
   (a.ctx 0 0).isSome, (4 : Nat) ≤ 0x301, !(⟨0x101, 0, 0⟩ : Cause).waits] : List Bool), b = true := by decide +kernel

def accB {α : Type} (a : Machine.Acc α) (p : α → Bool) : Bool :=
  match a with
  | .ok x => p x
  | .wait _ => false
  | .part _ _ => false
  | .bad _ => false

theorem done_of_check {α : Type} {a : Machine.Acc α} {p : α → Bool} (h : accB a p = true) : ∃ x, a = .ok x ∧ p x = true := by
  cases a with
  | ok x => exact ⟨x, rfl, h⟩
  | wait _ => cases h
  | part _ _ => cases h
  | bad _ => cases h

def badB {α : Type} (a : Machine.Acc α) (p : Cause → Bool) : Bool :=
  match a with
  | .ok _ => false
  | .wait _ => false
  | .part _ _ => false
  | .bad x => p x

theorem stopped_of_check {α : Type} {a : Machine.Acc α} {p : Cause → Bool} (h : badB a p = true) : ∃ x, a = .bad x ∧ p x = true := by
  cases a with
  | ok _ => cases h
  | wait _ => cases h
  | part _ _ => cases h
  | bad x => exact ⟨x, rfl, h⟩

/-- A running kernel whose record lets it read and write local bytes 0 to 511; register 0 holds given bytes. -/
def wKernel (f : Kernel → Kernel) (v0 : ByteList) : State :=
  let s := (State.reset.placeKernel 0).onCore 0 fun x => { x with partw := 0x00010001, kernel := x.kernel.map f, window := [(0, { taskOf (recOf 1 0x20 0 0 1 1 [(0, reg0 1 0 0 0 512), (3, reg0 0 1 0 0 512)] 0) with st := .running })] }
  { s with turn := .kernel 0, mem := memSetList s.mem (poolKey 0 65536) v0 }
def theKernel (s : State) : Kernel := ((s.core 0).kernel).getD (Kernel.start 0 0 0 (Vector.replicate 16 0))
def isKernel (s : State) : Bool := s.turn = .kernel 0 && (s.core 0).kernel = some (theKernel s)
def reads (s : State) (w n : Nat) : Bool := accB ((s.vecFound 0 (theKernel s)).1.readSel 0 { (s.vecFound 0 (theKernel s)).2 with next := (theKernel s).next + 4 } w n) fun _ => true

def kWho (s : State) : Who := (s.vecFound 0 (theKernel s)).1.whoKernel 0 { (s.vecFound 0 (theKernel s)).2 with next := (theKernel s).next + 4 }

theorem witness_LaneArithmetic : ∀ b ∈ (let s := wKernel id []
  [isKernel s, reads s 4 63, reads s 2 0, reads s 4 83, reads s 2 68, (vFmt .f32).isSome, (vFmt .bf16).isSome, (vFmt .i32).isNone, (vFmt .i16).isNone, reads s 4 (destSel false 63)]
  : List Bool), b = true := by decide +kernel

theorem witness_LaneLogicMovesAndComparison : ∀ b ∈ (let s := wKernel (fun k => k.setLatch 3 ⟨some 5, true⟩) []
  [isKernel s, reads s 4 63, reads s 2 83, reads s 4 67, VTy.i32 = ofITy .i32, VTy.i16 = ofITy .i16] : List Bool), b = true := by decide +kernel

theorem witness_LaneConversionsAndReductions : ∀ b ∈ (let s := wKernel (fun k => k.setLatch 3 ⟨some 5, true⟩) []
  [isKernel s, reads s 4 63, reads s 2 83, reads s 4 67, vcvtNarrow 8, reads s 4 (destSel false 63), (8 : Nat) ≤ 15, (7 : Nat) < 8, reads s (vWidth (ofFTy .bf16)) 0] : List Bool),
  b = true := by decide +kernel

/-- Kernel parameter 0 is n. -/
def wParam (n : Word32) (loops : List (Word64 × Nat)) (m : Memory) : State :=
  let s := wKernel (fun k => { k with loops := loops, kpar := k.kpar.setIfInBounds 0 n }) []
  { s with mem := m }

/-- A kernel whose VLOOP no VEND follows: a word with the opcode of VEND whose spare bits are not all 0, then words of 0. -/
def wNever : State := wParam 0 [] (memSetList [] 65540 (leBytes 4 (57 * 2 ^ 26 + 1)))

/-- The n words from an address on are fetched and are neither VLOOP nor VEND. -/
def plainWords (s : State) (w : Who) : Nat → Word64 → Bool
  | 0, _ => true
  | n + 1, pc => (okB (s.fetchWord w pc) fun p => match decodeVector p.1 with
      | some (.vloop _) => false
      | some .vend => false
      | _ => true) && plainWords s w n (pc + 4)

/-- The search for a VEND passes over such words. -/
theorem loopEnd_plainWords (s : State) (w : Who) (m d : Nat) : ∀ (n : Nat) (pc : Word64), plainWords s w n pc = true →
    s.loopEnd w (m + n) d pc = s.loopEnd w m d (pc + BitVec.ofNat 64 (4 * n))
  | 0, pc, _ => by simp
  | n + 1, pc, h => by
    obtain ⟨hp, hr⟩ := Bool.and_eq_true_iff.mp h
    have e : pc + 4 + BitVec.ofNat 64 (4 * n) = pc + BitVec.ofNat 64 (4 * (n + 1)) := by
      apply BitVec.eq_of_toNat_eq; simp [BitVec.toNat_add]; omega
    rw [← Nat.add_assoc, State.loopEnd, ← e, ← loopEnd_plainWords s w m d n (pc + 4) hr]
    revert hp
    cases s.fetchWord w pc with
    | error _ => simp [okB]
    | ok p => simp only [okB]; split <;> simp_all

theorem wNever_plain0 : plainWords wNever (kWho wNever) 256 65540 = true := by decide +kernel
theorem wNever_plain1 : plainWords wNever (kWho wNever) 256 66564 = true := by decide +kernel
theorem wNever_plain2 : plainWords wNever (kWho wNever) 256 67588 = true := by decide +kernel
theorem wNever_plain3 : plainWords wNever (kWho wNever) 256 68612 = true := by decide +kernel
theorem wNever_plain4 : plainWords wNever (kWho wNever) 256 69636 = true := by decide +kernel
theorem wNever_plain5 : plainWords wNever (kWho wNever) 256 70660 = true := by decide +kernel
theorem wNever_plain6 : plainWords wNever (kWho wNever) 256 71684 = true := by decide +kernel
theorem wNever_plain7 : plainWords wNever (kWho wNever) 256 72708 = true := by decide +kernel
theorem wNever_plain8 : plainWords wNever (kWho wNever) 256 73732 = true := by decide +kernel
theorem wNever_plain9 : plainWords wNever (kWho wNever) 256 74756 = true := by decide +kernel
theorem wNever_plain10 : plainWords wNever (kWho wNever) 256 75780 = true := by decide +kernel
theorem wNever_plain11 : plainWords wNever (kWho wNever) 256 76804 = true := by decide +kernel
theorem wNever_plain12 : plainWords wNever (kWho wNever) 256 77828 = true := by decide +kernel
theorem wNever_plain13 : plainWords wNever (kWho wNever) 256 78852 = true := by decide +kernel
theorem wNever_plain14 : plainWords wNever (kWho wNever) 256 79876 = true := by decide +kernel
theorem wNever_plain15 : plainWords wNever (kWho wNever) 256 80900 = true := by decide +kernel

/-- No word of the 4,096 that follow ends the loop. -/
theorem witness_LoopWithoutEnd : wNever.loopEnd (kWho wNever) 4096 0 ((theKernel wNever).next + 4) = .ok none := by
  rw [show (theKernel wNever).next + 4 = 65540 by decide +kernel]
  refine (loopEnd_plainWords _ _ 3840 0 256 _ wNever_plain0).trans ?_
  refine (loopEnd_plainWords _ _ 3584 0 256 _ wNever_plain1).trans ?_
  refine (loopEnd_plainWords _ _ 3328 0 256 _ wNever_plain2).trans ?_
  refine (loopEnd_plainWords _ _ 3072 0 256 _ wNever_plain3).trans ?_
  refine (loopEnd_plainWords _ _ 2816 0 256 _ wNever_plain4).trans ?_
  refine (loopEnd_plainWords _ _ 2560 0 256 _ wNever_plain5).trans ?_
  refine (loopEnd_plainWords _ _ 2304 0 256 _ wNever_plain6).trans ?_
  refine (loopEnd_plainWords _ _ 2048 0 256 _ wNever_plain7).trans ?_
  refine (loopEnd_plainWords _ _ 1792 0 256 _ wNever_plain8).trans ?_
  refine (loopEnd_plainWords _ _ 1536 0 256 _ wNever_plain9).trans ?_
  refine (loopEnd_plainWords _ _ 1280 0 256 _ wNever_plain10).trans ?_
  refine (loopEnd_plainWords _ _ 1024 0 256 _ wNever_plain11).trans ?_
  refine (loopEnd_plainWords _ _ 768 0 256 _ wNever_plain12).trans ?_
  refine (loopEnd_plainWords _ _ 512 0 256 _ wNever_plain13).trans ?_
  refine (loopEnd_plainWords _ _ 256 0 256 _ wNever_plain14).trans ?_
  refine (loopEnd_plainWords _ _ 0 0 256 _ wNever_plain15).trans ?_
  rfl

theorem witness_MasksAndKernelLoops : ∀ b ∈ (let open_ := wParam 0 [] (memSetList [] 65540 (leBytes 4 (57 * 2 ^ 26)))
  let never := wParam 0 [] (memSetList [] 65540 (leBytes 4 (57 * 2 ^ 26 + 1)))
  let ends := fun (s : State) (b : Bool) => okB ((s.vecFound 0 (theKernel s)).1.loopEnd (kWho s) 4096 0 ((theKernel s).next + 4)) fun pc => pc.isSome = b
  let deep := wParam 1 (List.replicate 4 (65540, 4)) []
  let flat := wParam 0xFFFFFFFF (List.replicate 3 (65540, 1)) []
  let asked : State := { open_ with requests := [⟨3, .task 0 0, 1, 0, 1, 65536, 0, 0, 64, 0⟩] }
  [isKernel asked, asked.asksOpen (.task 0 0), (theKernel asked).loops.isEmpty, !open_.asksOpen (.task 0 0), isKernel open_, reads open_ 4 68, ends open_ true, isKernel never, isKernel deep, (theKernel deep).loops.length = 4, isKernel flat, (theKernel flat).loops.length = 3,
   (theKernel deep).loops.head? = some (65540, 4), (theKernel flat).loops.head? = some (65540, 1), (theKernel open_).loops.isEmpty, (7 : Nat) < 8] : List Bool), b = true := by decide +kernel

theorem witness_KernelMemoryWords : ∀ b ∈ (let s := wKernel id []
  let far := wKernel id [0x00#8, 0x00#8, 0x20#8]
  let past := wKernel id [0x04#8]
  let ones := wKernel id (List.replicate 4 0xFF#8)
  let u := fun (s : State) => (s.vecFound 0 (theKernel s)).1
  let q := fun (s : State) => { (s.vecFound 0 (theKernel s)).2 with next := (theKernel s).next + 4 }
  let access := fun (s : State) (w : Bool) => accB ((u s).readSel 0 (q s) 4 0) fun rb => accB ((u s).laneAccess 0 (q s) 0 false 0 rb 0 4 w) fun p =>
    if w then accB ((u s).readVreg 0 (q s) 63) fun rd => accB (State.writeRuns ((u s).kernelJob 0 (q s)) 0 4 p.1 rd p.2 (u s)) fun _ => true
    else accB (State.readRuns ((u s).kernelJob 0 (q s)) 0 4 p.1 p.2 (u s)) fun _ => true
  let l := fun (rb : ByteList) => ((List.range 128).filter fun i => field rb (4 * i) 4 != 2 ^ 32 - 1).map fun i => (4 * field rb (4 * i) 4) % 2 ^ 64
  [isKernel s, reads s 4 0, access s false, access s true, (theKernel s).rq.isEmpty, isKernel past, accB ((u past).readSel 0 (q past) 4 0) fun rb => badB ((u past).laneAccess 0 (q past) 0 false 0 rb 0 4 false) fun _ => true,
   isKernel far, accB ((u far).readSel 0 (q far) 4 0) fun rb => 2 ^ 21 ≤ ((q far).param 0 + 2 ^ 32 * (q far).param 1 + field rb 0 4) % 2 ^ 64,
   isKernel ones, accB ((u ones).readSel 0 (q ones) 4 0) fun rb => (l rb).length = 127 && accB ((u ones).laneSlots ((u ones).kernelJob 0 (q ones)) false false 4 (l rb) (l rb)) (fun _ => true)
     && accB (State.engReads ((u ones).kernelJob 0 (q ones)) 0 ((l rb).map fun a => (a, 4)) (u ones)) fun _ => true] : List Bool), b = true := by decide +kernel

theorem witness_VectorRegisterWrite : ∀ b ∈ ([Memory.wf (wKernel id []).mem, (0 : Nat) < 4, 4 * (List.replicate 128 (some 0)).length ≤ 512, (63 : Nat) < 64, (67 : Nat) < 68] : List Bool),
  b = true := by decide +kernel

/-- A context of stream 0 on core 0 with a program of 16 words and a window of two slots. -/
def wCtx (f : Ctx → Ctx) (y : CatchSlot) (m : Memory) : State :=
  let s := (State.reset.placeAccess 0).onCore 0 fun x => { x with partw := 0x00000101, spm := [(0, ⟨3, 0, true, false, false⟩)], bars := [(0, ⟨[y, y], some 0⟩)] }
  { (s.setCtx 0 0 (f (Ctx.start 0 0 0 0 0 0))) with turn := .context 0 0, mem := m, mseTlb := [(0, [placedTlb])] }
def theCtx (s : State) : Ctx := (s.ctx 0 0).getD (Ctx.start 0 0 0 0 0 0)
def isCtx (s : State) : Bool := s.turn = .context 0 0 && s.ctx 0 0 = some (theCtx s)
def wEmpty : CatchSlot := ⟨16, 0, false, false, none, false⟩
def cReg (l : List (Nat × Word48)) (t : Ctx) : Ctx := { t with regs := l.foldl (fun r p => r.setIfInBounds p.1 p.2) t.regs }

theorem witness_AccessArithmetic : ∀ b ∈ (let s := wCtx id wEmpty []
  [isCtx s, s.turn = .context 0 0] : List Bool), b = true := by decide +kernel

theorem witness_AccessControl : ∀ b ∈ (let s := wCtx (cReg [(1, 0), (2, 5), (3, 0xFFFFFFFFFFFF), (4, 15), (5, 4096)]) wEmpty (memSetList [] (mseKey 0 60) (leBytes 4 (19 * 2 ^ 26)))
  let t := theCtx s
  let r := fun n => ((t.regs[n]?.getD 0 : Word48))
  let lcOf := fun n => wCtx (fun t => { t with lc := t.lc.setIfInBounds 3 n, hd := t.hd.setIfInBounds 3 (if n = 3 then 16 else 15) }) wEmpty []
  let fill := wCtx id { wEmpty with arrived := 1 } []
  let queue := wCtx (fun t => { t with cq := [7] }) wEmpty []
  let busy := wCtx (fun t => { t with pushes := [⟨0, [(0, 1)], 1⟩] }) wEmpty []
  let prog := fun (s : State) => someB (s.progOf (theCtx s)) fun p => p.len / 4 = 16
  ([isCtx s, prog s, (r 1).toInt = 0, (r 2).toInt > 0, (r 3).toInt < 0, ¬((r 2).toInt < 0), (0 : Int) + (0x0000F : Imm17).toInt < 16, (0 : Int) + (0x1FFFF : Imm17).toInt < 0, (16 : Int) ≤ 0 + (0x00010 : Imm17).toInt,
   (r 4).toNat % 2 ^ 12 < 16] : List Bool) ++ ([(0x00001 : Imm17).toInt = 1, (0x00FFF : Imm17).toInt = 4095, (0x1FFFF : Imm17).toInt < 0, (r 5).toNat > 4095, (r 1).toNat = 0,
   someB (s.progOf t) fun p => s.progWord 0 p 15 = some (.aend 0) && (List.range 14).all fun j => s.progWord 0 p (j + 1) != some (.aend 0),
   t.lc[3]?.getD 0 = 0, isCtx (lcOf 1), (theCtx (lcOf 1)).lc[3]?.getD 0 = 1, isCtx (lcOf 2), 1 < ((theCtx (lcOf 2)).lc[3]?.getD 0).toNat, ((theCtx (lcOf 2)).hd[3]?.getD 0).toNat < 16,
   isCtx (lcOf 3), 16 ≤ ((theCtx (lcOf 3)).hd[3]?.getD 0).toNat, ((s.core 0).bar 0).slots[0]? = some wEmpty, isCtx fill, someB (((fill.core 0).bar 0).slots[0]?) fun y => y.arrived ≠ 0,
   isCtx queue, (theCtx queue).cq = [7], t.cq.isEmpty, t.pushes.isEmpty, isCtx busy, !(theCtx busy).pushes.isEmpty] : List Bool) : List Bool), b = true := by decide +kernel

theorem witness_AccessPushes : ∀ b ∈ (let sh := fun (len rows : Nat) => BitVec.ofNat 48 (len + rows * 2 ^ 16)
  let at_ := fun (len rows issued : Nat) (y : CatchSlot) => wCtx (fun t => { cReg [(0, 65536), (1, 65536), (2, sh len rows), (4, 65552), (5, sh len rows)] t with issued := issued }) y (memSetList [] 65536 (List.replicate 16 1#8))
  let s := at_ 8 2 0 wEmpty
  let slot := fun (s : State) => someB (((s.core 0).bar 0).slots[0]?)
  let moved := fun (s : State) (l : List (Option Nat)) => (State.pushRows (s.whoCtx 0 0 (theCtx s)) 8 l s).2.2.isNone
  let cut := (State.pushRows (s.whoCtx 0 0 (theCtx s)) 8 [some 65536, some 131072] s)
  let rest := wCtx (fun t => { cReg [(0, 65536), (1, 65536), (2, sh 8 2)] t with rest := 8 }) wEmpty (memSetList [] 65536 (List.replicate 16 1#8))
  let behind := wCtx (fun t => { t with pushes := [⟨0, [(0, 1#8)], 1⟩] }) wEmpty []
  [isCtx s, slot s fun y => !y.awaiting && y.expected - 0 = 16, (s.core 0).pushOk 8176 16, moved s [some 65536, some 65536], cut.1.length = 8, someB cut.2.2 fun e => !e.waits, (theCtx s).rest = 0, isCtx rest, (theCtx rest).rest = 8,
   (rest.core 0).pushOk 0 16, moved rest [some 65536], isCtx behind, (theCtx behind).issued = 0, (theCtx behind).pushes.any fun q => q.slot == (theCtx behind).cslot,
   isCtx (at_ 8 1 8 wEmpty), slot (at_ 8 1 8 wEmpty) fun y => y.expected - 8 = 8, moved (at_ 8 1 8 wEmpty) [some 65536],
   isCtx (at_ 17 1 0 wEmpty), slot (at_ 17 1 0 wEmpty) fun y => y.expected < 17, isCtx (at_ 0 1 0 wEmpty), !(s.core 0).pushOk 8177 16, (theCtx s).pushes.isEmpty,
   slot (wCtx id { wEmpty with awaiting := true } []) fun y => y.awaiting,
   okB (s.indexRows 0 0 (theCtx s) 1 4 ((theCtx s).regs[5]?.getD 0)) fun q => q.1.length = 2] : List Bool), b = true := by decide +kernel

theorem witness_PushLandingAndContextEnd : ∀ b ∈ (let s := wCtx (fun t => { t with pushes := [⟨0, [(0, 1#8), (1, 2#8)], 2⟩] }) wEmpty []
  let done := wCtx (fun t => { t with stopping := true }) wEmpty []
  [Memory.wf s.mem, (theCtx s).pushes = [⟨0, ([1#8, 2#8] : ByteList).mapIdx fun i v => (0 + i, v), 2⟩], !(s.core 0).frozen, !s.frozenMse.contains 0, isCtx done, (theCtx done).stopping, (theCtx done).pushes.isEmpty, tabRising done.ctxs] : List Bool),
  b = true := by decide +kernel

/-- Core 0 with one released task in entry 0, and a channel entry for it when it is of the copy class. -/
def wTask (r : ByteList) (f : TaskRec → TaskRec) (g : Core → Core) (m : Memory) : State :=
  let h : List Handle := [⟨0, 0, 0, 0, [], [], 0⟩, ⟨0, 0x0A, 2, 0, [16, 16], [16], 256⟩, ⟨2, 0x0A, 1, 0, [256], [], 256⟩, ⟨1, 0x0A, 2, 65536, [16, 16], [16], 256⟩]
  let s := wCore [] fun x => g { x with partw := 0x00010101, spm := [(0, ⟨3, 0, true, false, false⟩)], handles := h, window := [(0, f { taskOf r with st := .running })], chans := if recCls r = 3 then x.chans.setIfInBounds 0 [⟨1, [], 0, .task 0, false, false, [], []⟩] else x.chans }
  { s with mem := m }
/-- What the units of a task answer: all done, stopped, waiting. -/
def outcome (p : State × Option Cause × Bool) : Nat :=
  match p with
  | (_, none, true) => 0
  | (_, some _, _) => 1
  | (_, none, false) => 2
def engineRun (s : State) (oper : Nat) (units : State → Job → Nat) (step : Job → Nat → State → Machine.Acc State) (n : Nat) : Bool :=
  someB (s.runnable 0 0 oper) fun t =>
    let starts := s.onTask 0 0 fun y => { y with st := .running }
    let j := t.job 0 0 0 0
    let left := units starts j - t.prog
    let stop := (s.core 0).stopUnits t.bytes
    s.pace.isNone && !s.savingCore 0 && outcome (runUnits (step j) (fun k u => ((u.onTask 0 0 fun y => { y with prog := k }).stirred 0).spend j.req)
      (s.paced 0 left (stop - t.prog % stop)) t.prog starts) = n
def one : State → Job → Nat := fun _ _ => 1
def latched (x : Core) : Core := { x with lval := true, lfmt := 0x0A }
def rowsRec (oper nrd : Nat) (param : Nat) : ByteList := recOf 0 oper 0x0A 0 nrd 1 [(0, reg0 1 0 0 0 128), (1, reg0 1 0 0 1024 512), (3, reg0 1 1 0 131072 512)] param
def tilesOf (u : State) (j : Job) : Nat := (xpTiles (u.tsides j).1.ext).1 * (xpTiles (u.tsides j).1.ext).2 * (u.tsides j).1.ext.getD 2 0 * (u.tsides j).1.ext.getD 3 0

theorem witness_EngineTasks : ∀ b ∈ (let wldRec := recOf 0 0x01 0 0x0A 1 0 [(0, reg0 1 0 2 0 8192)] 0
  [engineRun (wTask wldRec id id []) 0x01 one wldUnit 0, engineRun (wTask (recOf 0 0x01 0 0x0A 1 0 [(0, reg0 1 0 1 0x100000 16384)] 0) id id []) 0x01 one wldUnit 1,
   engineRun (wTask (rowsRec 0x02 1 0) id latched []) 0x02 passUnits (passUnit (State.productStart false) (State.productRow false)) 0, engineRun (wTask (rowsRec 0x02 1 0) id id []) 0x02 passUnits (passUnit (State.productStart false) (State.productRow false)) 1,
   engineRun (wTask (rowsRec 0x08 1 0) id latched []) 0x08 passUnits (passUnit (State.productStart true) (State.productRow true)) 0,
   engineRun (wTask (recOf 0 0x03 0 0 1 1 [(0, reg0 1 0 0 0 512), (3, reg0 0 1 0 1024 512)] 8) id id []) 0x03 rankUnits (rankUnit mmcRow) 0,
   engineRun (wTask (rowsRec 0x05 2 0) id id []) 0x05 passUnits (passUnit generatedStart permRow) 0, engineRun (wTask (rowsRec 0x06 1 0x100000) id id []) 0x06 passUnits (passUnit generatedStart rsumRow) 0,
   engineRun (wTask (recOf 0 0x07 0x0A 0 1 1 [(0, reg0 1 0 0 0 4096), (3, reg0 0 1 0 8192 4096)] 0x00100001) id id []) 0x07 one trnUnit 0,
   engineRun (wTask (recOf 2 0x30 0 0 1 1 [(0, regH 1 1 0 0 0 8 4), (3, regH 1 0 1 8 8 4 8)] 0) id id []) 0x30 tilesOf xpTile 0,
   engineRun ((wTask (recOf 0 0x03 0 0 1 1 [(0, reg0 1 0 1 65536 512), (3, reg0 0 1 0 1024 512)] 8) id id []).onDie 0 fun y => { y with rit := [(0, { RitEntry.init 0 with qs := true })] }) 0x03 rankUnits (rankUnit mmcRow) 2] : List Bool), b = true := by decide +kernel

set_option maxRecDepth 1500 in
theorem witness_TopkTask : engineRun (wTask (recOf 0 0x04 0 0 1 2 [(0, reg0 1 0 0 0 512), (3, reg0 0 1 0 1024 512), (4, reg0 0 1 0 2048 512)] 0x0208) id id []) 0x04 rankUnits (rankUnit topkRow) 0 = true := by decide +kernel

def copyRun (s : State) (n : Nat) : Bool :=
  someB (s.copyReady 0 0) fun e =>
    let s1 := s.onCore 0 fun x => { x with lastChan := 0 }
    let j := s1.copyJob 0 0 e
    e.src = .task 0 && s.nextChan 0 = some 0 && s.onlyChan 0 0 && s.pace.isNone
      && outcome (runUnits (copyUnit j) (fun k u => ((u.noteRow 0 0 e k).stirred 0).spend j.req) (min (copyUnits s1 j - e.row) (copyUnits s (s.copyJob 0 0 e))) e.row s1) = n
def copyRec (oper af wf nrd nwr : Nat) (gs : List (Nat × Nat)) (param : Nat) : State := wTask (recOf 3 oper af wf nrd nwr gs param) id id []

theorem witness_CopyTasks : ∀ b ∈ (let a := reg0 1 0 0 0 16
  let d := reg0 0 1 0 4096 16
  let both := (copyRec 0x46 0x0A 0 0 1 [(3, d)] 7).onCore 0 fun x => { x with lastChan := 0, chans := x.chans.setIfInBounds 7 [⟨2, List.replicate 64 0#8, 0, .sta, false, false, [], []⟩] }
  [(both.copyReady 0 0).isSome, both.nextChan 0 = some 7, (recOper (recOf 3 0x40 0x0A 0 1 1 [] 0) = 0x40 : Bool), (wTask (recOf 3 0x40 0x0A 0 1 1 [(0, a), (3, d)] 0) id id []).core 0 |>.chanOf 0 |> (· == 0),
   copyRun (copyRec 0x40 0x0A 0 1 1 [(0, a), (3, d)] 0) 0, copyRun (copyRec 0x40 0x0A 0 1 1 [(0, reg0 1 0 1 0x200000 16), (3, d)] 0) 1,
   copyRun (copyRec 0x41 0x0A 0 1 1 [(0, regH 1 1 0 0 0 8 4), (3, regH 1 0 1 8 8 4 8)] 0) 0, copyRun (copyRec 0x42 0x0A 0 1 1 [(0, regH 1 1 0 0 0 8 4), (3, regH 1 0 1 8 8 4 8)] 0) 0,
   copyRun (copyRec 0x43 0 0 2 1 [(0, regH 1 1 0 0 0 16 4), (1, reg0 1 0 0 4096 8), (3, regH 1 0 1 0 8 16 2)] 0) 0,
   copyRun (copyRec 0x44 0 0 2 1 [(0, regH 1 1 0 0 8 16 2), (1, reg0 1 0 0 4096 8), (3, regH 1 0 1 0 0 16 4)] 1) 0,
   copyRun (copyRec 0x45 0x0A 0x08 1 1 [(0, a), (3, reg0 0 1 0 4096 64)] 0) 0, copyRun (copyRec 0x46 0x0A 0 0 1 [(3, d)] 7) 0,
   copyRun (copyRec 0x47 0 0 1 1 [(0, a), (3, d)] 0) 0, copyRun (copyRec 0x48 0 0 1 2 [(0, a), (3, reg0 0 1 0 4096 16), (4, reg0 0 1 0 8192 16)] 0x1004) 0,
   copyRun (copyRec 0x49 0 0 1 1 [(0, a), (3, d)] 0) 0, copyRun (copyRec 0x4A 0 0 1 1 [(0, a), (3, d)] 0) 0, copyRun (copyRec 0x4B 0 0 1 1 [(0, a), (3, reg0 0 1 2 4096 16)] 0) 0,
   copyRun ((copyRec 0x46 0x0A 0 0 1 [(3, reg0 0 1 1 65536 16)] 7).onDie 0 fun y => { y with rit := [(0, { RitEntry.init 0 with qs := true })] }) 2] : List Bool),
  b = true := by decide +kernel

/-- A released VK task whose kernel block stands at local offset 32. -/
def wVk (blk : ByteList) : State :=
  wTask (recOf 1 0x20 0 0 0 0 [] 32) (fun t => { t with st := .staged }) id (memSetList [] (poolKey 0 32) blk)

theorem witness_VectorKernels : ∀ b ∈ (let s := wVk (leBytes 8 65536)
  let bad := wVk (leBytes 8 65537)
  let k := Kernel.start 0 65536 0 (Vector.replicate 16 0)
  let acc := s.onCore 0 fun x => { x with staged := some k }
  let ready := fun (s : State) (p : ByteList → Bool) => someB (tabFind (s.core 0).window 0) fun t => t.st = .staged && recOper t.bytes = 0x20 && (s.core 0).staged.isNone && s.coreLive 0
    && okB (s.readLocalChecked 0 (recPar t.bytes 20 0) 96) p
  [ready s fun b => (kernelBlockBad b).isNone, ready bad fun b => kernelBlockBad b = some 0, (acc.core 0).kernel.isNone, (acc.core 0).staged = some k, acc.coreLive 0,
   (tabFind (acc.core 0).window k.entry).isSome] : List Bool), b = true := by decide +kernel

theorem witness_AdmissionAndRelease : ∀ b ∈ (let s := wCore [] fun x => { x with ingress := [recFill], ingressTurn := true }
  let bad := wCore [] fun x => { x with ingress := [recFill.set 1 0] }
  let ready := fun (c : Nat) (r : ByteList) (g : Core → Core) => let u := wTask r (fun t => { t with st := .admitted }) g []
    u.coreLive 0 && (u.core 0).hasPlace c && someB ((u.core 0).pickTask c) fun p => !(u.core 0).releasedFirst c p.2
  [s.coreLive 0, (s.core 0).ingressTurn, (s.core 0).ingress = [recFill], okB (s.recordCheck 0 0 recFill) fun _ => true, (s.core 0).freeEntry = some 0,
   bad.coreLive 0, !(bad.core 0).postPending, errB (bad.recordCheck 0 0 (recFill.set 1 0)) fun _ => true, ready 3 recFill id, ready 0 (rowsRec 0x06 1 0x100000) id,
   ready 1 (recOf 1 0x20 0 0 0 0 [] 32) id, ready 0 (rowsRec 0x06 1 0x100000) fun x => { x with window := x.window ++ [(1, { taskOf (rowsRec 0x06 1 0x100000) with st := .running, age := 1 })] }] : List Bool),
  b = true := by decide +kernel

theorem witness_TaskCompletionEvent : ∀ b ∈ (let done := wTask recFill (fun t => { t with st := .done }) id []
  let pub := fun (g : Core → Core) => wTask (recFill.set 10 1) (fun t => { t with st := .done, pubPending := true, ren3 := true }) g []
  let inSp := (recOf 3 0x46 0x0A 0 0 1 [(3, reg0 0 1 0 65536 16)] 7).set 10 1
  let waits := wTask inSp (fun t => { t with st := .done, pubPending := true, ren3 := true }) id []
  let ready := fun (s : State) => someB (tabFind (s.core 0).window 0) fun t => t.st = .done && !(s.core 0).frozen && !s.asksOpen (.task 0 0) && !s.taskPubOpen 0 0 && t.rdeps.isEmpty && t.pdeps.isEmpty
  let opens := fun (s : State) => someB (tabFind (s.core 0).window 0) fun t => t.pubPending && (s.askTaskPub 0 0 t).taskPubOpen 0 0
  let free := fun (s : State) => someB (tabFind (s.core 0).window 0) fun t => (heldAmong (s.pubRegions 0 0 t)).isNone
  [free waits, free (pub id), ready done, someB (tabFind (done.core 0).window 0) fun t => !t.pubPending, ready waits, opens waits, ready (pub id), !opens (pub id), someB (tabFind ((pub id).core 0).window 0) fun t => t.pubPending] : List Bool),
  b = true := by decide +kernel

theorem witness_PublishEvents : ∀ b ∈ (let s := wShadow none
  let asked := s.onDie 0 fun y => { y with pubHeld := [⟨3, [0], none⟩] }
  [!(s.core 0).frozen, (asked.die 0).pubHeld = [⟨3, [0], none⟩], asked.cores.all fun q => !q.2.touches [regionKey 0 0], !(asked.rit 0 0).qs, !asked.causalIn 0 0, (asked.die 0).ritHeld.isEmpty, !s.frameUsed 0 255] : List Bool), b = true := by decide +kernel

theorem witness_ShadowBinding : ∀ b ∈ (let s := (wTask recFill id id []).onDie 0 fun y => { y with bindAsk := [(4096, .task 0 0)] }
  let spare := s.onDie 0 fun y => { y with rit := [(9, { RitEntry.init 9 with v := false })] }
  [((s.die 0).bindAsk.find? fun p => p.1 / 2 ^ 21 == 0) = some (4096, .task 0 0), !((s.die 0).ritAt 0).qs, !((s.die 0).ritAt 0).shv, (s.die 0).spares = [],
   !s.regionComing 0, ((spare.die 0).bindAsk.find? fun p => p.1 / 2 ^ 21 == 0) = some (4096, .task 0 0), !((spare.die 0).ritAt 0).qs, (spare.die 0).spares = [9]] : List Bool), b = true := by decide +kernel

/-- Channel 7 with one entry of a template that copies between two regions. -/
def wChan (f : ChanEntry → ChanEntry) (a b : Nat) : State :=
  let tpl : ByteList := putField (putField (putField (List.replicate 64 0#8) 0x10 16 a) 0x20 16 b) 2 1 0x0A
  wCore [] fun x => { x with chans := x.chans.setIfInBounds 7 [f ⟨1, tpl, 0, .sta, false, false, [], []⟩] }

theorem witness_CopyEvents : ∀ b ∈ (let done := wChan (fun e => { e with done := true }) 0 0
  let turn := fun (s : State) => s.onCore 0 fun x => { x with lastChan := 0 }
  let row := fun (s : State) (p : ChanEntry → Bool) => s.nextChan 0 = some 0 && someB (s.copyReady 0 0) fun e => e.row < copyUnits (turn s) ((turn s).copyJob 0 0 e) && p e
  let waitB := fun (a : Machine.Acc State) => match a with
    | .wait _ => true
    | _ => false
  let one := copyRec 0x46 0x0A 0 0 1 [(3, reg0 0 1 0 4096 16)] 7
  let unit := fun (s : State) (e : ChanEntry) => accB (copyUnit ((turn s).copyJob 0 0 e) e.row (turn s)) fun _ => true
  let far := copyRec 0x46 0x0A 0 0 1 [(3, reg0 0 1 1 0x200000 16)] 7
  let held := (copyRec 0x46 0x0A 0 0 1 [(3, reg0 0 1 1 65536 16)] 7).onDie 0 fun y => { y with rit := [(0, { RitEntry.init 0 with qs := true })] }
  let two := copyRec 0x46 0x0A 0 0 1 [(3, regH 1 0 1 0 0 16 2)] 7
  [row one (unit one), row far fun e => badB (copyUnit ((turn far).copyJob 0 0 e) e.row (turn far)) fun _ => true, row two fun e => unit two e && !(copyUnits two (two.copyJob 0 0 e) ≤ e.row + 1),
   row held fun e => waitB (copyUnit ((turn held).copyJob 0 0 e) e.row (turn held)),
   someB ((done.core 0).chan 7).head? fun e => e.src = .sta && e.done, !(done.core 0).frozen, !done.asksOpen (.copy 0 7 1)] : List Bool), b = true := by decide +kernel

def wLoad (val : Option Word64) (home : Option Nat) : State := wRun fun t => { t with loads := [⟨7, 5, val, 0, true, 8, false, none, 65536, home, home.map fun _ => 65536, 65536⟩], seen := t.seen.setIfInBounds 7 1 }
def wCausal (v applied : Word32) : State :=
  let s := wRegs []
  s.onDie 0 fun y => { y with causal := [⟨7, (Vector.replicate 8 0).setIfInBounds 7 v, 1023, 0, 7, 65536, some 65536, 0, [1#8], 65536⟩], applied := y.applied.setIfInBounds 7 applied }

theorem witness_AccessEvents : ∀ b ∈ (let s := wItem (some .die) none
  let l := wLoad (some 3) none
  let a := wCausal 0xFFFFFFFF 0xFFFFFFFE
  let empty := a.onDie 0 fun y => { y with causal := y.causal.map fun e => { e with data := [] } }
  let lost := fun (s : State) => { s with lines := [(1024, ⟨0, 0, 0, true⟩)] }
  let gang := s.onPart 0 fun p => { p with gang := true }
  let c := (wLoad none (some 0)).onDie 0 fun y => { y with applied := y.applied.setIfInBounds 7 1 }
  [((s.core 0).items.any fun x => x.id == 7 && x.kind.isAccess), !(s.core 0).frozen, !s.accessOpen 0 7, ((l.strand 0 0).loads.find? fun l => l.val.isSome).isSome, !(l.core 0).frozen,
   !(s.corePart 0).gang, (gang.corePart 0).gang, !gang.accessOpen 0 7,
   someB ((a.die 0).causal.find? fun e => e.src == 7 && (a.die 0).mayApply e) fun e => e.data ≠ [] && !a.poolFrozen e.key && (a.causalCause e.owner true e.dpa e.key e.data.length).isNone
     && ((lost a).causalCause e.owner true e.dpa e.key e.data.length).isSome && (a.causalKey e.dpa e.key).isSome,
   someB ((empty.die 0).causal.find? fun e => e.src == 7 && (empty.die 0).mayApply e) fun e => e.data.isEmpty,
   someB ((c.strand 0 0).loads.find? fun l => l.home.isSome && l.val.isNone) fun l => !(c.core 0).frozen && !c.poolFrozen l.key && (c.causalCause (c.corePart 0).key false l.dpa l.key l.nbytes).isNone
     && ((lost c).causalCause (c.corePart 0).key false l.dpa l.key l.nbytes).isSome && (List.range 8).all fun i => ((c.strand 0 0).seen[i]?).getD 0 ≤ (((c.die (l.home.getD 0)).applied)[i]?).getD 0]
  : List Bool), b = true := by decide +kernel

theorem witness_RequestEnds : ∀ b ∈ (let s : State := { wLoad none none with requests := [⟨3, .load 0 0 7, 1, 131072, 2047, 65536, 0, 131072, 8, 0⟩, ⟨4, .store 0 0 8, 2, 0, 2047, 65536, 1, 0, 8, 0⟩, ⟨5, .load 0 0 9, 2, 0, 2047, 65536, 0, 0, 8, 0⟩, ⟨6, .load 0 0 10, 0, 0, 2047, 65536, 0, 0, 8, 0⟩] }
  [someB (s.openRequest 3) fun q => q.tier ≠ 0 && q.tier ≠ 2, someB (s.openRequest 4) fun q => q.tier = 2 && q.kind ≠ 0, someB (s.openRequest 5) fun q => q.tier = 2 && q.kind = 0, someB (s.openRequest 6) fun q => q.tier = 0] : List Bool), b = true := by decide +kernel

/-- A booted module; region 1 of die 7 has no backing. -/
def wUp : State :=
  let s := (wRegs []).onDie 7 fun y => { y with rit := [(65535, { RitEntry.init 65535 with v := false })] }
  { s with keel := { s.keel with booted := true, sessions := [5], alloc := [0, 1] } }

theorem witness_PeerArrivals : ∀ b ∈ (let s : State := { wUp with modid := 0x8001 }
  let full := s.onCore 0 fun x => { x with ingress := List.replicate 64 [] }
  let held := s.onDie 0 fun y => { y with rit := [(0, { RitEntry.init 0 with qs := true })] }
  let bad : State := { s with lines := [(0, ⟨0, 0, 0, true⟩)] }
  let free := fun (s : State) (n : Nat) => someB (s.dpaPieces 0 n) fun ps => (s.blockedAt s.outsideReq (pieceRegions ps)).isNone
  let cause := fun (s : State) (w : Bool) => someB (s.dpaPieces 0 8) fun ps => (ps.findSome? (s.pieceCause (whoPeer 1) w false)).isSome
  let frozen := s.onCore 0 fun x => { x with frozen := true }
  [!(s.core 0).frozen, (s.core 0).part.isSome, s.takesIngress (s.corePart 0) 0, !full.takesIngress (full.corePart 0) 0, s.keel.booted, s.linked, (s.dpaPieces 0xFFFFFFFFF8 8).isNone,
   free s 4096, free s 8, someB (held.dpaPieces 0 8) fun ps => (held.blockedAt held.outsideReq (pieceRegions ps)).isSome, free bad 8, cause bad false, cause bad true, !cause s false, !cause s true,
   amoBytes .d = 8, !s.postrHeld 0, frozen.postrHeld 0, (0xFFFFFFFFFF : Nat) % 2 ^ 41 + 2 > 2 ^ 40] : List Bool), b = true := by decide +kernel

theorem witness_CacheConfiguration : ∀ b ∈ (let s := wRegs []
  let pend := wCore [] fun x => { x with sttPend := some (3, 0) }
  [s.strandReady 0 0, (s.core 0).sttBad 5, stillB s, !(s.core 0).sttBad 0, (s.core 0).sttPend.isNone, (pend.core 0).sttPend = some (3, 0), !(pend.core 0).fillsOpen, !(pend.core 0).frozen] : List Bool),
  b = true := by decide +kernel

theorem witness_WaitProbes : ∀ b ∈ (let s : State := { (wRun fun t => { t with hold := some ⟨.cwait g0 0 0 0, [], 0, none, []⟩ }) with tick := 0xFFFFFFFFFFFF }
  let sent := fun q r => s.onPart 0 fun p => { p with probe := some (r, q) }
  let exempt := (sent true 1).onPart 0 fun p => { p with gang := true, levels := [⟨0, 5, 2⟩, ⟨5, 1, 1⟩] }
  [s.quietCore 0, s.core0 0 = some 0, (s.part 0).phase = .running, (s.part 0).probe.isNone, !s.waitcfg.getLsbD 31, s.someWait 0, ((sent false 1).part 0).probe = some (1, false), !(sent true 1).probeExempt 0,
   ((sent true 1).part 0).probe = some (1, true), ((sent true 2).part 0).probe = some (2, true), !(sent true 2).probeExempt 0, exempt.probeExempt 0, (exempt.part 0).probe = some (1, true)] : List Bool),
  b = true := by decide +kernel

theorem witness_CollectiveEvents : ∀ b ∈ (let s : State := { (wTask (recOf 3 0x49 0 0 1 1 [(0, reg0 1 0 0 0 16), (3, reg0 0 1 0 4096 16)] 0) id id []).onPart 0 fun p => { p with gang := true, levels := [⟨0, 5, 2⟩, ⟨5, 1, 1⟩] } with modid := 0x8001 }
  [s.linked, someB (tabFind (s.core 0).window 0) fun t => recOper t.bytes = 0x49 && 1 < s.ranks 0 (recPar t.bytes 2 0) && (s.corePart 0).span (recPar t.bytes 2 0) > 1] : List Bool), b = true := by decide +kernel

/-! ### Packets, launches and the queues -/

/-- One GiB of HBM at its own addresses, by a page table of three levels; the gibibyte at 2 GiB is host memory. -/
def wPages : Memory := memSetList (memSetList (memSetList (memSetList [] 0 (leBytes 8 0x1001)) 0x1000 (leBytes 8 0x2001)) 0x2000 (leBytes 8 0xF)) 0x2010 (leBytes 8 0x2F)
def wQueue : Queue := { Queue.reset with qctl := 0x100004001, lbase := 0x100000, lsize := 4, qbase := 0x100000, wr := 1 }
/-- The bytes of a packet. -/
def pkt (type : Nat) (l : List (Nat × Nat × Nat)) : ByteList := l.foldl (fun b p => putField b p.1 p.2.1 p.2.2) (putField (zeros 64) 0 1 type)
/-- A booted module with queue 0, whose ring holds a packet. -/
def wFront (b : ByteList) (f : Queue → Queue) (m : List (Nat × ByteList)) : State :=
  { State.reset with keel := { State.reset.keel with booted := true }, queues := [(0, f wQueue)], mem := m.foldl (fun t p => memSetList t p.1 p.2) (memSetList wPages 0x100000 b) }
/-- Packet 5 of queue 0, started. -/
def thePkt (b : ByteList) (begun : Bool) (list : List Word64) : Packet := ⟨5, b, 0, true, 0x100000, false, 0, 0, none, begun, false, none, list, none⟩
def wPk (b : ByteList) (begun : Bool) (list : List Word64) (m : List (Nat × ByteList)) : State := wFront b (fun x => { x with rd := 1, packets := [thePkt b begun list] }) m
def isPk (s : State) (b : ByteList) (begun : Bool) (list : List Word64) : Bool := s.packet 0 5 = some (thePkt b begun list)

def wWho (s : State) : Who := s.whoQueue 0 (.packet 0 5)
def wBegun (s : State) : State := s.onPacket 0 5 fun p => { p with begun := true }

theorem witness_FetcherTurns : ∀ b ∈ (let ok := wFront (pkt 0 []) id []
  let bad := wFront (pkt 11 []) id []
  let next := fun (s : State) => let v := s.goOnSkips 0
    ({ v with lastServed := tabPut v.lastServed (v.rotation 0 (v.queue 0).prio) 0 } : State).onQueue 0 Queue.dropEnded
  let ready := fun (s : State) (p : ByteList → Bool) => s.frontRuns && (s.goOnSkips 0).pickQueue 0 = some 0 && !(s.goOnSkips 0).modesel.getLsbD 0 && ((next s).queue 0).nextAddr = some (0x100000 : Word64)
    && okB ((next s).readForm ((next s).whoQueue 0 (.queue 0)) 0x100000 64) p
  let hw : State := { ok with modesel := 1 }
  [ready ok fun b => okB ((next ok).checkPacket 0 0x100000 b) fun _ => true, ready bad fun b => packetForm (if ((next bad).queue 0).owner = 0 then 2048 else 32) b = some 0,
   hw.frontRuns && (hw.goOnSkips 0).pickQueue 0 = some 0 && (hw.goOnSkips 0).modesel.getLsbD 0] : List Bool), b = true := by decide +kernel

theorem witness_PacketEffects : ∀ b ∈ (let st := fun (t : Nat) (l : List (Nat × Nat × Nat)) => (wPk (pkt t l) false [] [], isPk (wPk (pkt t l) false [] []) (pkt t l) false [])
  let set := fun (a : Nat) => st 4 [(0x10, 8, a)]
  let puts := fun (s : State) (a : Word64) => (wBegun s).writeData (wWho s) a (leBytes 8 0)
  let add := st 4 [(0x10, 8, 0x110000), (0x18, 1, 1)]
  let copy := fun (src dst : Nat) => st 8 [(0x10, 8, src), (0x18, 8, dst), (0x20, 8, 16)]
  let reads := fun (s : State) (a : Word64) => (wBegun s).readData (wWho s) a 16
  let good := (copy 0x110000 0x120000).1
  let lost := (copy 0x110000 0x40000000).1
  let wait := pkt 3 [(0x18, 1, 1)]
  let s := wPk wait false [0x120000] []
  [(st 0 []).2, (set 0x110000).2, okB (puts (set 0x110000).1 0x110000) fun _ => true, add.2, okB ((wBegun add.1).updateSignal (wWho add.1) 0x110000 16 0 (· + 0)) fun _ => true,
   (set 0x40000000).2, errB (puts (set 0x40000000).1 0x40000000) fun c => !c.waits, (set 0x80000000).2, errB (puts (set 0x80000000).1 0x80000000) fun c => c.waits,
   (st 7 [(0x10, 8, 0x110000), (0x18, 4, 1)]).2, (copy 0x110000 0x120000).2, okB (reads good 0x110000) fun b => okB ((wBegun good).writeData (wWho good) 0x120000 b) fun _ => true,
   (copy 0x40000000 0x120000).2, errB (reads (copy 0x40000000 0x120000).1 0x40000000) fun c => !c.waits, (copy 0x80000000 0x120000).2, errB (reads (copy 0x80000000 0x120000).1 0x80000000) fun c => c.waits,
   (copy 0x110000 0x40000000).2, okB (reads lost 0x110000) fun b => errB ((wBegun lost).writeData (wWho lost) 0x40000000 b) fun _ => true,
   isPk s wait false [0x120000], okB ((wBegun s).readWord ((wBegun s).whoQueue 0 (.packet 0 5)) 0x120000) fun x => 0 ≤ x.toInt && cmpWord ((thePkt wait false []).word 0x19 1) x ((thePkt wait false []).addrAt 0x20)]
  : List Bool), b = true := by decide +kernel

theorem witness_PacketControl : ∀ b ∈ (let wait := pkt 3 [(0x10, 8, 0x110000), (0x18, 1, 1)]
  let cond := fun (ref n : Nat) => pkt 5 [(0x10, 8, 0x110000), (0x18, 1, 0), (0x1A, 2, n), (0x20, 8, ref)]
  let loop := pkt 6 [(0x10, 8, 0x110000), (0x1A, 2, 1), (0x20, 8, 3)]
  let fence := fun (n : Nat) => pkt 9 [(0x10, 1, n)]
  let at_ := fun (b : ByteList) (begun : Bool) => isPk (wPk b begun [] []) b begun []
  let val := fun (b : ByteList) (ref : Word64) (r : Bool) => okB ((wBegun (wPk b false [] [])).readWord (wWho (wPk b false [] [])) 0x110000) fun v => cmpWord 0 v ref = r
  let first := fun (b : ByteList) (begun : Bool) => at_ b begun && ((wPk b begun [] []).queue 0).firstLeft 5
  let quiet := fun (s : State) => !s.writesOut 0 && !(s.requests.any fun r => r.whose == .packet 0 5)
  let level := (wFront (cond 3 1) (fun x => { x with levels := [⟨0x100000, 4, 1, [], 9⟩] }) []).queue 0
  let held := (wPk (cond 3 1) true [] []).onQueue 0 fun x => { x with skip := 1, levels := level.levels }
  [at_ wait true, at_ (cond 0 1) false, at_ (cond 3 1) false, ([true, false].any fun r => val (cond 3 1) 3 r), ([true, false].any fun r => val (cond 0 1) 0 r), val (cond 3 1) 3 true != val (cond 0 1) 0 true,
   ((wBegun (wPk (cond 3 1) false [] [])).queue 0).passOver 1 = none, (level.passOver 1).isSome, (((wPk (cond 3 1) false [] []).queue 0).passOver 0).isSome, at_ (cond 3 1) true,
   ((wPk (cond 3 1) true [] []).queue 0).skip = 0, isPk held (cond 3 1) true [], (held.queue 0).skip ≠ 0, ((held.queue 0).passOver (held.queue 0).skip).isSome, at_ loop false,
   okB ((wBegun (wPk loop false [] [])).readWord (wWho (wPk loop false [] [])) 0x110000) fun _ => true, first (fence 4) false, first (fence 5) false, quiet (wPk (fence 5) false [] []), first (fence 6) false,
   first (fence 6) true, quiet (wPk (fence 6) true [] []), first (pkt 10 []) false] : List Bool), b = true := by decide +kernel

theorem witness_PacketEnds : ∀ b ∈ (let done := fun (b : ByteList) => wFront b (fun x => { x with rd := 1, packets := [{ thePkt b true [] with ready := true }] }) []
  let ready := fun (b : ByteList) (ntfy : Nat) (p : State → Packet → Bool) => let t := (done b).onQueue 0 Queue.dropEnded
    someB (t.packet 0 5) fun k => k.ready && k.type ≠ 7 && !(t.requests.any fun r => r.whose == .packet 0 k.pid) && k.status ≠ 3 && k.abort.isNone && field k.bytes 1 1 / 2 % 2 = ntfy && p t k
  let noted := wFront [] (fun x => { x with notes := [(0, zeros 64)] }) []
  let note := fun (t : Nat) => pkt t [(1, 1, 2)]
  [ready (pkt 0 []) 0 fun _ k => k.csig = 0, ready (pkt 10 []) 0 fun _ k => k.csig = 0 && k.inRing, ready (note 0) 1 fun _ k => k.csig = 0,
   ready (pkt 0 [(8, 8, 0x110000)]) 0 fun t k => k.csig ≠ 0 && !k.signalled && okB (t.updateSignal (t.whoQueue 0 (.packet 0 k.pid)) k.csig 16 (BitVec.allOnes 64) (· - 1)) fun _ => true,
   ready (pkt 0 [(8, 8, 0x8000000000110000)]) 0 fun t k => k.csig ≠ 0 && !k.signalled && okB (t.updateSignal (t.whoQueue 0 (.packet 0 k.pid)) k.csig 16 (BitVec.allOnes 64) (· - 1)) fun u =>
     u.requests.any fun r => r.whose == .packet 0 k.pid,
   (noted.queue 0).notes = [(0, zeros 64)], !(noted.queue 0).notesFull] : List Bool), b = true := by decide +kernel

/-- A launch record of one core, whose entry is ENTRY. -/
def wRecord (entry : Nat) : ByteList :=
  [(0, 4, 0xD80C1A57), (4, 2, 1), (6, 1, 1), (8, 4, 0x000B0B0A), (0x0E, 2, 1), (0x20, 8, 0x120000), (0x40, 8, entry), (0x80, 1, 5), (0x81, 1, 5), (0x82, 2, 1)].foldl
    (fun b p => putField b p.1 p.2.1 p.2.2) (zeros 256)
/-- Launch part 5 waits, or as F says, for a core of its own. -/
def wPart (f : Part → Part) : State := (wFront [] id []).setPart 5 (f { Machine.Part.none with phase := .waiting, levels := [⟨5, 5, 1⟩], pid := 5 })
def wPl : Placement := ⟨[3], [(0, 0)]⟩

theorem witness_LaunchEvents : ∀ b ∈ (let pk := pkt 1 [(0x10, 8, 0x110000)]
  let at_ := fun (entry : Nat) => wPk pk false [] [(0x110000, wRecord entry)]
  let check := fun (s : State) => let t := wBegun s
    t.checkLaunch (t.whoQueue 0 (.packet 0 5)) (t.queue 0).keyid (t.newPart 0 (thePkt pk false []))
  let fits := fun (s : State) => (s.part 5).phase = .waiting && (s.part 5).image.isNone && wPl.cores.all (s.freeCore []) && placedIn none (s.part 5).levels 0 4096 wPl.cores
  let loads := fun (s : State) (p : Except Cause State → Bool) => someB (s.placement (s.part 5) wPl) fun l =>
    p (((wPl.cores.zipIdx).foldl (fun t q => t.setUpCore 5 (s.part 5) q.2 q.1) s).loadProgs (s.partWho 5 (s.part 5)) l)
  let lost := wPart fun p => { p with progs := [⟨0, 1, 4, 0x40000000, 0, []⟩] }
  let setUp := fun (f : Part → Part) => (wPart fun p => f { p with phase := .setUp, setTick := 5, cores := [3] })
  let started := { setUp fun p => { p with gang := true, atick := 7 } with tsync := 2, tick := 7 }
  let run := (wPart fun p => { p with phase := .running, cores := [3] })
  [isPk (at_ 0x130000) pk false [], okB (check (at_ 0x130000)) fun _ => true, isPk (at_ 2) pk false [], errB (check (at_ 2)) fun x => !x.waits,
   fits (wPart id), loads (wPart id) (okB · fun _ => true), fits lost, loads lost (errB · fun x => !x.waits), (setUp id).part 5 = { (setUp id).part 5 with phase := .setUp, gang := false, asked := none },
   (started.part 5).phase = .setUp && (started.part 5).gang && (started.part 5).setTick.toNat ≤ (started.part 5).atick.toNat && started.tsync.getLsbD 1 && (started.part 5).atick.toNat ≤ started.tick.toNat
     && (started.part 5).asked.isNone,
   ((setUp fun p => { p with gang := true, atick := 4 }).part 5).atick.toNat < ((setUp fun p => { p with gang := true, atick := 4 }).part 5).setTick.toNat,
   ((setUp fun p => { p with gang := true, atick := 5 }).part 5).gang && !(setUp id).tsync.getLsbD 1, (run.part 5).phase = .running, run.partDone 5] : List Bool), b = true := by decide +kernel

theorem witness_SaveEvents : ∀ b ∈ (let run := fun (slots : Word64) (frozen : Bool) =>
    ((wPart fun p => { p with phase := .running, yreq := true, dltick := 5, cores := [3] }).onQueue 0 fun x => { x with ckcfg := slots }).onCore 3 fun x => { x with frozen := frozen }
  let due := fun (slots : Word64) (frozen : Bool) => let s : State := { run slots frozen with tick := 0x100000004 + 1 }
    (s.part 5).phase = .running && (s.part 5).yreq && ((s.tick.truncate 32 : Word32) - (s.part 5).dltick).toNat < 2 ^ 31 && s.partFrozen 5 = frozen
  let save := fun (f : Part → Part) => wPart fun p => f { p with phase := .saving }
  let written := fun (reason : Nat) (hosted : Bool) => let s := save fun p => { p with image := some 0x200000, reason := reason, hosted := hosted }
    (s.part 5).phase = .saving && (s.part 5).image = some 0x200000 && !(s.requests.any fun r => r.whose == .save 5) && (s.part 5).reason = reason && (s.part 5).hosted = hosted
  [due 1 false, ((run 1 false).queue 0).freeSlot = some 0, due 0 false, ((run 0 false).queue 0).freeSlot = none, due 1 true,
   ((save id).part 5).phase = .saving && ((save id).part 5).image.isNone && (save id).allStopped 5 && (((save id).restPart 5).part 5).phase = .saving,
   written 1 false, written 3 false, written 1 true] : List Bool), b = true := by decide +kernel

/-! An image is at least 2 MiB long (R325), so no image that passes its checks is written out here; the clauses about one are met by what SaveEvents writes. -/

theorem witness_ResumeEvents : ∀ b ∈ (let packet := fun (a : Nat) => pkt 2 [(0x10, 8, a)]
  let st := fun (a : Nat) => wPk (packet a) false [] []
  let check := fun (a : Nat) => let t := (wBegun (st a)).freeSlotOf 0 a
    t.checkImage (t.whoQueue 0 (.packet 0 5)) (t.queue 0).keyid (t.newPart 0 (thePkt (packet a) false [])) (BitVec.ofNat 64 a)
  let s := fun (a : Nat) => wPart fun p => { p with image := some a, homes := [3] }
  let free := fun (a : Nat) => ((s a).part 5).image = some a && ((s a).part 5).phase = .waiting && wPl.cores.all ((s a).freeCore []) && placedIn none ((s a).part 5).levels 0 4096 wPl.cores
     && keepsHomes ((s a).part 5).homes wPl.cores
  let image := fun (a : Nat) (p : Except Cause ByteList → Bool) => someB ((s a).placement ((s a).part 5) wPl) fun l => okB ((s a).loadProgs ((s a).partWho 5 ((s a).part 5)) l) fun t =>
    p (t.readImage ((s a).partWho 5 ((s a).part 5)) ((s a).part 5).key (BitVec.ofNat 64 a))
  let saved := fun (a : Nat) => wPart fun p => { p with phase := .saved, image := some a, homes := [3], savedTick := 1 }
  let found := fun (a : Nat) => ((saved a).savedParts.find? fun p => !(saved a).forestalled p && (saved a).fits [] ((saved a).part p)) = some 5
  let again := fun (a : Nat) => let t := (saved a).freeSlotOf 0 a
    t.checkImage (t.partWho 5 ((saved a).part 5)) ((saved a).part 5).key ((saved a).part 5) (BitVec.ofNat 64 a)
  [isPk (st 0x110000) (packet 0x110000) false [], errB (check 0x110000) fun x => !x.waits, isPk (st 0x80000000) (packet 0x80000000) false [], errB (check 0x80000000) fun x => x.waits,
   free 0x200000, image 0x200000 (errB · fun x => !x.waits), free 0x80000000, image 0x80000000 (errB · fun x => x.waits),
   found 0x200000, errB (again 0x200000) fun x => !x.waits, found 0x80000000, errB (again 0x80000000) fun x => x.waits] : List Bool), b = true := by decide +kernel

theorem witness_QueueOperations : ∀ b ∈ (let s := wFront [] id []
  let off := wFront [] (fun x => { x with qctl := 0x100004000 }) []
  let failed := fun (a : Word64) => wFront [] (fun x => { x with qerr := 0x601, lbase := a }) []
  let skip := fun (a : Word64) (p : Except Cause ByteList → Bool) => ((failed a).queue 0).inError && ((failed a).queue 0).rd ≠ ((failed a).queue 0).wr
    && p ((failed a).readForm ((failed a).whoQueue 0 (.queue 0)) (((failed a).queue 0).ringAddr ((failed a).queue 0).rd.toNat) 64)
  let empty := wFront [] (fun x => { x with rd := 1 }) []
  let run : State := { (wPart fun p => { p with phase := .running, cores := [3] }).onQueue 0 (fun x => { x with ckcfg := 1 }) with modesel := 8 }
  [off.reaches .pf 0, !(off.queue 0).en, (s.queue 0).en, !(s.queue 0).inError, s.reaches .pf 2047, (failed 0).reaches .pf 0, (empty.queue 0).rd = (empty.queue 0).wr,
   skip 0x100000 (okB · fun _ => true), skip 0x80000000 (errB · fun c => c.waits), skip 0x40000000 (errB · fun c => !c.waits), run.reaches .pf 0, run.modesel.getLsbD 3, !s.modesel.getLsbD 3,
   run.partsOf 0 = [5] && (run.part 5).queue = 0 && (run.part 5).phase = .running && !run.partFrozen 5 && (run.queue 0).freeSlot = some 0] : List Bool), b = true := by decide +kernel

theorem witness_DoorbellWrites : ∀ b ∈ (let s := wFront [] id []
  let vf := wFront [] (fun x => { x with qctl := 0x3F0000000001#64 ||| 0x100004000#64 }) []
  let held : State := { s with outside := [(3, .bar2Write 0 [])] }
  let size := if (s.queue 0).en then (s.queue 0).lsize else bitsOf (s.queue 0).qctl 16 12
  [s.reaches .pf 0 && !s.postedHeld, s.reaches (.device true) 0, vf.reaches (.vf 63 none) 0, ((16 : Word32) - (s.queue 0).cp).toNat ≤ 2 ^ size, 2 ^ size < ((17 : Word32) - (s.queue 0).cp).toNat,
   held.reaches .pf 0 && held.postedHeld] : List Bool), b = true := by decide +kernel

theorem witness_WaitEvaluation : ∀ b ∈ (let pk := pkt 3 [(0x10, 8, 0x110000), (0x18, 1, 2), (0x19, 1, 0)]
  let sigs : List Word64 := [0x120000, 0x120008]
  let s := fun (a b : Nat) => wPk pk false sigs [(0x120000, leBytes 8 a), (0x120008, leBytes 8 b)]
  let reads := fun (a b : Nat) => let t := wBegun (s a b)
    isPk (s a b) pk false sigs && okB (t.readWord (wWho t) 0x120000) (· = BitVec.ofNat 64 a) && okB (t.readWord (wWho t) 0x120008) (· = BitVec.ofNat 64 b)
  let cmp := fun (a : Nat) => cmpWord ((thePkt pk false []).word 0x19 1) (BitVec.ofNat 64 a) ((thePkt pk false []).addrAt 0x20)
  [reads 0 (2 ^ 64 - 1), (BitVec.ofNat 64 (2 ^ 64 - 1)).toInt < 0, 0 ≤ (0 : Word64).toInt, ([0, 1, 2].any fun a => [0, 1, 2].any fun b => reads a b && cmp a && cmp b),
   ([0, 1, 2].any fun a => [0, 1, 2].any fun b => reads a b && !cmp b)] : List Bool), b = true := by decide +kernel

/-! ### The host, the dies, firmware and the rest of the module -/

/-- A booted module. -/
def wHost : State := { State.reset with keel := { State.reset.keel with booted := true } }
def wIn (f : State → State) : State := f { wHost with keel := { wHost.keel with sessions := [4], alloc := [0, 9] } }
def wDie (f : Die → Die) : State := wHost.onDie 7 f

theorem witness_RegisterWrites : ∀ b ∈ (let s := wHost
  let owned := { s with queues := [(3, { Queue.reset with qctl := 0x3F0100004000 })] }
  let posted : State := { s with outside := [(3, .bar2Write 0 [])] }
  let running := owned.setVf 63 { Vf.reset with tdi := .run, stream := 2 }
  let frozen := s.setVf 63 { Vf.reset with tdi := .locked }
  let held := s.onDie 7 fun x => { x with rit := [(65535, { RitEntry.init 65535 with qs := true })] }
  [s.keel.booted, !(atDoorbell 4 && s.postedHeld), (s.letOutside.apertureRead true 4).isNone, (s.apertureRead true 0xC01200).isNone, (s.apertureRead true 0).isSome, (s.apertureRead true 0xC00080).isSome,
   (s.apertureRead true 0xC011F8).isSome, posted.keel.booted, ((List.range 256).any fun i => atDoorbell (8 * i) && posted.postedHeld), !running.mmioOk 63 none, running.mmioOk 63 (some 2), running.keel.booted,
   owned.keel.booted, owned.mmioOk 63 none, owned.vfQueue 63 (0x70 / 4096) = some 3, (owned.vfQueue 63 (0x7FFFF / 4096)).isNone, (owned.apertureRead true (3 * 4096 + 0x70 % 4096)).isSome,
   (owned.apertureRead true (3 * 4096 + 4 % 4096)).isNone, !s.anyFrozen, frozen.anyFrozen, frozen.vfBar0 ≠ 4096, isVf 63, !s.frozenVf 63,
   !s.quiesced 7 65535, held.keel.booted, held.quiesced 7 65535] : List Bool),
  b = true := by decide +kernel

theorem witness_Invalidations : ∀ b ∈ (let s := { wHost with tlbQueue := [(1, 0, 0)] }
  [wHost.keel.booted, s.tlbQueue = [(1, 0, 0)], !s.accessesOpen] : List Bool), b = true := by decide +kernel

theorem witness_Bar2Accesses : ∀ b ∈ (let s := wHost
  let with_ := fun (e : RitEntry) => s.onDie 7 fun x => { x with rit := [(65535, e)] }
  let lost := with_ { RitEntry.init 65535 with v := false }
  let held := with_ { RitEntry.init 65535 with qs := true }
  let blocked := fun (u : State) => someB (u.dpaPieces (2 ^ 40 - 1) 1) fun ps => (u.blockedAt u.outsideReq (pieceRegions ps)).isSome
  [s.keel.booted, 2 ^ 40 - 4096 + 4097 > 2 ^ 40, okB (s.readDpa (whoHost s.outsideReq) (2 ^ 40 - 4096) 4096) fun b => b.length = 4096, errB (lost.readDpa (whoHost lost.outsideReq) (2 ^ 40 - 1) 1) (·.code = 0x606),
   held.keel.booted, errB (held.readDpa (whoHost held.outsideReq) (2 ^ 40 - 1) 1) (·.code = 3), blocked held, !blocked s,
   lost.keel.booted, (lost.dpaPieces (2 ^ 40 - 1) 1).isNone, (s.dpaPieces (2 ^ 40 - 1) 1).isSome] : List Bool), b = true := by decide +kernel

theorem witness_RegionSwaps : ∀ b ∈ (let asks : Word64 := 0x1FFFF0000#64
  let s := wDie id
  let pinned := wDie fun x => { x with rit := [(0, { RitEntry.init 0 with noremap := true })] }
  let spares := fun (w : Swap) => wDie fun x => { x with swap := some w, rit := [(9, { RitEntry.init 9 with v := false })] }
  let fresh := spares ⟨0, some 65535, false, 0⟩
  let going := spares ⟨0, some 65535, true, 9⟩
  let idle := wDie fun x => { x with remapctl := 0x04180A01 }
  let hot := chanBit 0
  let busy := wDie fun x => { x with remapctl := 0x01180A01, access := [(hot, 5), (64, 5)] }
  let chosen := (busy.die 7).chooseSwaps (bitsOf (busy.die 7).remapctl 31 24) []
  [asks.getLsbD 32, bitsOf asks 15 0 = 0, bitsOf asks 31 16 = 65535, (s.die 7).swappable 0, (s.die 7).swappable 65535, (s.die 7).swap.isNone, !(pinned.die 7).swappable 0, (fresh.die 7).swap.isSome,
   !(s.die 7).remapctl.getLsbD 0, (s.die 7).swapNext = [], (fresh.die 7).swap = some ⟨0, some 65535, false, 0⟩, (fresh.die 7).spares = [9], (going.die 7).swap = some ⟨0, some 65535, true, 9⟩, !going.causalIn 7 0, !going.causalIn 7 65535,
   (going.die 7).ritHeld = [], (idle.die 7).remapctl.getLsbD 0 && !idle.modesel.getLsbD 1 && (idle.die 7).swap.isNone && (idle.die 7).chooseSwaps (bitsOf (idle.die 7).remapctl 31 24) [] = [],
   (busy.die 7).remapctl.getLsbD 0 && !busy.modesel.getLsbD 1 && (busy.die 7).swap.isNone, someB chosen.head? fun p => [p.1, p.2].all fun l => (busy.die 7).swappable l && !(busy.die 7).leaving.getLsbD (chanBit ((busy.die 7).ritAt l).pri)]
  : List Bool), b = true := by decide +kernel

/-- Channel 31 of stack 1 of die 7 is retired. -/
def wRetire (f : State → State) (g : Die → Die) : State := (f { wHost with chbusy := true, chret := 0x1FF }).onDie 7 g

theorem witness_ChannelRetirement : ∀ b ∈ (let s := wRetire id id
  let moving := wRetire (fun s => { s with chmoving := true }) id
  let spare := wRetire (fun s => { s with chmoving := true }) fun x => { x with rit := [(9, { RitEntry.init 9 with v := false })] }
  let swap := wRetire id fun x => { x with swap := some ⟨0, none, true, 9⟩ }
  let found := fun (s : State) => someB s.leftRegions.head? fun a => !((s.die s.retDie).pubHeld.any fun p => p.pages.contains a)
  [s.keel.booted, s.chbusy, s.retDie = 7, (s.die s.retDie).swap.isNone, !s.chmoving, !wHost.chbusy, wHost.keel.booted, moving.chbusy, moving.chmoving, (moving.die moving.retDie).swap.isNone, found moving, (moving.die moving.retDie).spares = [],
   found spare, (spare.die spare.retDie).swap.isNone, (spare.die spare.retDie).spares = [9], swap.chbusy, (swap.die swap.retDie).swap = some ⟨0, none, true, 9⟩, !swap.causalIn swap.retDie 0] : List Bool),
  b = true := by decide +kernel

theorem tabFind_map (g : Nat → RitEntry) (l : List Nat) (k : Nat) : tabFind (l.map fun n => (n, g n)) k = if k ∈ l then some (g k) else none := by
  induction l with
  | nil => rfl
  | cons a r ih =>
    by_cases h : a = k
    · subst h; simp [tabFind]
    · simp [tabFind, h, ih, Ne.symm h]

/-- With a region table of its own. -/
def wWithRit (t : Tab RitEntry) : State := wRetire (fun s => { s with chmoving := true }) fun x => { x with rit := t }
theorem wWithRit_rit (t : Tab RitEntry) : ((wWithRit t).die 7).rit = t := rfl
theorem wWithRit_chret (t : Tab RitEntry) : (wWithRit t).chret = 0x1FF := rfl
theorem wWithRit_die (t : Tab RitEntry) : (wWithRit t).retDie = 7 := by rw [State.retDie, wWithRit_chret]; decide
theorem wWithRit_left (t : Tab RitEntry) : (wWithRit t).leftRegions = (wWithRit t).channelRegions 7 1 31 := by
  rw [State.leftRegions, wWithRit_die, State.retStack, State.retChan, wWithRit_chret]
  rfl
theorem wWithRit_ready (t : Tab RitEntry) : (wWithRit t).chbusy = true ∧ ((wWithRit t).die (wWithRit t).retDie).swap = none ∧ (wWithRit t).chmoving = true := by
  rw [wWithRit_die]
  exact ⟨rfl, rfl, rfl⟩
/-- No region of the channel has backing. -/
def emptied : Tab RitEntry := ((List.range 65536).filter (inChannel 1 31)).map fun l => (l, { RitEntry.init l with v := false })

theorem witness_ChannelEmpty : ((wWithRit emptied).chbusy = true ∧ ((wWithRit emptied).die (wWithRit emptied).retDie).swap = none ∧ (wWithRit emptied).chmoving = true)
    ∧ (wWithRit emptied).leftRegions = [] := by
  refine ⟨wWithRit_ready _, ?_⟩
  rw [wWithRit_left, State.channelRegions, List.filter_eq_nil_iff]
  intro l hl
  have f : (wWithRit emptied).rit 7 l = if inChannel 1 31 l = true then { RitEntry.init l with v := false } else RitEntry.init l := by
    rw [State.rit, Die.ritAt, tabGet, wWithRit_rit, emptied, tabFind_map (fun l => { RitEntry.init l with v := false })]
    simp only [List.mem_filter, hl, true_and]
    split <;> rfl
  rw [f]
  by_cases c : inChannel 1 31 l = true <;> simp [c, RitEntry.init]

theorem witness_FirmwareImages : ∀ b ∈ (let s := { wHost with fwctl := 9 }
  let lost := { s with fwimg := 0x1FFFFE00000, dies := [(7, { Die.reset with rit := [(65535, { RitEntry.init 65535 with v := false })] })] }
  let sw := fun (n : NatList) (st : Nat) => { wHost with fw := { wHost.fw with switching := true, sbst := st, imgB := ⟨0, 0, n, 0, 0, 64⟩ } }
  let ready := fun (u : State) => u.fw.switching && u.quiescent && u.fw.alive
  let imports := fun (u : State) => u.fw.standby.imports.contains u.fw.active.major
  [s.fwBusy 1, s.keel.booted, !s.keel.halted, okB (s.readDpa (whoHost .nothing) s.fwimg.toNat 64) fun _ => true, lost.fwBusy 1, errB (lost.readDpa (whoHost .nothing) lost.fwimg.toNat 64) fun _ => true,
   { wHost with fwctl := 8 }.fwctl.getLsbD 3, !wHost.fwctl.getLsbD 3, wHost.fw.sbst = 2, (sw [0] 0).fw.sbst ≠ 2,
   ready (sw [] 2), !imports (sw [] 2), ready (sw [0] 2), imports (sw [0] 2), ready (sw [0] 3), ready (sw [0] 4)] : List Bool), b = true := by decide +kernel

/-- An image at the fused minimum is accepted. -/
theorem witness_FirmwareVersion : ∃ o : BootOutcome, o.keelOk = true ∧ o.check = .accepted ∧ Config.minSvn ≤ o.img.svn := ⟨⟨true, .accepted, ⟨0, 0, [0], 0, Config.minSvn, 64⟩⟩, rfl, rfl, Nat.le_refl _⟩

theorem witness_FirmwareHealth : ∀ b ∈ (let s := { wHost with tick := 800000, fw := { wHost.fw with imgB := ⟨0, 0, [0], 0, 0, 64⟩ } }
  let alone := { s with fw := { s.fw with sbst := 0 } }
  [s.fw.alive, s.keel.booted, s.fw.sbst = 2, s.quiescent, (s.tick - s.fw.lastBeat).toNat ≥ 800000, s.fw.standby.imports.contains s.fw.active.major, alone.fw.alive, alone.fw.sbst ≠ 2] : List Bool),
  b = true := by decide +kernel

theorem witness_HeldUnits : ∀ b ∈ (let unit : UnitTrap := ⟨3, .ctx 5 2, 0x312, 0, true, false⟩
  let at_ := fun (ends : Bool) (l : List UnitTrap) => { wHost with unitActs := [(3, ends)], traps := l }
  let ready := fun (s : State) (ends : Bool) => s.unitAction 3 ends && someB (s.heldTrap 3) fun t => !s.unitFrozen t.unit
  let open_ := at_ false [{ unit with held := false }]
  let kernel := wKernel id []
  [ready (at_ false [unit]) false, ready (at_ true [unit]) true, (at_ false []).unitAction 3 false && ((at_ false []).heldTrap 3).isNone, (at_ true []).unitAction 3 true && ((at_ true []).heldTrap 3).isNone,
   (open_.traps.find? fun t => t.seq == 3 && !t.held && !t.late) = some { unit with held := false } && open_.fw.alive && open_.keel.booted && !open_.unitFrozen unit.unit,
   ((wHost.setCtx 5 2 (Ctx.start 0 0 0 0 0 0)).ctx 5 2).isSome, someB (kernel.core 0).kernel fun k => (tabFind (kernel.core 0).window k.entry).isSome] : List Bool), b = true := by decide +kernel

theorem witness_KeysAndSessions : ∀ b ∈ (let s := wIn id
  let used := s.setPart 5 { Machine.Part.none with phase := .running, key := 9 }
  let named := wIn fun s => { s with keel := { s.keel with identity := true } }
  [s.keel.booted, !s.keel.halted, s.keel.sessions ≠ [], !s.keel.alloc.contains 127, !s.keel.alloc.contains 1, s.keel.alloc.contains 9, s.keyInUse (· == 9) = [], used.keel.alloc.contains 9, used.keyInUse (· == 9) ≠ [],
   (s.measurement 1).isSome, (s.measurement 6).isSome, (s.measurement 0).isNone, named.keel.identity, s.keel.sessions.contains 4, !s.keel.sessions.contains 5, wHost.keel.booted && wHost.keel.sessions = [],
   (wIn fun s => { s with keel := { s.keel with halted := true } }).keel.halted] : List Bool), b = true := by decide +kernel

theorem witness_DeviceInterfaces : ∀ b ∈ (let vf := fun (f : Vf → Vf) (l : List (Nat × Queue)) => wIn fun s => ({ s with queues := l }.setVf 63 (f Vf.reset))
  let q : Queue := { Queue.reset with qctl := 0x3F0100004120 }
  let a := vf id [(2047, q)]
  let c := vf (fun x => { x with tdi := .locked }) []
  let d := vf (fun x => { x with stopping := true }) [(2047, q)]
  [a.keel.booted, !a.keel.halted, a.keel.sessions ≠ [], a.vfKey 63 = some 9, (a.vf 63).tdi = .unlocked, (vf id []).vfKey 63 = none, (c.vf 63).tdi = .locked, !(c.vf 63).stopping, (d.vf 63).stopping,
   (d.ownedBy 63).all fun q => (d.queue q).qstat.getLsbD 0, wHost.keel.booted && wHost.keel.sessions = []] : List Bool), b = true := by decide +kernel

theorem witness_Alarms : ∀ b ∈ (let s := wHost.setVf 63 { Vf.reset with tdi := .run, stream := 2 }
  [s.keel.booted, !s.keel.halted, s.vfs.any fun p => p.2.tdi = .run && p.2.stream = 2 && tabFind s.vfs p.1 = some p.2] : List Bool), b = true := by decide +kernel

/-- A port of a booted module. -/
def wPort (p : Port) : State := { wHost with ports := [(35, p)] }

theorem witness_LinkPorts : ∀ b ∈ (let s := wPort { Port.reset with pctl := 1 }
  let flit : Flit := ⟨0, 5, 0, 7, .barrier 0 0 0 0⟩
  let up : Port := { Port.reset with pctl := 1, up := true, lanes := 4, peer := 2047 }
  let u := fun (downs : Nat) => wPort { up with downs := downs, unacked := [flit] }
  let alone := fun (v : State) => (List.range 36).all fun m => m = 35 || portDie m ≠ portDie 35 || !(v.nport m).up
  let first := (List.range 36).findIdx fun m => m ≠ 35 && portDie m = portDie 35
  let two : State := { u 0 with ports := [(first, up), (35, { up with unacked := [flit] })] }
  let linked : State := { u 0 with modid := 0x8001 }
  [35 < 36, (s.nport 35).pctl = 1, !(s.nport 35).up, (s.nport 35).reason = 0, 2047 < 2048, s.unsent = [], ((u 14).nport 35).up, alone (u 0), first < 36, portDie first = portDie 35 && (two.nport first).up,
   ((List.range first).all fun j => j = 35 || portDie j ≠ portDie 35 || !(two.nport j).up), (linked.takeMsgs [.barrier 0 0 0 0 0]).isSome, (linked.takeMsgs []).isSome, ((u 0).takeMsgs [.barrier 0 0 0 0 0]).isNone,
   1 ≠ (u 0).ownId, (((u 14).nport 35).unacked.filter fun f => decide (7 ≤ f.seq)) ≠ [], (((u 14).nport 35).unacked.filter fun f => decide (8 ≤ f.seq)) = [], ((u 14).nport 35).downs + 1 < 16, 16 ≤ ((u 15).nport 35).downs + 1,
   ((u 0).nport 35).rxSeq ≠ 1, (u 0).unsent = []] : List Bool), b = true := by decide +kernel

theorem witness_TimeRoots : ∀ b ∈ (let u := { wPort { Port.reset with pctl := 1, up := true, delay := 3 } with modid := 0x8005 }
  let f := { u with root := some 1, tick := 800000 }
  let root := { u with tsync := 3 }
  let locked := { f with tsync := 2 }
  [root.isRoot, root.root.isNone, 1 < root.ownId, root.ownId ≤ 5, (u.nport 35).up, !u.isRoot, u.root.isNone, !u.synced, !locked.isRoot && locked.tsync.getLsbD 1 && locked.root = some 1, locked.tick = 799997 + BitVec.ofNat 64 (locked.nport 35).delay,
   1 < 2, f.root = some 1, (f.tick - f.rootSeen).toNat ≥ 800000] : List Bool), b = true := by decide +kernel

theorem witness_StorageErrors : ∀ b ∈ (let s := wRegs []
  let frozen := s.onCore 0 fun x => { x with frozen := true }
  [s.parts.all fun p => p.2.asked.isNone, (frozen.core 0).frozen, frozen.parts.all fun p => p.2.asked.isNone, (s.core 0).part = some 0, (s.part 0).phase ≠ .saving, wHost.fw.alive, wHost.keel.booted] : List Bool), b = true := by decide +kernel

theorem witness_LineChecks : ∀ b ∈ (let s := wHost
  let cached := s.onDie 7 fun x => { x with ctrCache := [(treeNode 9 (2 ^ 40 - 64), false)] }
  [2 ^ 40 - 64 < 2 ^ 40, s.hbmKey false (2 ^ 40 - 64) = some (2 ^ 40 - 64), (s.uncached (2 ^ 40 - 64)).contains 0, (s.uncached (2 ^ 40 - 64)).contains 9, !(s.uncached (2 ^ 40 - 64)).contains 10, s.keel.booted, !s.keel.halted,
   !(s.die 7).caches (treeNode 0 (2 ^ 40 - 64)), cached.hbmKey false (2 ^ 40 - 64) = some (2 ^ 40 - 64), !(cached.uncached (2 ^ 40 - 64)).contains 9, (cached.uncached (2 ^ 40 - 64)).contains 8,
   ((cached.die ((2 ^ 40 - 64) / 2 ^ 37)).ctrCache.find? fun q => q.1 == treeNode 9 (2 ^ 40 - 64)) = some (treeNode 9 (2 ^ 40 - 64), false)] : List Bool), b = true := by decide +kernel

theorem witness_HostTranslations : ∀ b ∈ (let s : State := { wHost with xlat := ⟨[], [3], [4], [], [(4096, 4096)], []⟩ }
  [s.xlat.pending.contains (0x3FFF / 4096), s.xlat.paged.contains (0x4000 / 4096), !s.xlat.pending.contains (0x4000 / 4096), !s.xlat.paged.contains (0x3FFF / 4096), s.xlat.invals = [(4096, 4096)], !(s.requests.any fun q => q.tier == 2)] : List Bool), b = true := by decide +kernel

theorem witness_RepliesAndArrivals : ∀ b ∈ (let s := wRun fun t => { t with hold := some ⟨.sys g0 5 1 .echo, [], 0, none, []⟩ }
  let r := fun (v : Service) => { s with sysreqs := [⟨0, 0, v, 7, false⟩], keel := wHost.keel }
  let g := { s.onPart 0 fun p => { p with gang := true, levels := [⟨0, 5, 2⟩, ⟨5, 1, 1⟩] } with modid := 0x8001 }
  let ready := fun (v : Service) => someB ((r v).sysreqs.find? fun r => r.core == 0 && r.slot == 0) (fun q => q.svc = v && !q.held) && (r v).fw.alive && (r v).keel.booted
  [ready .echo, ((r .echo).strand 0 0).hold.isSome, ready .notify, (tabFind g.parts 0).isSome, (g.part 0).spans 0, 65536 ≤ 65536, 65536 / 65536 ≠ (g.part 0).gidx, g.linked] : List Bool), b = true := by decide +kernel

/-! ### Words and steps -/

theorem witness_GuardedOff : ∀ b ∈ (let skips := fun (g : Guard) => readyB wFar 1023 3 g && !(wFar.guarded 1023 3 g).guard g
  [skips ⟨23, false⟩, skips ⟨0, true⟩, skips ⟨1, false⟩] : List Bool), b = true := by decide +kernel

theorem witness_FrameOfComputation : ∀ b ∈ ([issuesB wFar 1023 3 g0 [63, 62, 61], issuesB wFar 1023 3 g0 [63, 62], issuesB wFar 1023 3 g0 [63]] : List Bool), b = true := by decide +kernel

theorem witness_DecodeEncode : ∀ b ∈ ([(Instr.add ⟨23, true⟩ 63 63 63).wf, (Instr.addLong ⟨23, true⟩ 63 63 0xFFFFFFFF).wf, Instr.vend.wf, (Instr.aend 3).wf] : List Bool), b = true := by decide +kernel

/-- What the next step begins with. -/
def nextOf (s : State) : Move × Bool × State := s.beforeMove.nextMove
/-- The strand of slot 0 of core 0 has the next turn. -/
def turnOf (s : State) : State := (nextOf s).2.2.takeTurn 0 0
def turnsB (s : State) : Bool := (nextOf s).1 = .strand 0 0 && (nextOf s).2.2.mayIssue 0 0 && (turnOf s).turn = .strand 0 0
def idleB (u : State) : Bool := (u.strand 0 0).hold.isNone && (u.strand 0 0).failed.isEmpty

theorem witness_StepRunsTheDecodedInstruction : ∀ b ∈ (let nop : Nat := 0
  let cox := fun (w e : Nat) => State.reset.placeCox (w + 2 ^ 32 * e)
  let found := fun (s : State) (m : Move) => (nextOf s).1 = m
  let fetches := fun (s : State) (p : Nat → Bool) => let u := turnOf s
    turnsB s && idleB u && okB (u.fetchWord (u.whoStrand 0 0) (u.strand 0 0).pc) fun r => p r.1
  let ext := fun (s : State) (p : Except Cause (Nat × State) → Bool) => let u := turnOf s
    okB (u.fetchWord (u.whoStrand 0 0) (u.strand 0 0).pc) fun r => p (r.2.fetchWord (r.2.whoStrand 0 0) ((u.strand 0 0).pc + 4))
  let one := fun (w : Nat) => match decodeCox w with
    | .one _ => true
    | _ => false
  let bad := fun (w : Nat) => match decodeCox w with
    | .illegal => true
    | _ => false
  let two := fun (e : Nat) (p : Option Instr → Bool) (w : Nat) => match decodeCox w with
    | .two f => p (f e)
    | _ => false
  let long := 7 * 2 ^ 27 + 2 ^ 26 + 1 * 2 ^ 19 + 3 * 2 ^ 13 + 4 * 2 ^ 7 + 1
  let odd := (cox nop 0).onStrand 0 0 fun t => { t with pc := 2 }
  let last := { ((cox nop 0).onStrand 0 0 fun t => { t with pc := 0x1FFFC }) with mem := memSetList [] 0x1FFFC (leBytes 4 long) }
  let gone : FailedAccess := ⟨0x701, 0, 0, some 4⟩
  let failing := fun (h : Bool) (f : FailedAccess) => (cox nop 0).onStrand 0 0 fun t => { t with
    hold := if h then some ⟨.cwait g0 0 0 0, [], 0, none, []⟩ else none, failed := [f] }
  let kern := fun (w : Nat) => State.reset.placeKernel w
  let isVector := fun (w : Nat) (p : Option Instr → Bool) => let t := (nextOf (kern w)).2.2
    let u : State := { t with turn := .kernel 0 }
    found (kern w) (.kernel 0) && t.kernelReady 0 && someB (t.core 0).kernel fun x => okB (u.fetchWord (u.whoKernel 0 x) x.next) fun r => p (decodeVector r.1)
  let acc := fun (w : Nat) => State.reset.placeAccess w
  let isAccess := fun (w : Nat) (p : Option Instr → Bool) => let t := (nextOf (acc w)).2.2
    found (acc w) (.context 0 0) && t.nextCtx 0 = some 0 && someB (t.ctx 0 0) fun y => someB (t.progOf y) fun p' => 4 * y.apc < p'.len && p (decodeAccess (leNat (memList t.mem (mseKey 0 (p'.base + 4 * y.apc)) 4)))
  let holding := (cox nop 0).onStrand 0 0 fun t => { t with hold := some ⟨.cwait g0 0 0 0, [], 0, none, []⟩ }
  let does := fun (m : Move) => found { State.reset with agenda := [[m]] } m
  [does (.event .heartbeat), does (.units (.fill 0 0) 3), does (.outside 3), does (.register 1 .pf 0 8), does (.strand 0 0) && !(nextOf { State.reset with agenda := [[.strand 0 0]] }).2.2.mayIssue 0 0,
   does (.kernel 0) && !(nextOf { State.reset with agenda := [[.kernel 0]] }).2.2.kernelReady 0, does (.context 0 0) && (nextOf { State.reset with agenda := [[.context 0 0]] }).2.2.nextCtx 0 ≠ some 0,
   fetches (cox nop 0) one, fetches (cox (127 * 2 ^ 19) 0) bad, fetches (cox long 5) (two 5 Option.isSome), ext (cox long 5) (okB · fun q => q.1 = 5),
   fetches (cox (21 * 2 ^ 19 + 1) 0xFFFFFFFF) (two 0xFFFFFFFF Option.isNone), ext (cox (21 * 2 ^ 19 + 1) 0xFFFFFFFF) (okB · fun q => q.1 = 0xFFFFFFFF),
   fetches last (two 0 fun _ => true), ext last (errB · fun _ => true),
   turnsB odd && idleB (turnOf odd) && errB ((turnOf odd).fetchWord ((turnOf odd).whoStrand 0 0) ((turnOf odd).strand 0 0).pc) fun _ => true,
   turnsB holding && ((turnOf holding).strand 0 0).hold.isSome && ((turnOf holding).strand 0 0).failed.isEmpty,
   turnsB (failing true { gone with place := none }) && ((turnOf (failing true { gone with place := none })).strand 0 0).failed = [{ gone with place := none }],
   turnsB (failing true gone) && someB ((turnOf (failing true gone)).strand 0 0).hold (fun h => !h.kept), turnsB (failing false gone) && ((turnOf (failing false gone)).strand 0 0).hold.isNone,
   isVector (57 * 2 ^ 26) Option.isSome, isVector (57 * 2 ^ 26 + 1) Option.isNone,
   isAccess (19 * 2 ^ 26 + 2 * 2 ^ 22) Option.isSome, isAccess (19 * 2 ^ 26 + 4 * 2 ^ 22) Option.isNone] : List Bool), b = true := by decide +kernel

/-! ## Single steps and formats, with the results that the spec's examples give -/

/-- What holds after a step that goes on. -/
def after (s : State) (p : State → Bool) : Bool :=
  match step s with
  | .next t => p t
  | _ => false

/-- A core that fetches a word, with its extension word, with some registers. -/
def wWord (w e : Nat) (l : List (Nat × Word64)) : State :=
  (State.reset.withFetchWord 64 (w + 2 ^ 32 * e)).onStrand 0 0 fun t => l.foldl (fun u p => u.writeS p.1 p.2) t
def gives (w e : Nat) (l : List (Nat × Word64)) (r : Nat) (v : Word64) : Bool := after (wWord w e l) fun t => (t.strand 0 0).readS r == v

/-- The example of DIV (spec/08). -/
theorem test_div : gives 0x0028828C 0 [(5, BitVec.ofInt 64 (-7)), (6, 2)] 4 (BitVec.ofInt 64 (-3)) = true := by decide +kernel
theorem test_rem : gives 0x0030828C 0 [(5, BitVec.ofInt 64 (-7)), (6, 2)] 4 (BitVec.ofInt 64 (-1)) = true := by decide +kernel
/-- LI of the low half, then LI.H (R180). -/
theorem test_li : gives 0x00C82001 0x9ABCDEF0 [] 1 0xFFFFFFFF9ABCDEF0 = true := by decide +kernel
theorem test_li_h : gives 0x00C82081 0x12345678 [(1, 0xFFFFFFFF9ABCDEF0)] 1 0x123456789ABCDEF0 = true := by decide +kernel
/-- The example of CMP (R184). -/
theorem test_cmp : (after ((wWord 0x0100A381 0xFFFD0035 [(7, BitVec.ofInt 64 (-3))]).onStrand 0 0 fun t => { t with preds := 0x21 }) fun t => (t.strand 0 0).preds.getLsbD 5)
    && (after ((wWord 0x0100A381 0xFFFD0035 [(7, BitVec.ofInt 64 (-4))]).onStrand 0 0 fun t => { t with preds := 0x21 }) fun t => !(t.strand 0 0).preds.getLsbD 5) = true := by decide +kernel
/-- The example of HOFF (R183): an A-file of four parts. -/
theorem test_hoff : after ((wWord 0x00E8E401 3 [(8, 0x3000A)]).onCore 0 fun x => { x with partw := 0x10081404, handles := List.replicate 3 ⟨0, 0, 0, 0, [], [], 0⟩ ++ [⟨0, 0x02, 2, 0, [64, 16, 0, 0], [128, 0, 0], 2048⟩] })
    (fun t => (t.strand 0 0).readS 7 == 0x40194) = true := by decide +kernel
/-- The example of FFMA and FMUL (R186). -/
theorem test_ffma : gives (0x2B * 2 ^ 19 + 3 * 2 ^ 13 + 1 * 2 ^ 7 + 2 * 2) 0 [(1, 0x3F800800), (2, 0x3F800800), (3, 0xBF800000)] 3 0x3A000400 = true := by decide +kernel
/-- The example of FCVT (R189): towards zero, to nearest even, upwards and downwards. -/
theorem test_fcvt : ([(1, BitVec.ofInt 64 (-5)), (0, BitVec.ofInt 64 (-6)), (2, BitVec.ofInt 64 (-5)), (3, BitVec.ofInt 64 (-6))].all fun p =>
    gives (0x01806200 + (2 * 4 + p.1) * 2) 0 [(4, 0xC0B00000)] 3 p.2) = true := by decide +kernel
/-- The example of LOOP (R194): five words back while the count lasts. -/
theorem test_loop : (after (wWord 0x01E13FF6 0 [(9, 2)]) fun t => (t.strand 0 0).pc == 65516 && (t.strand 0 0).readS 9 == 1)
    && (after (wWord 0x01E13FF6 0 [(9, 1)]) fun t => (t.strand 0 0).pc == 65540 && (t.strand 0 0).readS 9 == 0) = true := by decide +kernel
/-- The example of DSPT (R195), its table of two entries beside the code. -/
theorem test_dspt : ((wWord 0x01E94587 0x300 [(11, 37)]) |> fun s => ({ s with mem := memSetList s.mem (65536 + 0x300) ([0x10, 0, 0, 0, 0, 0x0F, 0, 0, 0x20, 0, 0, 0, 0, 0x1F, 0, 0, 0x40, 0, 0, 0, 0, 0x2F, 0, 0, 0x80, 0, 0, 0, 0, 0x3F, 0, 0] : ByteList) } : State) |> fun s =>
    after s fun t => (t.strand 0 0).readS 10 == 64 && (t.strand 0 0).pc == 65536 + 0x2F00) = true := by decide +kernel
/-- The example of LD.G.W.S, at another address (R198). -/
theorem test_ld : ((wWord 0x0200A355 0x40 [(6, 65600)]) |> fun s => ({ s with mem := memSetList s.mem (65600 + 0x40) (leBytes 8 0x80000001) } : State) |> fun s =>
    after s fun t => (t.strand 0 0).loads.any fun l => l.dst == 5 && l.val == some 0xFFFFFFFF80000001) = true := by decide +kernel
/-- The words of the examples of MFS and MTS (R236, R237). -/
theorem test_special_words : decodeCoxPair 0x03988002 0 = some (.mfs g0 4 1) ∧ decodeCoxPair 0x03A004A4 0 = some (.mts g0 0x12 9) := by decide +kernel
/-- What the table assigns to nothing is refused (R158, R160, R301). -/
theorem test_reserved_words : decodeCoxPair (24 * 2 ^ 27) 0 = none ∧ decodeCoxPair 0x00002000 0 = none ∧ decodeCoxPair (127 * 2 ^ 19) 0 = none
    ∧ decodeVector (63 * 2 ^ 26) = none ∧ decodeAccess (31 * 2 ^ 26) = none := by decide +kernel
/-- The word of zeros is NOP (R159). -/
theorem test_nop_step : after (wWord 0 0 []) (fun t => (t.strand 0 0).pc == 65540) = true := by decide +kernel
/-- A step from a state whose memory has its one form goes on. -/
theorem witness_StepKeepsMemoryForm : Memory.wf (wWord 0 0 []).mem = true ∧ after (wWord 0 0 []) (fun _ => true) = true := by decide +kernel
theorem witness_RampLimiter : 7 < 8 := by decide
/-- The example of the code 155 (R59), and those of the blocks (R57). -/
theorem test_t3p5 : ((List.range 5).map fun j => t3p5Trit 0x9B j) = [1, -1, 1, 1, 0] := by decide +kernel
theorem test_blocks : bfpEncode 2 0 (fun _ => 0) ([.fin false 1 0, .fin true 1 1, .fin false 1 (-1), .fin true 1 0] ++ List.replicate 28 (.fin false 0 0)) = [0x7F, 0xC9] ++ zeros 7
    ∧ bfpEncode 4 0 (fun _ => 0) ([.fin false 12 (-5), .fin true 3 (-5), .fin false 22 (-5), .fin true 24 (-5)] ++ List.replicate 28 (.fin false 0 0)) = [0x7C, 0xF3, 0xA6] ++ zeros 14
    ∧ bfpEncode 8 0 (fun _ => 0) ([.fin false 100 0, .fin true 1 (-2), .fin true 300 0, .fin false 6 0] ++ List.replicate 28 (.fin false 0 0)) = [0x81, 0x19, 0x00, 0xB5, 0x02] ++ zeros 28 := by decide +kernel
/-- AES-256 (R371): the example of FIPS 197, appendix C.3. -/
theorem test_aes256 : aes256 ((List.range 32).map (BitVec.ofNat 8 ·)) ((List.range 16).map fun i => BitVec.ofNat 8 (17 * i))
    = [0x8E, 0xA2, 0xB7, 0xCA, 0x51, 0x67, 0x45, 0xBF, 0xEA, 0xFC, 0x49, 0x90, 0x4B, 0x49, 0x60, 0x89] := by decide +kernel

end Sys2Proof.Tests
end

/-! SUPPORT. Division, minimum, maximum and sign of the Cox instructions (R177, R186, R187): what the operand forms answer once an instruction issues, and what the results are. -/
namespace Sys2Proof.Machine

/-! ## Operand forms once they issue -/

section
variable {s : State} {c k : Nat} {g : Guard} {d a b : Nat} {e : Word32} {f : Word64 → Word64 → Word64}

/-- An instruction whose effect is a change to its own strand alone makes that change and goes on at the next word. -/
theorem State.coxRun_setStrand {long : Bool} {uses : List Nat} {eff : Nat → Nat → Strand → State → Eff} (h : s.Issues c k g uses)
    {t : Strand} (ht : eff c k (s.found c k g uses) (s.issued c k g uses) = .done ((s.issued c k g uses).setStrand c k t)) :
    s.coxRun long g uses eff = .next ((s.setStrand c k t).past c k ((s.found c k g uses).pc + wordBytes long)) := by
  rw [State.coxRun_done h ht, State.past_issued_setStrand]

theorem State.aluReg_issues (h : s.Issues c k g [d, a, b]) {v : Word64}
    (hv : f ((s.found c k g [d, a, b]).readS a) ((s.found c k g [d, a, b]).readS b) = v) :
    s.aluReg f g d a b =
      .next ((s.setStrand c k ((s.found c k g [d, a, b]).writeS d v)).past c k ((s.found c k g [d, a, b]).pc + 4)) := by
  subst hv
  exact State.coxRun_setStrand h rfl

theorem State.aluLong_issues (h : s.Issues c k g [d, a]) {v : Word64} (hv : f ((s.found c k g [d, a]).readS a) (extVal e) = v) :
    s.aluLong f g d a e =
      .next ((s.setStrand c k ((s.found c k g [d, a]).writeS d v)).past c k ((s.found c k g [d, a]).pc + 8)) := by
  subst hv
  exact State.coxRun_setStrand h rfl

/-- A result that is due later counts from the cycle the instruction issues in (R174). -/
theorem State.slow_issues {long : Bool} {lat : Nat} {i : Instr} {uses : List Nat} {opA opB opD : Strand → Word64}
    {f : Word64 → Word64 → Word64 → Word64} (h : s.Issues c k g (d :: uses)) :
    s.slow long lat i g uses d opA opB opD f =
      let t := s.found c k g (d :: uses)
      .next ((s.setStrand c k (t.issue s.cycle.toNat lat i d (f (opA t) (opB t) (opD t)) (opA t) (opB t) (opD t))).past c k
        (t.pc + wordBytes long)) :=
  State.coxRun_setStrand h (by simp [State.issued])

theorem State.slowReg_issues {lat : Nat} {i : Instr} (h : s.Issues c k g [d, a, b]) :
    s.slowReg lat i f g d a b =
      let t := s.found c k g [d, a, b]
      .next ((s.setStrand c k (t.issue s.cycle.toNat lat i d (f (t.readS a) (t.readS b)) (t.readS a) (t.readS b) 0)).past c k (t.pc + 4)) :=
  State.slow_issues h

theorem State.slowLong_issues {lat : Nat} {i : Instr} (h : s.Issues c k g [d, a]) :
    s.slowLong lat i f g d a e =
      let t := s.found c k g [d, a]
      .next ((s.setStrand c k (t.issue s.cycle.toNat lat i d (f (t.readS a) (extVal e)) (t.readS a) (extVal e) 0)).past c k (t.pc + 8)) :=
  State.slow_issues h

end

/-! ## Division (R177) -/

@[simp] theorem divS_zero (x : Word64) : divS x 0#64 = 0xFFFFFFFFFFFFFFFF := rfl

@[simp] theorem remS_zero (x : Word64) : remS x 0#64 = x := rfl

theorem divS_of_ne_zero {x y : Word64} (hy : y ≠ 0) : divS x y = BitVec.ofInt 64 (x.toInt.tdiv y.toInt) := if_neg hy

theorem remS_of_ne_zero {x y : Word64} (hy : y ≠ 0) : remS x y = BitVec.ofInt 64 (x.toInt.tmod y.toInt) := if_neg hy

/-- The identity of truncated division on integers carries over modulo 2^64, also where the quotient wraps. -/
theorem divS_mul_add_remS (x y : Word64) : divS x y * y + remS x y = x := by
  by_cases hy : y = 0
  · subst hy
    simp
  · calc divS x y * y + remS x y
        = BitVec.ofInt 64 (x.toInt.tdiv y.toInt * y.toInt + x.toInt.tmod y.toInt) := by
          rw [divS_of_ne_zero hy, remS_of_ne_zero hy, BitVec.ofInt_add, BitVec.ofInt_mul, BitVec.ofInt_toInt]
      _ = BitVec.ofInt 64 x.toInt := by rw [Int.tdiv_mul_add_tmod]
      _ = x := BitVec.ofInt_toInt

theorem remS_eq_sub (x y : Word64) : remS x y = x - divS x y * y := by
  rw [BitVec.eq_sub_iff_add_eq, BitVec.add_comm, divS_mul_add_remS]

/-- The quotient and the remainder that R177 gives for a dividend and a divisor. -/
def IsDivRem (x y q r : Word64) : Prop :=
  (y = 0 → q = 0xFFFFFFFFFFFFFFFF ∧ r = x)
  ∧ (x = 0x8000000000000000 ∧ y = 0xFFFFFFFFFFFFFFFF → q = 0x8000000000000000 ∧ r = 0)
  ∧ (y ≠ 0 ∧ ¬(x = 0x8000000000000000 ∧ y = 0xFFFFFFFFFFFFFFFF) → q = BitVec.ofInt 64 (x.toInt.tdiv y.toInt) ∧ r = x - q * y)
  ∧ x = q * y + r

theorem isDivRem_divS_remS (x y : Word64) : IsDivRem x y (divS x y) (remS x y) := by
  refine ⟨?zero, ?wraps, ?general, (divS_mul_add_remS x y).symm⟩
  case zero =>
    rintro rfl
    exact ⟨divS_zero x, remS_zero x⟩
  case wraps =>
    rintro ⟨rfl, rfl⟩
    decide
  case general =>
    rintro ⟨hy, -⟩
    exact ⟨divS_of_ne_zero hy, remS_eq_sub x y⟩

/-- Settles O3: DIV and REM of the operands an instruction finds meet R177's table, whichever form gives the second operand. -/
theorem divisionAndRemainder : Obligations.DivisionAndRemainder := by
  unfold Obligations.DivisionAndRemainder
  intro s c k g d a b e table
  constructor
  · intro h t
    refine ⟨divS (t.readS a) (t.readS b), remS (t.readS a) (t.readS b), isDivRem_divS_remS _ _, ?div, ?rem⟩
    case div => rw [exec_div]; exact State.slowReg_issues h
    case rem => rw [exec_rem]; exact State.slowReg_issues h
  · intro h t
    refine ⟨divS (t.readS a) (extVal e), remS (t.readS a) (extVal e), isDivRem_divS_remS _ _, ?divLong, ?remLong⟩
    case divLong => rw [exec_divLong]; exact State.slowLong_issues h
    case remLong => rw [exec_remLong]; exact State.slowLong_issues h

/-! ## Minimum, maximum and sign of floating-point operands (R186, R187) -/

/-- The low half of a sign-extended extension word is the extension word. -/
@[simp] theorem f32Of_extVal (e : Word32) : f32Of (extVal e) = e.toNat := by
  have he := e.isLt
  rw [f32Of, extVal, BitVec.toNat_signExtend, BitVec.toNat_setWidth]
  split <;> omega

section
variable {f : FFmt} {wantMax : Bool} {x y : Nat}

theorem fpMinMax_nan_nan (hx : (fpVal f x).isNan = true) (hy : (fpVal f y).isNan = true) : fpMinMax f wantMax x y = f.nanBits := by
  simp [fpMinMax, hx, hy]

theorem fpMinMax_nan_left (hx : (fpVal f x).isNan = true) (hy : (fpVal f y).isNan = false) : fpMinMax f wantMax x y = y := by
  simp [fpMinMax, hx, hy]

theorem fpMinMax_nan_right (hx : (fpVal f x).isNan = false) (hy : (fpVal f y).isNan = true) : fpMinMax f wantMax x y = x := by
  simp [fpMinMax, hx, hy]

theorem fpMinMax_self (hx : (fpVal f x).isNan = false) : fpMinMax f wantMax x x = x := by
  simp [fpMinMax, hx]

/-- Operands in strict numeric order. -/
theorem fpMinMax_of_lt (hx : (fpVal f x).isNan = false) (hy : (fpVal f y).isNan = false) (h : fpLt (fpVal f x) (fpVal f y) = true) :
    fpMinMax f wantMax x y = if wantMax then y else x := by
  obtain ⟨-, hgt⟩ : fpLe (fpVal f x) (fpVal f y) = true ∧ fpLe (fpVal f y) (fpVal f x) = false := by simpa [fpLt] using h
  have hne : fpEq (fpVal f x) (fpVal f y) = false := by simp [fpEq, hgt]
  cases wantMax <;> simp [fpMinMax, hx, hy, hne, h]

/-- Operands in reverse strict numeric order. -/
theorem fpMinMax_of_gt (hx : (fpVal f x).isNan = false) (hy : (fpVal f y).isNan = false) (h : fpLt (fpVal f y) (fpVal f x) = true) :
    fpMinMax f wantMax x y = if wantMax then x else y := by
  obtain ⟨-, hlt⟩ : fpLe (fpVal f y) (fpVal f x) = true ∧ fpLe (fpVal f x) (fpVal f y) = false := by simpa [fpLt] using h
  have hne : fpEq (fpVal f x) (fpVal f y) = false := by simp [fpEq, hlt]
  have hnlt : fpLt (fpVal f x) (fpVal f y) = false := by simp [fpLt, hlt]
  cases wantMax <;> simp [fpMinMax, hx, hy, hne, hnlt]

end

/-- R187's order of FP32 encodings that are not NaN: by value, and −0 below +0. -/
def f32Below (x y : Nat) : Bool := fpLt (fpVal fmtF32 x) (fpVal fmtF32 y) || (x == 0x80000000 && y == 0)

section
variable {wantMax : Bool} {x y : Nat} (hx : (fpVal fmtF32 x).isNan = false) (hy : (fpVal fmtF32 y).isNan = false)
include hx hy

theorem fpMinMax_of_below (h : f32Below x y = true) : fpMinMax fmtF32 wantMax x y = if wantMax then y else x := by
  obtain hlt | ⟨rfl, rfl⟩ : fpLt (fpVal fmtF32 x) (fpVal fmtF32 y) = true ∨ x = 0x80000000 ∧ y = 0 := by simpa [f32Below] using h
  · exact fpMinMax_of_lt hx hy hlt
  · cases wantMax <;> decide

theorem fpMinMax_of_above (h : f32Below y x = true) : fpMinMax fmtF32 wantMax x y = if wantMax then x else y := by
  obtain hgt | ⟨rfl, rfl⟩ : fpLt (fpVal fmtF32 y) (fpVal fmtF32 x) = true ∨ y = 0x80000000 ∧ x = 0 := by simpa [f32Below] using h
  · exact fpMinMax_of_gt hx hy hgt
  · cases wantMax <;> decide

end

/-- What R187 asks of the minimum and the maximum of two FP32 encodings. -/
def IsF32MinMax (x y lo hi : Nat) : Prop :=
  ((fpVal fmtF32 x).isNan = true ∧ (fpVal fmtF32 y).isNan = true → lo = 0x7FC00000 ∧ hi = 0x7FC00000)
  ∧ ((fpVal fmtF32 x).isNan = true ∧ (fpVal fmtF32 y).isNan = false → lo = y ∧ hi = y)
  ∧ ((fpVal fmtF32 x).isNan = false ∧ (fpVal fmtF32 y).isNan = true → lo = x ∧ hi = x)
  ∧ ((fpVal fmtF32 x).isNan = false ∧ (fpVal fmtF32 y).isNan = false →
      (f32Below x y = true → lo = x ∧ hi = y) ∧ (f32Below y x = true → lo = y ∧ hi = x) ∧ (x = y → lo = x ∧ hi = x))

theorem isF32MinMax_fpMinMax (x y : Nat) : IsF32MinMax x y (fpMinMax fmtF32 false x y) (fpMinMax fmtF32 true x y) := by
  refine ⟨?both, ?first, ?second, ?neither⟩
  case both =>
    rintro ⟨hx, hy⟩
    exact ⟨fpMinMax_nan_nan hx hy, fpMinMax_nan_nan hx hy⟩
  case first =>
    rintro ⟨hx, hy⟩
    exact ⟨fpMinMax_nan_left hx hy, fpMinMax_nan_left hx hy⟩
  case second =>
    rintro ⟨hx, hy⟩
    exact ⟨fpMinMax_nan_right hx hy, fpMinMax_nan_right hx hy⟩
  case neither =>
    rintro ⟨hx, hy⟩
    refine ⟨fun h => ⟨fpMinMax_of_below hx hy h, fpMinMax_of_below hx hy h⟩,
      fun h => ⟨fpMinMax_of_above hx hy h, fpMinMax_of_above hx hy h⟩, ?_⟩
    rintro rfl
    exact ⟨fpMinMax_self hx, fpMinMax_self hx⟩

/-- FSGN's result as one encoding, zero-extended (R186). -/
theorem fsgnS_eq_ofNat (v w : Word64) : fsgnS v w = BitVec.ofNat 64
    (if (fpVal fmtF32 (f32Of v)).isNan then 0x7FC00000 else f32Of v % 2 ^ 31 + f32Of w / 2 ^ 31 * 2 ^ 31) :=
  (apply_ite (BitVec.ofNat 64) _ _ _).symm

/-- Settles O4: FMIN and FMAX order the encodings that an instruction finds as R187 does, and FSGN joins their magnitude and sign. -/
theorem floatMinMaxSign : Obligations.FloatMinMaxSign := by
  unfold Obligations.FloatMinMaxSign
  intro s c k g d a b e nan below order sign
  constructor
  · intro h t x y gives
    refine ⟨⟨_, _, isF32MinMax_fpMinMax x y, ?min, ?max⟩, ?sign⟩
    case min => rw [exec_fmin]; exact State.aluReg_issues h rfl
    case max => rw [exec_fmax]; exact State.aluReg_issues h rfl
    case sign => rw [exec_fsgn]; exact State.aluReg_issues h (fsgnS_eq_ofNat _ _)
  · intro h t x y gives
    refine ⟨⟨_, _, isF32MinMax_fpMinMax x y, ?minLong, ?maxLong⟩, ?signLong⟩
    case minLong => rw [exec_fminLong]; exact State.aluLong_issues h (by rw [fminS, f32Of_extVal]; rfl)
    case maxLong => rw [exec_fmaxLong]; exact State.aluLong_issues h (by rw [fmaxS, f32Of_extVal]; rfl)
    case signLong => rw [exec_fsgnLong]; exact State.aluLong_issues h (by rw [fsgnS_eq_ofNat, f32Of_extVal]; rfl)

end Sys2Proof.Machine

/-! SUPPORT. The evaluation of a WAIT (R351, R443), and what a doorbell and its record change of the queues (R345, R352, R354, R445). -/
namespace Sys2Proof.Machine

/-! ## Packets that begin -/

section
variable {s : State} {q pid : Nat} {k : Packet}

/-- A started packet that has not begun takes its own row, marked as begun. -/
theorem State.beginPacket_starts {type : Nat} {f : Packet → State → State} (hk : s.packet q pid = some k) (htype : k.type = type)
    (hbegun : k.begun = false) (hready : k.ready = false) :
    s.beginPacket q pid type f = .next (f k (s.onPacket q pid fun p => { p with begun := true })) := by
  simp [State.beginPacket, hk, htype, hbegun, hready]

theorem exec_wait_starts (hk : s.packet q pid = some k) (htype : k.type = 3) (hbegun : k.begun = false) (hready : k.ready = false) :
    exec (.wait q pid) s = .next ((s.onPacket q pid fun p => { p with begun := true }).evalWait q k) := by
  rw [exec_wait, execWait]
  exact State.beginPacket_starts hk htype hbegun hready

end

/-! ## Values that a WAIT has read (R443) -/

/-- What an evaluation decides from its signals and their values, in the order of the list. -/
def State.decideWait (s : State) (q : Nat) (k : Packet) (vs : List (Word64 × Word64)) : State :=
  match vs.find? fun p => p.2.slt 0 with
  | some (a, v) => s.abortPacket q k.pid ⟨0x906, a, v⟩ none
  | none => if vs.all fun p => cmpWord (k.word 0x19 1) p.2 (k.addrAt 0x20) then s.finishPacket q k.pid 0 0 else s

theorem slt_zero_eq_true_iff (v : Word64) : v.slt 0 = true ↔ v.toInt < 0 := by
  simp [BitVec.slt_iff_toInt_lt]

theorem slt_zero_eq_false_iff (v : Word64) : v.slt 0 = false ↔ 0 ≤ v.toInt := by
  rw [← Bool.not_eq_true, slt_zero_eq_true_iff, Int.not_lt]

section
variable {s : State} {q : Nat} {k : Packet} {vs : List (Word64 × Word64)}

/-- An evaluation none of whose reads meets a cause uses up the bytes they have brought, and decides. -/
theorem State.evalWait_reads (hlist : vs.map (·.1) = k.list)
    (hread : ∀ p ∈ vs, s.readWord (s.whoQueue q (.packet q k.pid)) p.1 = .ok p.2) :
    s.evalWait q k = (s.spend (.packet q k.pid)).decideWait q k vs := by
  have hvals : k.list.map (fun a => (a, s.readWord (s.whoQueue q (.packet q k.pid)) a)) = vs.map fun p => (p.1, .ok p.2) := by
    rw [← hlist, List.map_map]
    exact List.map_congr_left fun p hp => by rw [Function.comp_apply, hread p hp]
  have hcause : (vs.findSome? fun _ => (none : Option (Word64 × Cause))) = none := List.findSome?_eq_none_iff.2 fun _ _ => rfl
  have hvalues : (vs.filterMap fun p => some (p.1, p.2)) = vs := List.filterMap_some
  simp only [State.evalWait, hvals, List.findSome?_map, List.filterMap_map, Function.comp_def, hcause, Except.toOption,
    Option.map_some, hvalues]
  rfl

/-- The first negative value of the list aborts the packet with SIGNEG. -/
theorem State.decideWait_negative {l r : List (Word64 × Word64)} {p : Word64 × Word64} (hl : ∀ x ∈ l, 0 ≤ x.2.toInt) (hp : p.2.toInt < 0) :
    s.decideWait q k (l ++ p :: r) = s.abortPacket q k.pid ⟨0x906, p.1, p.2⟩ none := by
  have hfind : (l ++ p :: r).find? (fun x => x.2.slt 0) = some p :=
    List.find?_eq_some_iff_append.2 ⟨(slt_zero_eq_true_iff _).2 hp, l, r, rfl, fun x hx => by rw [(slt_zero_eq_false_iff _).2 (hl x hx), Bool.not_false]⟩
  rw [State.decideWait, hfind]

/-- Without a negative value, CMP and REF decide. -/
theorem State.decideWait_nonneg (h : ∀ x ∈ vs, 0 ≤ x.2.toInt) :
    s.decideWait q k vs
      = if vs.all fun p => cmpWord (k.word 0x19 1) p.2 (k.addrAt 0x20) then s.finishPacket q k.pid 0 0 else s := by
  have hfind : vs.find? (fun x => x.2.slt 0) = none :=
    List.find?_eq_none.2 fun x hx => Bool.not_eq_true _ ▸ (slt_zero_eq_false_iff _).2 (h x hx)
  rw [State.decideWait, hfind]

end

/-- Settles O41: the first evaluation reads the values the statement lists, and decides as R443 says. -/
theorem waitEvaluation : Obligations.WaitEvaluation := by
  unfold Obligations.WaitEvaluation
  intro s q pid k vs hk htype hbegun hready t u hlist hread
  have heval : exec (.wait q pid) s = .next (u.decideWait q k vs) := by
    rw [exec_wait_starts hk htype hbegun hready, State.evalWait_reads hlist hread]
  rw [heval]
  refine ⟨?negative, fun hnonneg => ?compared⟩
  case negative =>
    rintro l r p rfl hl hp
    rw [State.decideWait_negative hl hp]
  case compared =>
    rw [State.decideWait_nonneg hnonneg]
    constructor
    · intro hmet
      rw [if_pos (List.all_eq_true.2 hmet)]
    · rintro ⟨x, hx, hunmet⟩
      rw [if_neg fun hall => Bool.false_ne_true (hunmet.symm.trans (List.all_eq_true.1 hall x hx))]

/-! ## Accesses of the front end leave the queues alone -/

theorem foldl_queues {β : Type} {g : State → β → State} (hg : ∀ t b, (g t b).queues = t.queues) (l : List β) (s : State) :
    (l.foldl g s).queues = s.queues := by
  induction l generalizing s with
  | nil => rfl
  | cons b r ih => exact (ih _).trans (hg s b)

section
variable (s : State) (w : Who) (r : ReqFor)

@[simp] theorem State.fillTlb_queues (e : TlbEntry) : (s.fillTlb w e).queues = s.queues := by
  unfold State.fillTlb
  split
  · rfl
  · split <;> rfl

@[simp] theorem State.serve_queues (p : Piece) : (s.serve p).queues = s.queues := by
  unfold State.serve
  split
  · exact foldl_queues (fun t i => (State.cacheLine_onlyLines t _).queues) _ _
  · rfl

@[simp] theorem State.fillAll_queues (ps : List (Piece × TlbEntry)) : (s.fillAll w ps).queues = s.queues :=
  foldl_queues (fun t p => by simp) ps s

@[simp] theorem State.sendFabric_queues (die dest addr : Nat) (m : FabricMsg) : (s.sendFabric die dest addr m).queues = s.queues := by
  unfold State.sendFabric
  split <;> rfl

@[simp] theorem State.ask_queues (key tier addr : Nat) (info : Word64) (kind len : Nat) (b : ByteList) :
    (s.ask r key tier addr info kind len b).queues = s.queues := by
  unfold State.ask
  dsimp only
  split
  · exact State.sendFabric_queues ..
  · rfl

@[simp] theorem State.writePiece_queues (shadow : Bool) (p : Piece) (b : ByteList) : (s.writePiece w shadow p b).queues = s.queues := by
  unfold State.writePiece
  split
  · exact (State.touchLines_onlyLines ..).queues
  · rfl
  · exact State.ask_queues ..
  · exact State.ask_queues ..

@[simp] theorem State.askAts_queues (iova : Nat) : (s.askAts r iova).queues = s.queues := by
  unfold State.askAts
  dsimp only
  split <;> split <;> rfl

@[simp] theorem State.arriveAt_queues (key : Nat) : (s.arriveAt r key).queues = s.queues := by
  unfold State.arriveAt
  split <;> rfl

@[simp] theorem State.await_queues (x : Cause) : (s.await w x).queues = s.queues := by
  unfold State.await
  split
  · exact State.askAts_queues ..
  split
  · exact State.arriveAt_queues ..
  dsimp only
  split
  · rfl
  split
  · rfl
  · exact State.ask_queues ..

@[simp] theorem State.meetRefusal_queues (code : Nat) (info1 : Word64) : (s.meetRefusal code info1).queues = s.queues := by
  unfold State.meetRefusal
  split <;> rfl

@[simp] theorem State.sendMsix_queues (q vector : Nat) : (s.sendMsix q vector).queues = s.queues := by
  unfold State.sendMsix
  split <;> rfl

end

theorem State.writeG_queues {s u : State} {w : Who} {shadow : Bool} {va : Nat} {b : ByteList} (h : s.writeG w shadow va b = .ok u) :
    u.queues = s.queues := by
  unfold State.writeG at h
  split at h
  · cases h; rfl
  split at h
  · cases h
  split at h
  · cases h
  split at h
  · cases h
  · cases h
    exact (foldl_queues (fun t p => by simp) _ _).trans (State.fillAll_queues ..)

theorem State.writeForm_queues {s u : State} {w : Who} {a : Word64} {b : ByteList} (h : s.writeForm w a b = .ok u) :
    u.queues = s.queues := by
  unfold State.writeForm at h
  split at h
  · cases h; rfl
  · exact State.writeG_queues h

/-! ## Notifications (R352, R354, R440) -/

/-- A queue without what its notifications move: QNWR and the entries that wait. -/
def Queue.unnoted (x : Queue) : Queue := { x with nwr := 0, notes := [] }

/-- A change of a state that only writes notifications: every other field of a queue is equal by `congrArg` of it. -/
structure State.OnlyNotes (s u : State) : Prop where
  queue : ∀ q, (u.queue q).unnoted = (s.queue q).unnoted

theorem State.OnlyNotes.trans {s t u : State} (h : s.OnlyNotes t) (g : t.OnlyNotes u) : s.OnlyNotes u :=
  ⟨fun q => (g.queue q).trans (h.queue q)⟩

theorem State.OnlyNotes.of_queues {s u : State} (h : u.queues = s.queues) : s.OnlyNotes u := ⟨fun q => by rw [State.queue, h, State.queue]⟩

theorem State.OnlyNotes.refl (s : State) : s.OnlyNotes s := .of_queues rfl

theorem State.OnlyNotes.wr {s u : State} (h : s.OnlyNotes u) (q : Nat) : (u.queue q).wr = (s.queue q).wr := have e := congrArg Queue.wr (h.queue q); e
theorem State.OnlyNotes.qerr {s u : State} (h : s.OnlyNotes u) (q : Nat) : (u.queue q).qerr = (s.queue q).qerr := have e := congrArg Queue.qerr (h.queue q); e
theorem State.OnlyNotes.packets {s u : State} (h : s.OnlyNotes u) (q : Nat) : (u.queue q).packets = (s.queue q).packets := have e := congrArg Queue.packets (h.queue q); e
theorem State.OnlyNotes.stopped {s u : State} (h : s.OnlyNotes u) (q : Nat) : (u.queue q).stopped = (s.queue q).stopped := have e := congrArg Queue.stopped (h.queue q); e

theorem State.onQueue_onlyNotes (s : State) (q : Nat) {f : Queue → Queue} (hf : ∀ x, (f x).unnoted = x.unnoted) : s.OnlyNotes (s.onQueue q f) := by
  refine ⟨fun r => ?_⟩
  by_cases e : r = q
  · subst e
    simp [State.onQueue, hf]
  · simp [State.onQueue, State.queue_setQueue_other _ _ e]

theorem State.passNote_onlyNotes (s : State) (q : Nat) : s.OnlyNotes (s.passNote q) := State.onQueue_onlyNotes s q fun _ => rfl

theorem State.requeueNote_onlyNotes (s : State) (q addr : Nat) (b : ByteList) : s.OnlyNotes (s.requeueNote q addr b) :=
  State.onQueue_onlyNotes s q fun _ => rfl

theorem State.putEntry_onlyNotes {s u : State} {q : Nat} {b : ByteList} (h : s.putEntry q b = .ok u) : s.OnlyNotes u := by
  unfold State.putEntry at h
  dsimp only at h
  split at h
  next v hv =>
    have hpass : s.OnlyNotes (v.passNote q) := (OnlyNotes.of_queues (State.writeForm_queues hv)).trans (State.passNote_onlyNotes v q)
    cases h
    split
    · exact hpass.trans (.of_queues (State.sendMsix_queues ..))
    · exact hpass
  next => cases h

section
variable (s : State) (q addr : Nat) (b : ByteList)

/-- An entry goes back, and the access that was to write it waits. -/
theorem State.requeueNote_await_onlyNotes (w : Who) (c : Cause) : s.OnlyNotes ((s.requeueNote q addr b).await w c) :=
  (State.requeueNote_onlyNotes s q addr b).trans (.of_queues (State.await_queues ..))

theorem State.loseNote_onlyNotes (c : Cause) : s.OnlyNotes (s.loseNote q addr c) := by
  unfold State.loseNote
  dsimp only
  refine OnlyNotes.trans (((OnlyNotes.of_queues (State.meetRefusal_queues s c.code c.info1)).trans (State.passNote_onlyNotes _ q)).trans
    (.of_queues (State.keepRecord_onlyRecords _ (sideRecord q (bitsOf (s.queue q).qctl 11 5) addr c)).queues)) ?_
  split
  · exact State.requeueNote_onlyNotes ..
  split
  next h => exact State.putEntry_onlyNotes h
  next =>
    split
    · exact State.requeueNote_await_onlyNotes ..
    · exact State.passNote_onlyNotes ..

theorem State.putNote_onlyNotes : s.OnlyNotes (s.putNote q addr b) := by
  unfold State.putNote
  split
  next h => exact State.putEntry_onlyNotes h
  next =>
    split
    · exact State.requeueNote_await_onlyNotes ..
    · exact State.loseNote_onlyNotes ..

theorem State.notify_onlyNotes : s.OnlyNotes (s.notify q addr b) := by
  unfold State.notify
  split
  · exact .refl s
  split
  · exact State.onQueue_onlyNotes s q fun _ => rfl
  · exact State.putNote_onlyNotes ..

end

/-- A record moves no field of a queue but those of its notifications, whichever queue it names. -/
theorem State.errorRecord_onlyNotes (s : State) (e : ErrRec) : s.OnlyNotes (s.errorRecord e) := by
  have hkeep : s.OnlyNotes (s.keepRecord e) := .of_queues (State.keepRecord_onlyRecords s e).queues
  unfold State.errorRecord
  split
  · split
    · exact hkeep
    · exact hkeep.trans (State.notify_onlyNotes ..)
  · exact hkeep

/-! ## Doorbells (R345, R445) -/

@[simp] theorem State.letOutside_queues (s : State) : s.letOutside.queues = s.queues := by
  unfold State.letOutside
  split <;> rfl

@[simp] theorem State.letOutside_errseq (s : State) : s.letOutside.errseq = s.errseq := by
  unfold State.letOutside
  split <;> rfl

@[simp] theorem State.queue_letOutside (s : State) (q : Nat) : s.letOutside.queue q = s.queue q := by
  simp [State.queue]

/-- The exponent of a ring's size: the latched one while the queue is enabled. -/
def Queue.ringBits (x : Queue) : Nat := if x.en then x.lsize else bitsOf x.qctl 16 12

section
variable {s : State} {org : RegOrigin} {q : Nat} {v : Word32}

theorem State.opDoorbell_applied {unit : Nat} (h : (v - (s.queue q).cp).toNat ≤ 2 ^ (s.queue q).ringBits) :
    s.opDoorbell q v unit = s.setQueue q { s.queue q with wr := v, parked := false } := if_neg (Nat.not_lt.2 h)

theorem State.opDoorbell_refused {unit : Nat} (h : 2 ^ (s.queue q).ringBits < (v - (s.queue q).cp).toNat) :
    s.opDoorbell q v unit = s.errorRecord ⟨0x902, 0, unit, 0, 0, false, some (q, (s.queue q).keyid), 0, v.zeroExtend 64, (s.queue q).cp.zeroExtend 64, 0⟩ :=
  if_pos h

theorem exec_doorbell_served (hreach : s.reaches org q = true) (hfree : org ≠ .pf ∨ s.postedHeld = false) :
    exec (.doorbell org q v) s = .next (s.letOutside.opDoorbell q v (originUnit org)) := by
  have hserved : ¬(org = .pf ∧ s.postedHeld = true) := by
    rintro ⟨hpf, hheld⟩
    simp [hpf, hheld] at hfree
  rw [exec_doorbell, execDoorbell, if_neg (by simp [hreach]), if_neg hserved]

theorem exec_doorbell_held (hreach : s.reaches org q = true) (hpf : org = .pf) (hheld : s.postedHeld = true) :
    exec (.doorbell org q v) s = .next (s.holdOutside (.doorbell org q v) 0) := by
  rw [exec_doorbell, execDoorbell, if_neg (by simp [hreach]), if_pos ⟨hpf, hheld⟩]

end

/-- Settles O42: a doorbell that is served is applied, or only recorded; the record's notification moves nothing else of its queue. -/
theorem doorbellWrites : Obligations.DoorbellWrites := by
  unfold Obligations.DoorbellWrites
  intro s org q v hreach size t
  have hqueue : t.queue q = s.queue q := State.queue_letOutside s q
  refine ⟨⟨State.letOutside_queues s, State.letOutside_errseq s⟩, fun hfree => ?served, exec_doorbell_held hreach⟩
  case served =>
    rw [exec_doorbell_served hreach hfree]
    have hsize : 2 ^ size = 2 ^ (t.queue q).ringBits := by rw [hqueue]; rfl
    rw [← hqueue, hsize]
    refine ⟨fun hnear => ?applied, fun hfar => ?refused⟩
    case applied => rw [State.opDoorbell_applied hnear]
    case refused =>
      rw [State.opDoorbell_refused hfar]
      have hkept := State.errorRecord_onlyNotes t
        ⟨0x902, 0, originUnit org, 0, 0, false, some (q, (t.queue q).keyid), 0, v.zeroExtend 64, (t.queue q).cp.zeroExtend 64, 0⟩
      exact ⟨_, rfl, rfl, hkept.wr q, hkept.qerr q, hkept.packets q, hkept.stopped q⟩

end Sys2Proof.Machine

/-! SUPPORT. Every step keeps the canonical form of the byte memory (log 4): the lemmas of each family, put together over the dispatch. -/
namespace Sys2Proof.Machine

/-- Each constructor's meaning keeps the form. -/
theorem exec_memWf {s : State} (hs : MemWf s) (i : Instr) : OutWf (exec i s) :=
  match i with
  | .moduleReset _ => execModuleReset_memWf
  | .bar2Read _ _ _ => execBar2Read_memWf hs
  | .bar2Write _ _ => execBar2Write_memWf hs
  | .registerWrite _ _ _ _ => execRegisterWrite_memWf hs
  | .configurationWrite _ _ => execConfigurationWrite_memWf hs
  | .doorbell _ _ _ => execDoorbell_memWf hs
  | .queueEnable _ => execQueueEnable_memWf hs
  | .queueDisable _ => execQueueDisable_memWf hs
  | .qckrel _ _ => execQckrel_memWf hs
  | .qerrRetry _ => execQerrRetry_memWf hs
  | .qerrSkip _ => execQerrSkip_memWf hs
  | .tlbInvalidateAll _ => execTlbInvalidateAll_memWf hs
  | .tlbInvalidateRoot => execTlbInvalidateRoot_memWf hs
  | .tlbInvalidatePage => execTlbInvalidatePage_memWf hs
  | .tlbinvComplete => execTlbinvComplete_memWf hs
  | .preempt _ => execPreempt_memWf hs
  | .modeselWrite _ => execModeselWrite_memWf hs
  | .rampctlWrite _ _ => execRampctlWrite_memWf hs
  | .ritWrite _ _ _ => execRitWrite_memWf hs
  | .remapRequest _ _ => execRemapRequest_memWf hs
  | .remapEpochEnd _ => execRemapEpochEnd_memWf hs
  | .regionSwap _ => execRegionSwap_memWf hs
  | .swapAbandon _ => execSwapAbandon_memWf hs
  | .channelRetire _ => execChannelRetire_memWf hs
  | .retirementMove _ => execRetirementMove_memWf hs
  | .fwLoad _ _ => execFwLoad_memWf hs
  | .fwSwitch => execFwSwitch_memWf hs
  | .fwSwitchHandover _ => execFwSwitchHandover_memWf hs
  | .unitRetry _ => execUnitRetry_memWf hs
  | .unitEnd _ => execUnitEnd_memWf hs
  | .portEnable _ => execPortEnable_memWf hs
  | .counterClear _ _ => execCounterClear_memWf hs
  | .keyAlloc _ => execKeyAlloc_memWf hs
  | .keyRetire _ => execKeyRetire_memWf hs
  | .lockInterfaceRequest _ => execLockInterfaceRequest_memWf hs
  | .startInterfaceRequest _ _ => execStartInterfaceRequest_memWf hs
  | .stopInterfaceRequest _ => execStopInterfaceRequest_memWf hs
  | .interfaceUnlock _ => execInterfaceUnlock_memWf hs
  | .getDeviceInterfaceReport _ => execGetDeviceInterfaceReport_memWf hs
  | .getDeviceInterfaceState _ => execGetDeviceInterfaceState_memWf hs
  | .spdmRequest _ => execSpdmRequest_memWf hs
  | .atsCompletion _ _ => execAtsCompletion_memWf hs
  | .priResponse _ _ => execPriResponse_memWf hs
  | .atsInvalidationRequest _ _ => execAtsInvalidationRequest_memWf hs
  | .atsInvalidationComplete => execAtsInvalidationComplete_memWf hs
  | .ideFailure _ => execIdeFailure_memWf hs
  | .tamper _ => execTamper_memWf hs
  | .glitch _ => execGlitch_memWf hs
  | .thermalThrottle _ => execThermalThrottle_memWf hs
  | .rampIntervalEnd _ => execRampIntervalEnd_memWf hs
  | .flitReceive _ _ _ => execFlitReceive_memWf hs
  | .linkDown _ _ => execLinkDown_memWf hs
  | .rootAnnouncementSend => execRootAnnouncementSend_memWf hs
  | .rootAnnouncementReceive _ _ _ => execRootAnnouncementReceive_memWf hs
  | .rootLost => execRootLost_memWf hs
  | .peerRequest _ => execPeerRequest_memWf hs
  | .ingressArrival _ _ => execIngressArrival_memWf hs
  | .remoteCompletion _ _ => execRemoteCompletion_memWf hs
  | .completionTimeout _ => execCompletionTimeout_memWf hs
  | .collectiveMessage _ _ _ _ => execCollectiveMessage_memWf hs
  | .collectiveAbandon _ _ _ => execCollectiveAbandon_memWf hs
  | .sramCorrectedError _ => execSramCorrectedError_memWf hs
  | .freezeEnd _ => execFreezeEnd_memWf hs
  | .sramUncorrectableError _ => execSramUncorrectableError_memWf hs
  | .tier0LineRead _ key _ => execTier0LineRead_memWf (x1 := key) hs
  | .heartbeat => execHeartbeat_memWf hs
  | .stateTableCommit => execStateTableCommit_memWf hs
  | .heartbeatTimeout _ => execHeartbeatTimeout_memWf hs
  | .fetcherTurn _ => execFetcherTurn_memWf hs
  | .nopPacket _ _ => execNopPacket_memWf hs
  | .launch _ _ => execLaunch_memWf hs
  | .launchSetup _ _ => execLaunchSetup_memWf hs
  | .launchStart _ => execLaunchStart_memWf hs
  | .launchComplete _ => execLaunchComplete_memWf hs
  | .resume _ _ => execResume_memWf hs
  | .resumeRestore _ _ => execResumeRestore_memWf hs
  | .hardwareResume => execHardwareResume_memWf hs
  | .wait _ _ => execWait_memWf hs
  | .waitPoll _ _ => execWaitPoll_memWf hs
  | .signal _ _ => execSignal_memWf hs
  | .cond _ _ => execCond_memWf hs
  | .loopPacket _ _ => execLoopPacket_memWf hs
  | .indirect _ _ => execIndirect_memWf hs
  | .copy _ _ => execCopy_memWf hs
  | .fencePacket _ _ => execFencePacket_memWf hs
  | .endPacket _ _ => execEndPacket_memWf hs
  | .packetCompletion _ _ => execPacketCompletion_memWf hs
  | .notificationWrite _ => execNotificationWrite_memWf hs
  | .sysReply _ _ => execSysReply_memWf hs
  | .unitTrapResolution _ => execUnitTrapResolution_memWf hs
  | .ingressAdmission _ => execIngressAdmission_memWf hs
  | .taskRelease _ _ => execTaskRelease_memWf hs
  | .taskCompletion _ _ => execTaskCompletion_memWf hs
  | .scratchpadPublish _ => execScratchpadPublish_memWf hs
  | .hbmShadowBind _ _ => execHbmShadowBind_memWf hs
  | .hbmPublish _ => execHbmPublish_memWf hs
  | .frameReturn _ _ => execFrameReturn_memWf hs
  | .vectorKernelStart _ => execVectorKernelStart_memWf hs
  | .copyBoxRow _ _ => execCopyBoxRow_memWf hs
  | .copyCompletion _ _ => execCopyCompletion_memWf hs
  | .pushLand _ _ => execPushLand_memWf hs
  | .contextEnd _ _ => execContextEnd_memWf hs
  | .accessPerformed _ _ _ => execAccessPerformed_memWf hs
  | .loadReturn _ _ => execLoadReturn_memWf hs
  | .causalStoreApply _ _ => execCausalStoreApply_memWf hs
  | .causalLoadServe _ _ => execCausalLoadServe_memWf hs
  | .yieldDeadline _ => execYieldDeadline_memWf hs
  | .saveStopped _ => execSaveStopped_memWf hs
  | .preemptionComplete _ => execPreemptionComplete_memWf hs
  | .activityTimeout _ => execActivityTimeout_memWf hs
  | .waitProbeOriginate _ => execWaitProbeOriginate_memWf hs
  | .waitProbeReturn _ => execWaitProbeReturn_memWf hs
  | .nop _ => execNop_memWf hs
  | .add _ _ _ _ => execAdd_memWf hs
  | .addLong _ _ _ _ => execAddLong_memWf hs
  | .sub _ _ _ _ => execSub_memWf hs
  | .subLong _ _ _ _ => execSubLong_memWf hs
  | .mul _ _ _ _ => execMul_memWf hs
  | .mulLong _ _ _ _ => execMulLong_memWf hs
  | .mulh _ _ _ _ => execMulh_memWf hs
  | .mulhLong _ _ _ _ => execMulhLong_memWf hs
  | .div _ _ _ _ => execDiv_memWf hs
  | .divLong _ _ _ _ => execDivLong_memWf hs
  | .rem _ _ _ _ => execRem_memWf hs
  | .remLong _ _ _ _ => execRemLong_memWf hs
  | .and _ _ _ _ => execAnd_memWf hs
  | .andLong _ _ _ _ => execAndLong_memWf hs
  | .or _ _ _ _ => execOr_memWf hs
  | .orLong _ _ _ _ => execOrLong_memWf hs
  | .xor _ _ _ _ => execXor_memWf hs
  | .xorLong _ _ _ _ => execXorLong_memWf hs
  | .andn _ _ _ _ => execAndn_memWf hs
  | .andnLong _ _ _ _ => execAndnLong_memWf hs
  | .shl _ _ _ _ => execShl_memWf hs
  | .shlLong _ _ _ _ => execShlLong_memWf hs
  | .shr _ _ _ _ => execShr_memWf hs
  | .shrLong _ _ _ _ => execShrLong_memWf hs
  | .sra _ _ _ _ => execSra_memWf hs
  | .sraLong _ _ _ _ => execSraLong_memWf hs
  | .rol _ _ _ _ => execRol_memWf hs
  | .rolLong _ _ _ _ => execRolLong_memWf hs
  | .min _ _ _ _ => execMin_memWf hs
  | .minLong _ _ _ _ => execMinLong_memWf hs
  | .max _ _ _ _ => execMax_memWf hs
  | .maxLong _ _ _ _ => execMaxLong_memWf hs
  | .clz _ _ _ => execClz_memWf hs
  | .ctz _ _ _ => execCtz_memWf hs
  | .popc _ _ _ => execPopc_memWf hs
  | .bfx _ _ _ _ _ _ => execBfx_memWf hs
  | .bfi _ _ _ _ _ => execBfi_memWf hs
  | .sext _ _ _ _ => execSext_memWf hs
  | .zext _ _ _ _ => execZext_memWf hs
  | .li _ _ _ => execLi_memWf hs
  | .liLong _ _ _ => execLiLong_memWf hs
  | .liH _ _ _ => execLiH_memWf hs
  | .mov _ _ _ => execMov_memWf hs
  | .sel _ _ _ _ _ _ => execSel_memWf hs
  | .lea _ _ _ => execLea_memWf hs
  | .leaLong _ _ _ => execLeaLong_memWf hs
  | .hoff _ _ _ _ => execHoff_memWf hs
  | .cmp _ _ _ _ _ _ => execCmp_memWf hs
  | .pand _ _ _ _ => execPand_memWf hs
  | .por _ _ _ _ => execPor_memWf hs
  | .pxor _ _ _ _ => execPxor_memWf hs
  | .pnot _ _ _ => execPnot_memWf hs
  | .pget _ _ => execPget_memWf hs
  | .pset _ _ _ => execPset_memWf hs
  | .fadd _ _ _ _ => execFadd_memWf hs
  | .faddLong _ _ _ _ => execFaddLong_memWf hs
  | .fsub _ _ _ _ => execFsub_memWf hs
  | .fsubLong _ _ _ _ => execFsubLong_memWf hs
  | .fmul _ _ _ _ => execFmul_memWf hs
  | .fmulLong _ _ _ _ => execFmulLong_memWf hs
  | .ffma _ _ _ _ => execFfma_memWf hs
  | .fdiv _ _ _ _ => execFdiv_memWf hs
  | .fdivLong _ _ _ _ => execFdivLong_memWf hs
  | .fmin _ _ _ _ => execFmin_memWf hs
  | .fminLong _ _ _ _ => execFminLong_memWf hs
  | .fmax _ _ _ _ => execFmax_memWf hs
  | .fmaxLong _ _ _ _ => execFmaxLong_memWf hs
  | .fcmp _ _ _ _ _ _ => execFcmp_memWf hs
  | .fcvt _ _ _ _ _ => execFcvt_memWf hs
  | .fsgn _ _ _ _ => execFsgn_memWf hs
  | .fsgnLong _ _ _ _ => execFsgnLong_memWf hs
  | .br _ _ => execBr_memWf hs
  | .brLong _ _ => execBrLong_memWf hs
  | .call _ _ _ => execCall_memWf hs
  | .callLong _ _ _ => execCallLong_memWf hs
  | .ret _ _ => execRet_memWf hs
  | .jr _ _ _ => execJr_memWf hs
  | .loop _ _ _ => execLoop_memWf hs
  | .loopLong _ _ _ => execLoopLong_memWf hs
  | .dspt _ _ _ _ _ => execDspt_memWf hs
  | .ld _ _ _ _ _ _ _ => execLd_memWf hs
  | .ldLong _ _ _ _ _ _ _ _ => execLdLong_memWf hs
  | .st _ _ _ _ _ _ => execSt_memWf hs
  | .stLong _ _ _ _ _ _ _ => execStLong_memWf hs
  | .probe _ _ _ _ => execProbe_memWf hs
  | .probeLong _ _ _ _ => execProbeLong_memWf hs
  | .unpin _ _ => execUnpin_memWf hs
  | .amo _ _ _ _ _ _ _ sc => execAmo_memWf (x7 := sc) hs
  | .cas _ _ _ _ _ _ sc _ => execCas_memWf (x6 := sc) hs
  | .fence _ _ => execFence_memWf hs
  | .fenceR _ _ _ => execFenceR_memWf hs
  | .track _ _ _ => execTrack_memWf hs
  | .untrack _ _ => execUntrack_memWf hs
  | .pub _ _ => execPub_memWf hs
  | .tbar _ _ => execTbar_memWf hs
  | .tid _ _ _ => execTid_memWf hs
  | .cinit _ _ _ _ => execCinit_memWf hs
  | .cexp _ _ _ _ => execCexp_memWf hs
  | .cexpLong _ _ _ _ => execCexpLong_memWf hs
  | .cwait _ _ _ _ => execCwait_memWf hs
  | .crel _ _ _ => execCrel_memWf hs
  | .ctry _ _ _ _ => execCtry_memWf hs
  | .post _ _ => execPost_memWf hs
  | .postNb _ _ _ => execPostNb_memWf hs
  | .postr _ _ _ _ _ _ _ => execPostr_memWf hs
  | .postt _ _ _ _ _ _ => execPostt_memWf hs
  | .dcset _ _ _ => execDcset_memWf hs
  | .dcsetLong _ _ _ => execDcsetLong_memWf hs
  | .dcadd _ _ _ => execDcadd_memWf hs
  | .dcaddLong _ _ _ => execDcaddLong_memWf hs
  | .dcwait _ _ => execDcwait_memWf hs
  | .sta _ _ _ _ => execSta_memWf hs
  | .staLong _ _ _ _ _ => execStaLong_memWf hs
  | .sbind _ _ _ _ _ _ _ => execSbind_memWf hs
  | .cqpush _ _ _ _ => execCqpush_memWf hs
  | .sstop _ _ => execSstop_memWf hs
  | .yield _ _ => execYield_memWf hs
  | .live _ _ => execLive_memWf hs
  | .liveLong _ _ => execLiveLong_memWf hs
  | .trap _ _ => execTrap_memWf hs
  | .sys _ _ _ _ => execSys_memWf hs
  | .rett _ => execRett_memWf hs
  | .mfs _ _ _ => execMfs_memWf hs
  | .mts _ _ _ => execMts_memWf hs
  | .sttcfgWrite _ _ _ => execSttcfgWrite_memWf hs
  | .sttcfgApply _ => execSttcfgApply_memWf hs
  | .halt _ => execHalt_memWf hs
  | .exit _ => execExit_memWf hs
  | .vnop => execVnop_memWf hs
  | .vadd _ _ _ _ _ _ => execVadd_memWf hs
  | .vsub _ _ _ _ _ _ => execVsub_memWf hs
  | .vmul _ _ _ _ _ _ => execVmul_memWf hs
  | .vfma _ _ _ _ _ _ => execVfma_memWf hs
  | .vmin _ _ _ _ _ _ => execVmin_memWf hs
  | .vmax _ _ _ _ _ _ => execVmax_memWf hs
  | .vabs _ _ _ _ _ => execVabs_memWf hs
  | .vneg _ _ _ _ _ => execVneg_memWf hs
  | .vand _ _ _ _ _ _ => execVand_memWf hs
  | .vor _ _ _ _ _ _ => execVor_memWf hs
  | .vxor _ _ _ _ _ _ => execVxor_memWf hs
  | .vshl _ _ _ _ _ _ => execVshl_memWf hs
  | .vshr _ _ _ _ _ _ => execVshr_memWf hs
  | .vsra _ _ _ _ _ _ => execVsra_memWf hs
  | .vcmp _ _ _ _ _ _ => execVcmp_memWf hs
  | .vsel _ _ _ _ _ _ => execVsel_memWf hs
  | .vmov _ _ _ _ _ => execVmov_memWf hs
  | .vbcst _ _ _ _ _ _ => execVbcst_memWf hs
  | .vcvt _ _ _ _ _ _ => execVcvt_memWf hs
  | .vscl _ _ _ _ _ _ _ => execVscl_memWf hs
  | .vreds _ _ _ _ _ => execVreds_memWf hs
  | .vredm _ _ _ _ _ => execVredm_memWf hs
  | .vredn _ _ _ _ _ => execVredn_memWf hs
  | .vexp2 _ _ _ _ _ => execVexp2_memWf hs
  | .vlog2 _ _ _ _ _ => execVlog2_memWf hs
  | .vrcp _ _ _ _ _ => execVrcp_memWf hs
  | .vrsq _ _ _ _ _ => execVrsq_memWf hs
  | .vsqrt _ _ _ _ _ => execVsqrt_memWf hs
  | .vsig _ _ _ _ _ => execVsig_memWf hs
  | .vtanh _ _ _ _ _ => execVtanh_memWf hs
  | .vld _ _ _ _ _ _ _ _ => execVld_memWf hs
  | .vst _ _ _ _ _ _ _ => execVst_memWf hs
  | .vgth _ _ _ _ _ _ _ => execVgth_memWf hs
  | .vprm _ _ _ _ _ _ => execVprm_memWf hs
  | .vunp3 _ _ _ _ _ _ => execVunp3_memWf hs
  | .mand _ _ _ => execMand_memWf hs
  | .mor _ _ _ => execMor_memWf hs
  | .mnot _ _ => execMnot_memWf hs
  | .vloop _ => execVloop_memWf hs
  | .vend => execVend_memWf hs
  | .anop => execAnop_memWf hs
  | .amov _ _ => execAmov_memWf hs
  | .aadd _ _ _ => execAadd_memWf hs
  | .asub _ _ _ => execAsub_memWf hs
  | .amul _ _ _ => execAmul_memWf hs
  | .ashl _ _ _ => execAshl_memWf hs
  | .ashr _ _ _ => execAshr_memWf hs
  | .aand _ _ _ => execAand_memWf hs
  | .amin _ _ _ => execAmin_memWf hs
  | .acmp _ _ _ => execAcmp_memWf hs
  | .abr _ _ _ => execAbr_memWf hs
  | .ajmp _ => execAjmp_memWf hs
  | .aloop _ _ => execAloop_memWf hs
  | .aend _ => execAend_memWf hs
  | .ahalt => execAhalt_memWf hs
  | .spush _ _ _ => execSpush_memWf hs
  | .spushi _ _ _ => execSpushi_memWf hs
  | .swin => execSwin_memWf hs
  | .cqpop _ => execCqpop_memWf hs
  | .afence => execAfence_memWf hs
  | .wld _ _ => execWld_memWf hs
  | .mm _ _ => execMm_memWf hs
  | .mmz _ _ => execMmz_memWf hs
  | .mmc _ _ => execMmc_memWf hs
  | .topk _ _ => execTopk_memWf hs
  | .perm _ _ => execPerm_memWf hs
  | .rsum _ _ => execRsum_memWf hs
  | .trn _ _ => execTrn_memWf hs
  | .vk _ _ => execVk_memWf hs
  | .xp _ _ => execXp_memWf hs
  | .cpy _ _ => execCpy_memWf hs
  | .cpyT8 _ _ => execCpyT8_memWf hs
  | .cpyT16 _ _ => execCpyT16_memWf hs
  | .gath _ _ => execGath_memWf hs
  | .scat _ _ => execScat_memWf hs
  | .cvt _ _ => execCvt_memWf hs
  | .fill _ _ => execFill_memWf hs
  | .psum _ _ => execPsum_memWf hs
  | .hist _ _ => execHist_memWf hs
  | .ared _ _ => execAred_memWf hs
  | .bcst _ _ => execBcst_memWf hs
  | .wst _ _ => execWst_memWf hs
  | .illegalCoxWord _ _ => execIllegalCoxWord_memWf hs
  | .illegalVectorWord _ => execIllegalVectorWord_memWf hs
  | .illegalAccessWord _ => execIllegalAccessWord_memWf hs
  | .instructionFetchFault _ _ => execInstructionFetchFault_memWf hs
  | .linkUp _ _ _ => execLinkUp_memWf hs
  | .thermalRecovery _ => execThermalRecovery_memWf hs
  | .gangBarrierArrival _ _ _ _ _ => execGangBarrierArrival_memWf hs

theorem State.withTurn_memWf {s : State} (hs : MemWf s) (x : Turn) : MemWf { s with turn := x } := ⟨hs.h⟩

/-- Whatever a move executes is what it names or what its unit fetches. -/
theorem runMove_memWf {s : State} (hs : MemWf s) (m : Move) : OutWf (runMove m s) := by
  cases m with
  | event i => exact exec_memWf (s.withTurn_memWf hs .none) i
  | units i n => exact exec_memWf (s := { s with turn := .none, pace := some n }) ⟨hs.h⟩ i
  | outside n => exact State.runHeld_memWf (s.withTurn_memWf hs _)
  | register tag org off size => exact .next (State.readRegister_memWf hs)
  | strand c k =>
    rw [runMove]
    split
    · exact exec_memWf (fetchStrand_memWf (State.takeTurn_memWf hs)) _
    · exact .next hs
  | kernel c =>
    rw [runMove]
    split
    · exact exec_memWf (fetchKernel_memWf (s.withTurn_memWf hs _)) _
    · exact .next hs
  | context m x =>
    rw [runMove]
    split
    · have hfetch := fetchContext_memWf (m := m) (x := x) (State.takeCtx_memWf (m := m) (x := x) hs)
      split <;> rename_i hf <;> rw [hf] at hfetch
      · exact exec_memWf hfetch _
      · exact .next hfetch
    · exact .next hs

/-- Settles O58: what comes before a move, the move and what follows it each keep the form. -/
theorem stepKeepsMemoryForm : Obligations.StepKeepsMemoryForm := by
  unfold Obligations.StepKeepsMemoryForm
  intro s t hs hstep
  have hmove := State.nextMove_memWf (State.beforeMove_memWf ⟨hs⟩)
  rw [step] at hstep
  split at hstep
  rename_i m ends u hnext
  rw [hnext] at hmove
  have hrun := runMove_memWf hmove m
  generalize runMove m u = o at hstep hrun
  cases hrun with
  | next hv =>
    obtain rfl : _ = t := Host.Outcome.next.inj hstep
    exact (State.afterMove_memWf hv).h
  | fault => cases hstep
  | refused => cases hstep

end Sys2Proof.Machine

/-! SUPPORT. Encoding and decoding of instruction words (R157 to R164, R277, R301): the fields of a packed word, the codes of each operand, and that every well-formed instruction is read back. -/
namespace Sys2Proof.Machine

/-! ## What an instruction read back from its words is -/

/-- An instruction's words, if it has any, are words of 32 bits from which it is decoded. -/
structure ReadBack (i : Instr) : Prop where
  one : ∀ w, encode i = [w] → w < 2 ^ 32 ∧ ((∀ e, decodeCoxPair w e = some i) ∨ decodeVector w = some i ∨ decodeAccess w = some i)
  two : ∀ w e, encode i = [w, e] → w < 2 ^ 32 ∧ e < 2 ^ 32 ∧ decodeCoxPair w e = some i

theorem ReadBack.noWord {i : Instr} (h : encode i = []) : ReadBack i where
  one w hw := by simp [h] at hw
  two w e hw := by simp [h] at hw

theorem ReadBack.ofOne {i : Instr} {v : Nat} (h : encode i = [v]) (hv : v < 2 ^ 32)
    (hdec : (∀ e, decodeCoxPair v e = some i) ∨ decodeVector v = some i ∨ decodeAccess v = some i) : ReadBack i where
  one w hw := by
    obtain rfl : v = w := by simpa [h] using hw
    exact ⟨hv, hdec⟩
  two w e hw := by simp [h] at hw

theorem ReadBack.ofTwo {i : Instr} {v x : Nat} (h : encode i = [v, x]) (hv : v < 2 ^ 32) (hx : x < 2 ^ 32)
    (hdec : decodeCoxPair v x = some i) : ReadBack i where
  one w hw := by simp [h] at hw
  two w e hw := by
    obtain ⟨rfl, rfl⟩ : v = w ∧ x = e := by simpa [h] using hw
    exact ⟨hv, hx, hdec⟩

/-! ## Cox words (R157) -/

section
variable {g : Guard} {op d a b x : Nat}

theorem Guard.p_lt (h : g.wf = true) : g.p < 24 := by simpa [Guard.wf] using h

/-- The fields that a Cox word holds, each inside its range. -/
structure CoxFields (g : Guard) (op d a b x : Nat) : Prop where
  guard : g.wf = true
  op : op < 128
  d : d < 64
  a : a < 64
  b : b < 64
  ext : x < 2

theorem CoxFields.packCox_lt (h : CoxFields g op d a b x) : packCox g op d a b x < 2 ^ 32 := by
  obtain ⟨hg, hop, hd, ha, hb, hx⟩ := h
  have hp := Guard.p_lt hg
  unfold packCox
  split <;> omega

theorem CoxFields.decodeCox_packCox (h : CoxFields g op d a b x) :
    decodeCox (packCox g op d a b x) = (if x = 0 then decodeShort else decodeLong) g op d a b := by
  obtain ⟨hg, hop, hd, ha, hb, hx⟩ := h
  have hp := Guard.p_lt hg
  have hfields : fld (packCox g op d a b x) 31 27 = g.p ∧ (fld (packCox g op d a b x) 26 26 == 1) = g.neg
      ∧ fld (packCox g op d a b x) 25 19 = op ∧ fld (packCox g op d a b x) 18 13 = d ∧ fld (packCox g op d a b x) 12 7 = a
      ∧ fld (packCox g op d a b x) 6 1 = b ∧ fld (packCox g op d a b x) 0 0 = x := by
    unfold packCox fld
    cases g.neg <;> simp only [if_true, if_false, Bool.false_eq_true, beq_iff_eq, beq_eq_false_iff_ne, ne_eq] <;> omega
  obtain ⟨hp', hneg, hop', hd', ha', hb', hx'⟩ := hfields
  rw [decodeCox, hp', hneg, hop', hd', ha', hb', hx', if_pos hp]

theorem CoxFields.readBack_short {i : Instr} (h : CoxFields g op d a b 0) (henc : encode i = enc3 g op d a b)
    (hdec : decodeShort g op d a b = .one i) : ReadBack i := by
  refine .ofOne henc h.packCox_lt (.inl fun e => ?_)
  rw [decodeCoxPair, h.decodeCox_packCox, if_pos rfl, hdec]

theorem CoxFields.readBack_long {i : Instr} {e : Nat} {k : Nat → Option Instr} (h : CoxFields g op d a b 1)
    (henc : encode i = encE g op d a b e) (he : e < 2 ^ 32) (hdec : decodeLong g op d a b = .two k) (hk : k e = some i) : ReadBack i := by
  refine .ofTwo henc h.packCox_lt he ?_
  rw [decodeCoxPair, h.decodeCox_packCox, if_neg Nat.one_ne_zero, hdec]
  exact hk

end

/-! ## Codes of operands -/

@[simp] theorem decSize_encSize (z : Size) : decSize (encSize z) = z := by cases z <;> rfl
@[simp] theorem decSpace_encSpace (z : Space) : decSpace (encSpace z) = some z := by cases z <;> rfl
@[simp] theorem decScope_encScope (z : Scope) : decScope (encScope z) = some z := by cases z <;> rfl
@[simp] theorem decCmpCond_encCmpCond (z : CmpCond) : decCmpCond (encCmpCond z) = some z := by cases z <;> rfl
@[simp] theorem decFcmpCond_encFcmpCond (z : FcmpCond) : decFcmpCond (encFcmpCond z) = some z := by cases z <;> rfl
@[simp] theorem decComb_encComb (z : Comb) : decComb (encComb z) = some z := by cases z <;> rfl
@[simp] theorem decFcvtKind_encFcvtKind (z : FcvtKind) : decFcvtKind (encFcvtKind z) = z := by cases z <;> rfl
@[simp] theorem decFMode_encFMode (z : FMode) : decFMode (encFMode z) = z := by cases z <;> rfl
@[simp] theorem decAmoOp_encAmoOp (z : AmoOp) : decAmoOp (encAmoOp z) = some z := by cases z <;> rfl
@[simp] theorem decAmoSize_encAmoSize (z : AmoSize) : decAmoSize (encAmoSize z) = some z := by cases z <;> rfl
@[simp] theorem decVTy_encVTy (z : VTy) : decVTy (encVTy z) = z := by cases z <;> rfl
@[simp] theorem decVCond_encVCond (z : VCond) : decVCond (encVCond z) = z := by cases z <;> rfl
@[simp] theorem decACond_encACond (z : ACond) : decACond (encACond z) = some z := by cases z <;> rfl

theorem encSize_lt (z : Size) : encSize z < 4 := by cases z <;> decide
theorem encSpace_lt (z : Space) : encSpace z < 3 := by cases z <;> decide
theorem encScope_lt (z : Scope) : encScope z < 6 := by cases z <;> decide
theorem encCmpCond_lt (z : CmpCond) : encCmpCond z < 10 := by cases z <;> decide
theorem encFcmpCond_lt (z : FcmpCond) : encFcmpCond z < 7 := by cases z <;> decide
theorem encComb_lt (z : Comb) : encComb z < 3 := by cases z <;> decide
theorem encFcvtKind_lt (z : FcvtKind) : encFcvtKind z < 8 := by cases z <;> decide
theorem encFMode_lt (z : FMode) : encFMode z < 4 := by cases z <;> decide
theorem encAmoOp_lt (z : AmoOp) : encAmoOp z < 9 := by cases z <;> decide
theorem encAmoSize_lt (z : AmoSize) : encAmoSize z < 4 := by cases z <;> decide
theorem encVTy_lt (z : VTy) : encVTy z < 4 := by cases z <;> decide
theorem encITy_lt (z : ITy) : encITy z < 4 := by cases z <;> decide
theorem encFTy_lt (z : FTy) : encFTy z < 4 := by cases z <;> decide
theorem encVCond_lt (z : VCond) : encVCond z < 8 := by cases z <;> decide
theorem encACond_lt (z : ACond) : encACond z < 6 := by cases z <;> decide
theorem bitNat_lt (z : Bool) : bitNat z < 2 := by cases z <;> decide

@[simp] theorem bitNat_beq_one (z : Bool) : (bitNat z == 1) = z := by cases z <;> rfl

@[simp] theorem w32_toNat (e : Word32) : w32 e.toNat = e := by simp [w32]

@[simp] theorem i12_toNat (i : Imm12) : i12 (i.toNat / 64) (i.toNat % 64) = i := by
  rw [i12, Nat.div_add_mod', BitVec.ofNat_toNat, BitVec.setWidth_eq]

theorem imm12_high_lt (i : Imm12) : i.toNat / 64 < 64 := by have := i.isLt; omega

theorem low_lt (n : Nat) : n % 64 < 64 := Nat.mod_lt _ (by decide)

/-! ## Cox words whose operands are whole fields -/

section
variable {i : Instr} {g : Guard} {op d a b : Nat} {k : Nat → Option Instr}

theorem readBack_reg3 (h : (g.wf && decide (d < 64) && decide (a < 64) && decide (b < 64)) = true) (henc : encode i = enc3 g op d a b)
    (hdec : decodeShort g op d a b = .one i) (hop : op < 128) : ReadBack i := by
  obtain ⟨⟨⟨hg, hd⟩, ha⟩, hb⟩ : ((g.wf = true ∧ d < 64) ∧ a < 64) ∧ b < 64 := by simpa using h
  exact CoxFields.readBack_short ⟨hg, hop, hd, ha, hb, by decide⟩ henc hdec

theorem readBack_reg2 (h : (g.wf && decide (d < 64) && decide (a < 64)) = true) (henc : encode i = enc3 g op d a 0)
    (hdec : decodeShort g op d a 0 = .one i) (hop : op < 128) : ReadBack i :=
  readBack_reg3 (by simp [h]) henc hdec hop

theorem readBack_imm12 {v : Imm12} (h : (g.wf && decide (d < 64)) = true) (henc : encode i = enc3 g op d (v.toNat / 64) (v.toNat % 64))
    (hdec : decodeShort g op d (v.toNat / 64) (v.toNat % 64) = .one i) (hop : op < 128) : ReadBack i :=
  readBack_reg3 (by simp [h, imm12_high_lt, low_lt]) henc hdec hop

theorem readBack_ext2 {e : Word32} (h : (g.wf && decide (d < 64) && decide (a < 64)) = true) (henc : encode i = encE g op d a 0 e.toNat)
    (hdec : decodeLong g op d a 0 = .two k) (hk : k e.toNat = some i) (hop : op < 128) : ReadBack i := by
  obtain ⟨⟨hg, hd⟩, ha⟩ : (g.wf = true ∧ d < 64) ∧ a < 64 := by simpa using h
  exact CoxFields.readBack_long ⟨hg, hop, hd, ha, by decide, by decide⟩ henc e.isLt hdec hk

end


/-! ## Ranges (R211, R212) -/

theorem encRange_lt {r : RangeRef} (h : r.wf = true) : (encRange r).1 < 2 ∧ (encRange r).2 < 256 := by
  cases r with
  | handle n =>
    obtain ⟨-, hn⟩ : 1 ≤ n ∧ n < 256 := by simpa [RangeRef.wf] using h
    exact ⟨Nat.zero_lt_two, hn⟩
  | regs n sp =>
    have hn : n < 63 := by simpa [RangeRef.wf] using h
    have hsp := encSpace_lt sp
    exact ⟨Nat.one_lt_two, by simp only [encRange]; omega⟩

theorem decRange_encRange {r : RangeRef} (h : r.wf = true) : decRange (encRange r).1 (encRange r).2 = some r := by
  cases r with
  | handle n =>
    obtain ⟨hn, -⟩ : 1 ≤ n ∧ n < 256 := by simpa [RangeRef.wf] using h
    simp [decRange, encRange, Nat.one_le_iff_ne_zero.1 hn]
  | regs n sp =>
    have hn : n < 63 := by simpa [RangeRef.wf] using h
    have hlow : (encSpace sp * 64 + n) % 64 = n := by omega
    have hhigh : (encSpace sp * 64 + n) / 64 = encSpace sp := by omega
    simp [decRange, encRange, hlow, hhigh, Nat.ne_of_lt hn]

theorem encRanges_lt {rs : RangeList} (h : rs.all RangeRef.wf = true) :
    (encRanges rs).1 < 2 ^ rs.length ∧ (encRanges rs).2 < 256 ^ rs.length := by
  induction rs with
  | nil => exact ⟨by decide, by decide⟩
  | cons r rs ih =>
    obtain ⟨hr, hrs⟩ : r.wf = true ∧ rs.all RangeRef.wf = true := by simpa using h
    obtain ⟨hkind, hbyte⟩ := encRange_lt hr
    obtain ⟨hkinds, hbytes⟩ := ih hrs
    simp only [encRanges, List.length_cons, Nat.pow_succ]
    exact ⟨by omega, by omega⟩

theorem decRanges_encRanges {rs : RangeList} (h : rs.all RangeRef.wf = true) :
    decRanges rs.length (encRanges rs).1 (encRanges rs).2 = some rs := by
  induction rs with
  | nil => rfl
  | cons r rs ih =>
    obtain ⟨hr, hrs⟩ : r.wf = true ∧ rs.all RangeRef.wf = true := by simpa using h
    obtain ⟨hkind, hbyte⟩ := encRange_lt hr
    have hkind1 : ((encRange r).1 + 2 * (encRanges rs).1) % 2 = (encRange r).1 := by omega
    have hkinds : ((encRange r).1 + 2 * (encRanges rs).1) / 2 = (encRanges rs).1 := by omega
    have hbyte1 : ((encRange r).2 + 256 * (encRanges rs).2) % 256 = (encRange r).2 := by omega
    have hbytes : ((encRange r).2 + 256 * (encRanges rs).2) / 256 = (encRanges rs).2 := by omega
    simp only [encRanges, List.length_cons, decRanges, hkind1, hkinds, hbyte1, hbytes, decRange_encRange hr, ih hrs]

/-! ## Cox words with operands in parts of fields -/

section
variable {g : Guard} {d a b : Nat}

theorem fld_encLdB (sz : Size) (sp : Space) (cz sgn : Bool) :
    encLdB sz sp cz sgn < 64 ∧ fld (encLdB sz sp cz sgn) 1 0 = encSize sz ∧ fld (encLdB sz sp cz sgn) 3 2 = encSpace sp
      ∧ fld (encLdB sz sp cz sgn) 4 4 = bitNat cz ∧ fld (encLdB sz sp cz sgn) 5 5 = bitNat sgn := by
  have := encSize_lt sz
  have := encSpace_lt sp
  have := bitNat_lt cz
  have := bitNat_lt sgn
  unfold fld encLdB
  omega

theorem decLd_encLdB {sz : Size} {sp : Space} {cz sgn : Bool} {k : Size → Space → Bool → Bool → CoxDec} (h : (sz != .d || !sgn) = true) :
    decLd (encLdB sz sp cz sgn) k = k sz sp cz sgn := by
  obtain ⟨-, hsz, hsp, hcz, hsgn⟩ := fld_encLdB sz sp cz sgn
  have hlegal : ¬(bitNat sgn = 1 ∧ encSize sz = 3) := by cases sz <;> cases sgn <;> simp_all [bitNat, encSize]
  simp [decLd, hsz, hsp, hcz, hsgn, hlegal]

theorem fld_encAtomic {opc pd : Nat} (sp : Space) (sz : AmoSize) (sc : Scope) (hopc : opc < 16) (hpd : pd < 24) :
    encAtomic opc sp sz sc pd < 2 ^ 32 ∧ fld (encAtomic opc sp sz sc pd) 3 0 = opc ∧ fld (encAtomic opc sp sz sc pd) 5 4 = encSpace sp
      ∧ fld (encAtomic opc sp sz sc pd) 7 6 = encAmoSize sz ∧ fld (encAtomic opc sp sz sc pd) 10 8 = encScope sc
      ∧ fld (encAtomic opc sp sz sc pd) 15 11 = pd ∧ fld (encAtomic opc sp sz sc pd) 31 16 = 0 := by
  have hsp := encSpace_lt sp
  have hsz := encAmoSize_lt sz
  have hsc := encScope_lt sc
  unfold fld encAtomic
  omega

theorem decAtomic_amo (op : AmoOp) (sp : Space) (sz : AmoSize) (sc : Scope) :
    decAtomic false g d a b (encAtomic (encAmoOp op) sp sz sc 0) = some (.amo g d a b op sp sz sc) := by
  have hop := encAmoOp_lt op
  obtain ⟨-, hop', hsp', hsz', hsc', hpd', hrest⟩ := fld_encAtomic sp sz sc (opc := encAmoOp op) (pd := 0) (by omega) (by decide)
  simp [decAtomic, hop', hsp', hsz', hsc', hpd', hrest, someWhen]

theorem decAtomic_cas {pd : Nat} (hpd : pd < 24) (sp : Space) (sz : AmoSize) (sc : Scope) :
    decAtomic true g d a b (encAtomic 0 sp sz sc pd) = some (.cas g d a b sp sz sc pd) := by
  obtain ⟨-, hop', hsp', hsz', hsc', hpd', hrest⟩ := fld_encAtomic sp sz sc (opc := 0) (by decide) hpd
  simp [decAtomic, hop', hsp', hsz', hsc', hpd', hrest, someWhen, hpd]

end

/-! ## Cox words whose extension word holds fields -/

section
variable {i : Instr} {g : Guard} {d a b e : Nat} {k : Nat → Option Instr}

/-- An instruction whose checks on the first word hold, and whose extension word says the rest. -/
theorem readBack_extFields {op : Nat} (hg : g.wf = true) (hd : d < 64) (ha : a < 64) (hb : b < 64) (henc : encode i = encE g op d a b e)
    (hop : op < 128) (hdec : decodeLong g op d a b = .two k) (hext : e < 2 ^ 32 ∧ k e = some i) : ReadBack i :=
  CoxFields.readBack_long ⟨hg, hop, hd, ha, hb, by decide⟩ henc hext.1 hdec hext.2

theorem readBack_bfx {pos wm1 : Nat} {sgn : Bool} (h : (g.wf && decide (d < 64) && decide (a < 64) && decide (pos < 64) && decide (wm1 < 64)) = true) :
    ReadBack (.bfx g d a pos wm1 sgn) := by
  obtain ⟨⟨⟨⟨hg, hd⟩, ha⟩, hpos⟩, hw⟩ : (((g.wf = true ∧ d < 64) ∧ a < 64) ∧ pos < 64) ∧ wm1 < 64 := by simpa using h
  have hsgn := bitNat_lt sgn
  have hfields : fld (pos + wm1 * 64 + bitNat sgn * 4096) 31 13 = 0 ∧ fld (pos + wm1 * 64 + bitNat sgn * 4096) 5 0 = pos
      ∧ fld (pos + wm1 * 64 + bitNat sgn * 4096) 11 6 = wm1 ∧ fld (pos + wm1 * 64 + bitNat sgn * 4096) 12 12 = bitNat sgn := by
    unfold fld
    omega
  obtain ⟨hrest, hpos', hw', hsgn'⟩ := hfields
  exact readBack_extFields hg hd ha (by decide) rfl (by decide) rfl ⟨by omega, by simp [someWhen, hrest, hpos', hw', hsgn']⟩

theorem readBack_bfi {pos wm1 : Nat} (h : (g.wf && decide (d < 64) && decide (a < 64) && decide (pos < 64) && decide (wm1 < 64)) = true) :
    ReadBack (.bfi g d a pos wm1) := by
  obtain ⟨⟨⟨⟨hg, hd⟩, ha⟩, hpos⟩, hw⟩ : (((g.wf = true ∧ d < 64) ∧ a < 64) ∧ pos < 64) ∧ wm1 < 64 := by simpa using h
  have hfields : fld (pos + wm1 * 64) 31 12 = 0 ∧ fld (pos + wm1 * 64) 5 0 = pos ∧ fld (pos + wm1 * 64) 11 6 = wm1 := by
    unfold fld
    omega
  obtain ⟨hrest, hpos', hw'⟩ := hfields
  exact readBack_extFields hg hd ha (by decide) rfl (by decide) rfl ⟨by omega, by simp [someWhen, hrest, hpos', hw']⟩

theorem readBack_sel {p : Nat} {neg : Bool} (h : (g.wf && decide (d < 64) && decide (a < 64) && decide (b < 64) && decide (p < 24)) = true) :
    ReadBack (.sel g d a b p neg) := by
  obtain ⟨⟨⟨⟨hg, hd⟩, ha⟩, hb⟩, hp⟩ : (((g.wf = true ∧ d < 64) ∧ a < 64) ∧ b < 64) ∧ p < 24 := by simpa using h
  have hneg := bitNat_lt neg
  have hfields : fld (p + bitNat neg * 32) 31 6 = 0 ∧ fld (p + bitNat neg * 32) 4 0 = p ∧ fld (p + bitNat neg * 32) 5 5 = bitNat neg := by
    unfold fld
    omega
  obtain ⟨hrest, hp', hneg'⟩ := hfields
  exact readBack_extFields hg hd ha hb rfl (by decide) rfl ⟨by omega, by simp [someWhen, hrest, hp', hneg', hp]⟩

theorem readBack_hoff {h : Nat} (hwf : (g.wf && decide (d < 64) && decide (a < 64) && decide (h < 256)) = true) : ReadBack (.hoff g d a h) := by
  obtain ⟨⟨⟨hg, hd⟩, ha⟩, hh⟩ : ((g.wf = true ∧ d < 64) ∧ a < 64) ∧ h < 256 := by simpa using hwf
  have hfields : fld h 31 8 = 0 ∧ fld h 7 0 = h := by
    unfold fld
    omega
  obtain ⟨hrest, hh'⟩ := hfields
  exact readBack_extFields hg hd ha (by decide) rfl (by decide) rfl ⟨by omega, by simp [someWhen, hrest, hh']⟩

theorem readBack_cmp {cc : CmpCond} {second : CmpSecond} {comb : Comb} (h : (g.wf && decide (a < 64) && decide (d < 24) && second.wf) = true) :
    ReadBack (.cmp g d a cc second comb) := by
  obtain ⟨⟨⟨hg, ha⟩, hd⟩, hsecond⟩ : ((g.wf = true ∧ a < 64) ∧ d < 24) ∧ second.wf = true := by simpa using h
  have hcc := encCmpCond_lt cc
  have hcomb := encComb_lt comb
  have hdec : ∀ n, decodeLong g 32 d a n = .two fun e => decCmp g d a n e := fun n => by simp [decodeLong, CoxDec.extWhen, hd]
  cases second with
  | reg n =>
    have hn : n < 64 := by simpa [CmpSecond.wf] using hsecond
    have hfields : fld (encCmpCond cc + encComb comb * 32) 3 0 = encCmpCond cc ∧ fld (encCmpCond cc + encComb comb * 32) 6 5 = encComb comb
        ∧ fld (encCmpCond cc + encComb comb * 32) 15 7 = 0 ∧ fld (encCmpCond cc + encComb comb * 32) 4 4 = 0
        ∧ fld (encCmpCond cc + encComb comb * 32) 31 16 = 0 := by
      unfold fld
      omega
    obtain ⟨hcc', hcomb', hrest, hform, himm⟩ := hfields
    exact readBack_extFields hg (by omega) ha hn rfl (by decide) (hdec n)
      ⟨by omega, by simp [decCmp, someWhen, hcc', hcomb', hrest, hform, himm]⟩
  | imm v =>
    have hv := v.isLt
    have hfields : fld (encCmpCond cc + 16 + encComb comb * 32 + v.toNat * 65536) 3 0 = encCmpCond cc
        ∧ fld (encCmpCond cc + 16 + encComb comb * 32 + v.toNat * 65536) 6 5 = encComb comb
        ∧ fld (encCmpCond cc + 16 + encComb comb * 32 + v.toNat * 65536) 15 7 = 0
        ∧ fld (encCmpCond cc + 16 + encComb comb * 32 + v.toNat * 65536) 4 4 = 1
        ∧ fld (encCmpCond cc + 16 + encComb comb * 32 + v.toNat * 65536) 31 16 = v.toNat := by
      unfold fld
      omega
    obtain ⟨hcc', hcomb', hrest, hform, himm⟩ := hfields
    exact readBack_extFields hg (by omega) ha (by decide) rfl (by decide) (hdec 0)
      ⟨by omega, by simp [decCmp, someWhen, hcc', hcomb', hrest, hform, himm]⟩

theorem readBack_fcmp {cc : FcmpCond} {comb : Comb} (h : (g.wf && decide (a < 64) && decide (b < 64) && decide (d < 24)) = true) :
    ReadBack (.fcmp g d a b cc comb) := by
  obtain ⟨⟨⟨hg, ha⟩, hb⟩, hd⟩ : ((g.wf = true ∧ a < 64) ∧ b < 64) ∧ d < 24 := by simpa using h
  have hcc := encFcmpCond_lt cc
  have hcomb := encComb_lt comb
  have hfields : fld (encFcmpCond cc + encComb comb * 32) 3 0 = encFcmpCond cc ∧ fld (encFcmpCond cc + encComb comb * 32) 6 5 = encComb comb
      ∧ fld (encFcmpCond cc + encComb comb * 32) 4 4 = 0 ∧ fld (encFcmpCond cc + encComb comb * 32) 31 7 = 0 := by
    unfold fld
    omega
  obtain ⟨hcc', hcomb', hrest, hrest'⟩ := hfields
  exact readBack_extFields hg (by omega) ha hb rfl (by decide) (if_pos (decide_eq_true hd))
    ⟨by omega, by simp [someWhen, hcc', hcomb', hrest, hrest']⟩

theorem readBack_dspt {nbm1 : Nat} {tab : DsptTable} (h : (g.wf && decide (d < 64) && decide (a < 64) && decide (nbm1 < 16)) = true) :
    ReadBack (.dspt g d a nbm1 tab) := by
  obtain ⟨⟨⟨hg, hd⟩, ha⟩, hn⟩ : ((g.wf = true ∧ d < 64) ∧ a < 64) ∧ nbm1 < 16 := by simpa using h
  cases tab with
  | rel e =>
    exact readBack_extFields hg hd ha (by omega) rfl (by decide) (if_pos (decide_eq_true (by omega))) ⟨e.isLt, by simp [hn]⟩
  | loc o =>
    have ho := o.isLt
    have hfields : fld o.toNat 31 21 = 0 ∧ fld o.toNat 20 0 = o.toNat := by
      unfold fld
      omega
    obtain ⟨hrest, ho'⟩ := hfields
    exact readBack_extFields hg hd ha (by omega) rfl (by decide) (if_pos (decide_eq_true (by omega)))
      ⟨by omega, by simp [someWhen, hrest, ho']⟩

theorem readBack_fenceR {sc : Scope} {rs : RangeList} (h : (g.wf && (decide (1 ≤ rs.length) && decide (rs.length ≤ 4) && rs.all RangeRef.wf)) = true) :
    ReadBack (.fenceR g sc rs) := by
  obtain ⟨hg, ⟨hone, hfour⟩, hrs⟩ : g.wf = true ∧ (1 ≤ rs.length ∧ rs.length ≤ 4) ∧ rs.all RangeRef.wf = true := by simpa using h
  have hsc := encScope_lt sc
  obtain ⟨hkinds, hbytes⟩ := encRanges_lt hrs
  have hkinds4 : 2 ^ rs.length ≤ 2 ^ 4 := Nat.pow_le_pow_right (by decide) hfour
  have hbytes4 : 256 ^ rs.length ≤ 256 ^ 4 := Nat.pow_le_pow_right (by decide) hfour
  have hfields : fld (encScope sc) 2 0 = encScope sc ∧ fld (encScope sc) 5 3 = 0
      ∧ fld (rs.length - 1 + 4 * (encRanges rs).1) 1 0 + 1 = rs.length ∧ fld (rs.length - 1 + 4 * (encRanges rs).1) 5 2 = (encRanges rs).1 := by
    unfold fld
    omega
  obtain ⟨hsc', hrest, hlen, hkinds'⟩ := hfields
  have hdec : decodeLong g 73 (encScope sc) 0 (rs.length - 1 + 4 * (encRanges rs).1)
      = .two fun e => (decRanges rs.length (encRanges rs).1 e).map (Instr.fenceR g sc) := by
    simp [decodeLong, CoxDec.extWhen, hsc', hrest, hlen, hkinds', hkinds]
  exact readBack_extFields hg (by omega) (by decide) (by omega) rfl (by decide) hdec ⟨by omega, by simp [decRanges_encRanges hrs]⟩

theorem readBack_track {slot : Nat} {r : RangeRef} (h : (g.wf && decide (slot < 32) && r.wf) = true) : ReadBack (.track g slot r) := by
  obtain ⟨⟨hg, hslot⟩, hr⟩ : (g.wf = true ∧ slot < 32) ∧ r.wf = true := by simpa using h
  obtain ⟨hkind, hbyte⟩ := encRange_lt hr
  have hfields : fld (slot + 32 * (encRange r).1) 5 5 = (encRange r).1 ∧ fld (slot + 32 * (encRange r).1) 4 0 = slot
      ∧ fld (encRange r).2 31 8 = 0 ∧ fld (encRange r).2 7 0 = (encRange r).2 := by
    unfold fld
    omega
  obtain ⟨hkind', hslot', hrest, hbyte'⟩ := hfields
  exact readBack_extFields hg (by omega) (by decide) (by decide) rfl (by decide) rfl
    ⟨by omega, by simp [hkind', hslot', hrest, hbyte', decRange_encRange hr]⟩

theorem readBack_pub {r : RangeRef} (h : (g.wf && r.wf) = true) : ReadBack (.pub g r) := by
  obtain ⟨hg, hr⟩ : g.wf = true ∧ r.wf = true := by simpa using h
  obtain ⟨hkind, hbyte⟩ := encRange_lt hr
  have hfields : fld (32 * (encRange r).1) 5 5 = (encRange r).1 ∧ fld (32 * (encRange r).1) 4 0 = 0
      ∧ fld (encRange r).2 31 8 = 0 ∧ fld (encRange r).2 7 0 = (encRange r).2 := by
    unfold fld
    omega
  obtain ⟨hkind', hzero, hrest, hbyte'⟩ := hfields
  exact readBack_extFields hg (by omega) (by decide) (by decide) rfl (by decide) (if_pos (by simp [hzero]))
    ⟨by omega, by simp [hkind', hrest, hbyte', decRange_encRange hr]⟩

theorem readBack_cinit {cb wm1 cnt : Nat} (h : (g.wf && decide (cb < 64) && decide (wm1 < 16) && decide (1 ≤ cnt) && decide (cnt < 16777216)) = true) :
    ReadBack (.cinit g cb wm1 cnt) := by
  obtain ⟨⟨⟨⟨hg, hcb⟩, hw⟩, hone⟩, hcnt⟩ : (((g.wf = true ∧ cb < 64) ∧ wm1 < 16) ∧ 1 ≤ cnt) ∧ cnt < 16777216 := by simpa using h
  have hfields : fld (wm1 + cnt * 256) 7 4 = 0 ∧ fld (wm1 + cnt * 256) 31 8 = cnt ∧ fld (wm1 + cnt * 256) 3 0 = wm1 := by
    unfold fld
    omega
  obtain ⟨hrest, hcnt', hw'⟩ := hfields
  exact readBack_extFields hg hcb (by decide) (by decide) rfl (by decide) rfl ⟨by omega, by simp [someWhen, hrest, hcnt', hw', hone]⟩

theorem readBack_cexpLong {cb slot cnt : Nat} (h : (g.wf && decide (cb < 64) && decide (slot < 16) && decide (1 ≤ cnt) && decide (cnt < 16777216)) = true) :
    ReadBack (.cexpLong g cb slot cnt) := by
  obtain ⟨⟨⟨⟨hg, hcb⟩, hs⟩, hone⟩, hcnt⟩ : (((g.wf = true ∧ cb < 64) ∧ slot < 16) ∧ 1 ≤ cnt) ∧ cnt < 16777216 := by simpa using h
  have hfields : fld cnt 31 24 = 0 ∧ fld cnt 23 0 = cnt := by
    unfold fld
    omega
  obtain ⟨hrest, hcnt'⟩ := hfields
  exact readBack_extFields hg hcb (by decide) (by omega) rfl (by decide) (if_pos (by simp [hs]))
    ⟨by omega, by simp [someWhen, hrest, hcnt', hone]⟩

theorem readBack_postr {p core : Nat} {creg rel : Bool} (h : (g.wf && decide (a < 64) && decide (b < 64) && decide (p < 24) && decide (core < 1024)) = true) :
    ReadBack (.postr g p a b core creg rel) := by
  obtain ⟨⟨⟨⟨hg, ha⟩, hb⟩, hp⟩, hcore⟩ : (((g.wf = true ∧ a < 64) ∧ b < 64) ∧ p < 24) ∧ core < 1024 := by simpa using h
  have hcreg := bitNat_lt creg
  have hrel := bitNat_lt rel
  have hfields : fld (core + bitNat creg * 1024 + bitNat rel * 2048) 31 12 = 0 ∧ fld (core + bitNat creg * 1024 + bitNat rel * 2048) 9 0 = core
      ∧ fld (core + bitNat creg * 1024 + bitNat rel * 2048) 10 10 = bitNat creg
      ∧ fld (core + bitNat creg * 1024 + bitNat rel * 2048) 11 11 = bitNat rel := by
    unfold fld
    omega
  obtain ⟨hrest, hcore', hcreg', hrel'⟩ := hfields
  exact readBack_extFields hg (by omega) ha hb rfl (by decide) (if_pos (decide_eq_true hp))
    ⟨by omega, by simp [someWhen, hrest, hcore', hcreg', hrel']⟩

theorem readBack_postt {p core : Nat} {creg : Bool} (h : (g.wf && decide (a < 64) && decide (b < 64) && decide (p < 24) && decide (core < 1024) && (creg || b == 0)) = true) :
    ReadBack (.postt g p a b core creg) := by
  obtain ⟨⟨⟨⟨⟨hg, ha⟩, hb⟩, hp⟩, hcore⟩, hform⟩ : ((((g.wf = true ∧ a < 64) ∧ b < 64) ∧ p < 24) ∧ core < 1024) ∧ (creg = true ∨ b = 0) := by
    simpa using h
  have hcreg := bitNat_lt creg
  have hfields : fld (core + bitNat creg * 1024) 31 11 = 0 ∧ fld (core + bitNat creg * 1024) 9 0 = core
      ∧ fld (core + bitNat creg * 1024) 10 10 = bitNat creg := by
    unfold fld
    omega
  obtain ⟨hrest, hcore', hcreg'⟩ := hfields
  exact readBack_extFields hg (by omega) ha hb rfl (by decide) (if_pos (decide_eq_true hp))
    ⟨by omega, by simp [someWhen, hrest, hcore', hcreg', hform]⟩

theorem readBack_dcsetLong {n v : Nat} (h : (g.wf && decide (n < 512) && decide (v < 1048576)) = true) : ReadBack (.dcsetLong g n v) := by
  obtain ⟨⟨hg, hn⟩, hv⟩ : (g.wf = true ∧ n < 512) ∧ v < 1048576 := by simpa using h
  have hfields : fld v 31 20 = 0 ∧ fld v 19 0 = v := by
    unfold fld
    omega
  obtain ⟨hrest, hv'⟩ := hfields
  have hhigh : n / 64 < 8 := by omega
  exact readBack_extFields hg (low_lt n) (by decide) (by omega) rfl (by decide) (if_pos (by simp [hhigh]))
    ⟨by omega, by simp [someWhen, hrest, hv', Nat.div_add_mod']⟩

theorem readBack_dcaddLong {n : Nat} {e : Word32} (h : (g.wf && decide (n < 512)) = true) : ReadBack (.dcaddLong g n e) := by
  obtain ⟨hg, hn⟩ : g.wf = true ∧ n < 512 := by simpa using h
  have hhigh : n / 64 < 8 := by omega
  exact readBack_extFields hg (low_lt n) (by decide) (by omega) rfl (by decide) (if_pos (by simp [hhigh]))
    ⟨e.isLt, by simp [Nat.div_add_mod']⟩

theorem readBack_staLong {p off : Nat} (h : (g.wf && decide (a < 64) && decide (b < 64) && decide (p < 24) && decide (off < 65536)) = true) :
    ReadBack (.staLong g p a b off) := by
  obtain ⟨⟨⟨⟨hg, ha⟩, hb⟩, hp⟩, hoff⟩ : (((g.wf = true ∧ a < 64) ∧ b < 64) ∧ p < 24) ∧ off < 65536 := by simpa using h
  have hfields : fld off 31 16 = 0 ∧ fld off 15 0 = off := by
    unfold fld
    omega
  obtain ⟨hrest, hoff'⟩ := hfields
  exact readBack_extFields hg (by omega) ha hb rfl (by decide) (if_pos (decide_eq_true hp)) ⟨by omega, by simp [someWhen, hrest, hoff']⟩

theorem readBack_sbind {prog cb entry : Nat} (h : (g.wf && decide (d < 64) && decide (a < 64) && decide (b < 64) && decide (prog < 128) && decide (cb < 64) && decide (entry < 4096)) = true) :
    ReadBack (.sbind g d a b prog cb entry) := by
  obtain ⟨⟨⟨⟨⟨⟨hg, hd⟩, ha⟩, hb⟩, hprog⟩, hcb⟩, hentry⟩ : (((((g.wf = true ∧ d < 64) ∧ a < 64) ∧ b < 64) ∧ prog < 128) ∧ cb < 64) ∧ entry < 4096 := by
    simpa using h
  have hfields : fld (prog + cb * 256 + entry * 65536) 7 7 = 0 ∧ fld (prog + cb * 256 + entry * 65536) 15 14 = 0
      ∧ fld (prog + cb * 256 + entry * 65536) 31 28 = 0 ∧ fld (prog + cb * 256 + entry * 65536) 6 0 = prog
      ∧ fld (prog + cb * 256 + entry * 65536) 13 8 = cb ∧ fld (prog + cb * 256 + entry * 65536) 27 16 = entry := by
    unfold fld
    omega
  obtain ⟨hrest, hrest', hrest'', hprog', hcb', hentry'⟩ := hfields
  exact readBack_extFields hg hd ha hb rfl (by decide) rfl
    ⟨by omega, by simp [someWhen, hrest, hrest', hrest'', hprog', hcb', hentry']⟩

theorem readBack_ldLong {sz : Size} {sp : Space} {cz sgn : Bool} {e : Word32} (h : (g.wf && decide (d < 64) && decide (a < 64) && (sz != .d || !sgn)) = true) :
    ReadBack (.ldLong g d a sz sp cz sgn e) := by
  obtain ⟨⟨⟨hg, hd⟩, ha⟩, hlegal⟩ : ((g.wf = true ∧ d < 64) ∧ a < 64) ∧ (sz != .d || !sgn) = true := by
    simpa only [Bool.and_eq_true, decide_eq_true_eq] using h
  have hdec : decodeLong g 64 d a (encLdB sz sp cz sgn) = .two fun x => some (.ldLong g d a sz sp cz sgn (w32 x)) := by
    rw [decodeLong, decLd_encLdB hlegal]
  exact readBack_extFields hg hd ha (fld_encLdB sz sp cz sgn).1 rfl (by decide) hdec ⟨e.isLt, by simp⟩

theorem readBack_stLong {sz : Size} {sp : Space} {cz : Bool} {e : Word32} (h : (g.wf && decide (d < 64) && decide (a < 64)) = true) :
    ReadBack (.stLong g d a sz sp cz e) := by
  obtain ⟨⟨hg, hd⟩, ha⟩ : (g.wf = true ∧ d < 64) ∧ a < 64 := by simpa using h
  have hdec : decodeLong g 65 d a (encLdB sz sp cz false) = .two fun x => some (.stLong g d a sz sp cz (w32 x)) := by
    rw [decodeLong, decLd_encLdB (by simp)]
    rfl
  exact readBack_extFields hg hd ha (fld_encLdB sz sp cz false).1 rfl (by decide) hdec ⟨e.isLt, by simp⟩

theorem readBack_amo {op : AmoOp} {sp : Space} {sz : AmoSize} {sc : Scope} (h : (g.wf && decide (d < 64) && decide (a < 64) && decide (b < 64)) = true) :
    ReadBack (.amo g d a b op sp sz sc) := by
  obtain ⟨⟨⟨hg, hd⟩, ha⟩, hb⟩ : ((g.wf = true ∧ d < 64) ∧ a < 64) ∧ b < 64 := by simpa using h
  have hop := encAmoOp_lt op
  exact readBack_extFields hg hd ha hb rfl (by decide) rfl ⟨(fld_encAtomic sp sz sc (by omega) (by decide)).1, decAtomic_amo op sp sz sc⟩

theorem readBack_cas {sp : Space} {sz : AmoSize} {sc : Scope} {pd : Nat} (h : (g.wf && decide (d < 64) && decide (a < 64) && decide (b < 64) && decide (pd < 24)) = true) :
    ReadBack (.cas g d a b sp sz sc pd) := by
  obtain ⟨⟨⟨⟨hg, hd⟩, ha⟩, hb⟩, hpd⟩ : (((g.wf = true ∧ d < 64) ∧ a < 64) ∧ b < 64) ∧ pd < 24 := by simpa using h
  exact readBack_extFields hg hd ha hb rfl (by decide) rfl ⟨(fld_encAtomic sp sz sc (by decide) hpd).1, decAtomic_cas hpd sp sz sc⟩

end

/-! ## Short Cox words with checks or with parts of fields -/

section
variable {g : Guard} {d a b : Nat}

theorem readBack_fcvt {kind : FcvtKind} {mode : FMode} (h : (Instr.fcvt g d a kind mode).wf = true) : ReadBack (.fcvt g d a kind mode) := by
  have hkind := encFcvtKind_lt kind
  have hmode := encFMode_lt mode
  have hfields : fld (encFMode mode + encFcvtKind kind * 4) 5 5 = 0 ∧ fld (encFMode mode + encFcvtKind kind * 4) 4 2 = encFcvtKind kind
      ∧ fld (encFMode mode + encFcvtKind kind * 4) 1 0 = encFMode mode := by
    unfold fld
    omega
  obtain ⟨hrest, hkind', hmode'⟩ := hfields
  have hlow : encFMode mode + encFcvtKind kind * 4 < 64 := by omega
  have hregs : (g.wf && decide (d < 64) && decide (a < 64)) = true := h
  exact readBack_reg3 (by simp [hregs, hlow]) rfl (by simp [decodeShort, CoxDec.when, hrest, hkind', hmode']) (by decide)

theorem readBack_br {off : Imm18} (h : (Instr.br g off).wf = true) : ReadBack (.br g off) := by
  have hoff := off.isLt
  have hparts : off.toNat / 4096 * 64 + off.toNat / 64 % 64 = off.toNat / 64 := by omega
  have hbits : ((off.toNat / 4096) * 64 + off.toNat / 64 % 64) * 64 + off.toNat % 64 = off.toNat := by omega
  have hwf : g.wf = true := h
  have hhigh : off.toNat / 4096 < 64 := by omega
  exact readBack_reg3 (by simp [hwf, hhigh, low_lt]) rfl (by simp [decodeShort, hbits]) (by decide)

theorem readBack_ld {sz : Size} {sp : Space} {cz sgn : Bool} (h : (g.wf && decide (d < 64) && decide (a < 64) && (sz != .d || !sgn)) = true) :
    ReadBack (.ld g d a sz sp cz sgn) := by
  obtain ⟨hregs, hlegal⟩ : (g.wf && decide (d < 64) && decide (a < 64)) = true ∧ (sz != .d || !sgn) = true := by
    simpa only [Bool.and_eq_true] using h
  exact readBack_reg3 (by simp [hregs, (fld_encLdB sz sp cz sgn).1]) rfl (by rw [decodeShort, decLd_encLdB hlegal]) (by decide)

theorem readBack_st {sz : Size} {sp : Space} {cz : Bool} (h : (Instr.st g d a sz sp cz).wf = true) : ReadBack (.st g d a sz sp cz) := by
  have hregs : (g.wf && decide (d < 64) && decide (a < 64)) = true := h
  exact readBack_reg3 (by simp [hregs, (fld_encLdB sz sp cz false).1]) rfl (by rw [decodeShort, decLd_encLdB (by simp)]; rfl) (by decide)

theorem readBack_fence {sc : Scope} (h : (Instr.fence g sc).wf = true) : ReadBack (.fence g sc) := by
  have hsc := encScope_lt sc
  have hfields : fld (encScope sc) 5 3 = 0 ∧ fld (encScope sc) 2 0 = encScope sc := by
    unfold fld
    omega
  obtain ⟨hrest, hsc'⟩ := hfields
  have hlow : encScope sc < 64 := by omega
  have hwf : g.wf = true := h
  exact readBack_reg3 (by simp [hwf, hlow]) rfl (by simp [decodeShort, CoxDec.when, hrest, hsc']) (by decide)

theorem readBack_tid {ts : TidSel} (h : (g.wf && decide (d < 64) && ts.wf) = true) : ReadBack (.tid g d ts) := by
  obtain ⟨⟨hg, hd⟩, hts⟩ : (g.wf = true ∧ d < 64) ∧ ts.wf = true := by simpa using h
  have hsel : encTidSel ts < 64 ∧ decTidSel (encTidSel ts) = some ts := by
    cases ts with
    | x l =>
      have hl : l < 8 := by simpa [TidSel.wf] using hts
      exact ⟨by simp only [encTidSel]; omega, by simp [encTidSel, decTidSel, hl]⟩
    | f l =>
      have hl : l < 8 := by simpa [TidSel.wf] using hts
      have hl16 : 8 + l < 16 := by omega
      exact ⟨by simp only [encTidSel]; omega, by simp [encTidSel, decTidSel, hl16]⟩
    | n => decide
    | t => decide
  exact readBack_reg3 (by simp [hg, hd, hsel.1]) rfl (by simp [decodeShort, CoxDec.when, hsel.2]) (by decide)

end

/-! ## Vector words (R161, R277) -/

section
variable {i : Instr} {op d a b m t : Nat} {w : Bool}

/-- The fields of a vector word. -/
structure VecFields (x op : Nat) (w : Bool) (d a b m t : Nat) : Prop where
  op : fld x 31 26 = op
  w : (fld x 25 25 == 1) = w
  d : fld x 24 19 = d
  a : fld x 18 12 = a
  b : fld x 11 5 = b
  m : fld x 4 2 = m
  t : fld x 1 0 = t

theorem vecFields_packV (hop : op < 64) (hd : d < 64) (ha : a < 128) (hb : b < 128) (hm : m < 8) (ht : t < 4) :
    packV op w d a b m t < 2 ^ 32 ∧ VecFields (packV op w d a b m t) op w d a b m t := by
  have hw := bitNat_lt w
  have hfields : packV op w d a b m t < 2 ^ 32 ∧ fld (packV op w d a b m t) 31 26 = op ∧ fld (packV op w d a b m t) 25 25 = bitNat w
      ∧ fld (packV op w d a b m t) 24 19 = d ∧ fld (packV op w d a b m t) 18 12 = a ∧ fld (packV op w d a b m t) 11 5 = b
      ∧ fld (packV op w d a b m t) 4 2 = m ∧ fld (packV op w d a b m t) 1 0 = t := by
    unfold fld packV
    omega
  obtain ⟨hlt, hop', hw', hd', ha', hb', hm', ht'⟩ := hfields
  exact ⟨hlt, hop', by rw [hw', bitNat_beq_one], hd', ha', hb', hm', ht'⟩

/-- A vector word is read back when its decoding gives it from its fields. -/
theorem readBack_vec (hd : d < 64) (ha : a < 128) (hb : b < 128) (hm : m < 8) (ht : t < 4) (henc : encode i = [packV op w d a b m t])
    (hop : op < 64) (hdec : ∀ x, VecFields x op w d a b m t → decodeVector x = some i) : ReadBack i := by
  obtain ⟨hlt, hfields⟩ := vecFields_packV (w := w) hop hd ha hb hm ht
  exact .ofOne henc hlt (.inr (.inl (hdec _ hfields)))

theorem readBack_vec2 (h : (decide (d < 64) && decide (a < 84) && decide (b < 84) && decide (m < 8)) = true) (ht : t < 4)
    (henc : encode i = [packV op w d a b m t]) (hop : op < 64)
    (hdec : ∀ x, VecFields x op w d a b m t → decodeVector x = decV2 a b i) : ReadBack i := by
  obtain ⟨⟨⟨hd, ha⟩, hb⟩, hm⟩ : ((d < 64 ∧ a < 84) ∧ b < 84) ∧ m < 8 := by simpa using h
  exact readBack_vec hd (by omega) (by omega) hm ht henc hop fun x f => by rw [hdec x f]; simp [decV2, someWhen, selOk, ha, hb]

theorem readBack_vec1 (h : (decide (d < 64) && decide (a < 84) && decide (m < 8)) = true) (ht : t < 4)
    (henc : encode i = [packV op w d a 0 m t]) (hop : op < 64)
    (hdec : ∀ x, VecFields x op w d a 0 m t → decodeVector x = decV1 a 0 i) : ReadBack i := by
  obtain ⟨⟨hd, ha⟩, hm⟩ : (d < 64 ∧ a < 84) ∧ m < 8 := by simpa using h
  exact readBack_vec hd (by omega) (by decide) hm ht henc hop fun x f => by rw [hdec x f]; simp [decV1, someWhen, selOk, ha]

theorem readBack_vecShift {f : ITy → Instr} {z : ITy} (h : (decide (d < 64) && decide (a < 84) && decide (b < 84) && decide (m < 8)) = true)
    (henc : encode (f z) = [packV op w d a b m (encITy z)]) (hop : op < 64)
    (hdec : ∀ x, VecFields x op w d a b m (encITy z) → decodeVector x = decVI a b (encITy z) f) : ReadBack (f z) := by
  obtain ⟨⟨⟨hd, ha⟩, hb⟩, hm⟩ : ((d < 64 ∧ a < 84) ∧ b < 84) ∧ m < 8 := by simpa using h
  refine readBack_vec hd (by omega) (by omega) hm (encITy_lt z) henc hop fun x f => ?_
  rw [hdec x f]
  cases z <;> simp [decVI, someWhen, selOk, encITy, ha, hb]

theorem readBack_vecSpecial {f : FTy → Instr} {z : FTy} (h : (decide (d < 64) && decide (a < 84) && decide (m < 8)) = true)
    (henc : encode (f z) = [packV op w d a 0 m (encFTy z)]) (hop : op < 64)
    (hdec : ∀ x, VecFields x op w d a 0 m (encFTy z) → decodeVector x = decVF a 0 (encFTy z) f) : ReadBack (f z) := by
  obtain ⟨⟨hd, ha⟩, hm⟩ : (d < 64 ∧ a < 84) ∧ m < 8 := by simpa using h
  have ht := encFTy_lt z
  refine readBack_vec hd (by omega) (by decide) hm (by omega) henc hop fun x f => ?_
  rw [hdec x f]
  cases z <;> simp [decVF, someWhen, selOk, encFTy, ha]

end

section
variable {op d a b m : Nat} {w : Bool} {t : VTy}

theorem readBack_vcmp {cc : VCond} (h : (decide (a < 84) && decide (b < 84) && decide (m < 8) && decide (d < 8) && cc.allows t) = true) :
    ReadBack (.vcmp cc d a b m t) := by
  obtain ⟨⟨⟨⟨ha, hb⟩, hm⟩, hd⟩, hcc⟩ : (((a < 84 ∧ b < 84) ∧ m < 8) ∧ d < 8) ∧ cc.allows t = true := by simpa using h
  have hcode := encVCond_lt cc
  have hfields : fld (d + 8 * encVCond cc) 5 3 = encVCond cc ∧ fld (d + 8 * encVCond cc) 2 0 = d := by
    unfold fld
    omega
  obtain ⟨hcode', hd'⟩ := hfields
  exact readBack_vec (by omega) (by omega) (by omega) hm (encVTy_lt t) rfl (by decide) fun x f => by
    simp [decodeVector, someWhen, selOk, f.op, f.w, f.d, f.a, f.b, f.m, f.t, hcode', hd', ha, hb, hcc]

theorem readBack_vcvt {kind mode : Nat} (h : (decide (d < 64) && decide (a < 84) && decide (m < 8) && decide (kind < 16) && vcvtModeOk kind mode) = true) :
    ReadBack (.vcvt w d a kind mode m) := by
  obtain ⟨⟨⟨⟨hd, ha⟩, hm⟩, hkind⟩, hmode⟩ : (((d < 64 ∧ a < 84) ∧ m < 8) ∧ kind < 16) ∧ vcvtModeOk kind mode = true := by simpa using h
  have hmode8 : mode < 8 := by
    unfold vcvtModeOk at hmode
    split at hmode
    · rw [eq_of_beq hmode]; decide
    · have := of_decide_eq_true hmode; omega
  have hty : vcvtTy kind < 4 := by unfold vcvtTy; split <;> decide
  have hfields : fld (mode + 8 * kind) 6 3 = kind ∧ fld (mode + 8 * kind) 2 0 = mode := by
    unfold fld
    omega
  obtain ⟨hkind', hmode'⟩ := hfields
  exact readBack_vec hd (by omega) (by omega) hm hty rfl (by decide) fun x f => by
    simp [decodeVector, someWhen, selOk, f.op, f.w, f.d, f.a, f.b, f.m, f.t, hkind', hmode', ha, hmode]

theorem readBack_vscl {mw mode : Nat} {enc : Bool} (h : (decide (d < 64) && decide (a < 84) && decide (m < 8) && decide (mw < 7) && decide (mode < 5) && (enc || mode == 0)) = true) :
    ReadBack (.vscl w d a mw enc mode m) := by
  obtain ⟨⟨⟨⟨⟨hd, ha⟩, hm⟩, hmw⟩, hmode⟩, hform⟩ : ((((d < 64 ∧ a < 84) ∧ m < 8) ∧ mw < 7) ∧ mode < 5) ∧ (enc = true ∨ mode = 0) := by simpa using h
  have henc := bitNat_lt enc
  have hfields : fld (mode + 8 * bitNat enc + 16 * mw) 6 4 = mw ∧ fld (mode + 8 * bitNat enc + 16 * mw) 3 3 = bitNat enc
      ∧ fld (mode + 8 * bitNat enc + 16 * mw) 2 0 = mode := by
    unfold fld
    omega
  obtain ⟨hmw', henc', hmode'⟩ := hfields
  exact readBack_vec hd (by omega) (by omega) hm (by decide) rfl (by decide) fun x f => by
    simp [decodeVector, someWhen, selOk, f.op, f.w, f.d, f.a, f.b, f.m, f.t, hmw', henc', hmode', ha, hmw, hmode, hform]

/-- The base pair, the space bit and the size code of a vector word that reaches memory (R291). -/
theorem fld_address {sz pair : Nat} (g : Bool) (hsz : sz < 5) (hpair : pair < 8) :
    sz + 8 * bitNat g + 16 * pair < 128 ∧ fld (sz + 8 * bitNat g + 16 * pair) 6 4 = pair
      ∧ fld (sz + 8 * bitNat g + 16 * pair) 3 3 = bitNat g ∧ fld (sz + 8 * bitNat g + 16 * pair) 2 0 = sz := by
  have hg := bitNat_lt g
  unfold fld
  omega

theorem readBack_vld {pair sz : Nat} {g : Bool} (h : (decide (d < 64) && decide (b < 84) && decide (m < 8) && decide (pair < 8) && decide (sz < 5)) = true) :
    ReadBack (.vld w d pair g sz b m t) := by
  obtain ⟨⟨⟨⟨hd, hb⟩, hm⟩, hpair⟩, hsz⟩ : (((d < 64 ∧ b < 84) ∧ m < 8) ∧ pair < 8) ∧ sz < 5 := by simpa using h
  obtain ⟨ha, hpair', hg', hsz'⟩ := fld_address g hsz hpair
  exact readBack_vec hd ha (by omega) hm (encVTy_lt t) rfl (by decide) fun x f => by
    simp [decodeVector, someWhen, selOk, f.op, f.w, f.d, f.a, f.b, f.m, f.t, hpair', hg', hsz', hb, hsz]

theorem readBack_vst {pair sz : Nat} {g : Bool} (h : (decide (d < 64) && decide (b < 84) && decide (m < 8) && decide (pair < 8) && decide (sz < 5)) = true) :
    ReadBack (.vst d pair g sz b m t) := by
  obtain ⟨⟨⟨⟨hd, hb⟩, hm⟩, hpair⟩, hsz⟩ : (((d < 64 ∧ b < 84) ∧ m < 8) ∧ pair < 8) ∧ sz < 5 := by simpa using h
  obtain ⟨ha, hpair', hg', hsz'⟩ := fld_address g hsz hpair
  exact readBack_vec hd ha (by omega) hm (encVTy_lt t) rfl (by decide) fun x f => by
    simp [decodeVector, someWhen, selOk, f.op, f.w, f.d, f.a, f.b, f.m, f.t, hpair', hg', hsz', hb, hsz]

theorem readBack_vgth {pair : Nat} {g : Bool} (h : (decide (d < 64) && decide (b < 84) && decide (m < 8) && decide (pair < 8)) = true) :
    ReadBack (.vgth w d pair g b m t) := by
  obtain ⟨⟨⟨hd, hb⟩, hm⟩, hpair⟩ : ((d < 64 ∧ b < 84) ∧ m < 8) ∧ pair < 8 := by simpa using h
  obtain ⟨ha, hpair', hg', hsz'⟩ := fld_address (sz := 0) g (by decide) hpair
  rw [Nat.zero_add] at ha hpair' hg' hsz'
  exact readBack_vec hd ha (by omega) hm (encVTy_lt t) rfl (by decide) fun x f => by
    simp [decodeVector, someWhen, selOk, f.op, f.w, f.d, f.a, f.b, f.m, f.t, hpair', hg', hsz', hb]

end

/-! ## Access words (R163, R301) -/

section
variable {i : Instr} {op d a ib : Nat} {y : Src}

/-- The fields of an access word. -/
structure AccFields (x op d a i b : Nat) : Prop where
  op : fld x 31 26 = op
  d : fld x 25 22 = d
  a : fld x 21 18 = a
  i : fld x 17 17 = i
  b : fld x 16 0 = b

/-- An access word is read back when its decoding gives it from its fields. -/
theorem readBack_acc (hd : d < 16) (ha : a < 16) (hib : ib < 2 ^ 18) (henc : encode i = [packA op d a ib]) (hop : op < 64)
    (hdec : ∀ x, AccFields x op d a (ib / 2 ^ 17) (ib % 2 ^ 17) → decodeAccess x = some i) : ReadBack i := by
  have hfields : packA op d a ib < 2 ^ 32 ∧ fld (packA op d a ib) 31 26 = op ∧ fld (packA op d a ib) 25 22 = d
      ∧ fld (packA op d a ib) 21 18 = a ∧ fld (packA op d a ib) 17 17 = ib / 2 ^ 17 ∧ fld (packA op d a ib) 16 0 = ib % 2 ^ 17 := by
    unfold fld packA
    omega
  obtain ⟨hlt, hop', hd', ha', hi', hb'⟩ := hfields
  exact .ofOne henc hlt (.inr (.inr (hdec _ ⟨hop', hd', ha', hi', hb'⟩)))

theorem encSrc_lt (h : y.wf = true) : encSrc y < 2 ^ 18 := by
  cases y with
  | imm v => have := v.isLt; simp only [encSrc]; omega
  | reg n =>
    have hn : n < 16 := by simpa [Src.wf] using h
    simp only [encSrc]
    omega

theorem decSrc_encSrc (h : y.wf = true) : decSrc (encSrc y / 2 ^ 17) (encSrc y % 2 ^ 17) = some y := by
  cases y with
  | imm v =>
    have hv := v.isLt
    have hform : (2 ^ 17 + v.toNat) / 2 ^ 17 = 1 := by omega
    have hlow : (2 ^ 17 + v.toNat) % 2 ^ 17 = v.toNat := by omega
    rw [encSrc, hform, hlow, decSrc, if_pos rfl, BitVec.ofNat_toNat, BitVec.setWidth_eq]
  | reg n =>
    have hn : n < 16 := by simpa [Src.wf] using h
    have hform : n / 2 ^ 17 = 0 := by omega
    have hlow : n % 2 ^ 17 = n := by omega
    rw [encSrc, hform, hlow, decSrc, if_neg (by decide), if_pos hn]

/-- A word whose last operand is a register or an immediate. -/
theorem readBack_accSrc {f : Src → Instr} (hd : d < 16) (ha : a < 16) (hy : y.wf = true) (henc : encode (f y) = [packA op d a (encSrc y)])
    (hop : op < 64) (hdec : ∀ x i b, AccFields x op d a i b → decodeAccess x = (decSrc i b).map f) : ReadBack (f y) :=
  readBack_acc hd ha (encSrc_lt hy) henc hop fun x hx => by rw [hdec x _ _ hx, decSrc_encSrc hy]; rfl

end

/-! ## Every instruction -/

/-- Each constructor's words give it back; the steps that are no words have none to read. -/
theorem readBack_of_wf (i : Instr) (h : i.wf = true) : ReadBack i := by
  cases i with
  | add g d a b | sub g d a b | mul g d a b | mulh g d a b | div g d a b | rem g d a b | and g d a b | or g d a b | xor g d a b
  | andn g d a b | shl g d a b | shr g d a b | sra g d a b | rol g d a b | min g d a b | max g d a b | sext g d a n | zext g d a n
  | fadd g d a b | fsub g d a b | fmul g d a b | ffma g d a b | fdiv g d a b | fmin g d a b | fmax g d a b | fsgn g d a b =>
    exact readBack_reg3 h rfl rfl (by decide)
  | clz g d a | ctz g d a | popc g d a | mov g d a | jr g d a => exact readBack_reg2 h rfl rfl (by decide)
  | li g d v | lea g d v | call g d v | loop g d v =>
    exact readBack_imm12 h rfl (by simp [decodeShort]) (by decide)
  | addLong g d a e | subLong g d a e | mulLong g d a e | mulhLong g d a e | divLong g d a e | remLong g d a e | andLong g d a e
  | orLong g d a e | xorLong g d a e | andnLong g d a e | shlLong g d a e | shrLong g d a e | sraLong g d a e | rolLong g d a e
  | minLong g d a e | maxLong g d a e | faddLong g d a e | fsubLong g d a e | fmulLong g d a e | fdivLong g d a e | fminLong g d a e
  | fmaxLong g d a e | fsgnLong g d a e | probeLong g d a e =>
    exact readBack_ext2 h rfl rfl (by simp) (by decide)
  | liLong g d e | liH g d e | leaLong g d e | callLong g d e | loopLong g d e =>
    have hregs : (g.wf && decide (d < 64)) = true := h
    exact readBack_ext2 (by simp [hregs]) rfl rfl (by simp) (by decide)
  | brLong g e | liveLong g e =>
    have hg : g.wf = true := h
    exact readBack_ext2 (by simp [hg]) rfl rfl (by simp) (by decide)
  | nop g | rett g | halt g | exit g =>
    have hg : g.wf = true := h
    exact readBack_reg3 (by simp [hg]) rfl rfl (by decide)
  | ret g a | unpin g a | live g a | post g a =>
    obtain ⟨hg, ha⟩ : g.wf = true ∧ a < 64 := by
      simpa using (show (g.wf && decide (a < 64)) = true from h)
    exact readBack_reg3 (by simp [hg, ha]) rfl rfl (by decide)
  | pget g d =>
    have hregs : (g.wf && decide (d < 64)) = true := h
    exact readBack_reg3 (by simp [hregs]) rfl rfl (by decide)
  | pset g a b =>
    have hregs : (g.wf && decide (a < 64) && decide (b < 64)) = true := h
    exact readBack_reg3 (by simpa using hregs) rfl rfl (by decide)
  | pand g d a b | por g d a b | pxor g d a b =>
    obtain ⟨⟨⟨hg, hd⟩, ha⟩, hb⟩ : ((g.wf = true ∧ d < 24) ∧ a < 24) ∧ b < 24 := by
      simpa using (show (g.wf && decide (d < 24) && decide (a < 24) && decide (b < 24)) = true from h)
    exact CoxFields.readBack_short ⟨hg, by decide, by omega, by omega, by omega, by decide⟩ rfl (if_pos (by simp [hd, ha, hb]))
  | pnot g d a =>
    obtain ⟨⟨hg, hd⟩, ha⟩ : (g.wf = true ∧ d < 24) ∧ a < 24 := by
      simpa using (show (g.wf && decide (d < 24) && decide (a < 24)) = true from h)
    exact CoxFields.readBack_short ⟨hg, by decide, by omega, by omega, by decide, by decide⟩ rfl (if_pos (by simp [hd, ha]))
  | yield g p =>
    obtain ⟨hg, hp⟩ : g.wf = true ∧ p < 24 := by
      simpa using (show (g.wf && decide (p < 24)) = true from h)
    exact CoxFields.readBack_short ⟨hg, by decide, by omega, by decide, by decide, by decide⟩ rfl (if_pos (by simp [hp]))
  | untrack g slot =>
    obtain ⟨hg, hslot⟩ : g.wf = true ∧ slot < 32 := by
      simpa using (show (g.wf && decide (slot < 32)) = true from h)
    exact CoxFields.readBack_short ⟨hg, by decide, by omega, by decide, by decide, by decide⟩ rfl (if_pos (by simp [hslot]))
  | tbar g n | sstop g n =>
    obtain ⟨hg, hn⟩ : g.wf = true ∧ n < 8 := by
      simpa using (show (g.wf && decide (n < 8)) = true from h)
    exact CoxFields.readBack_short ⟨hg, by decide, by decide, by decide, by omega, by decide⟩ rfl (if_pos (by simp [hn]))
  | cexp g cb slot a =>
    obtain ⟨⟨⟨hg, ha⟩, hcb⟩, hslot⟩ : ((g.wf = true ∧ a < 64) ∧ cb < 64) ∧ slot < 16 := by
      simpa using (show (g.wf && decide (a < 64) && decide (cb < 64) && decide (slot < 16)) = true from h)
    exact CoxFields.readBack_short ⟨hg, by decide, hcb, ha, by omega, by decide⟩ rfl (if_pos (by simp [hslot]))
  | cwait g cb slot p =>
    obtain ⟨⟨⟨hg, hcb⟩, hslot⟩, hp⟩ : ((g.wf = true ∧ cb < 64) ∧ slot < 16) ∧ p < 24 := by
      simpa using (show (g.wf && decide (cb < 64) && decide (slot < 16) && decide (p < 24)) = true from h)
    exact CoxFields.readBack_short ⟨hg, by decide, hcb, by omega, by omega, by decide⟩ rfl (if_pos (by simp [hslot, hp]))
  | crel g cb slot =>
    obtain ⟨⟨hg, hcb⟩, hslot⟩ : (g.wf = true ∧ cb < 64) ∧ slot < 16 := by
      simpa using (show (g.wf && decide (cb < 64) && decide (slot < 16)) = true from h)
    exact CoxFields.readBack_short ⟨hg, by decide, hcb, by decide, by omega, by decide⟩ rfl (if_pos (by simp [hslot]))
  | ctry g p cb slot =>
    obtain ⟨⟨⟨hg, hp⟩, hcb⟩, hslot⟩ : ((g.wf = true ∧ p < 24) ∧ cb < 64) ∧ slot < 16 := by
      simpa using (show (g.wf && decide (p < 24) && decide (cb < 64) && decide (slot < 16)) = true from h)
    exact CoxFields.readBack_short ⟨hg, by decide, by omega, hcb, by omega, by decide⟩ rfl (if_pos (by simp [hslot, hp]))
  | postNb g p a =>
    obtain ⟨⟨hg, ha⟩, hp⟩ : (g.wf = true ∧ a < 64) ∧ p < 24 := by
      simpa using (show (g.wf && decide (a < 64) && decide (p < 24)) = true from h)
    exact CoxFields.readBack_short ⟨hg, by decide, by omega, ha, by decide, by decide⟩ rfl (if_pos (by simp [hp]))
  | dcset g n a | dcadd g n a =>
    obtain ⟨⟨hg, ha⟩, hn⟩ : (g.wf = true ∧ a < 64) ∧ n < 512 := by
      simpa using (show (g.wf && decide (a < 64) && decide (n < 512)) = true from h)
    have hhigh : n / 64 < 8 := by omega
    exact CoxFields.readBack_short ⟨hg, by decide, low_lt n, ha, by omega, by decide⟩ rfl
      (by simp [decodeShort, CoxDec.when, hhigh, Nat.div_add_mod'])
  | dcwait g n =>
    obtain ⟨hg, hn⟩ : g.wf = true ∧ n < 512 := by
      simpa using (show (g.wf && decide (n < 512)) = true from h)
    have hhigh : n / 64 < 8 := by omega
    exact CoxFields.readBack_short ⟨hg, by decide, low_lt n, by decide, by omega, by decide⟩ rfl
      (by simp [decodeShort, CoxDec.when, hhigh, Nat.div_add_mod'])
  | sta g p a b =>
    obtain ⟨⟨⟨hg, ha⟩, hb⟩, hp⟩ : ((g.wf = true ∧ a < 64) ∧ b < 64) ∧ p < 24 := by
      simpa using (show (g.wf && decide (a < 64) && decide (b < 64) && decide (p < 24)) = true from h)
    exact CoxFields.readBack_short ⟨hg, by decide, by omega, ha, hb, by decide⟩ rfl (if_pos (by simp [hp]))
  | cqpush g p a stream =>
    obtain ⟨⟨⟨hg, ha⟩, hp⟩, hstream⟩ : ((g.wf = true ∧ a < 64) ∧ p < 24) ∧ stream < 8 := by
      simpa using (show (g.wf && decide (a < 64) && decide (p < 24) && decide (stream < 8)) = true from h)
    exact CoxFields.readBack_short ⟨hg, by decide, by omega, ha, by omega, by decide⟩ rfl (if_pos (by simp [hp, hstream]))
  | trap g code =>
    obtain ⟨hg, hcode⟩ : g.wf = true ∧ code < 4096 := by
      simpa using (show (g.wf && decide (code < 4096)) = true from h)
    exact CoxFields.readBack_short ⟨hg, by decide, by decide, by omega, low_lt code, by decide⟩ rfl
      (by simp [decodeShort, CoxDec.when, Nat.div_add_mod'])
  | mfs g d n =>
    obtain ⟨⟨hg, hd⟩, hn⟩ : (g.wf = true ∧ d < 64) ∧ n < 4096 := by
      simpa using (show (g.wf && decide (d < 64) && decide (n < 4096)) = true from h)
    exact CoxFields.readBack_short ⟨hg, by decide, hd, by omega, low_lt n, by decide⟩ rfl (by simp [decodeShort, Nat.div_add_mod'])
  | mts g n a =>
    obtain ⟨⟨hg, ha⟩, hn⟩ : (g.wf = true ∧ a < 64) ∧ n < 4096 := by
      simpa using (show (g.wf && decide (a < 64) && decide (n < 4096)) = true from h)
    exact CoxFields.readBack_short ⟨hg, by decide, by omega, ha, low_lt n, by decide⟩ rfl (by simp [decodeShort, Nat.div_add_mod'])
  | sys g d a svc => 
    have hregs : (g.wf && decide (d < 64) && decide (a < 64)) = true := h
    cases svc <;> exact readBack_reg3 (by simp [hregs, encService]) rfl rfl (by decide)
  | probe g d a off =>
    have hregs : (g.wf && decide (d < 64) && decide (a < 64)) = true := h
    exact readBack_reg3 (by simp [hregs, off.isLt]) rfl (by simp [decodeShort]) (by decide)
  | fcvt => exact readBack_fcvt h
  | br => exact readBack_br h
  | ld => exact readBack_ld h
  | st => exact readBack_st h
  | fence => exact readBack_fence h
  | tid => exact readBack_tid h
  | bfx => exact readBack_bfx h
  | bfi => exact readBack_bfi h
  | sel => exact readBack_sel h
  | hoff => exact readBack_hoff h
  | cmp => exact readBack_cmp h
  | fcmp => exact readBack_fcmp h
  | dspt => exact readBack_dspt h
  | fenceR => exact readBack_fenceR h
  | track => exact readBack_track h
  | pub => exact readBack_pub h
  | cinit => exact readBack_cinit h
  | cexpLong => exact readBack_cexpLong h
  | postr => exact readBack_postr h
  | postt => exact readBack_postt h
  | dcsetLong => exact readBack_dcsetLong h
  | dcaddLong => exact readBack_dcaddLong h
  | staLong => exact readBack_staLong h
  | sbind => exact readBack_sbind h
  | ldLong => exact readBack_ldLong h
  | stLong => exact readBack_stLong h
  | amo => exact readBack_amo h
  | cas => exact readBack_cas h
  | vadd w d a b m t | vsub w d a b m t | vmul w d a b m t | vfma w d a b m t | vmin w d a b m t | vmax w d a b m t | vand w d a b m t
  | vor w d a b m t | vxor w d a b m t | vsel w d a b m t | vbcst w d a b m t | vprm w d a b m t =>
    exact readBack_vec2 h (encVTy_lt t) rfl (by decide) fun x f => by simp [decodeVector, f.op, f.w, f.d, f.a, f.b, f.m, f.t]
  | vabs w d a m t | vneg w d a m t | vmov w d a m t | vreds w d a m t | vredm w d a m t | vredn w d a m t =>
    exact readBack_vec1 h (encVTy_lt t) rfl (by decide) fun x f => by simp [decodeVector, f.op, f.w, f.d, f.a, f.b, f.m, f.t]
  | vshl w d a b m t | vshr w d a b m t | vsra w d a b m t =>
    exact readBack_vecShift h rfl (by decide) fun x f => by simp [decodeVector, f.op, f.w, f.d, f.a, f.b, f.m, f.t]
  | vexp2 w d a m t | vlog2 w d a m t | vrcp w d a m t | vrsq w d a m t | vsqrt w d a m t | vsig w d a m t | vtanh w d a m t =>
    exact readBack_vecSpecial h rfl (by decide) fun x f => by simp [decodeVector, f.op, f.w, f.d, f.a, f.b, f.m, f.t]
  | vcmp => exact readBack_vcmp h
  | vcvt => exact readBack_vcvt h
  | vscl => exact readBack_vscl h
  | vld => exact readBack_vld h
  | vst => exact readBack_vst h
  | vgth => exact readBack_vgth h
  | vunp3 w d a off m t =>
    obtain ⟨⟨⟨hd, ha⟩, hm⟩, hoff⟩ : ((d < 64 ∧ a < 84) ∧ m < 8) ∧ off < 128 := by
      simpa using (show (decide (d < 64) && decide (a < 84) && decide (m < 8) && decide (off < 128)) = true from h)
    exact readBack_vec hd (by omega) hoff hm (encVTy_lt t) rfl (by decide) fun x f => by
      simp [decodeVector, someWhen, selOk, f.op, f.w, f.d, f.a, f.b, f.m, f.t, ha]
  | mand d a b | mor d a b =>
    obtain ⟨⟨hd, ha⟩, hb⟩ : (d < 8 ∧ a < 8) ∧ b < 8 := by
      simpa using (show (decide (d < 8) && decide (a < 8) && decide (b < 8)) = true from h)
    exact readBack_vec (by omega) (by omega) (by omega) (by decide) (by decide) rfl (by decide) fun x f => by
      simp [decodeVector, someWhen, f.op, f.w, f.d, f.a, f.b, f.m, f.t, hd, ha, hb]
  | mnot d a =>
    obtain ⟨hd, ha⟩ : d < 8 ∧ a < 8 := by
      simpa using (show (decide (d < 8) && decide (a < 8)) = true from h)
    exact readBack_vec (by omega) (by omega) (by decide) (by decide) (by decide) rfl (by decide) fun x f => by
      simp [decodeVector, someWhen, f.op, f.w, f.d, f.a, f.b, f.m, f.t, hd, ha]
  | vloop a =>
    have ha : a < 84 := by
      simpa using (show decide (a < 84) = true from h)
    exact readBack_vec (by decide) (by omega) (by decide) (by decide) (by decide) rfl (by decide) fun x f => by
      simp [decodeVector, someWhen, selOk, f.op, f.w, f.d, f.a, f.b, f.m, f.t, ha]
  | vnop | vend => exact .ofOne rfl (by decide) (.inr (.inl (by decide)))
  | aadd d a y | asub d a y | amul d a y | ashl d a y | ashr d a y | aand d a y | amin d a y | acmp d a y =>
    obtain ⟨⟨hd, ha⟩, hy⟩ : (d < 16 ∧ a < 16) ∧ y.wf = true := by
      simpa using (show (decide (d < 16) && decide (a < 16) && y.wf) = true from h)
    exact readBack_accSrc hd ha hy rfl (by decide) fun x i b f => by simp [decodeAccess, f.op, f.d, f.a, f.i, f.b]
  | amov d y =>
    obtain ⟨hd, hy⟩ : d < 16 ∧ y.wf = true := by
      simpa using (show (decide (d < 16) && y.wf) = true from h)
    exact readBack_accSrc hd (by decide) hy rfl (by decide) fun x i b f => by simp [decodeAccess, f.op, f.d, f.a, f.i, f.b]
  | ajmp y =>
    exact readBack_accSrc (by decide) (by decide) h rfl (by decide) fun x i b f => by simp [decodeAccess, f.op, f.d, f.a, f.i, f.b]
  | aloop n y =>
    obtain ⟨hy, hn⟩ : y.wf = true ∧ n < 4 := by
      simpa using (show (y.wf && decide (n < 4)) = true from h)
    exact readBack_accSrc (by omega) (by decide) hy rfl (by decide) fun x i b f => by simp [decodeAccess, f.op, f.d, f.a, f.i, f.b, hn]
  | abr cc a off =>
    have ha : a < 16 := by
      simpa using (show decide (a < 16) = true from h)
    have hcode := encACond_lt cc
    have hoff := off.isLt
    have hform : (2 ^ 17 + off.toNat) / 2 ^ 17 = 1 := by omega
    have hlow : (2 ^ 17 + off.toNat) % 2 ^ 17 = off.toNat := by omega
    exact readBack_acc (by omega) ha (by omega) rfl (by decide) fun x f => by
      rw [hform, hlow] at f
      simp [decodeAccess, someWhen, f.op, f.d, f.a, f.i, f.b]
  | spush d a b =>
    obtain ⟨⟨hd, ha⟩, hb⟩ : (d < 16 ∧ a < 16) ∧ b < 16 := by
      simpa using (show (decide (d < 16) && decide (a < 16) && decide (b < 16)) = true from h)
    have hform : b / 2 ^ 17 = 0 := by omega
    have hlow : b % 2 ^ 17 = b := by omega
    exact readBack_acc hd ha (by omega) rfl (by decide) fun x f => by
      rw [hform, hlow] at f
      simp [decodeAccess, someWhen, f.op, f.d, f.a, f.i, f.b, hb]
  | spushi d a b =>
    obtain ⟨⟨hd, ha⟩, hb⟩ : (d < 16 ∧ a < 16) ∧ b < 15 := by
      simpa using (show (decide (d < 16) && decide (a < 16) && decide (b < 15)) = true from h)
    have hform : b / 2 ^ 17 = 0 := by omega
    have hlow : b % 2 ^ 17 = b := by omega
    exact readBack_acc hd ha (by omega) rfl (by decide) fun x f => by
      rw [hform, hlow] at f
      simp [decodeAccess, someWhen, f.op, f.d, f.a, f.i, f.b, hb]
  | aend n =>
    have hn : n < 4 := by
      simpa using (show decide (n < 4) = true from h)
    exact readBack_acc (by omega) (by decide) (by decide) rfl (by decide) fun x f => by
      simp [decodeAccess, someWhen, f.op, f.d, f.a, f.i, f.b, hn]
  | cqpop d =>
    have hd : d < 16 := by
      simpa using (show decide (d < 16) = true from h)
    exact readBack_acc hd (by decide) (by decide) rfl (by decide) fun x f => by
      simp [decodeAccess, someWhen, f.op, f.d, f.a, f.i, f.b]
  | anop | ahalt | swin | afence => exact .ofOne rfl (by decide) (.inr (.inr (by decide)))
  | _ => exact .noWord rfl

/-- Settles O56: every well-formed instruction is read back from its words. -/
theorem decodeEncode : Obligations.DecodeEncode := by
  unfold Obligations.DecodeEncode
  exact fun i h => ⟨(readBack_of_wf i h).one, (readBack_of_wf i h).two⟩

end Sys2Proof.Machine

/-! SUPPORT. Integer, immediate and select instructions, and results due later (R174, R176, R178 to R182, R186): what each operation computes in the spec's terms. -/
namespace Sys2Proof.Machine

/-! ## What the integer operations compute -/

@[simp] theorem bitsOf_five_zero (y : Word64) : bitsOf y 5 0 = y.toNat % 64 := by simp [bitsOf, fld]

theorem sraS_eq_ofInt (x y : Word64) : sraS x y = BitVec.ofInt 64 (x.toInt / 2 ^ (y.toNat % 64)) := by
  rw [sraS, bitsOf_five_zero, BitVec.sshiftRight, Int.shiftRight_eq_div_pow]
  rfl

theorem minS_eq_ite (x y : Word64) : minS x y = if x.toInt ≤ y.toInt then x else y := by
  simp [minS, BitVec.sle_iff_toInt_le]

theorem maxS_eq_ite (x y : Word64) : maxS x y = if x.toInt ≥ y.toInt then x else y := by
  simp [maxS, BitVec.sle_iff_toInt_le]

theorem popcS_eq_countP (x : Word64) : popcS x = BitVec.ofNat 64 ((List.range 64).countP fun n => x.getLsbD n) := by
  rw [popcS, List.countP_eq_length_filter]

/-- CLZ counts the zero bits above the highest one bit (R178). -/
theorem clzS_spec (x : Word64) :
    ∃ n, n ≤ 64 ∧ x.toNat < 2 ^ (64 - n) ∧ (n < 64 → 2 ^ (63 - n) ≤ x.toNat) ∧ clzS x = BitVec.ofNat 64 n := by
  by_cases hx : x = 0
  · subst hx
    exact ⟨64, Nat.le_refl _, by decide, fun h => absurd h (Nat.lt_irrefl _), rfl⟩
  · have hne : x.toNat ≠ 0 := fun h => hx (BitVec.eq_of_toNat_eq h)
    have hlog : x.toNat.log2 < 64 := (Nat.log2_lt hne).2 x.isLt
    refine ⟨63 - x.toNat.log2, by omega, ?_, fun _ => ?_, if_neg hx⟩
    · rw [show 64 - (63 - x.toNat.log2) = x.toNat.log2 + 1 by omega]
      exact Nat.lt_log2_self
    · rw [show 63 - (63 - x.toNat.log2) = x.toNat.log2 by omega]
      exact Nat.log2_self_le hne

/-- The search stops at the first place that meets the test, or at its end. -/
theorem firstFrom_spec (p : Nat → Bool) (fuel k : Nat) :
    k ≤ firstFrom p fuel k ∧ firstFrom p fuel k ≤ k + fuel ∧ (∀ j, k ≤ j → j < firstFrom p fuel k → p j = false)
      ∧ (firstFrom p fuel k < k + fuel → p (firstFrom p fuel k) = true) := by
  induction fuel generalizing k with
  | zero => exact ⟨Nat.le_refl _, Nat.le_refl _, fun j hj hlt => absurd hlt (Nat.not_lt.2 hj), fun h => absurd h (Nat.lt_irrefl _)⟩
  | succ fuel ih =>
    rw [firstFrom]
    by_cases hp : p k = true
    · rw [if_pos hp]
      exact ⟨Nat.le_refl _, by omega, fun j hj hlt => absurd hlt (Nat.not_lt.2 hj), fun _ => hp⟩
    · rw [if_neg hp]
      obtain ⟨hlo, hhi, hbelow, hfound⟩ := ih (k + 1)
      refine ⟨by omega, by omega, fun j hj hlt => ?_, fun h => hfound (by omega)⟩
      obtain rfl | hgt : k = j ∨ k + 1 ≤ j := by omega
      · exact Bool.eq_false_iff.2 hp
      · exact hbelow j hgt hlt

/-- CTZ counts the zero bits below the lowest one bit (R178). -/
theorem ctzS_spec (x : Word64) :
    ∃ n, n ≤ 64 ∧ (∀ j, j < n → x.getLsbD j = false) ∧ (n < 64 → x.getLsbD n = true) ∧ ctzS x = BitVec.ofNat 64 n := by
  obtain ⟨-, hhi, hbelow, hfound⟩ := firstFrom_spec (fun n => x.getLsbD n) 64 0
  exact ⟨_, by omega, fun j => hbelow j (Nat.zero_le j), fun h => hfound (by omega), rfl⟩

theorem sextS_eq_signExtend (x : Word64) (w : Nat) : sextS x w = (x.truncate (w + 1)).signExtend 64 := by
  rw [sextS, sext64, sextInt, BitVec.ofNat_toNat]
  rfl

theorem zextS_eq_zeroExtend (x : Word64) (w : Nat) : zextS x w = (x.truncate (w + 1)).zeroExtend 64 := by
  apply BitVec.eq_of_toNat_eq
  simp [zextS, BitVec.toNat_setWidth]

theorem bfxS_eq_extend (x : Word64) (pos w : Nat) (sgn : Bool) :
    bfxS x pos w sgn
      = if sgn then ((x >>> pos).truncate (w + 1)).signExtend 64 else ((x >>> pos).truncate (w + 1)).zeroExtend 64 := by
  have hfield : BitVec.ofNat (w + 1) (x.toNat / 2 ^ pos % 2 ^ (w + 1)) = (x >>> pos).truncate (w + 1) := by
    apply BitVec.eq_of_toNat_eq
    simp [BitVec.toNat_setWidth, Nat.shiftRight_eq_div_pow]
  cases sgn
  · apply BitVec.eq_of_toNat_eq
    simp [bfxS, BitVec.toNat_setWidth, Nat.shiftRight_eq_div_pow]
  · simp only [bfxS, if_true, sext64, sextInt, hfield]
    rfl

theorem bfiS_eq_mask (old x : Word64) (pos w : Nat) :
    bfiS old x pos w
      = (old &&& ~~~((BitVec.allOnes (w + 1)).zeroExtend 64 <<< pos)) ||| (x <<< pos &&& ((BitVec.allOnes (w + 1)).zeroExtend 64 <<< pos)) := by
  have hones : BitVec.ofNat 64 (2 ^ (w + 1) - 1) = (BitVec.allOnes (w + 1)).zeroExtend 64 := by
    apply BitVec.eq_of_toNat_eq
    simp [BitVec.toNat_setWidth]
  simp only [bfiS, hones]

/-! ## Operand forms -/

section
variable {s : State} {c k : Nat} {g : Guard} {d a b : Nat} {f : Word64 → Word64}

theorem State.aluOne_issues (h : s.Issues c k g [d, a]) {v : Word64} (hv : f ((s.found c k g [d, a]).readS a) = v) :
    s.aluOne f g d a = .next ((s.setStrand c k ((s.found c k g [d, a]).writeS d v)).past c k ((s.found c k g [d, a]).pc + 4)) := by
  subst hv
  exact State.coxRun_setStrand h rfl

/-- A word that writes a value of its own strand to sD. -/
theorem State.coxRun_putS {long : Bool} {uses : List Nat} {f : Nat → Nat → Strand → State → Word64} (h : s.Issues c k g uses) {v : Word64}
    (hv : f c k (s.found c k g uses) (s.issued c k g uses) = v) :
    s.coxRun long g uses (fun c k t u => putS c k d (f c k t u) t u)
      = .next ((s.setStrand c k ((s.found c k g uses).writeS d v)).past c k ((s.found c k g uses).pc + wordBytes long)) := by
  subst hv
  exact State.coxRun_setStrand h rfl

end

/-- Settles O1: each word computes its operation from the operands that it finds, and writes sD. -/
theorem integerOperations : Obligations.IntegerOperations := by
  unfold Obligations.IntegerOperations
  refine ⟨?registers, ?extension, ?others⟩
  case registers =>
    intro s c k g d a b h t x y n gives
    refine ⟨?add, ?sub, ?and, ?or, ?xor, ?andn, ?shl, ?shr, ?sra, ?rol, ?min, ?max⟩
    case add | sub | and | or | xor => exact State.aluReg_issues h rfl
    case andn => rw [exec_andn]; exact State.aluReg_issues h rfl
    case shl => exact State.aluReg_issues h (by rw [shlS, bitsOf_five_zero])
    case shr => exact State.aluReg_issues h (by rw [shrS, bitsOf_five_zero])
    case rol => exact State.aluReg_issues h (by rw [rolS, bitsOf_five_zero])
    case sra => exact State.aluReg_issues h (sraS_eq_ofInt x y)
    case min => exact State.aluReg_issues h (minS_eq_ite x y)
    case max => exact State.aluReg_issues h (maxS_eq_ite x y)
  case extension =>
    intro s c k g d a e h t x y n gives
    refine ⟨?add, ?sub, ?and, ?or, ?xor, ?andn, ?shl, ?shr, ?sra, ?rol, ?min, ?max⟩
    case add | sub | and | or | xor => exact State.aluLong_issues h rfl
    case andn => rw [exec_andnLong]; exact State.aluLong_issues h rfl
    case shl => exact State.aluLong_issues h (by rw [shlS, bitsOf_five_zero]; rfl)
    case shr => exact State.aluLong_issues h (by rw [shrS, bitsOf_five_zero]; rfl)
    case rol => exact State.aluLong_issues h (by rw [rolS, bitsOf_five_zero]; rfl)
    case sra => exact State.aluLong_issues h (sraS_eq_ofInt x y)
    case min => exact State.aluLong_issues h (minS_eq_ite x y)
    case max => exact State.aluLong_issues h (maxS_eq_ite x y)
  case others =>
    intro s c k g d a b p w pos i e neg sgn _ _
    refine ⟨fun h => ?one, fun h => ?immediate, fun h => ?sel⟩
    case one =>
      intro t x gives
      obtain ⟨n, hn, hlt, hle, hclz⟩ := clzS_spec x
      obtain ⟨m, hm, hzeros, hone, hctz⟩ := ctzS_spec x
      refine ⟨?mov, ?popc, ⟨n, hn, hlt, hle, ?clz⟩, ⟨m, hm, hzeros, hone, ?ctz⟩, ?sext, ?zext, ?bfx, ?bfi⟩
      case mov => rw [exec_mov, execMov]; exact State.aluOne_issues h rfl
      case popc => rw [exec_popc, execPopc]; exact State.aluOne_issues h (popcS_eq_countP x)
      case clz => rw [exec_clz, execClz]; exact State.aluOne_issues h hclz
      case ctz => rw [exec_ctz, execCtz]; exact State.aluOne_issues h hctz
      case sext => rw [exec_sext, execSext]; exact State.aluOne_issues h (sextS_eq_signExtend x w)
      case zext => rw [exec_zext, execZext]; exact State.aluOne_issues h (zextS_eq_zeroExtend x w)
      case bfx => rw [exec_bfx, execBfx]; exact State.coxRun_putS h (bfxS_eq_extend x pos w sgn)
      case bfi => rw [exec_bfi, execBfi]; exact State.coxRun_putS h (bfiS_eq_mask (t.readS d) x pos w)
    case immediate =>
      rw [exec_li, exec_liLong, exec_liH, exec_lea, exec_leaLong, execLi, execLiLong, execLiH, execLea, execLeaLong]
      exact ⟨State.coxRun_putS h rfl, State.coxRun_putS h rfl, State.coxRun_putS h rfl, State.coxRun_putS h rfl, State.coxRun_putS h rfl⟩
    case sel => rw [exec_sel, execSel]; exact State.coxRun_putS h (by cases neg <;> simp)

/-- Settles O2: each word writes the result of its operation as due later. -/
theorem laterResults : Obligations.LaterResults := by
  unfold Obligations.LaterResults
  intro s c k g d a b e f32 enc
  refine ⟨fun h => ?registers, fun h => ?extension⟩
  case registers =>
    rw [exec_ffma, execFfma]
    exact ⟨State.slowReg_issues h, State.slowReg_issues h, State.slowReg_issues h, State.slowReg_issues h, State.slowReg_issues h,
      State.slowReg_issues h, State.slow_issues h⟩
  case extension =>
    intro t x y gives
    have hgives {lat : Nat} {i : Instr} {f : Word64 → Word64 → Word64} {v : Word64} (hv : f x (extVal e) = v) :
        s.slowLong lat i f g d a e = gives lat i v := hv ▸ State.slowLong_issues h
    refine ⟨?mul, ?mulh, ?add, ?sub, ?mulF, ?div⟩
    case mul => exact hgives rfl
    case mulh => exact hgives rfl
    case add => exact hgives (by rw [faddS, f32Of_extVal]; rfl)
    case sub => exact hgives (by rw [fsubS, f32Of_extVal]; rfl)
    case mulF => exact hgives (by rw [fmulS, f32Of_extVal]; rfl)
    case div => exact hgives (by rw [fdivS, f32Of_extVal]; rfl)

end Sys2Proof.Machine

/-! SUPPORT. Comparisons and predicate logic (R184, R185, R188): what a predicate reads after a write, and the conditions in the spec's terms. -/
namespace Sys2Proof.Machine

/-! ## Registers and predicates of a strand (R172) -/

section
variable (t : Strand)

@[simp] theorem Strand.readP_zero : t.readP 0 = true := rfl

theorem getLsbD_ofNat_two_pow {w n m : Nat} (hm : m < w) : (BitVec.ofNat w (2 ^ n)).getLsbD m = decide (n = m) := by
  rw [BitVec.getLsbD_ofNat, decide_eq_true hm, Bool.true_and, Nat.testBit_two_pow]

theorem Strand.readP_writeP_same {n : Nat} (b : Bool) (hn : n < 24) : (t.writeP n b).readP n = if n = 0 then true else b := by
  by_cases h : n = 0
  · simp [h]
  · rw [Strand.writeP, if_neg h, Strand.readP, if_neg h, if_neg h]
    cases b <;> simp only [Bool.false_eq_true, if_true, if_false, BitVec.getLsbD_or, BitVec.getLsbD_and, BitVec.getLsbD_not,
      getLsbD_ofNat_two_pow hn, decide_true, Bool.or_true, Bool.not_true, Bool.and_false]

theorem Strand.readP_writeP_other {n m : Nat} (b : Bool) (hm : m < 24) (h : m ≠ n) : (t.writeP n b).readP m = t.readP m := by
  by_cases h0 : n = 0
  · simp [h0, Strand.writeP]
  · rw [Strand.writeP, if_neg h0, Strand.readP, Strand.readP]
    cases b <;> simp only [Bool.false_eq_true, if_true, if_false, BitVec.getLsbD_or, BitVec.getLsbD_and, BitVec.getLsbD_not,
      getLsbD_ofNat_two_pow hm, Ne.symm h, hm, decide_true, decide_false, Bool.or_false, Bool.not_false, Bool.and_true]

@[simp] theorem Strand.regs_writeP (n : Nat) (b : Bool) : (t.writeP n b).regs = t.regs := by
  unfold Strand.writeP
  split <;> rfl

@[simp] theorem Strand.readS_writeP (n m : Nat) (b : Bool) : (t.writeP n b).readS m = t.readS m := by
  simp [Strand.readS]

/-- A result that is due later in a predicate is one bit (R188). -/
theorem Strand.readP_issue_pred (now lat : Nat) (i : Instr) (n m : Nat) (b : Bool) (opA opB opD : Word64) :
    (t.issue now lat i (64 + n) (if b then 1 else 0) opA opB opD).readP m = (t.writeP n b).readP m := by
  have hpred : ¬64 + n < 64 := by omega
  cases b <;> simp [Strand.issue, Strand.writeAny, Strand.readP, hpred]

theorem Strand.readS_issue_pred (now lat : Nat) (i : Instr) (n m : Nat) (v opA opB opD : Word64) :
    (t.issue now lat i (64 + n) v opA opB opD).readS m = t.readS m := by
  have hpred : ¬64 + n < 64 := by omega
  simp [Strand.issue, Strand.writeAny, Strand.readS, hpred]

/-- Going on at an address leaves registers and predicates. -/
@[simp] theorem Strand.readS_goesOn (a : Word64) (n : Nat) : ({ t with pc := a, hold := none, got := [] } : Strand).readS n = t.readS n := rfl
@[simp] theorem Strand.readP_goesOn (a : Word64) (n : Nat) : ({ t with pc := a, hold := none, got := [] } : Strand).readP n = t.readP n := rfl

/-- PGET's word: bit 0 is 1, as p0 reads (R185). -/
theorem Strand.packed_predicates : ((t.preds ||| 1).zeroExtend 64 : Word64).toNat < 2 ^ 24
    ∧ ∀ n, n < 24 → ((t.preds ||| 1).zeroExtend 64 : Word64).getLsbD n = t.readP n := by
  constructor
  · simpa only [BitVec.zeroExtend, BitVec.toNat_setWidth] using Nat.lt_of_le_of_lt (Nat.mod_le _ _) (t.preds ||| 1).isLt
  · intro n hn
    have hone : (1 : BitVec 24).getLsbD n = decide (n = 0) := by
      rw [show (1 : BitVec 24) = BitVec.ofNat 24 (2 ^ 0) from rfl, getLsbD_ofNat_two_pow hn]
      exact decide_eq_decide.2 eq_comm
    have hn64 : n < 64 := by omega
    by_cases h0 : n = 0
    · simp [h0]
    · simp only [BitVec.zeroExtend, BitVec.getLsbD_setWidth, BitVec.getLsbD_or, hn64, hone, h0, Strand.readP, decide_true, decide_false,
        Bool.true_and, Bool.or_false, if_false]

/-- PSET's effect: the predicates under the mask, p0 never (R185). -/
def Strand.maskPreds (x m : Word64) : Strand :=
  { t with preds := (t.preds &&& ~~~(BitVec.truncate 24 m &&& 0xFFFFFE#24))
      ||| (BitVec.truncate 24 x &&& (BitVec.truncate 24 m &&& 0xFFFFFE#24)) }

@[simp] theorem Strand.readS_maskPreds (x m : Word64) (n : Nat) : (t.maskPreds x m).readS n = t.readS n := rfl
@[simp] theorem Strand.pc_maskPreds (x m : Word64) : (t.maskPreds x m).pc = t.pc := rfl

theorem Strand.readP_maskPreds (x m : Word64) {n : Nat} (h1 : 1 ≤ n) (hn : n < 24) :
    (t.maskPreds x m).readP n = if m.getLsbD n then x.getLsbD n else t.readP n := by
  have hmask : (0xFFFFFE#24).getLsbD n = true := by
    have : ∀ n < 24, 1 ≤ n → (0xFFFFFE#24).getLsbD n = true := by decide
    exact this n hn h1
  have h0 : n ≠ 0 := by omega
  cases hm : m.getLsbD n <;>
    simp only [Strand.maskPreds, Strand.readP, h0, if_false, BitVec.truncate, BitVec.getLsbD_or, BitVec.getLsbD_and, BitVec.getLsbD_not, BitVec.getLsbD_setWidth,
      hn, hmask, hm, decide_true, Bool.true_and, Bool.and_true, Bool.and_false, Bool.not_true, Bool.not_false, Bool.false_or,
      Bool.or_false, if_true, Bool.false_eq_true]

end

/-! ## Conditions -/

/-- CMP's conditions on the operands as integers (R184). -/
theorem cmpHolds_eq (cc : CmpCond) (x y : Word64) : cmpHolds cc x y = match cc with
    | .eq => decide (x = y)
    | .ne => decide (x ≠ y)
    | .lt => decide (x.toInt < y.toInt)
    | .le => decide (x.toInt ≤ y.toInt)
    | .gt => decide (x.toInt > y.toInt)
    | .ge => decide (x.toInt ≥ y.toInt)
    | .ltu => decide (x.toNat < y.toNat)
    | .leu => decide (x.toNat ≤ y.toNat)
    | .gtu => decide (x.toNat > y.toNat)
    | .geu => decide (x.toNat ≥ y.toNat) := by
  cases cc with
  | ne => exact decide_not.symm
  | eq | lt | le | gt | ge | ltu | leu | gtu | geu => rfl

theorem fpLe_nan_left {x : Fp} (h : x.isNan = true) (y : Fp) : fpLe x y = false := by
  cases x <;> first | rfl | cases h

theorem fpLe_nan_right {y : Fp} (h : y.isNan = true) (x : Fp) : fpLe x y = false := by
  cases y <;> cases x <;> first | rfl | cases h

/-- FCMP's conditions: only .NE and .UN hold for unordered operands (R188). -/
theorem fcmpHolds_eq (cc : FcmpCond) (a b : Nat) : fcmpHolds cc a b =
    let x := fpVal fmtF32 a
    let y := fpVal fmtF32 b
    let unordered := x.isNan || y.isNan
    match cc with
    | .eq => !unordered && fpEq x y
    | .ne => unordered || !fpEq x y
    | .lt => !unordered && fpLt x y
    | .le => !unordered && fpLe x y
    | .gt => !unordered && fpLt y x
    | .ge => !unordered && fpLe y x
    | .un => unordered := by
  have hle : ∀ x y : Fp, fpLe x y = (!(x.isNan || y.isNan) && fpLe x y) := fun x y => by
    cases hx : x.isNan
    · cases hy : y.isNan
      · rfl
      · rw [fpLe_nan_right hy]; rfl
    · rw [fpLe_nan_left hx]; rfl
  have hand : ∀ x y : Fp, ∀ b, (fpLe x y && b) = (!(x.isNan || y.isNan) && (fpLe x y && b)) := fun x y b => by
    rw [← Bool.and_assoc, ← hle]
  cases cc with
  | ne | un => rfl
  | eq => exact hand _ _ _
  | lt => exact hand _ _ _
  | le => exact hle _ _
  | gt => exact (hand _ _ _).trans (by rw [Bool.or_comm]; rfl)
  | ge => exact (hle _ _).trans (by rw [Bool.or_comm])

/-- COMB joins a condition with the old predicate, and WRITE needs no old one (R184, R188). -/
theorem combine_captured (comb : Comb) (old new : Bool) :
    combine comb ((if comb ≠ .write ∧ old then 1 else 0 : Word64).getLsbD 0) new = combine comb old new := by
  cases comb <;> cases old <;> rfl

/-- Settles O5: the conditions and the joins are the spec's, and the predicates read what was written. -/
theorem predicateResults : Obligations.PredicateResults := by
  unfold Obligations.PredicateResults
  refine ⟨fun s c k g d a b comb => ?comparison, fun s c k g d a b => ⟨fun h => ?logic, fun h => ?pnot, fun h => ?pget, fun h => ?pset⟩⟩
  case comparison =>
    intro joins
    have hjoins : ∀ old new, combine comb old new = joins old new := fun old new => by cases comb <;> rfl
    refine ⟨fun cc second h => ?cmp, fun cc hd h => ?fcmp⟩
    case cmp =>
      intro t x y holds
      have hy : cmpSecondVal t second = y := by cases second <;> rfl
      have hholds : cmpHolds cc x y = holds := cmpHolds_eq cc x y
      rw [exec_cmp, execCmp]
      exact State.coxRun_setStrand h (by rw [hy, hholds, hjoins])
    case fcmp =>
      intro t x y unordered holds
      have hholds : fcmpHolds cc (f32Of (t.readS a)) (f32Of (t.readS b)) = holds := fcmpHolds_eq cc _ _
      have hjoined : combine comb ((if comb ≠ .write ∧ t.readP d then 1 else 0 : Word64).getLsbD 0) holds = joins (t.readP d) holds := by
        rw [combine_captured, hjoins]
      have hrun : exec (.fcmp g d a b cc comb) s = .next ((s.setStrand c k (t.issue s.cycle.toNat 2 (.fcmp g d a b cc comb) (64 + d)
          (if joins (t.readP d) holds then 1 else 0) (t.readS a) (t.readS b) (if comb ≠ .write ∧ t.readP d then 1 else 0))).past c k (t.pc + 8)) := by
        rw [exec_fcmp, execFcmp, ← hjoined, ← hholds]
        exact State.slow_issues h
      rw [hrun]
      refine ⟨_, rfl, ?_⟩
      rw [State.past_setStrand _ _ _ _ h.slot, State.strand_setStrand_self _ _ _ h.slot]
      have hread := fun n => t.readP_issue_pred s.cycle.toNat 2 (.fcmp g d a b cc comb) d n (joins (t.readP d) holds)
        (t.readS a) (t.readS b) (if comb ≠ .write ∧ t.readP d then 1 else 0)
      simp only [Strand.readP_goesOn, Strand.readS_goesOn, hread, Strand.readS_issue_pred]
      exact ⟨t.readP_writeP_same _ hd, trivial, trivial, rfl, fun _ => trivial, fun n hn hne => t.readP_writeP_other _ hn hne⟩
  case logic =>
    rw [exec_pand, exec_por, exec_pxor, execPand, execPor, execPxor]
    exact ⟨State.coxRun_setStrand h rfl, State.coxRun_setStrand h rfl, State.coxRun_setStrand h rfl⟩
  case pnot =>
    rw [exec_pnot, execPnot]
    exact State.coxRun_setStrand h rfl
  case pget =>
    intro t
    rw [exec_pget, execPget]
    exact ⟨_, State.coxRun_putS h rfl, t.packed_predicates⟩
  case pset =>
    intro t
    rw [exec_pset, execPset]
    refine ⟨t.maskPreds (t.readS a) (t.readS b), ?_, rfl, fun n => t.readP_maskPreds _ _, t.readS_maskPreds _ _, t.pc_maskPreds _ _⟩
    exact State.coxRun_setStrand h rfl

end Sys2Proof.Machine

/-! SUPPORT. Fields of a register word, the ramp limiter, the state after reset and the words written out bit by bit (R147, R157 to R163, R378). -/
namespace Sys2Proof.Machine

/-! ## Fields of a register word -/

theorem getLsbD_setBits (r : Word64) {hi lo : Nat} (v : Nat) {n : Nat} (hn : n < 64) (hle : lo ≤ hi) :
    (setBits r hi lo v).getLsbD n = if lo ≤ n ∧ n ≤ hi then v.testBit (n - lo) else r.getLsbD n := by
  have hmask : ((2 ^ (hi + 1 - lo) - 1) * 2 ^ lo).testBit n = decide (lo ≤ n ∧ n ≤ hi) := by
    rw [← Nat.shiftLeft_eq, Nat.testBit_shiftLeft, Nat.testBit_two_pow_sub_one, ← Bool.decide_and]
    exact decide_eq_decide.2 (by omega)
  simp only [setBits, BitVec.getLsbD_or, BitVec.getLsbD_and, BitVec.getLsbD_not, BitVec.getLsbD_ofNat, hmask, hn, decide_true, Bool.true_and]
  by_cases h : lo ≤ n ∧ n ≤ hi
  · rw [if_pos h, decide_eq_true h, ← Nat.shiftLeft_eq, Nat.testBit_shiftLeft, decide_eq_true h.1]
    simp
  · rw [if_neg h, decide_eq_false h]
    simp

theorem testBit_bitsOf {w : Nat} (x : BitVec w) (hi lo n : Nat) :
    (bitsOf x hi lo).testBit n = (decide (n < hi + 1 - lo) && x.getLsbD (lo + n)) := by
  rw [bitsOf, fld, Nat.testBit_mod_two_pow, Nat.testBit_div_two_pow, Nat.add_comm lo]
  rfl

theorem bitsOf_lt {w : Nat} (x : BitVec w) (hi lo : Nat) : bitsOf x hi lo < 2 ^ (hi + 1 - lo) := Nat.mod_lt _ (Nat.two_pow_pos _)

theorem bitsOf_setBits_same (r : Word64) {hi lo v : Nat} (hhi : hi < 64) (hle : lo ≤ hi) (hv : v < 2 ^ (hi + 1 - lo)) :
    bitsOf (setBits r hi lo v) hi lo = v := by
  refine Nat.eq_of_testBit_eq fun n => ?_
  rw [testBit_bitsOf]
  by_cases hn : n < hi + 1 - lo
  · rw [getLsbD_setBits r v (by omega) hle, if_pos (by omega), decide_eq_true hn, Nat.add_sub_cancel_left, Bool.true_and]
  · rw [decide_eq_false hn, Bool.false_and, Nat.testBit_lt_two_pow (Nat.lt_of_lt_of_le hv (Nat.pow_le_pow_right (by decide) (by omega)))]

theorem bitsOf_setBits_other (r : Word64) {hi lo hi' lo' : Nat} (v : Nat) (hhi : hi' < 64) (hle : lo ≤ hi) (hd : hi' < lo ∨ hi < lo') :
    bitsOf (setBits r hi lo v) hi' lo' = bitsOf r hi' lo' := by
  refine Nat.eq_of_testBit_eq fun n => ?_
  rw [testBit_bitsOf, testBit_bitsOf]
  by_cases hn : n < hi' + 1 - lo'
  · rw [getLsbD_setBits r v (by omega) hle, if_neg (by omega)]
  · rw [decide_eq_false hn, Bool.false_and, Bool.false_and]

/-! ## The ramp limiter -/

theorem slotsAfter_bounds (ramp : Word64) (free : Nat) :
    bitsOf ramp 59 40 - bitsOf ramp 39 20 ≤ slotsAfter ramp free
      ∧ slotsAfter ramp free ≤ max (bitsOf ramp 59 40 - bitsOf ramp 39 20) (min 307200 (bitsOf ramp 59 40 + bitsOf ramp 19 0)) := by
  unfold slotsAfter clampNat
  omega

theorem slotsAfter_lt (ramp : Word64) (free : Nat) : slotsAfter ramp free < 2 ^ (59 + 1 - 40) := by
  have hlast := bitsOf_lt ramp 59 40
  have hbound := (slotsAfter_bounds ramp free).2
  omega

theorem clampNat_lt {lo hi v w : Nat} (hlo : lo < w) (hhi : hi < w) : clampNat lo hi v < w := by
  unfold clampNat
  omega

/-- Settles O47: the fields of the register word that each event writes. -/
theorem rampLimiter : Obligations.RampLimiter := by
  unfold Obligations.RampLimiter
  intro s d hd
  constructor
  · intro v
    have hclamp : ∀ x, clampNat 2400 307200 x < 2 ^ 20 := fun x => clampNat_lt (by decide) (by decide)
    refine ⟨_, _, if_pos hd, rfl, rfl, ?rise, ?fall⟩
    case rise => rw [bitsOf_setBits_other _ _ (by decide) (by decide) (by decide), bitsOf_setBits_same _ (by decide) (by decide) (hclamp _)]; rfl
    case fall => rw [bitsOf_setBits_same _ (by decide) (by decide) (hclamp _)]; rfl
  · obtain ⟨hlo, hhi⟩ := slotsAfter_bounds (s.die d).ramp (Config.issueSlots s.steps)
    refine ⟨_, _, if_neg (Nat.not_le.2 hd), rfl, ?last, hlo, hhi, ?limit⟩
    case last => exact bitsOf_setBits_same _ (by decide) (by decide) (slotsAfter_lt _ _)
    case limit => exact bitsOf_setBits_other _ _ (by decide) (by decide) (by decide)

/-! ## Reset and sample words -/

/-- Settles O55: each word is decoded. -/
theorem sampleWords : Obligations.SampleWords :=
  ⟨rfl, rfl, rfl, rfl, rfl, rfl, rfl, rfl, rfl⟩

/-- Tables that nothing has written read as reset leaves each entry. -/
theorem State.die_reset (d : Nat) : State.reset.die d = Die.reset := rfl
theorem State.queue_reset (q : Nat) : State.reset.queue q = Queue.reset := rfl

/-- Settles O59: every table is empty, so that each read gives the reset value. -/
theorem resetState : Obligations.ResetState := by
  unfold Obligations.ResetState
  refine ⟨rfl, rfl, rfl, rfl, rfl, rfl, rfl, rfl, rfl, rfl, rfl, fun q => ?queue, fun d l => ?region, fun d => ?ramp, fun d => ?remap, fun n => ?port⟩
  case queue => rw [State.queue_reset]; decide
  case region => exact ⟨rfl, rfl, rfl, rfl⟩
  case ramp => rw [State.die_reset]; decide
  case remap => rw [State.die_reset]; decide
  case port => exact ⟨rfl, rfl⟩
end Sys2Proof.Machine

/-! SUPPORT. What a unit fetches, and the move that runs it (R160, R190, R270, R299, R406). -/
namespace Sys2Proof.Machine

/-! ## What a strand fetches -/

section
variable {s u v : State} {c k w e : Nat} {i : Instr} {x : Cause} {f : FailedAccess} {r : List FailedAccess} {g : Nat → Option Instr} {h : Hold}

theorem fetchStrand_held (hh : (s.strand c k).hold = some h) (hf : (s.strand c k).failed = []) : fetchStrand s c k = (h.instr, s) := by
  simp only [fetchStrand, hh, hf]

theorem fetchStrand_heldKept (hh : (s.strand c k).hold = some h) (hf : (s.strand c k).failed = f :: r) (hp : f.place = none ∨ h.kept = true) :
    fetchStrand s c k = (h.instr, s) := by
  rcases hp with hp | hp <;> simp [fetchStrand, hh, hf, hp]

theorem fetchStrand_heldTraps (hh : (s.strand c k).hold = some h) (hf : (s.strand c k).failed = f :: r) (hp : f.place ≠ none) (hk : h.kept = false) :
    fetchStrand s c k = (.instructionFetchFault f.cause f.info, s) := by
  simp [fetchStrand, hh, hf, hk, Option.isSome_iff_ne_none.2 hp]

theorem fetchStrand_failed (hh : (s.strand c k).hold = none) (hf : (s.strand c k).failed = f :: r) :
    fetchStrand s c k = (.instructionFetchFault f.cause f.info, s) := by
  simp only [fetchStrand, hh, hf]

/-! A strand that holds nothing and has no failed access fetches its word, and the extension word that a first word asks for. -/

section
variable (hh : (s.strand c k).hold = none) (hf : (s.strand c k).failed = [])
include hh hf

theorem fetchStrand_fault (hw : s.fetchWord (s.whoStrand c k) (s.strand c k).pc = .error x) :
    fetchStrand s c k = s.fetchStop (s.whoStrand c k) x := by
  simp only [fetchStrand, hh, hf, hw]

theorem fetchStrand_one (hw : s.fetchWord (s.whoStrand c k) (s.strand c k).pc = .ok (w, u)) (hd : decodeCox w = .one i) :
    fetchStrand s c k = (i, u) := by
  simp only [fetchStrand, hh, hf, hw, hd]

theorem fetchStrand_illegal (hw : s.fetchWord (s.whoStrand c k) (s.strand c k).pc = .ok (w, u)) (hd : decodeCox w = .illegal) :
    fetchStrand s c k = (.illegalCoxWord (BitVec.ofNat 32 w) 0, u) := by
  simp only [fetchStrand, hh, hf, hw, hd]

theorem fetchStrand_two (hw : s.fetchWord (s.whoStrand c k) (s.strand c k).pc = .ok (w, u)) (hd : decodeCox w = .two g)
    (he : u.fetchWord (u.whoStrand c k) ((s.strand c k).pc + 4) = .ok (e, v)) (hg : g e = some i) : fetchStrand s c k = (i, v) := by
  simp only [fetchStrand, hh, hf, hw, hd, he, hg]

theorem fetchStrand_twoIllegal (hw : s.fetchWord (s.whoStrand c k) (s.strand c k).pc = .ok (w, u)) (hd : decodeCox w = .two g)
    (he : u.fetchWord (u.whoStrand c k) ((s.strand c k).pc + 4) = .ok (e, v)) (hg : g e = none) :
    fetchStrand s c k = (.illegalCoxWord (BitVec.ofNat 32 w) (BitVec.ofNat 32 e), v) := by
  simp only [fetchStrand, hh, hf, hw, hd, he, hg]

theorem fetchStrand_extensionFault (hw : s.fetchWord (s.whoStrand c k) (s.strand c k).pc = .ok (w, u)) (hd : decodeCox w = .two g)
    (he : u.fetchWord (u.whoStrand c k) ((s.strand c k).pc + 4) = .error x) : fetchStrand s c k = u.fetchStop (u.whoStrand c k) x := by
  simp only [fetchStrand, hh, hf, hw, hd, he]

end
end

/-! ## What a kernel and a context fetch -/

section
variable {s u : State} {c m n w : Nat} {i : Instr} {x : Cause} {q : Kernel} {y : Ctx} {p : Prog}

theorem fetchKernel_word (hq : (s.core c).kernel = some q) (hw : s.fetchWord (s.whoKernel c q) q.next = .ok (w, u)) (hd : decodeVector w = some i) :
    fetchKernel s c = (i, u) := by
  simp only [fetchKernel, hq, hw, hd]

theorem fetchKernel_illegal (hq : (s.core c).kernel = some q) (hw : s.fetchWord (s.whoKernel c q) q.next = .ok (w, u)) (hd : decodeVector w = none) :
    fetchKernel s c = (.illegalVectorWord (BitVec.ofNat 32 w), u) := by
  simp only [fetchKernel, hq, hw, hd]

theorem fetchKernel_fault (hq : (s.core c).kernel = some q) (hw : s.fetchWord (s.whoKernel c q) q.next = .error x) :
    fetchKernel s c = s.fetchStop (s.whoKernel c q) x := by
  simp only [fetchKernel, hq, hw]

section
variable (hy : s.ctx m n = some y) (hp : s.progOf y = some p)
include hy hp

theorem fetchContext_word (hl : 4 * y.apc < p.len) (hd : decodeAccess (leNat (memList s.mem (mseKey m (p.base + 4 * y.apc)) 4)) = some i) :
    fetchContext s m n = (some i, s) := by
  simp only [fetchContext, hy, hp, if_neg (Nat.not_le.2 hl), hd]

theorem fetchContext_illegal (hl : 4 * y.apc < p.len) (hd : decodeAccess (leNat (memList s.mem (mseKey m (p.base + 4 * y.apc)) 4)) = none) :
    fetchContext s m n = (some (.illegalAccessWord (BitVec.ofNat 32 (leNat (memList s.mem (mseKey m (p.base + 4 * y.apc)) 4)))), s) := by
  simp only [fetchContext, hy, hp, if_neg (Nat.not_le.2 hl), hd]

theorem fetchContext_past (hl : p.len ≤ 4 * y.apc) :
    fetchContext s m n = (none, s.ctxFault m n ⟨0x314, BitVec.ofNat 64 y.apc, 0⟩) := by
  simp only [fetchContext, hy, hp, if_pos hl]

end
end

/-! ## What a move runs -/

section
variable {s t u : State} {m : Move} {ends : Bool} {c k n x : Nat} {i : Instr}

theorem runMove_strand (hm : s.mayIssue c k = true) (hf : fetchStrand (s.takeTurn c k) c k = (i, u)) : runMove (.strand c k) s = exec i u := by
  simp only [runMove, hm, hf, if_true]

theorem runMove_kernel (hm : s.kernelReady c = true) (hf : fetchKernel { s with turn := .kernel c } c = (i, u)) : runMove (.kernel c) s = exec i u := by
  simp only [runMove, hm, hf, if_true]

theorem runMove_context (hm : s.nextCtx n = some x) (hf : fetchContext (s.takeCtx n x) n x = (some i, u)) :
    runMove (.context n x) s = exec i u := by
  simp only [runMove, hm, hf, if_true]

theorem runMove_contextStops (hm : s.nextCtx n = some x) (hf : fetchContext (s.takeCtx n x) n x = (none, u)) :
    runMove (.context n x) s = .next u := by
  simp only [runMove, hm, hf, if_true]

/-- A unit whose turn it is not does nothing. -/
theorem runMove_strand_waits (hm : s.mayIssue c k = false) : runMove (.strand c k) s = .next s := by simp [runMove, hm]
theorem runMove_kernel_waits (hm : s.kernelReady c = false) : runMove (.kernel c) s = .next s := by simp [runMove, hm]
theorem runMove_context_waits (hm : s.nextCtx n ≠ some x) : runMove (.context n x) s = .next s := by simp [runMove, hm]

/-- What follows every move, after the outcome of the move itself. -/
def outcomeAfter (ends : Bool) : Host.Outcome State Fault Refusal → Host.Outcome State Fault Refusal
  | .next u => .next (u.afterMove ends)
  | .fault e => .fault e
  | .refused e => .refused e

theorem step_eq_outcomeAfter (h : s.beforeMove.nextMove = (m, ends, t)) : step s = outcomeAfter ends (runMove m t) := by
  unfold step
  rw [h]
  dsimp only
  cases runMove m t <;> rfl

end

/-- Settles O57: the cases of what a unit fetches, each run by its move. -/
theorem stepRunsTheDecodedInstruction : Obligations.StepRunsTheDecodedInstruction := by
  unfold Obligations.StepRunsTheDecodedInstruction
  intro s t m ends hm after stop
  have hafter : ∀ o, outcomeAfter ends o = after o := fun o => by cases o <;> rfl
  have hstep : ∀ {o}, runMove m t = o → step s = after o := fun ho => (step_eq_outcomeAfter hm).trans (by rw [ho, hafter])
  refine ⟨fun i hi => ?event, fun i n hi => ?units, fun n hi => ?outside, fun tag org off size hi => ?register, fun c k hi ht => ?strand,
    fun c k hi ht => ?strandWaits, fun c x hi ht hx => ?kernel, fun c hi ht => ?kernelWaits, fun n x y p hi ht hy hp => ?context,
    fun n x hi ht => ?contextWaits⟩ <;> subst hi
  case event | units | outside | register => exact hstep rfl
  case strandWaits => exact hstep (runMove_strand_waits ht)
  case kernelWaits => exact hstep (runMove_kernel_waits ht)
  case contextWaits => exact hstep (runMove_context_waits ht)
  case strand =>
    intro u
    have hrun : ∀ {i v}, fetchStrand u c k = (i, v) → step s = after (exec i v) := fun hf => hstep (runMove_strand ht hf)
    refine ⟨rfl, fun h hh hf => hrun (fetchStrand_held hh hf), fun h f r hh hf hp => hrun (fetchStrand_heldKept hh hf hp),
      fun h f r hh hf hp hk => hrun (fetchStrand_heldTraps hh hf hp hk), fun f r hh hf => hrun (fetchStrand_failed hh hf), fun hh hf => ?_⟩
    refine ⟨fun w v hw => ⟨fun i hd => hrun (fetchStrand_one hh hf hw hd), fun hd => hrun (fetchStrand_illegal hh hf hw hd), fun g e v' hd he => ?_,
      fun g x hd he => hrun (fetchStrand_extensionFault hh hf hw hd he)⟩, fun x hw => hrun (fetchStrand_fault hh hf hw)⟩
    exact ⟨fun i hg => hrun (fetchStrand_two hh hf hw hd he hg), fun hg => hrun (fetchStrand_twoIllegal hh hf hw hd he hg)⟩
  case kernel =>
    intro u
    have hrun : ∀ {i v}, fetchKernel u c = (i, v) → step s = after (exec i v) := fun hf => hstep (runMove_kernel ht hf)
    exact ⟨fun w v hw => ⟨fun i hd => hrun (fetchKernel_word hx hw hd), fun hd => hrun (fetchKernel_illegal hx hw hd)⟩,
      fun e hw => hrun (fetchKernel_fault hx hw)⟩
  case context =>
    intro w
    have hrun : ∀ {i v}, fetchContext (t.takeCtx n x) n x = (some i, v) → step s = after (exec i v) := fun hf => hstep (runMove_context ht hf)
    exact ⟨fun hl => ⟨fun i hd => hrun (fetchContext_word hy hp hl hd), fun hd => hrun (fetchContext_illegal hy hp hl hd)⟩,
      fun hl => hstep (runMove_contextStops ht (fetchContext_past hy hp hl))⟩

end Sys2Proof.Machine

/-! SUPPORT. Words whose guard is false (R173, R199). -/
namespace Sys2Proof.Machine

/-- Settles O8: every word of a strand runs through one wrapper, which passes over a word whose guard is false. -/
theorem guardedOff : Obligations.GuardedOff := by
  unfold Obligations.GuardedOff
  intro s c k g skips h hg
  have hshort : ∀ {uses : List Nat} {f : Nat → Nat → Strand → State → Eff},
      s.coxRun false g uses f = .next ((s.setStrand c k (s.guarded c k g)).past c k ((s.guarded c k g).pc + 4)) := State.coxRun_unguarded h hg
  have hlong : ∀ {uses : List Nat} {f : Nat → Nat → Strand → State → Eff},
      s.coxRun true g uses f = .next ((s.setStrand c k (s.guarded c k g)).past c k ((s.guarded c k g).pc + 8)) := State.coxRun_unguarded h hg
  dsimp only [skips]
  refine ⟨fun d a b => ?registers, fun d a e => ?extension, fun d a => ?one, fun d e => ?immediate, fun j e => ?branch, fun d i => ?link, fun a => ?ret,
    fun d a sz sp cz sgn => ?access, fun d a b op sp sz sc => ?amo, fun d a i => ?probe, fun a => ?unpin, fun sc => ?fence, fun r => ?pub,
    fun n => ?untrack, ?exit, ?rett, fun lvl => ?tbar⟩
  case registers => simp only [exec_add, exec_mul, exec_div, exec_fadd, exec_min, execAdd, execMul, execDiv, execFadd, execMin,
      State.aluReg, State.slowReg, State.slow, hshort, and_self]
  case extension => simp only [exec_addLong, exec_divLong, exec_faddLong, execAddLong, execDivLong, execFaddLong,
      State.aluLong, State.slowLong, State.slow, hlong, and_self]
  case one => simp only [exec_mov, exec_clz, execMov, execClz, State.aluOne, hshort, and_self]
  case branch => simp only [exec_br, exec_brLong, execBr, execBrLong, hshort, hlong, and_self]
  case link => simp only [exec_call, exec_loop, execCall, execLoop, hshort, and_self]
  case access => simp only [exec_ld, exec_st, execLd, execSt, hshort, and_self]
  case immediate => rw [exec_liLong, execLiLong, hlong]
  case amo => rw [exec_amo, execAmo, hlong]
  case pub => rw [exec_pub, execPub, hlong]
  case ret => rw [exec_ret, execRet, hshort]
  case probe => rw [exec_probe, execProbe, hshort]
  case unpin => rw [exec_unpin, execUnpin, hshort]
  case fence => rw [exec_fence, execFence, hshort]
  case untrack => rw [exec_untrack, execUntrack, hshort]
  case exit => rw [exec_exit, execExit, hshort]
  case rett => rw [exec_rett, execRett, hshort]
  case tbar => rw [exec_tbar, execTbar, hshort]

/-- Strand 0 of core 0 has the turn, its predicate 1 is true and its registers are 0. -/
def predicateOneTurn : State := ({ State.reset with turn := .strand 0 0 } : State).setStrand 0 0 { Strand.reset with preds := 2 }

theorem predicateOneTurn_issues : predicateOneTurn.Issues 0 0 ⟨0, false⟩ [65, 0, 0] := ⟨⟨rfl, by decide, rfl, rfl⟩, rfl, rfl⟩

/-- Refutes O9: the statement lets the destination be any number, and numbers from 64 on name predicates there: MUL to 65 writes predicate 1. -/
theorem not_frameOfComputation : ¬ Obligations.FrameOfComputation := by
  unfold Obligations.FrameOfComputation
  intro h
  obtain ⟨u, hu, -, -, -, hpreds, -⟩ :=
    (h predicateOneTurn 0 0 ⟨0, false⟩ 65 0 0 0 0).1 predicateOneTurn_issues (.mul ⟨0, false⟩ 65 0 0) (by simp)
  have hmul := ((laterResults predicateOneTurn 0 0 ⟨0, false⟩ 65 0 0 0).1 predicateOneTurn_issues).1
  cases hu.symm.trans hmul
  exact absurd hpreds (by decide)

end Sys2Proof.Machine

/-! SUPPORT. Conversions and handle offsets (R183, R189). -/
namespace Sys2Proof.Machine

/-- The value of a conversion in the spec's terms (R189). -/
theorem fcvtS_eq (kind : FcvtKind) (mode : FMode) (x : Word64) : fcvtS kind mode x =
    let m := FMode.code mode
    let f32 := fpVal fmtF32 (x.toNat % 2 ^ 32)
    match kind with
    | .i64F32 => BitVec.ofInt 64 (roundToInt m 0 64 f32)
    | .f32I64 => BitVec.ofNat 64 (roundIeee fmtF32 m 0 (fpOfInt x.toInt))
    | .i32F32 => BitVec.ofInt 64 (roundToInt m 0 32 f32)
    | .f32I32 => BitVec.ofNat 64 (roundIeee fmtF32 m 0 (fpOfInt (x.truncate 32).toInt))
    | .bf16F32 => BitVec.ofNat 64 (roundIeee fmtBf16 m 0 f32)
    | .f32Bf16 => BitVec.ofNat 64 (roundIeee fmtF32 m 0 (fpVal fmtBf16 (x.toNat % 2 ^ 16)))
    | .f16F32 => BitVec.ofNat 64 (roundIeee fmtF16 m 0 f32)
    | .f32F16 => BitVec.ofNat 64 (roundIeee fmtF32 m 0 (fpVal fmtF16 (x.toNat % 2 ^ 16))) := by
  cases kind with
  | f32I32 => simp only [fcvtS, sextInt, BitVec.ofNat_toNat]
  | i64F32 | f32I64 | i32F32 | bf16F32 | f32Bf16 | f16F32 | f32F16 => rfl

/-- The address of a handle of the table (R183). -/
theorem hoffS_handle {x : Core} {n : Nat} {y : Handle} (a : Word64) (hn : n ≠ 0) (hy : x.handles[n]? = some y) :
    hoffS x n a =
      let i := fun d => a.toNat / 2 ^ (16 * d) % 2 ^ 16
      BitVec.ofNat 64 (y.base + (i 0 * y.unitBits / 8 + ((List.range (y.ndim - 1)).map fun d => i (d + 1) * y.stride.getD d 0).sum)
        + if y.space = 0 then x.af * 65536 else 0) := by
  have hlt : n < x.handles.length := (List.getElem?_eq_some_iff.1 hy).1
  have hfound : x.handle n = some y := by rw [Core.handle, if_pos hlt, hy]
  simp only [hoffS, if_neg hn, hfound]
  rfl

section
variable {s : State} {c k : Nat} {g : Guard} {d a h : Nat}

/-- HOFF of a handle that the table has. -/
theorem execHoff_issues (hi : s.Issues c k g [d, a]) (hh : ¬((s.core c).handles.length ≤ h ∧ h ≠ 0)) {v : Word64}
    (hv : hoffS (s.core c) h ((s.found c k g [d, a]).readS a) = v) :
    execHoff g d a h s = .next ((s.setStrand c k ((s.found c k g [d, a]).issue s.cycle.toNat 3 (.hoff g d a h) d v
      ((s.found c k g [d, a]).readS a) 0 0)).past c k ((s.found c k g [d, a]).pc + 8)) := by
  have hcore : hoffS ((s.core c).setStrand k (s.found c k g [d, a])) h = hoffS (s.core c) h := rfl
  have hlen : ((s.core c).setStrand k (s.found c k g [d, a])).handles = (s.core c).handles := rfl
  rw [execHoff, State.coxRun_issues hi]
  simp only [State.core_issued, hcore, hlen, ge_iff_le, if_neg hh, hv, State.issued_cycle]
  rw [State.past_issued_setStrand]
  rfl

/-- HOFF of a handle beyond the table traps with HANDLE (R407). -/
theorem execHoff_traps (hi : s.Issues c k g [d, a]) (hn : h ≠ 0) (hh : (s.core c).handles.length ≤ h)
    (hl : (s.found c k g [d, a]).loads.any (·.val.isNone) = false) :
    execHoff g d a h s = .next ((s.issued c k g [d, a]).takeTrap c k 0x304 (BitVec.ofNat 64 h) 0) := by
  have hlen : ((s.core c).setStrand k (s.found c k g [d, a])).handles = (s.core c).handles := rfl
  rw [execHoff]
  exact State.coxRun_trap hi hl (by decide) (by rw [State.core_issued, hlen, if_pos ⟨hh, hn⟩])

end

/-- Settles O6: the values are the spec's, each written as due in 3 cycles. -/
theorem conversionsAndHandleOffsets : Obligations.ConversionsAndHandleOffsets := by
  unfold Obligations.ConversionsAndHandleOffsets
  intro s c k g d a h hi t x
  refine ⟨fun kind mode => ?fcvt, fun h0 => ?flat, fun y hn hy => ?handle, fun hh hl => ?beyond⟩
  case fcvt =>
    intro m f32 v
    have hv : fcvtS kind mode x = v := fcvtS_eq kind mode x
    rw [exec_fcvt, execFcvt, ← hv]
    exact State.slow_issues hi
  case flat => rw [exec_hoff]; exact execHoff_issues hi (fun hh => hh.2 h0) (if_pos h0)
  case handle =>
    rw [exec_hoff]
    exact execHoff_issues hi (fun hh => absurd (List.getElem?_eq_none hh.1) (by simp [hy])) (hoffS_handle x hn hy)
  case beyond => rw [exec_hoff]; exact execHoff_traps hi hh.1 hh.2 hl

end Sys2Proof.Machine

/-! SUPPORT. What an access that is made leaves alone beside its bytes: translations, counter caches and channel counts are all that move (R81, R85, R91). -/
namespace Sys2Proof.Machine

/-! ## Changes of a core, in a field that is put aside -/

theorem State.core_onCore_congr {α : Type} (s : State) (c : Nat) {f : Core → Core} (p : Core → α) (hf : ∀ x, p (f x) = p x) (d : Nat) :
    p ((s.onCore c f).core d) = p (s.core d) := by
  by_cases e : d = c
  · subst e; rw [State.onCore, State.core_setCore_self, hf]
  · rw [State.onCore, State.core_setCore_other _ _ e]

theorem State.die_onDie_congr {α : Type} (s : State) (c : Nat) {f : Die → Die} (p : Die → α) (hf : ∀ x, p (f x) = p x) (d : Nat) :
    p ((s.onDie c f).die d) = p (s.die d) := by
  by_cases e : d = c
  · subst e; simp [State.onDie, State.setDie, State.die, hf]
  · simp [State.onDie, State.setDie, State.die, tabGet_put_other _ _ _ e]

/-! ## Accesses that only fill caches -/

def Core.uncached (x : Core) : Core := { x with tlb := [] }
def Die.uncounted (x : Die) : Die := { x.bare with access := [] }
def State.uncachedRest (s : State) : State := { s.bare with cores := [], crewTlb := [], mseTlb := [], arrivals := [] }

/-- A change of a state that an access leaves which is made: TLBs, counter caches, channel counts and its place behind held regions. Every other field is equal by `congrArg` of `rest`, `core` or `die`. -/
structure State.OnlyCaches (s u : State) : Prop where
  rest : u.uncachedRest = s.uncachedRest
  core : ∀ c, (u.core c).uncached = (s.core c).uncached
  die : ∀ d, (u.die d).uncounted = (s.die d).uncounted

theorem State.OnlyCaches.refl (s : State) : s.OnlyCaches s := ⟨rfl, fun _ => rfl, fun _ => rfl⟩

theorem State.OnlyCaches.trans {s t u : State} (h : s.OnlyCaches t) (g : t.OnlyCaches u) : s.OnlyCaches u :=
  ⟨g.rest.trans h.rest, fun c => (g.core c).trans (h.core c), fun d => (g.die d).trans (h.die d)⟩

theorem State.OnlyLines.onlyCaches {s u : State} (h : s.OnlyLines u) : s.OnlyCaches u :=
  ⟨congrArg (fun t : State => ({ t with cores := [], crewTlb := [], mseTlb := [], arrivals := [] } : State)) h.rest,
    fun c => by rw [State.core, h.cores, State.core], fun d => congrArg (fun x : Die => { x with access := [] }) (h.die d)⟩

theorem State.OnlyCaches.mem {s u : State} (h : s.OnlyCaches u) : u.mem = s.mem := have e := congrArg State.mem h.rest; e
theorem State.OnlyCaches.parts {s u : State} (h : s.OnlyCaches u) : u.parts = s.parts := have e := congrArg State.parts h.rest; e
theorem State.OnlyCaches.queues {s u : State} (h : s.OnlyCaches u) : u.queues = s.queues := have e := congrArg State.queues h.rest; e
theorem State.OnlyCaches.strands {s u : State} (h : s.OnlyCaches u) (c : Nat) : (u.core c).strands = (s.core c).strands :=
  have e := congrArg Core.strands (h.core c); e

theorem State.OnlyCaches.strand {s u : State} (h : s.OnlyCaches u) (c k : Nat) : u.strand c k = s.strand c k := by
  rw [State.strand, Core.strand, h.strands, State.strand, Core.strand]

section
variable (s : State) (w : Who)

theorem State.onCore_onlyCaches (c : Nat) {f : Core → Core} (hf : ∀ x, (f x).uncached = x.uncached) : s.OnlyCaches (s.onCore c f) :=
  ⟨rfl, fun d => State.core_onCore_congr s c Core.uncached hf d, fun _ => rfl⟩

theorem State.onDie_onlyCaches (d : Nat) {f : Die → Die} (hf : ∀ x, (f x).uncounted = x.uncounted) : s.OnlyCaches (s.onDie d f) :=
  ⟨rfl, fun _ => rfl, fun e => State.die_onDie_congr s d Die.uncounted hf e⟩

theorem State.setCrewTlb_onlyCaches (x : Tab (List TlbEntry)) : s.OnlyCaches { s with crewTlb := x } := ⟨rfl, fun _ => rfl, fun _ => rfl⟩
theorem State.setMseTlb_onlyCaches (x : Tab (List TlbEntry)) : s.OnlyCaches { s with mseTlb := x } := ⟨rfl, fun _ => rfl, fun _ => rfl⟩
theorem State.setArrivals_onlyCaches (x : List (ReqFor × Nat)) : s.OnlyCaches { s with arrivals := x } := ⟨rfl, fun _ => rfl, fun _ => rfl⟩

theorem State.fillTlb_onlyCaches (e : TlbEntry) : s.OnlyCaches (s.fillTlb w e) := by
  unfold State.fillTlb
  split
  · refine State.OnlyCaches.trans ?_ (State.setCrewTlb_onlyCaches _ _)
    exact State.onCore_onlyCaches s _ fun _ => rfl
  · split
    · exact State.setMseTlb_onlyCaches s _
    · exact .refl s

theorem State.foldl_onlyCaches {α : Type} (f : State → α → State) (h : ∀ s a, State.OnlyCaches s (f s a)) (l : List α) (s : State) :
    s.OnlyCaches (l.foldl f s) := by
  induction l generalizing s with
  | nil => exact .refl s
  | cons a l ih => exact (h s a).trans (ih _)

theorem State.serve_onlyCaches (p : Piece) : s.OnlyCaches (s.serve p) := by
  unfold State.serve
  split
  · refine State.OnlyCaches.trans ?_ (State.onDie_onlyCaches _ _ fun _ => rfl)
    exact State.foldl_onlyCaches _ (fun t _ => (State.cacheLine_onlyLines t _).onlyCaches) _ s
  · exact .refl s

theorem State.fillAll_onlyCaches (ps : List (Piece × TlbEntry)) : s.OnlyCaches (s.fillAll w ps) :=
  (State.foldl_onlyCaches _ (fun t p => (State.fillTlb_onlyCaches t w p.2).trans (State.serve_onlyCaches _ p.1)) ps s).trans
    (State.setArrivals_onlyCaches _ _)

end

section
variable {s u : State} {w : Who} {k : AKind} {va n : Nat} {b : ByteList}

theorem State.readG_onlyCaches (h : s.readG w k va n = .ok (b, u)) : s.OnlyCaches u := by
  unfold State.readG at h
  split at h
  · cases h; exact .refl s
  split at h
  · cases h
  split at h
  · cases h
  split at h
  · cases h
  · cases h; exact State.fillAll_onlyCaches s w _

theorem State.readV_onlyCaches (h : s.readV w k va n = .ok (b, u)) : s.OnlyCaches u := by
  unfold State.readV at h
  split at h
  · split at h
    · cases h; exact State.fillAll_onlyCaches s w _
    · cases h
  · exact State.readG_onlyCaches h

end

/-! ## Bytes of a table -/

/-- Zeros behind a list of bytes leave its number. -/
theorem leNat_append_zeros (l : ByteList) (n : Nat) : leNat (l ++ List.replicate n 0) = leNat l := by
  induction l with
  | nil => induction n with
    | zero => rfl
    | succ n ih =>
      rw [List.replicate_succ]
      exact congrArg (fun v => 0 + 256 * v) ih
  | cons b r ih => simp only [List.cons_append, leNat, ih]

theorem field_eq_leNat_take (l : ByteList) (off n : Nat) : field l off n = leNat ((l.drop off).take n) := by
  unfold field slice
  exact leNat_append_zeros _ _

end Sys2Proof.Machine

/-! SUPPORT. Branches, calls, returns, counted loops and DSPT (R190 to R197, R407). -/
namespace Sys2Proof.Machine

/-! ## Targets -/

theorem bitsOf_high_eq_zero (a : Word64) : bitsOf a 63 57 = 0 ↔ a.toNat < 2 ^ 57 := by
  have h := a.isLt
  unfold bitsOf fld
  omega

theorem targetOk_iff (a : Word64) : targetOk a = true ↔ a.toNat % 4 = 0 ∧ a.toNat < 2 ^ 57 := by
  have hlow : bitsOf a 1 0 = a.toNat % 4 := by simp [bitsOf, fld]
  rw [targetOk, Bool.and_eq_true, beq_iff_eq, beq_iff_eq, hlow, bitsOf_high_eq_zero]

theorem goTo_ok (u : State) {a : Word64} (h : a.toNat % 4 = 0 ∧ a.toNat < 2 ^ 57) : goTo u a = .jump u a :=
  if_pos ((targetOk_iff a).2 h)

theorem goTo_bad (u : State) {a : Word64} (h : ¬(a.toNat % 4 = 0 ∧ a.toNat < 2 ^ 57)) : goTo u a = .trap 0x102 a 0 :=
  if_neg fun hok => h ((targetOk_iff a).1 hok)

section
variable {s : State} {c k : Nat} {g : Guard} {long : Bool} {uses : List Nat} {f : Nat → Nat → Strand → State → Eff} {w : Strand} {a : Word64}

/-- A word that goes to a target with its strand changed goes there, or traps with BADTARGET and leaves the strand as it was. -/
theorem State.coxRun_goTo (h : s.Issues c k g uses) (hf : f c k (s.found c k g uses) (s.issued c k g uses) = goTo ((s.issued c k g uses).setStrand c k w) a) :
    (a.toNat % 4 = 0 ∧ a.toNat < 2 ^ 57 → s.coxRun long g uses f = .next ((s.setStrand c k w).past c k a))
      ∧ (¬(a.toNat % 4 = 0 ∧ a.toNat < 2 ^ 57) → (s.found c k g uses).loads.any (·.val.isNone) = false →
          s.coxRun long g uses f = .next ((s.issued c k g uses).takeTrap c k 0x102 a 0)) := by
  constructor
  · intro hok
    rw [State.coxRun_jump h (hf.trans (goTo_ok _ hok)), State.past_issued_setStrand]
  · intro hbad hl
    exact State.coxRun_trap h hl (by decide) (hf.trans (goTo_bad _ hbad))

end

theorem State.issued_setStrand_found (s : State) (c k : Nat) (g : Guard) (uses : List Nat) :
    (s.issued c k g uses).setStrand c k (s.found c k g uses) = s.issued c k g uses := by simp [State.issued]

theorem Strand.readS_zero (t : Strand) : t.readS 0 = 0 := rfl

/-! ## Counted loops (R194) -/

section
variable {s : State} {c k d : Nat} {g : Guard} {long : Bool} {off : Word64}

theorem State.coxRun_loop_ends (h : s.Issues c k g [d]) (hn : (s.found c k g [d]).readS d - 1 = 0) :
    s.coxRun long g [d] (fun c k t u => loopEff d off c k t u)
      = .next ((s.setStrand c k ((s.found c k g [d]).writeS d ((s.found c k g [d]).readS d - 1))).past c k
          ((s.found c k g [d]).pc + wordBytes long)) := by
  rw [State.coxRun_done h (if_pos hn), State.past_issued_setStrand]

theorem State.coxRun_loop_branches (h : s.Issues c k g [d]) (hn : (s.found c k g [d]).readS d - 1 ≠ 0)
    (hok : ((s.found c k g [d]).pc + 4 * off).toNat % 4 = 0 ∧ ((s.found c k g [d]).pc + 4 * off).toNat < 2 ^ 57) :
    s.coxRun long g [d] (fun c k t u => loopEff d off c k t u)
      = .next ((s.setStrand c k ((s.found c k g [d]).writeS d ((s.found c k g [d]).readS d - 1))).past c k
          ((s.found c k g [d]).pc + 4 * off)) :=
  (State.coxRun_goTo h (if_neg hn)).1 hok

end

/-! ## The table of DSPT (R196) -/

/-- Capacity and target offset of a bucket. -/
def bucketCap (b : ByteList) (n : Nat) : Nat := field b (8 * n) 4
def bucketOff (b : ByteList) (n : Nat) : Word64 := (BitVec.ofNat 32 (field b (8 * n + 4) 4)).signExtend 64

theorem field_drop (b : ByteList) (i off n : Nat) : field (b.drop i) off n = field b (i + off) n := by
  rw [field_eq_leNat_take, field_eq_leNat_take, List.drop_drop]

theorem bucketCap_drop (b : ByteList) (n : Nat) : bucketCap (b.drop 8) n = bucketCap b (n + 1) := by
  rw [bucketCap, field_drop, bucketCap, show 8 + 8 * n = 8 * (n + 1) by omega]

theorem bucketOff_drop (b : ByteList) (n : Nat) : bucketOff (b.drop 8) n = bucketOff b (n + 1) := by
  rw [bucketOff, field_drop, bucketOff, show 8 + (8 * n + 4) = 8 * (n + 1) + 4 by omega]

/-- The search of a table by its first bucket. -/
theorem bucketFor_succ (count n : Nat) (b : ByteList) :
    bucketFor count (n + 1) b = if count ≤ bucketCap b 0 then some (bucketCap b 0, bucketOff b 0) else bucketFor count n (b.drop 8) := by
  simp only [bucketFor, bucketCap, bucketOff, field_eq_leNat_take, Nat.mul_zero, Nat.zero_add, List.drop_zero]
  rfl

theorem bucketFor_first {count n : Nat} : ∀ {total : Nat} {b : ByteList}, n < total → (∀ m, m < n → bucketCap b m < count) → count ≤ bucketCap b n →
    bucketFor count total b = some (bucketCap b n, bucketOff b n) := by
  induction n with
  | zero =>
    intro total b ht _ hn
    obtain ⟨r, rfl⟩ := Nat.exists_eq_add_of_lt ht
    rw [Nat.zero_add, bucketFor_succ, if_pos hn]
  | succ n ih =>
    intro total b ht hbelow hn
    obtain ⟨r, rfl⟩ : ∃ r, total = r + 1 := ⟨total - 1, by omega⟩
    rw [bucketFor_succ, if_neg (Nat.not_le.2 (hbelow 0 (Nat.succ_pos n))), ← bucketCap_drop, ← bucketOff_drop]
    exact ih (by omega) (fun m hm => by rw [bucketCap_drop]; exact hbelow (m + 1) (by omega)) (by rwa [bucketCap_drop])

theorem bucketFor_none {count total : Nat} : ∀ {b : ByteList}, (∀ m, m < total → bucketCap b m < count) → bucketFor count total b = none := by
  induction total with
  | zero => intro b _; rfl
  | succ total ih =>
    intro b hall
    rw [bucketFor_succ, if_neg (Nat.not_le.2 (hall 0 (Nat.succ_pos total)))]
    exact ih fun m hm => by rw [bucketCap_drop]; exact hall (m + 1) (by omega)

section
variable {d a nb c k : Nat} {b : ByteList} {t : Strand} {u : State}

theorem dsptGo_bucket {n : Nat} (hn : n < nb) (hbelow : ∀ m, m < n → bucketCap b m < (t.readS a).toNat) (hcap : (t.readS a).toNat ≤ bucketCap b n) :
    dsptGo d a nb b c k t u = goTo (u.setStrand c k (t.writeS d (BitVec.ofNat 64 (bucketCap b n)))) (t.pc + bucketOff b n) := by
  rw [dsptGo, bucketFor_first hn hbelow hcap]

theorem dsptGo_none (hall : ∀ m, m < nb → bucketCap b m < (t.readS a).toNat) :
    dsptGo d a nb b c k t u = .done (u.setStrand c k (t.writeS d (t.readS a))) := by
  rw [dsptGo, bucketFor_none hall]

end

/-! ## DSPT -/

section
variable {s v : State} {c k d a nb : Nat} {g : Guard} {tab : DsptTable} {bytes : ByteList} {y : Strand}

/-- DSPT whose table has been read in some state goes on as its first bucket says. -/
theorem State.coxRun_dspt {f : Nat → Nat → Strand → State → Eff} (h : s.Issues c k g [d, a]) (hpc : y.pc = (s.found c k g [d, a]).pc)
    (hf : f c k (s.found c k g [d, a]) (s.issued c k g [d, a]) = dsptGo d a (nb + 1) bytes c k y v) :
    (∀ n, n ≤ nb → (∀ m, m < n → bucketCap bytes m < (y.readS a).toNat) → (y.readS a).toNat ≤ bucketCap bytes n →
      ((s.found c k g [d, a]).pc + bucketOff bytes n).toNat % 4 = 0 ∧ ((s.found c k g [d, a]).pc + bucketOff bytes n).toNat < 2 ^ 57 →
        s.coxRun true g [d, a] f = .next ((v.setStrand c k (y.writeS d (BitVec.ofNat 64 (bucketCap bytes n)))).past c k
          ((s.found c k g [d, a]).pc + bucketOff bytes n)))
    ∧ ((∀ m, m ≤ nb → bucketCap bytes m < (y.readS a).toNat) →
        s.coxRun true g [d, a] f = .next ((v.setStrand c k (y.writeS d (y.readS a))).past c k ((s.found c k g [d, a]).pc + 8))) := by
  constructor
  · intro n hn hbelow hcap hok
    rw [← hpc] at hok
    rw [← hpc]
    exact State.coxRun_jump h (hf.trans ((dsptGo_bucket (by omega) hbelow hcap).trans (goTo_ok _ hok)))
  · intro hall
    exact State.coxRun_done h (hf.trans (dsptGo_none fun m hm => hall m (by omega)))

end

/-- Settles O7: each transfer goes through `goTo`, the loop through its count, and DSPT through the search of its table. -/
theorem controlTransfers : Obligations.ControlTransfers := by
  unfold Obligations.ControlTransfers
  refine ⟨fun s c k g d a i j e => ?transfers, fun s c k g d i e h => ?loops, fun s c k g d a nb tab bytes v h => ?dspt⟩
  case transfers =>
    intro ends
    refine ⟨fun h => ?br, fun h => ?call, fun h => ?ret, fun h => ?jr⟩
    case br =>
      simp only [ends, exec_br, exec_brLong, execBr, execBrLong]
      exact ⟨State.coxRun_goTo h (by rw [State.issued_setStrand_found]), State.coxRun_goTo h (by rw [State.issued_setStrand_found]; rfl)⟩
    case call =>
      simp only [ends, exec_call, exec_callLong, execCall, execCallLong]
      exact ⟨State.coxRun_goTo h rfl, State.coxRun_goTo h rfl⟩
    case ret =>
      simp only [ends, exec_ret, execRet]
      exact State.coxRun_goTo h (by rw [State.issued_setStrand_found])
    case jr =>
      simp only [ends, exec_jr, execJr]
      exact State.coxRun_goTo h rfl
  case loops =>
    intro t n ends
    refine ⟨?short, ?long, fun hd => ?zero⟩
    case short =>
      simp only [ends, exec_loop, execLoop]
      exact ⟨State.coxRun_loop_ends h, State.coxRun_loop_branches h⟩
    case long =>
      simp only [ends, exec_loopLong, execLoopLong]
      exact ⟨State.coxRun_loop_ends h, State.coxRun_loop_branches h⟩
    case zero =>
      subst hd
      show t.readS 0 - 1 ≠ 0
      rw [Strand.readS_zero]
      decide
  case dspt =>
    intro t u htab cap go y
    rw [exec_dspt, execDspt]
    cases tab with
    | rel e =>
      obtain ⟨hlt, halign, hpage, ⟨pl, hpl, hown⟩, hread⟩ := htab
      have hy : v.strand c k = t := by
        rw [(State.readV_onlyCaches hread).strand, State.strand_issued _ _ _ _ h.slot]
      have hext : extVal e = e.signExtend 64 := rfl
      have hplace : u.placeOf c k .g (BitVec.ofNat 64 (t.pc + e.signExtend 64).toNat) (8 * (nb + 1)) .read false false = .ok pl := by
        rw [BitVec.ofNat_toNat, BitVec.setWidth_eq, hpl]
      have htable : dsptRead u c k (t.pc + e.signExtend 64).toNat (8 * (nb + 1)) = .ok (some (bytes, v)) := by
        simp only [dsptRead, hplace, hown, hread, Bool.false_eq_true, if_false, Except.map]
      refine State.coxRun_dspt h (congrArg Strand.pc hy) ?_
      simp only [hext]
      have hform : ¬((t.pc + e.signExtend 64).toNat % 8 ≠ 0 ∨ (t.pc + e.signExtend 64).toNat % 65536 + 8 * (nb + 1) > 65536) := by omega
      rw [if_neg (not_not_intro ((bitsOf_high_eq_zero _).2 hlt)), if_neg hform, htable]
    | loc off =>
      obtain ⟨halign, hpage, rfl, hread, hown⟩ := htab
      refine State.coxRun_dspt h rfl ?_
      have htable : (s.issued c k g [d, a]).readLocalChecked c off.toNat (8 * (nb + 1)) = .ok bytes := hread
      dsimp only
      rw [if_neg (by omega), htable]
      exact if_neg (Bool.not_eq_true _ ▸ hown)

end Sys2Proof.Machine

/-! SUPPORT. Loads, stores and atomics: what they find wrong with an address, and what they do inside the module (R78, R202, R206 to R209, R407). -/
namespace Sys2Proof.Machine

/-! ## Addresses that trap -/

section
variable {s : State} {c k n : Nat} {sp : Space} {ea : Word64} {kind : AKind} {mustAlign noLocal : Bool}

theorem State.placeOf_badForm (h : s.badForm c sp ea n = true) : s.placeOf c k sp ea n kind mustAlign noLocal = .error ⟨0x301, ea, 0⟩ := by
  unfold State.placeOf
  rw [if_pos h]

theorem State.placeOf_misaligned (h : s.badForm c sp ea n = false) (hm : mustAlign = true) (ha : ea.toNat % n ≠ 0) :
    s.placeOf c k sp ea n kind mustAlign noLocal = .error ⟨0x302, ea, 0⟩ := by
  unfold State.placeOf
  rw [if_neg (by simp [h]), if_pos ⟨hm, ha⟩]

theorem State.placeOf_notHere (h : s.badForm c sp ea n = false) (ha : mustAlign = true → ea.toNat % n = 0)
    (hs : (noLocal = true ∧ sp = .l) ∨ s.foreignPeer c sp ea = true) : s.placeOf c k sp ea n kind mustAlign noLocal = .error ⟨0x303, ea, 0⟩ := by
  unfold State.placeOf
  rw [if_neg (by simp [h]), if_neg fun hm => hm.2 (ha hm.1), if_pos hs]

end

section
variable {u : State} {c k d : Nat} {t : Strand} {sz : Size} {sp : Space} {cz sgn : Bool} {ea : Word64} {x : Cause} {pl : Place}

theorem ldEff_error (h : u.placeOf c k sp ea (sizeBytes sz) .read cz cz = .error x) : ldEff u c k d t sz sp cz sgn ea = .trap x.code x.info x.info1 := by
  simp only [ldEff, h]

theorem stEff_error (h : u.placeOf c k sp ea (sizeBytes sz) .write cz cz = .error x) : stEff u c k d t sz sp cz ea = .trap x.code x.info x.info1 := by
  simp only [stEff, h]

/-- A load whose place may be read at once: what is kept of it depends on where its bytes lie, and on whether it is causal. -/
theorem ldEff_ok (h : u.placeOf c k sp ea (sizeBytes sz) .read cz cz = .ok pl) (hdev : pl.touchesDevice = false) (hheld : u.placeHeld c k pl = none)
    (hown : u.ownOrder c k pl.keys = false) (hcz : cz = true → pl.outside = false → t.causalWaits = false) (hcause : u.placeCause c k false false pl = none) :
    ldEff u c k d t sz sp cz sgn ea =
      let n := sizeBytes sz
      let v := (u.usePlace c k pl).issueItem c k true (spanOf c sp ea n)
      let id := u.nextId
      if pl.outside then .done ((v.holdLoad c k ⟨id, d, none, 0, true, n, sgn, none, 0, none, none, t.pc.toNat⟩).askOutside c k id n ea pl)
      else if cz then .done (v.holdLoad c k ⟨id, d, none, 0, true, n, sgn, none, pl.keys.headD 0, some pl.homeDie, pl.dpa, t.pc.toNat⟩)
      else .done (v.holdLoad c k ⟨id, d, some (loadVal n sgn (u.readPlace pl)), 0, true, n, sgn, none, 0, none, none, t.pc.toNat⟩) := by
  have hwait : (u.ownOrder c k pl.keys || (cz && !pl.outside && t.causalWaits)) = false := by
    rw [hown, Bool.false_or]
    cases cz <;> cases ho : pl.outside <;> simp_all
  simp only [ldEff, h, hdev, hheld, hwait, hcause, Bool.false_eq_true, if_false]

theorem stEff_ok (h : u.placeOf c k sp ea (sizeBytes sz) .write cz cz = .ok pl) (hdev : pl.touchesDevice = false) (hheld : u.placeHeld c k pl = none)
    (hown : u.ownOrder c k pl.keys = false) (hcz : cz = true → pl.outside = false → t.causalWaits = false)
    (hcause : u.placeCause c k true (decide (sizeBytes sz = 8 ∧ ea.toNat % 8 = 0)) pl = none) :
    stEff u c k d t sz sp cz ea =
      let n := sizeBytes sz
      let v := (u.usePlace c k pl).issueItem c k false (spanOf c sp ea n)
      let b := leBytes n (t.readS d).toNat
      if pl.outside then .done (v.storePieces c k u.nextId b pl)
      else if cz then .done (v.causalStore c k u.nextId pl b)
      else .done (v.writePlace c b pl) := by
  have hwait : (u.ownOrder c k pl.keys || (cz && !pl.outside && t.causalWaits)) = false := by
    rw [hown, Bool.false_or]
    cases cz <;> cases ho : pl.outside <;> simp_all
  simp only [stEff, h, hdev, hheld, hwait, hcause, Bool.false_eq_true, if_false]

end

/-- Settles O12: the checks of an address come in the order of their causes. -/
theorem accessFaults : Obligations.AccessFaults := by
  unfold Obligations.AccessFaults
  intro s c k g d a sz sp cz sgn h t u n ea traps hl
  have htraps : ∀ cause, ¬ cause < 4 → (∀ kind, u.placeOf c k sp ea n kind cz cz = .error ⟨cause, ea, 0⟩) → traps cause := by
    intro cause hc hplace
    simp only [traps, exec_ld, exec_st, execLd, execSt]
    exact ⟨State.coxRun_trap h hl hc (ldEff_error (hplace _)), State.coxRun_trap h hl hc (stEff_error (hplace _))⟩
  refine ⟨fun hbad => htraps 0x301 (by decide) fun _ => State.placeOf_badForm hbad,
    fun hok hcz halign => htraps 0x302 (by decide) fun _ => State.placeOf_misaligned hok hcz halign,
    fun hok hcz halign hsp => htraps 0x303 (by decide) fun _ => State.placeOf_notHere hok (fun _ => halign) (.inl ⟨hcz, hsp⟩),
    fun hok halign hpeer => htraps 0x303 (by decide) fun _ => State.placeOf_notHere hok halign (.inr hpeer)⟩

/-- The load that a plain LD inside the module keeps extends its bytes (R202). -/
theorem loadVal_eq (n : Nat) (sgn : Bool) (b : ByteList) :
    loadVal n sgn b = if sgn then (BitVec.ofNat (8 * n) (leNat b)).signExtend 64 else BitVec.ofNat 64 (leNat b) := rfl

/-- Settles O10: inside the module the load is kept with its value, or with its home die when it is causal. -/
theorem loadsInsideTheModule : Obligations.LoadsInsideTheModule := by
  unfold Obligations.LoadsInsideTheModule
  intro s c k g d a sz sp cz sgn e h t u n ends
  have heff : ∀ ea pl, u.placeOf c k sp ea n .read cz cz = .ok pl → pl.touchesDevice = false → pl.outside = false → u.placeHeld c k pl = none →
      u.ownOrder c k pl.keys = false → (cz = true → t.causalWaits = false) → u.placeCause c k false false pl = none →
      ∃ l, ldEff u c k d t sz sp cz sgn ea = .done (((u.usePlace c k pl).issueItem c k true (spanOf c sp ea n)).holdLoad c k l)
        ∧ l.item = s.nextId ∧ l.dst = d ∧ l.pd = 0 ∧ (cz = false → l.val = some (loadVal n sgn (u.readPlace pl)))
        ∧ (cz = true → l.val = none ∧ l.home = some pl.homeDie) := by
    intro ea pl hplace hdev hout hheld hown hcz hcause
    rw [ldEff_ok hplace hdev hheld hown (fun hc _ => hcz hc) hcause]
    cases cz with
    | true =>
      simp only [hout, Bool.false_eq_true, if_false, if_true]
      exact ⟨_, rfl, rfl, rfl, rfl, fun hc => absurd hc (by decide), fun _ => ⟨rfl, rfl⟩⟩
    | false =>
      simp only [hout, Bool.false_eq_true, if_false]
      exact ⟨_, rfl, rfl, rfl, rfl, fun _ => rfl, fun hc => absurd hc (by decide)⟩
  constructor
  · intro pl hplace hdev hout hheld hown hcz hcause
    obtain ⟨l, hl, hrest⟩ := heff _ pl hplace hdev hout hheld hown hcz hcause
    rw [exec_ld, execLd]
    exact ⟨l, State.coxRun_done h hl, hrest⟩
  · intro pl hplace hdev hout hheld hown hcz hcause
    obtain ⟨l, hl, hrest⟩ := heff _ pl hplace hdev hout hheld hown hcz hcause
    rw [exec_ldLong, execLdLong]
    exact ⟨l, State.coxRun_done h hl, hrest⟩

/-! ## Atomics -/

section
variable {u : State} {c k : Nat} {sp : Space} {sz : AmoSize} {ea : Word64} {toHost : Bool} {kind : Nat} {b : ByteList}
  {load : Option Word64 → Nat → Load} {new : Nat → Option Nat} {pl : Place}

section
variable (hplace : u.placeOf c k sp ea (amoBytes sz) .atomic true false = .ok pl) (hdev : pl.touchesDevice = false) (hout : pl.outside = false)
  (hhost : u.onHost c k sp ea = false) (hheld : u.placeHeld c k pl = none) (hown : u.ownOrder c k pl.keys = false)
  (hcause : u.placeCause c k true false pl = none)
include hplace hdev hout hhost hheld hown hcause

/-- An atomic inside the module keeps its old value, and writes the new one where there is one. -/
theorem amoEff_writes {m : Nat} (hnew : new (leNat (u.readPlace pl)) = some m) :
    amoEff u c k sp sz ea toHost kind b load new
      = .done ((((u.usePlace c k pl).issueItem c k true (spanOf c sp ea (amoBytes sz))).holdLoad c k
          (load (some (BitVec.ofNat 64 (leNat (u.readPlace pl)))) u.nextId)).writePlace c (leBytes (amoBytes sz) m) pl) := by
  simp only [amoEff, hhost, Bool.and_false, hplace, hdev, hheld, hown, hcause, hout, hnew, Bool.false_eq_true, if_false]

theorem amoEff_keeps (hnew : new (leNat (u.readPlace pl)) = none) :
    amoEff u c k sp sz ea toHost kind b load new
      = .done (((u.usePlace c k pl).issueItem c k true (spanOf c sp ea (amoBytes sz))).holdLoad c k
          (load (some (BitVec.ofNat 64 (leNat (u.readPlace pl)))) u.nextId)) := by
  simp only [amoEff, hhost, Bool.and_false, hplace, hdev, hheld, hown, hcause, hout, hnew, Bool.false_eq_true, if_false]

end

/-- An atomic that tier 2 does not take traps there with SPACEUSE (R209). -/
theorem amoEff_onHost (hform : u.badForm c sp ea (amoBytes sz) = false) (halign : ea.toNat % amoBytes sz = 0) (hhost : u.onHost c k sp ea = true) :
    amoEff u c k sp sz ea false kind b load new = .trap 0x303 ea 0 := by
  simp [amoEff, hform, halign, hhost]

end

/-- The function of AMO in the spec's terms (R207). -/
theorem amoFun_eq (op : AmoOp) (w old o : Nat) : amoFun op w old o =
    let x := BitVec.ofNat w old
    let y := BitVec.ofNat w o
    (match op with
    | .add => x + y
    | .and => x &&& y
    | .or => x ||| y
    | .xor => x ^^^ y
    | .min => if x.toInt ≤ y.toInt then x else y
    | .max => if x.toInt ≥ y.toInt then x else y
    | .minu => if x.toNat ≤ y.toNat then x else y
    | .maxu => if x.toNat ≥ y.toNat then x else y
    | .swap => y : BitVec w).toNat := by
  cases op with
  | add | and | or | xor | swap => rfl
  | min | max => simp only [amoFun, BitVec.sle_iff_toInt_le, ge_iff_le]
  | minu | maxu => simp only [amoFun, BitVec.ule_iff_toNat_le, ge_iff_le]

theorem ofNat_mod_two_pow (w n : Nat) : BitVec.ofNat w (n % 2 ^ w) = BitVec.ofNat w n := by
  apply BitVec.eq_of_toNat_eq
  simp

/-- Settles O14: AMO and CAS share the access, and differ in the value they write. -/
theorem atomicsInsideTheModule : Obligations.AtomicsInsideTheModule := by
  unfold Obligations.AtomicsInsideTheModule
  intro s c k g d a b pd sp sz sc pl n free
  refine ⟨fun op h => ?amo, fun h => ?cas, fun op hadd hswap h => ?host⟩
  case amo =>
    intro t u ea hfree x o f
    obtain ⟨hplace, hdev, hout, hhost, hheld, hown, hcause⟩ := hfree
    have hvalue : amoFun op (8 * n) (leNat (u.readPlace pl)) ((t.readS b).toNat % 2 ^ (8 * n)) = f.toNat := by
      have ho : BitVec.ofNat (8 * n) ((t.readS b).toNat % 2 ^ (8 * n)) = o := by
        rw [ofNat_mod_two_pow, BitVec.ofNat_toNat]
      have heq := amoFun_eq op (8 * n) (leNat (u.readPlace pl)) ((t.readS b).toNat % 2 ^ (8 * n))
      rw [ho] at heq
      exact heq.trans (by cases op <;> rfl)
    rw [exec_amo, execAmo]
    exact ⟨_, State.coxRun_done h (amoEff_writes hplace hdev hout hhost hheld hown hcause (congrArg some hvalue)), rfl, rfl, rfl, rfl⟩
  case cas =>
    intro t u ea hfree old same kept
    obtain ⟨hplace, hdev, hout, hhost, hheld, hown, hcause⟩ := hfree
    rw [exec_cas, execCas]
    refine ⟨⟨s.nextId, d, some (BitVec.ofNat 64 old), pd, decide ((BitVec.ofNat 64 old).toNat = (t.readS d).toNat % 2 ^ (8 * n)), n, false, none, 0, none,
      none, t.pc.toNat⟩, rfl, rfl, rfl, rfl, fun hsame => ?_, fun hsame => ?_, fun hlt => ?_⟩
    · exact State.coxRun_done h (amoEff_writes hplace hdev hout hhost hheld hown hcause (if_pos hsame))
    · exact State.coxRun_done h (amoEff_keeps hplace hdev hout hhost hheld hown hcause (if_neg hsame))
    · rw [decide_eq_true_iff, BitVec.toNat_ofNat, Nat.mod_eq_of_lt hlt]
  case host =>
    intro u ea hform halign hhost hl
    have htoHost : (op == .add || op == .swap) = false := by
      cases op <;> simp_all
    rw [exec_amo, execAmo]
    refine State.coxRun_trap h hl (by decide) ?_
    rw [htoHost]
    exact amoEff_onHost hform halign hhost

end Sys2Proof.Machine

/-! SUPPORT. What a request that leaves the module moves, and loads and stores outside the module (R83, R364, R453). -/
namespace Sys2Proof.Machine

/-! ## Messages that leave -/

def State.unsentRest (s : State) : State := { s with port := [], ports := [], unsent := [], nextId := 0, requests := [] }

/-- A change of a state that only sends messages or requests: every field but the port, the link ports, what waits for them, the numbers and the requests is equal by `congrArg` of `rest`. -/
structure State.OnlySends (s u : State) : Prop where
  rest : u.unsentRest = s.unsentRest

theorem State.OnlySends.trans {s t u : State} (h : s.OnlySends t) (g : t.OnlySends u) : s.OnlySends u := ⟨g.rest.trans h.rest⟩
theorem State.OnlySends.refl (s : State) : s.OnlySends s := ⟨rfl⟩
theorem State.OnlySends.mem {s u : State} (h : s.OnlySends u) : u.mem = s.mem := have e := congrArg State.mem h.rest; e
theorem State.OnlySends.cores {s u : State} (h : s.OnlySends u) : u.cores = s.cores := have e := congrArg State.cores h.rest; e
theorem State.OnlySends.parts {s u : State} (h : s.OnlySends u) : u.parts = s.parts := have e := congrArg State.parts h.rest; e
theorem State.OnlySends.queues {s u : State} (h : s.OnlySends u) : u.queues = s.queues := have e := congrArg State.queues h.rest; e
theorem State.OnlySends.dies {s u : State} (h : s.OnlySends u) : u.dies = s.dies := have e := congrArg State.dies h.rest; e
theorem State.OnlySends.core {s u : State} (h : s.OnlySends u) (c : Nat) : u.core c = s.core c := by rw [State.core, h.cores, State.core]
theorem State.OnlySends.strand {s u : State} (h : s.OnlySends u) (c k : Nat) : u.strand c k = s.strand c k := by
  rw [State.strand, h.core, State.strand]

section
variable (s : State) (r : ReqFor) (key tier addr : Nat) (info : Word64) (kind len : Nat) (b : ByteList)

theorem State.sendFabric_onlySends (die dest addr : Nat) (m : FabricMsg) : s.OnlySends (s.sendFabric die dest addr m) := by
  unfold State.sendFabric
  split <;> exact ⟨rfl⟩

@[simp] theorem State.sendFabric_requests (die dest addr : Nat) (m : FabricMsg) : (s.sendFabric die dest addr m).requests = s.requests := by
  unfold State.sendFabric
  split <;> rfl

theorem State.ask_onlySends : s.OnlySends (s.ask r key tier addr info kind len b) := by
  unfold State.ask
  dsimp only
  split
  · exact ⟨(State.sendFabric_onlySends s ..).rest⟩
  · exact ⟨rfl⟩

/-- The request that is kept until its completion. -/
theorem State.ask_requests : (s.ask r key tier addr info kind len b).requests
    = s.requests ++ [⟨s.nextId, r, tier, info, remoteModule tier addr, s.askPlace r, kind, addr, len, s.fnOf r⟩] := rfl

end

/-! ## An access inside one piece outside the module -/

section
variable {p : Piece} {q : TlbEntry}

theorem Place.touchesDevice_piece (h : p.loc.tier = 1 ∨ p.loc.tier = 2) : (Place.glob [(p, q)]).touchesDevice = false := by
  cases hl : p.loc <;> simp_all [Place.touchesDevice, Loc.tier]

theorem Place.outside_piece (h : p.loc.tier = 1 ∨ p.loc.tier = 2) : (Place.glob [(p, q)]).outside = true := by
  simpa [Place.outside] using h

theorem State.placeCause_piece (s : State) (c k : Nat) (write full : Bool) (h : p.loc.tier = 1 ∨ p.loc.tier = 2) :
    s.placeCause c k write full (.glob [(p, q)]) = none := by
  have h0 : p.loc.tier ≠ 0 := by omega
  simp [State.placeCause, h0]

end

/-! ## Issued accesses -/

theorem State.OnlyCaches.requests {s u : State} (h : s.OnlyCaches u) : u.requests = s.requests := have e := congrArg State.requests h.rest; e
theorem State.OnlyCaches.noRoute {s u : State} (h : s.OnlyCaches u) (die : Nat) : u.noRoute die = s.noRoute die := by
  have hmod : u.modid = s.modid := have e := congrArg State.modid h.rest; e
  have hports : u.ports = s.ports := have e := congrArg State.ports h.rest; e
  simp only [State.noRoute, State.nport, hmod, hports]

section
variable (s : State) (c k : Nat)

theorem State.usePlace_onlyCaches (pl : Place) : s.OnlyCaches (s.usePlace c k pl) := by
  unfold State.usePlace
  split
  · exact .refl s
  · exact State.fillAll_onlyCaches ..

theorem State.strand_issueItem (read : Bool) (span : RSpace × Nat × Nat) : (s.issueItem c k read span).strand c k = s.strand c k := by
  rw [State.strand, show (s.issueItem c k read span).core c = (s.core c).count s.nextId (.access k read) ((s.core c).matching [span]) from
    State.core_setCore_self ..]
  rfl

theorem State.strand_holdLoad (l : Load) (h : k < 4) : (s.holdLoad c k l).strand c k = { s.strand c k with loads := (s.strand c k).loads ++ [l] } :=
  State.strand_setStrand_self _ _ _ h

end

section
variable {s v : State} {c k d n : Nat} {g : Guard} {uses : List Nat} {pl : Place} {read : Bool} {span : RSpace × Nat × Nat}

/-- An access that is issued leaves the strand, memory, the requests and the ports; only its number is taken. -/
theorem State.issuedAccess (h : k < 4) (hv : v = ((s.issued c k g uses).usePlace c k pl).issueItem c k read span) :
    v.strand c k = s.found c k g uses ∧ v.mem = s.mem ∧ v.requests = s.requests ∧ (∀ die, v.noRoute die = (s.issued c k g uses).noRoute die) := by
  have hc := State.usePlace_onlyCaches (s.issued c k g uses) c k pl
  subst hv
  refine ⟨?_, hc.mem, hc.requests, hc.noRoute⟩
  rw [State.strand_issueItem, hc.strand, State.strand_issued _ _ _ _ h]

end

section
variable {s : State} {p : Piece} {q : TlbEntry} {c k item n : Nat} {ea : Word64} {b : ByteList}

/-- A load of one piece outside the module sends one request for it. -/
theorem State.askOutside_piece (hroute : s.noRoute (coreDie c) = false) :
    s.askOutside c k item n ea (.glob [(p, q)])
      = s.ask (.load c k item) (s.whoCore c 0).key p.loc.tier (Place.glob [(p, q)]).outAddr ea 0 n [] := by
  have hno : ¬((Place.glob [(p, q)]).tier = 1 ∧ s.noRoute (coreDie c) = true) := by simp [hroute]
  exact if_neg hno

/-- A store of one piece outside the module sends one request for it. -/
theorem State.storePieces_piece (hroute : s.noRoute (coreDie c) = false) (htier : p.loc.tier = 1 ∨ p.loc.tier = 2) :
    ∃ key a len r, s.storePieces c k item b (.glob [(p, q)]) = s.ask (.store c k item) key p.loc.tier a (BitVec.ofNat 64 p.va) 1 len r := by
  simp only [State.storePieces, splitOver, List.foldl_cons, List.foldl_nil]
  cases hl : p.loc with
  | peer a =>
    dsimp only
    rw [if_neg (Bool.not_eq_true _ ▸ hroute)]
    simp only [State.writePiece, hl]
    exact ⟨_, _, _, _, rfl⟩
  | host a =>
    simp only [State.writePiece, hl]
    exact ⟨_, _, _, _, rfl⟩
  | hbm dpa key => simp [hl, Loc.tier] at htier
  | device off => simp [hl, Loc.tier] at htier

theorem State.requests_past_ask {s : State} {l : List RemoteReq} (h : s.requests = l) (c k : Nat) (r : ReqFor) (key tier addr : Nat) (info a : Word64)
    (kind len : Nat) (b : ByteList) : ((s.ask r key tier addr info kind len b).past c k a).requests
      = l ++ [⟨s.nextId, r, tier, info, remoteModule tier addr, s.askPlace r, kind, addr, len, s.fnOf r⟩] := by
  rw [State.past_requests, State.ask_requests, h]

theorem State.strand_past_ask (s : State) {c k : Nat} (hk : k < 4) (r : ReqFor) (key tier addr : Nat) (info a : Word64) (kind len : Nat) (b : ByteList) :
    ((s.ask r key tier addr info kind len b).past c k a).strand c k = { s.strand c k with pc := a, hold := none, got := [] } := by
  rw [State.strand_past _ _ _ hk, (State.ask_onlySends s ..).strand]

end

/-- Settles O13: the request is the last one, and the load is kept without a value. -/
theorem accessesOutsideTheModule : Obligations.AccessesOutsideTheModule := by
  unfold Obligations.AccessesOutsideTheModule
  intro s c k g d a sz sp cz sgn pl h t u n ea p q hpl htier hheld hown hroute
  subst hpl
  have hdev := Place.touchesDevice_piece (q := q) htier
  have hout := Place.outside_piece (q := q) htier
  have hcz : cz = true → (Place.glob [(p, q)]).outside = false → t.causalWaits = false := fun _ ho => absurd (hout.symm.trans ho) (by decide)
  constructor
  case left =>
    intro hplace
    have heff := ldEff_ok (d := d) (sgn := sgn) hplace hdev hheld hown hcz (State.placeCause_piece u c k false false htier)
    simp only [hout, if_true] at heff
    generalize hv : (u.usePlace c k (.glob [(p, q)])).issueItem c k true (spanOf c sp ea (sizeBytes sz)) = v at heff
    obtain ⟨hstrand, hmem, hreq, hnoRoute⟩ := State.issuedAccess h.slot hv.symm
    rw [State.askOutside_piece (s := v.holdLoad c k ⟨u.nextId, d, none, 0, true, sizeBytes sz, sgn, none, 0, none, none, t.pc.toNat⟩)
      ((hnoRoute _).trans hroute)] at heff
    rw [exec_ld, execLd, State.coxRun_done h heff]
    refine ⟨_, rfl, (State.ask_onlySends ..).mem.trans hmem, ?pc, ⟨_, State.requests_past_ask (s := v.holdLoad c k _) hreq .., rfl, rfl, rfl⟩, ?loads⟩
    case pc => rw [State.strand_past_ask _ h.slot]; rfl
    case loads =>
      rw [State.strand_past_ask _ h.slot, State.strand_holdLoad _ _ _ _ h.slot, hstrand]
      exact ⟨_, rfl, rfl, rfl, rfl⟩
  case right =>
    intro hplace
    have heff := stEff_ok (d := d) hplace hdev hheld hown hcz (State.placeCause_piece u c k true _ htier)
    simp only [hout, if_true] at heff
    generalize hv : (u.usePlace c k (.glob [(p, q)])).issueItem c k false (spanOf c sp ea (sizeBytes sz)) = v at heff
    obtain ⟨hstrand, hmem, hreq, hnoRoute⟩ := State.issuedAccess h.slot hv.symm
    obtain ⟨key, addr, len, r, hask⟩ := State.storePieces_piece (k := k) (item := u.nextId) (b := leBytes (sizeBytes sz) (t.readS d).toNat) (q := q)
      ((hnoRoute _).trans hroute) htier
    rw [hask] at heff
    rw [exec_st, execSt, State.coxRun_done h heff]
    refine ⟨_, rfl, (State.ask_onlySends ..).mem.trans hmem, ?_, _, State.requests_past_ask hreq .., rfl, rfl, rfl⟩
    rw [State.strand_past_ask _ h.slot]
    rfl

end Sys2Proof.Machine

/-! SUPPORT. The scratch cache, fences and tracking slots (R93 to R95, R101 to R105, R204, R205, R210 to R214). -/
namespace Sys2Proof.Machine

/-- What does not depend on the strands of a core is the same in the state in which an instruction has its effect. -/
theorem State.core_issued_field {α : Type} (s : State) (c k : Nat) (g : Guard) (uses : List Nat) (f : Core → α)
    (hf : ∀ x t, f (Core.setStrand x k t) = f x) (p : Nat) : f ((s.issued c k g uses).core p) = f (s.core p) := by
  by_cases h : p = c
  · subst h; rw [State.core_issued, hf]
  · rw [State.issued, State.core_setStrand_other _ _ _ h]

/-! ## PROBE -/

section
variable {u : State} {c k d n : Nat} {t : Strand} {i : Instr} {va off : Word64}

/-- PROBE of a block that a tag holds pins its slot, and branches while the block is being filled (R94, R204). -/
theorem probeEff_hit (hslots : sttSlots (u.core c).sttcfg ≠ 0)
    (htag : (u.core c).tagOf (va.toNat / sttBlock (u.core c).sttcfg * sttBlock (u.core c).sttcfg) = some n) (hpins : ((u.core c).tagAt n).pins < 255) :
    probeEff u c k d t i va off =
      let v := (u.setCore c ((u.core c).pinTag n)).onStrand c k fun y => y.writeS d (BitVec.ofNat 64 ((u.core c).slotOff n))
      if ((u.core c).tagAt n).st = .valid then .done v else .jump v (t.pc + 4 * off) := by
  simp only [probeEff, if_neg hslots, htag, if_neg (Nat.not_le.2 hpins), ge_iff_le]

/-- PROBE of a block that no tag holds starts its fill in the slot that gives way. -/
theorem probeEff_fill (hslots : sttSlots (u.core c).sttcfg ≠ 0)
    (htag : (u.core c).tagOf (va.toNat / sttBlock (u.core c).sttcfg * sttBlock (u.core c).sttcfg) = none)
    (hpend : (u.core c).sttPend = none) (hchan : ((u.core c).chan (sttChan (u.core c).sttcfg)).length < 128) (hvictim : (u.core c).victim = some n) :
    probeEff u c k d t i va off = .jump (((u.setCore c ((u.core c).startFill u.shared n
        (va.toNat / sttBlock (u.core c).sttcfg * sttBlock (u.core c).sttcfg) u.nextId)).bumpId).onStrand c k
      fun y => y.writeS d (BitVec.ofNat 64 ((u.core c).slotOff n))) (t.pc + 4 * off) := by
  have hroom : ¬((u.core c).sttPend.isSome = true ∨ ((u.core c).chan (sttChan (u.core c).sttcfg)).length ≥ 128) := by
    rw [hpend]; simpa using hchan
  simp only [probeEff, if_neg hslots, htag, if_neg hroom, hvictim]

end

section
variable {s : State} {c k d a : Nat} {g : Guard} {long : Bool} {i : Instr} {o va : Word64} {f : Nat → Nat → Strand → State → Eff}

/-- PROBE once it has issued, in the terms of the state before it. -/
theorem State.coxRun_probe (h : s.Issues c k g [d, a])
    (hf : f c k (s.found c k g [d, a]) (s.issued c k g [d, a]) = probeEff (s.issued c k g [d, a]) c k d (s.found c k g [d, a]) i va o) :
    let x := s.core c
    let t := s.found c k g [d, a]
    let u := s.issued c k g [d, a]
    let blk := va.toNat / sttBlock x.sttcfg * sttBlock x.sttcfg
    (∀ n, x.tagOf blk = some n → (x.tagAt n).pins < 255 → sttSlots x.sttcfg ≠ 0 →
      s.coxRun long g [d, a] f = .next (((u.setCore c ((u.core c).pinTag n)).onStrand c k fun y => y.writeS d (BitVec.ofNat 64 (x.slotOff n))).past c k
        (if (x.tagAt n).st = .valid then t.pc + wordBytes long else t.pc + 4 * o)))
    ∧ (∀ n, x.tagOf blk = none → x.sttPend = none → (x.chan (sttChan x.sttcfg)).length < 128 → x.victim = some n → sttSlots x.sttcfg ≠ 0 →
      s.coxRun long g [d, a] f = .next ((((u.setCore c ((u.core c).startFill s.shared n blk s.nextId)).bumpId).onStrand c k
        fun y => y.writeS d (BitVec.ofNat 64 (x.slotOff n))).past c k (t.pc + 4 * o)))
    ∧ (sttSlots x.sttcfg = 0 → t.loads.any (·.val.isNone) = false → s.coxRun long g [d, a] f = .next (u.takeTrap c k 0x30E va 0)) := by
  intro x t u blk
  have hcore : u.core c = x.setStrand k t := State.core_issued s c k g [d, a]
  refine ⟨fun n htag hpins hslots => ?hit, fun n htag hpend hchan hvictim hslots => ?fill, fun hslots hl => ?off⟩
  case hit =>
    have heff := hf.trans (probeEff_hit (by rw [hcore]; exact hslots) (by rw [hcore]; exact htag) (by rw [hcore]; exact hpins))
    have hst : ((u.core c).tagAt n).st = (x.tagAt n).st := by rw [hcore]; rfl
    by_cases hv : (x.tagAt n).st = .valid
    · rw [if_pos (hst.trans hv)] at heff
      rw [if_pos hv, State.coxRun_done h heff, hcore]
      rfl
    · rw [if_neg fun e => hv (hst.symm.trans e)] at heff
      rw [if_neg hv, State.coxRun_jump h heff, hcore]
      rfl
  case fill =>
    have heff := hf.trans (probeEff_fill (by rw [hcore]; exact hslots) (by rw [hcore]; exact htag) (by rw [hcore]; exact hpend)
      (by rw [hcore]; exact hchan) (by rw [hcore]; exact hvictim))
    rw [State.coxRun_jump h heff, hcore]
    rfl
  case off =>
    refine State.coxRun_trap h hl (by decide) (hf.trans (if_pos ?_))
    rw [hcore]
    exact hslots

end

/-! ## UNPIN -/

/-- UNPIN's effect. -/
def unpinEff (va : Word64) (c : Nat) (u : State) : Eff :=
  match (u.core c).tagOf (va.toNat / sttBlock (u.core c).sttcfg * sttBlock (u.core c).sttcfg) with
  | none => .trap 0x30E va 0
  | some n =>
    if ((u.core c).tagAt n).pins = 0 then .trap 0x30E va 0
    else .done (u.setCore c ((u.core c).setTag n { (u.core c).tagAt n with pins := ((u.core c).tagAt n).pins - 1 }))

theorem execUnpin_eq (g : Guard) (a : Nat) (s : State) : execUnpin g a s = s.coxRun false g [a] fun c _ t u => unpinEff (t.readS a) c u := rfl

section
variable {u : State} {c n : Nat} {va : Word64}

theorem unpinEff_lowers (htag : (u.core c).tagOf (va.toNat / sttBlock (u.core c).sttcfg * sttBlock (u.core c).sttcfg) = some n)
    (hpins : 0 < ((u.core c).tagAt n).pins) :
    unpinEff va c u = .done (u.setCore c ((u.core c).setTag n { (u.core c).tagAt n with pins := ((u.core c).tagAt n).pins - 1 })) := by
  simp only [unpinEff, htag, if_neg (Nat.pos_iff_ne_zero.1 hpins)]

theorem unpinEff_traps (h : (u.core c).tagOf (va.toNat / sttBlock (u.core c).sttcfg * sttBlock (u.core c).sttcfg) = none
      ∨ ∃ n, (u.core c).tagOf (va.toNat / sttBlock (u.core c).sttcfg * sttBlock (u.core c).sttcfg) = some n ∧ ((u.core c).tagAt n).pins = 0) :
    unpinEff va c u = .trap 0x30E va 0 := by
  rcases h with hnone | ⟨n, htag, hpins⟩
  · simp only [unpinEff, hnone]
  · simp only [unpinEff, htag, if_pos hpins]

end

section
variable {s : State} {c k a : Nat} {g : Guard} {long : Bool} {va : Word64} {f : Nat → Nat → Strand → State → Eff}

/-- UNPIN once it has issued, in the terms of the state before it. -/
theorem State.coxRun_unpin (h : s.Issues c k g [a]) (hf : f c k (s.found c k g [a]) (s.issued c k g [a]) = unpinEff va c (s.issued c k g [a])) :
    let x := s.core c
    let t := s.found c k g [a]
    let u := s.issued c k g [a]
    let blk := va.toNat / sttBlock x.sttcfg * sttBlock x.sttcfg
    (∀ n, x.tagOf blk = some n → 0 < (x.tagAt n).pins →
      s.coxRun long g [a] f
        = .next ((u.setCore c ((u.core c).setTag n { x.tagAt n with pins := (x.tagAt n).pins - 1 })).past c k (t.pc + wordBytes long)))
    ∧ ((x.tagOf blk = none ∨ ∃ n, x.tagOf blk = some n ∧ (x.tagAt n).pins = 0) → t.loads.any (·.val.isNone) = false →
      s.coxRun long g [a] f = .next (u.takeTrap c k 0x30E va 0)) := by
  intro x t u blk
  have hcore : u.core c = x.setStrand k t := State.core_issued s c k g [a]
  refine ⟨fun n htag hpins => ?lowers, fun hno hl => ?traps⟩
  case lowers =>
    have heff := hf.trans (unpinEff_lowers (by rw [hcore]; exact htag) (by rw [hcore]; exact hpins))
    rw [State.coxRun_done h heff, hcore]
    rfl
  case traps => exact State.coxRun_trap h hl (by decide) (hf.trans (unpinEff_traps (by rw [hcore]; exact hno)))

end

/-- Settles O15: each word finds the tags, pins and values of its core. -/
theorem scratchCache : Obligations.ScratchCache := by
  unfold Obligations.ScratchCache
  refine ⟨fun s c k g d a off e => ?words, fun s c k v hk hr => ?write, fun s c k v hp hf hz => ?apply⟩
  case words =>
    intro x blk
    refine ⟨fun h => ?probe, fun h => ?unpin⟩
    case probe =>
      intro t u va ends
      simp only [ends, exec_probe, exec_probeLong, execProbe, execProbeLong]
      exact ⟨State.coxRun_probe h rfl, State.coxRun_probe h rfl⟩
    case unpin =>
      rw [exec_unpin, execUnpin_eq]
      exact State.coxRun_unpin h rfl
  case write =>
    have hrun : ¬(k ≥ 4 ∨ (!s.strandReady c k) = true) := by simp [hr]; omega
    refine ⟨fun hbad hl => ?_, fun hgood hpend => ?_⟩ <;> rw [exec_sttcfgWrite, execSttcfgWrite]
    · rw [if_neg hrun, if_pos hbad, if_neg (Bool.not_eq_true _ ▸ hl)]
    · rw [if_neg hrun, if_neg (Bool.not_eq_true _ ▸ hgood), hpend]
      rfl
  case apply =>
    rw [exec_sttcfgApply, execSttcfgApply]
    simp only [hp, hf, hz, Bool.or_self, Bool.false_eq_true, if_false]

end Sys2Proof.Machine

/-! SUPPORT. Fences and tracking slots (R101 to R105, R210 to R214). -/
namespace Sys2Proof.Machine

/-! ## Fences -/

theorem Core.allAt_iff (x : Core) (ids : List Nat) (sc : Scope) : x.allAt ids sc = true ↔ ∀ i ∈ x.items, i.id ∈ ids → i.atScope sc = true := by
  simp only [Core.allAt, List.all_eq_true, Bool.or_eq_true, Bool.not_eq_true', List.contains_eq_mem, decide_eq_false_iff_not, Decidable.imp_iff_not_or]

theorem scopeNum_pushes (sc : Scope) : scopeNum sc ≥ 4 ↔ sc = .package ∨ sc = .gang := by
  cases sc <;> decide

/-- The set that a fence waits for: the one it holds on, or the one that it finds. -/
def fenceSet (t : Strand) (ids : List Nat) : List Nat :=
  match t.hold with
  | some h => h.ids
  | none => ids

/-- At package scope and wider a fence pushes the writes of its set to the host (R114). -/
def State.pushFor (u : State) (c k : Nat) (sc : Scope) (set : List Nat) : State :=
  if sc = .package ∨ sc = .gang then u.pushWrites c k fun _ i => set.contains i else u

theorem fenceEff_eq (u : State) (c k : Nat) (t : Strand) (i : Instr) (sc : Scope) (ids : List Nat) :
    fenceEff u c k t i sc ids = if (u.core c).allAt (fenceSet t ids) sc then .done u
      else .wait (u.pushFor c k sc (fenceSet t ids)) ⟨i, fenceSet t ids, 0, none, []⟩ := by
  cases hh : t.hold <;> simp only [fenceEff, fenceSet, State.pushFor, scopeNum_pushes, hh]

theorem fenceSet_fresh {t : Strand} (h : t.hold = none) (ids : List Nat) : fenceSet t ids = ids := by rw [fenceSet, h]
theorem fenceSet_held {t : Strand} {h : Hold} (hh : t.hold = some h) (ids : List Nat) : fenceSet t ids = h.ids := by rw [fenceSet, hh]

section
variable {s : State} {c k : Nat} {g : Guard} {long : Bool} {uses : List Nat} {i : Instr} {sc : Scope} {ids set : List Nat}
  {f : Nat → Nat → Strand → State → Eff}

/-- A fence goes on once its set is performed at its scope, and holds on it until then. -/
theorem State.coxRun_fence (h : s.Issues c k g uses)
    (hf : f c k (s.found c k g uses) (s.issued c k g uses) = fenceEff (s.issued c k g uses) c k (s.found c k g uses) i sc ids)
    (hset : fenceSet (s.found c k g uses) ids = set) :
    ((∀ i ∈ (s.core c).items, i.id ∈ set → i.atScope sc = true) →
      s.coxRun long g uses f = .next ((s.issued c k g uses).past c k ((s.found c k g uses).pc + wordBytes long)))
    ∧ ((¬∀ i ∈ (s.core c).items, i.id ∈ set → i.atScope sc = true) →
      s.coxRun long g uses f = .next (((s.issued c k g uses).pushFor c k sc set).holds c k ⟨i, set, 0, none, []⟩)) := by
  rw [fenceEff_eq, hset] at hf
  have hall : ((s.issued c k g uses).core c).allAt set sc = true ↔ ∀ i ∈ (s.core c).items, i.id ∈ set → i.atScope sc = true := by
    rw [Core.allAt_iff, State.core_issued]
    rfl
  exact ⟨fun hp => State.coxRun_done h (hf.trans (if_pos (hall.2 hp))), fun hp => State.coxRun_wait h (hf.trans (if_neg (mt hall.1 hp)))⟩

end

/-! ## Tracking slots -/

section
variable (x : Core) {n : Nat}

theorem getLsbD_slotBit (w : BitVec 32) (hn : n < 32) :
    (w &&& ~~~(BitVec.ofNat 32 (2 ^ n))).getLsbD n = false ∧ (w ||| BitVec.ofNat 32 (2 ^ n)).getLsbD n = true := by
  simp only [BitVec.getLsbD_and, BitVec.getLsbD_not, BitVec.getLsbD_or, getLsbD_ofNat_two_pow hn, hn, decide_true, Bool.not_true,
    Bool.and_false, Bool.or_true, and_self]

theorem Core.forgetSlot_bits (hn : n < 32) : ∀ i ∈ (x.forgetSlot n).items, i.res.getLsbD n = false ∧ i.trk.getLsbD n = false := by
  intro i hi
  obtain ⟨j, -, rfl⟩ := List.mem_map.1 hi
  exact ⟨(getLsbD_slotBit _ hn).1, (getLsbD_slotBit _ hn).1⟩

theorem Core.bindSlot_bits (r : Range) (hn : n < 32) : ∀ i ∈ (x.bindSlot n r).items, i.res.getLsbD n = true ∧ i.trk.getLsbD n = false := by
  intro i hi
  obtain ⟨j, hj, rfl⟩ := List.mem_map.1 hi
  exact ⟨(getLsbD_slotBit _ hn).2, (x.forgetSlot_bits hn j hj).2⟩

end

/-- In a table of rising keys a deleted key is gone. -/
theorem tabFind_del_self {α : Type} {t : Tab α} (k : Nat) (h : tabRising t = true) : tabFind (tabDel t k) k = none := by
  rw [tabRising_iff] at h
  induction t with
  | nil => rfl
  | cons p r ih =>
    obtain ⟨a, w⟩ := p
    obtain ⟨hlt, hr⟩ := List.pairwise_cons.1 h
    rw [tabDel]
    by_cases e : a = k
    · subst e
      rw [if_pos rfl]
      exact tabFind_none_of_lt hlt
    · rw [if_neg e, tabFind, if_neg e]
      exact ih hr

/-- Settles O16: fences wait for their set, and a slot is bound and unbound in the table and in every item's bits. -/
theorem fencesAndTracking : Obligations.FencesAndTracking := by
  unfold Obligations.FencesAndTracking
  refine ⟨fun s c k g sc rs => ?fences, fun s c k g slot r l => ?slots⟩
  case fences =>
    intro pushed
    refine ⟨fun h => ?fence, fun h l => ?fenceR⟩
    case fence =>
      have hitems : ((s.issued c k g []).core c).items = (s.core c).items := by rw [State.core_issued]; rfl
      rw [exec_fence, execFence]
      dsimp only
      generalize hho : (s.found c k g []).hold = held
      cases held with
      | none => exact State.coxRun_fence h rfl ((fenceSet_fresh hho _).trans (by rw [hitems]))
      | some w => exact State.coxRun_fence h rfl (fenceSet_held hho _)
    case fenceR =>
      dsimp only
      rintro ⟨hl, hho⟩
      have hranges : rangesOf ((s.issued c k g (rangeUses rs)).core c) (s.found c k g (rangeUses rs)) rs = .ok l := by
        rw [State.core_issued]; exact hl
      have hset : ((s.issued c k g (rangeUses rs)).core c).rangeSet k l = (s.core c).rangeSet k l := by rw [State.core_issued]; rfl
      rw [exec_fenceR, execFenceR]
      exact State.coxRun_fence h (by simp only [hho, hranges, hset]) (fenceSet_fresh hho _)
  case slots =>
    refine ⟨fun h => ?track, fun h => ?untrack⟩
    case track =>
      dsimp only
      intro hl
      have hrange : rangeOf ((s.issued c k g (rangeUses [r])).core c) (s.found c k g (rangeUses [r])) r = .ok l := by
        rw [State.core_issued]; exact hl
      have hslot : tabFind ((s.issued c k g (rangeUses [r])).core c).track slot = tabFind (s.core c).track slot := by
        rw [State.core_issued]; rfl
      rw [exec_track, execTrack]
      refine ⟨fun hfree => ?binds, fun hbound hloads => ?traps⟩
      case binds =>
        have hunbound : ¬((tabFind (s.core c).track slot).isSome = true) := by rw [hfree]; exact Bool.false_ne_true
        refine ⟨((s.issued c k g (rangeUses [r])).setCore c (((s.issued c k g (rangeUses [r])).core c).bindSlot slot l)).past c k
          ((s.found c k g (rangeUses [r])).pc + 8), State.coxRun_done h ?_, ?bound, fun j hj => ?others, fun hlt => ?bits, rfl, ?pc⟩
        case pc => rw [State.strand_past _ _ _ h.slot]
        · simp only [hrange, hslot, if_neg hunbound]
        all_goals simp only [State.core_past, State.core_setCore_self, State.core_issued]
        case bound => exact tabFind_put_self _ _ _
        case others => exact tabFind_put_other _ _ hj
        case bits => exact Core.bindSlot_bits _ l hlt
      case traps =>
        refine State.coxRun_trap h hloads (by decide) ?_
        simp only [hrange, hslot, if_pos hbound]
    case untrack =>
      rw [exec_untrack, execUntrack]
      refine ⟨_, State.coxRun_done h rfl, fun hrising => ?gone, fun j hj => ?others, fun hlt => ?bits, rfl, ?pc⟩
      case pc => rw [State.strand_past _ _ _ h.slot]; rfl
      all_goals simp only [State.core_past, State.onCore, State.core_setCore_self, State.core_issued]
      case gone => exact tabFind_del_self slot hrising
      case others => exact tabFind_del_other _ hj
      case bits => exact Core.forgetSlot_bits _ hlt

end Sys2Proof.Machine

/-! SUPPORT. PUB (R83, R116, R215, R407). -/
namespace Sys2Proof.Machine

/-! ## What a change of one strand or of one core leaves -/

theorem State.core_setStrand_field {α : Type} (s : State) (c k : Nat) (t : Strand) (f : Core → α) (hf : ∀ x t, f (Core.setStrand x k t) = f x) (p : Nat) :
    f ((s.setStrand c k t).core p) = f (s.core p) :=
  State.core_onCore_congr s c f (fun x => hf x t) p

theorem State.core_holds_field {α : Type} (s : State) (c k : Nat) (w : Hold) (f : Core → α) (hf : ∀ x t, f (Core.setStrand x k t) = f x) (p : Nat) :
    f ((s.holds c k w).core p) = f (s.core p) := State.core_setStrand_field s c k _ f hf p

theorem State.strand_onCore (s : State) (p : Nat) {f : Core → Core} (hf : ∀ x, (f x).strands = x.strands) (c k : Nat) :
    (s.onCore p f).strand c k = s.strand c k := by
  rw [State.strand, Core.strand, State.core_onCore_congr s p Core.strands hf, State.strand, Core.strand]

/-! ## PUB -/

/-- PUB of pages of a scratchpad: with none it goes on, else it asks their core for a publish and holds. -/
def pubAsk (u : State) (i : Instr) (p : Nat) (pages : List Nat) : Eff :=
  if pages.isEmpty then .done u
  else .wait ((u.onCore p fun x => { x with pubs := x.pubs ++ [⟨u.nextId, pages, none⟩] }).bumpId) ⟨i, [u.nextId], 0, none, []⟩

section
variable {s : State} {c k p : Nat} {g : Guard} {long : Bool} {uses : List Nat} {i : Instr} {pages : List Nat} {f : Nat → Nat → Strand → State → Eff}

theorem State.coxRun_pubAsk_none (h : s.Issues c k g uses)
    (hf : f c k (s.found c k g uses) (s.issued c k g uses) = pubAsk (s.issued c k g uses) i p pages) (hp : pages = []) :
    s.coxRun long g uses f = .next ((s.issued c k g uses).past c k ((s.found c k g uses).pc + wordBytes long)) := by
  subst hp
  exact State.coxRun_done h hf

theorem State.coxRun_pubAsk (h : s.Issues c k g uses)
    (hf : f c k (s.found c k g uses) (s.issued c k g uses) = pubAsk (s.issued c k g uses) i p pages) (hp : pages ≠ []) :
    ∃ t', s.coxRun long g uses f = .next t' ∧ (t'.core p).pubs = (s.core p).pubs ++ [⟨s.nextId, pages, none⟩] ∧ t'.mem = s.mem
      ∧ ∃ h', (t'.strand c k).hold = some h' ∧ h'.instr = i ∧ h'.ids = [s.nextId] ∧ (t'.strand c k).pc = (s.found c k g uses).pc := by
  have hne : ¬pages.isEmpty = true := by simpa using hp
  have hstrand : ∀ q : List PendPub, (((s.issued c k g uses).onCore p fun x => { x with pubs := x.pubs ++ q }).bumpId).strand c k
      = s.found c k g uses := fun q => by
    rw [show ∀ u : State, u.bumpId.strand c k = u.strand c k from fun _ => rfl, State.strand_onCore, State.strand_issued _ _ _ _ h.slot]
    exact fun _ => rfl
  refine ⟨_, State.coxRun_wait h (hf.trans (if_neg hne)), ?pubs, rfl, ⟨i, [s.nextId], 0, none, []⟩, ?hold, rfl, rfl, ?pc⟩
  case hold => rw [State.strand_holds _ _ _ h.slot]; rfl
  case pc => rw [State.strand_holds _ _ _ h.slot, hstrand]
  case pubs =>
    rw [State.core_holds_field _ _ _ _ Core.pubs (fun _ _ => rfl), show ∀ u : State, u.bumpId.core p = u.core p from fun _ => rfl, State.onCore,
      State.core_setCore_self, ← State.core_issued_field s c k g uses Core.pubs (fun _ _ => rfl) p]
    rfl

end

/-- Settles O17: what the range names decides; pages with a shadow ask their core, regions with one their dies. -/
theorem publishInstruction : Obligations.PublishInstruction := by
  unfold Obligations.PublishInstruction
  intro s c k g r l h hi
  dsimp only
  rw [exec_pub, execPub]
  refine ⟨fun hh hopen => ?done, fun hh hopen => ?waits, fun hh hl => ?fresh⟩
  case done => exact State.coxRun_done hi (by simp only [hh, hopen, Bool.false_eq_true, if_false])
  case waits => exact State.coxRun_wait hi (by simp only [hh, hopen, if_true])
  case fresh =>
    have hrange : rangeOf ((s.issued c k g (rangeUses [r])).core c) (s.found c k g (rangeUses [r])) r = .ok l := by
      rw [State.core_issued]; exact hl
    have hpages : ∀ p lo hi, ((s.issued c k g (rangeUses [r])).core p).shadowPages lo hi = (s.core p).shadowPages lo hi := fun p lo hi =>
      State.core_issued_field s c k g _ (fun x => x.shadowPages lo hi) (fun _ _ => rfl) p
    have hpart : ∀ p, ((s.issued c k g (rangeUses [r])).core p).part = (s.core p).part := fun p =>
      State.core_issued_field s c k g _ Core.part (fun _ _ => rfl) p
    refine ⟨?pages, ?foreign, ?regions, fun hloads => ⟨?space, ?form⟩⟩
    case pages =>
      rintro p pages (⟨hsp, rfl, rfl⟩ | ⟨hsp, rfl, hsame, rfl⟩)
      · exact ⟨State.coxRun_pubAsk_none (i := .pub g r) (p := p) hi (by simp only [hh, hrange, hsp, hpages]; rfl),
          State.coxRun_pubAsk hi (by simp only [hh, hrange, hsp, hpages]; rfl)⟩
      · exact ⟨State.coxRun_pubAsk_none (i := .pub g r) hi (by simp only [hh, hrange, hsp, hpages, hpart, if_pos hsame]; rfl),
          State.coxRun_pubAsk hi (by simp only [hh, hrange, hsp, hpages, hpart, if_pos hsame]; rfl)⟩
    case foreign =>
      intro hsp hp
      exact State.coxRun_done hi (by simp only [hh, hrange, hsp, hpart, if_neg hp])
    case regions =>
      intro hsp hlt q hq
      have hform : ¬l.hi > 2 ^ 57 := Nat.not_lt.2 hlt
      refine ⟨fun hnone => ?_, fun hsome => ?_⟩
      · subst hnone
        exact State.coxRun_done hi (by simp only [hh, hrange, hsp, if_neg hform, hq]; rfl)
      · have hne : ¬q.isEmpty = true := by simpa using hsome
        exact State.coxRun_wait hi (by simp only [hh, hrange, hsp, if_neg hform, hq, if_neg hne]; rfl)
    case space =>
      intro hsp
      exact State.coxRun_trap hi hloads (by decide) (by simp only [hh, hrange, hsp])
    case form =>
      intro hsp hlt
      exact State.coxRun_trap hi hloads (by decide) (by simp only [hh, hrange, hsp, if_pos hlt])

end Sys2Proof.Machine

/-! SUPPORT. Team barriers, team indices, LIVE and YIELD (R34, R35, R111, R216, R218, R232 to R234). -/
namespace Sys2Proof.Machine

/-! ## Barriers of a part -/

theorem find?_append_of_last {α : Type} {p : α → Bool} {l : List α} {x : α} (hx : p x = true) (hl : ∀ y ∈ l, p y = false) :
    (l ++ [x]).find? p = some x := by
  rw [List.find?_append, List.find?_eq_none.2 fun y hy => by simp [hl y hy]]
  simp [hx]

section
variable (p : Part) (b : TeamBar)

/-- A barrier that has been written is found again. -/
theorem Part.barAt_setBar : (p.setBar b).barAt b.level b.team = b := by
  have hfind : ((p.bars.filter fun q => !(q.level == b.level && q.team == b.team)) ++ [b]).find?
      (fun q => q.level == b.level && q.team == b.team) = some b := by
    refine find?_append_of_last (by simp) fun y hy => ?_
    exact Bool.not_eq_true' _ ▸ (List.mem_filter.1 hy).2
  rw [Part.barAt, Part.setBar, hfind]
  rfl

/-- The barrier of a level and a team names them. -/
theorem Part.barAt_level (lvl key : Nat) : (p.barAt lvl key).level = lvl ∧ (p.barAt lvl key).team = key := by
  rw [Part.barAt]
  cases hf : p.bars.find? fun b => b.level == lvl && b.team == key with
  | none => exact ⟨rfl, rfl⟩
  | some q => simpa using List.find?_some hf

@[simp] theorem TeamBar.arrive_gen (gen member : Nat) : (b.arrive gen member).gen = b.gen := by unfold TeamBar.arrive; split <;> rfl
@[simp] theorem TeamBar.arrive_level (gen member : Nat) : (b.arrive gen member).level = b.level := by unfold TeamBar.arrive; split <;> rfl
@[simp] theorem TeamBar.arrive_team (gen member : Nat) : (b.arrive gen member).team = b.team := by unfold TeamBar.arrive; split <;> rfl

theorem TeamBar.mem_arrive (gen member : Nat) (q : Nat × Nat) : q ∈ (b.arrive gen member).arrived ↔ q ∈ b.arrived ∨ q = (gen, member) := by
  unfold TeamBar.arrive
  split
  · next h =>
    have hin : (gen, member) ∈ b.arrived := by simpa using h
    constructor
    · exact .inl
    · rintro (hq | rfl)
      · exact hq
      · exact hin
  · simp

end

section
variable (s : State) (p : Part) (b : TeamBar) (mem : List (Nat × Nat))

/-- A round of teams that stay on this module is over when every member has arrived or exited. -/
theorem State.roundOver_iff (hspan : p.spans b.level = false) : s.roundOver p b mem = true
    ↔ ∀ q ∈ mem, (s.strand q.1 q.2).status = .exited ∨ (b.gen.toNat, s.memberNo q.1 q.2) ∈ b.arrived := by
  have hone : p.span b.level - 1 = 0 := by
    have : ¬ p.span b.level > 1 := by simpa [Part.spans] using hspan
    omega
  simp [State.roundOver, hone]

theorem State.settle_level : (s.settle p b mem).level = b.level := by unfold State.settle; split <;> rfl
theorem State.settle_team : (s.settle p b mem).team = b.team := by unfold State.settle; split <;> rfl

end

/-- A change of the part of a core. -/
theorem State.corePart_onCorePart {s : State} {c n : Nat} (h : (s.core c).part = some n) (f : Part → Part) :
    (s.onCorePart c f).corePart c = f (s.corePart c) := by
  have hcore : (s.onCorePart c f).core c = s.core c := by simp only [State.onCorePart, h]; rfl
  simp only [State.corePart, hcore, h, Option.map_some, Option.getD_some]
  simp only [State.onCorePart, h]
  simp [State.onPart, State.setPart, State.part]

theorem State.tellPeers_here {s : State} {c lvl : Nat} (h : (s.corePart c).spans lvl = false) (m : FabricMsg) : s.tellPeers c lvl m = s := by
  have hspan : ¬ (s.corePart c).span lvl > 1 := by simpa [Part.spans] using h
  rw [State.tellPeers]
  exact if_neg hspan

section
variable (u : State) (c k lvl : Nat) (team : NatList)

/-- The barrier of a team at a level, as it stands. -/
def State.teamBar : TeamBar := (u.corePart c).barAt lvl ((u.corePart c).teamKey lvl team)

/-- Every member of the team but the strand that arrives has arrived or exited. -/
def State.allHere : Prop :=
  ∀ q ∈ u.members (u.corePart c) lvl team, (u.strand q.1 q.2).status = .exited
    ∨ ((u.teamBar c lvl team).gen.toNat, u.memberNo q.1 q.2) ∈ (u.teamBar c lvl team).arrived ∨ u.memberNo q.1 q.2 = u.memberNo c k

/-- The arrival of a strand at a barrier: it holds, or ends the round when it is the last member. -/
def State.arriveHere : TeamBar :=
  u.settle (u.corePart c) ((u.teamBar c lvl team).arrive (u.teamBar c lvl team).gen.toNat (u.memberNo c k)) (u.members (u.corePart c) lvl team)

theorem State.arriveHere_level : (u.arriveHere c k lvl team).level = lvl := by
  simp only [State.arriveHere, State.teamBar, State.settle_level, TeamBar.arrive_level, (Part.barAt_level _ _ _).1]

theorem State.arriveHere_team : (u.arriveHere c k lvl team).team = (u.corePart c).teamKey lvl team := by
  simp only [State.arriveHere, State.teamBar, State.settle_team, TeamBar.arrive_team, (Part.barAt_level _ _ _).2]

end

section
variable {u : State} {c k lvl : Nat} {team : NatList} (hspan : (u.corePart c).spans lvl = false)
include hspan

theorem State.roundOver_arrive : u.roundOver (u.corePart c) ((u.teamBar c lvl team).arrive (u.teamBar c lvl team).gen.toNat (u.memberNo c k))
    (u.members (u.corePart c) lvl team) = true ↔ u.allHere c k lvl team := by
  have hlevel : (u.teamBar c lvl team).level = lvl := (Part.barAt_level _ _ _).1
  rw [State.roundOver_iff _ _ _ _ (by rw [TeamBar.arrive_level, hlevel]; exact hspan), State.allHere]
  simp only [TeamBar.arrive_gen, TeamBar.mem_arrive, Prod.mk.injEq, true_and]

/-- The last member to arrive ends the round. -/
theorem State.arriveHere_over (h : u.allHere c k lvl team) : (u.arriveHere c k lvl team).gen = (u.teamBar c lvl team).gen + 1 := by
  rw [State.arriveHere, State.settle, if_pos ((State.roundOver_arrive hspan).2 h)]
  exact congrArg (· + 1) (TeamBar.arrive_gen ..)

theorem State.arriveHere_waits (h : ¬u.allHere c k lvl team) : (u.arriveHere c k lvl team).gen = (u.teamBar c lvl team).gen
    ∧ ((u.teamBar c lvl team).gen.toNat, u.memberNo c k) ∈ (u.arriveHere c k lvl team).arrived := by
  rw [State.arriveHere, State.settle, if_neg (mt (State.roundOver_arrive hspan).1 h)]
  exact ⟨TeamBar.arrive_gen .., (TeamBar.mem_arrive ..).2 (.inr rfl)⟩

end

/-! ## The strand after its word -/

theorem State.strand_past_fields (s : State) (c : Nat) {k : Nat} (a : Word64) (h : k < 4) :
    ((s.past c k a).strand c k).regs = (s.strand c k).regs ∧ ((s.past c k a).strand c k).preds = (s.strand c k).preds
      ∧ ((s.past c k a).strand c k).pc = a ∧ ((s.past c k a).strand c k).hold = none := by
  rw [State.strand_past _ _ _ h]
  exact ⟨rfl, rfl, rfl, rfl⟩

theorem State.strand_holds_fields (s : State) (c : Nat) {k : Nat} (w : Hold) (h : k < 4) :
    ((s.holds c k w).strand c k).regs = (s.strand c k).regs ∧ ((s.holds c k w).strand c k).preds = (s.strand c k).preds
      ∧ ((s.holds c k w).strand c k).pc = (s.strand c k).pc ∧ ((s.holds c k w).strand c k).hold = some w := by
  rw [State.strand_holds _ _ _ h]
  exact ⟨rfl, rfl, rfl, rfl⟩

/-! ## TBAR -/

/-- The state in which a strand has arrived at a barrier. -/
def State.arrived (u : State) (c k lvl : Nat) (team : NatList) : State := u.onCorePart c (·.setBar (u.arriveHere c k lvl team))

theorem State.onCorePart_cores (u : State) (c : Nat) (f : Part → Part) : (u.onCorePart c f).cores = u.cores := by
  unfold State.onCorePart
  split <;> rfl

theorem State.strand_arrived (u : State) (c k lvl : Nat) (team : NatList) (d j : Nat) : (u.arrived c k lvl team).strand d j = u.strand d j := by
  simp only [State.arrived, State.strand, State.core, State.onCorePart_cores]

theorem State.mem_arrived (u : State) (c k lvl : Nat) (team : NatList) : (u.arrived c k lvl team).mem = u.mem := by
  unfold State.arrived State.onCorePart
  split <;> rfl

theorem State.teamBar_arrived {u : State} {c n : Nat} (h : (u.core c).part = some n) (k lvl : Nat) (team : NatList) :
    ((u.arrived c k lvl team).corePart c).barAt lvl ((u.corePart c).teamKey lvl team) = u.arriveHere c k lvl team := by
  rw [State.arrived, State.corePart_onCorePart h]
  have hbar := ((u.corePart c).barAt_setBar (u.arriveHere c k lvl team))
  rwa [State.arriveHere_level, State.arriveHere_team] at hbar

section
variable {u : State} {c k lvl n : Nat} {g : Guard} {t : Strand}

/-- TBAR's effect. -/
def tbarEff (g : Guard) (lvl c k : Nat) (t : Strand) (u : State) : Eff :=
  if lvl ≥ (u.corePart c).levels.length then .trap 0x30A (BitVec.ofNat 64 lvl) 0
  else match t.hold with
  | some h => if (u.teamBar c lvl t.team).gen.toNat = h.gen then .wait u h else .done u
  | none =>
    if u.releaseWaits c k || (((((u.corePart c).levels[lvl]?).map (·.scope)).getD 0 == 5) && !u.ownAtGang c k) then .stay (u.releasing c k)
    else
      let w := (u.arrived c k lvl t.team).tellPeers c lvl
        (.barrier lvl ((u.corePart c).teamKey lvl t.team) (u.teamBar c lvl t.team).gen.toNat (u.memberNo c k))
      if (u.arriveHere c k lvl t.team).gen = (u.teamBar c lvl t.team).gen
      then .wait w ⟨.tbar g lvl, [], (u.teamBar c lvl t.team).gen.toNat, none, []⟩ else .done w

theorem execTbar_eq (g : Guard) (lvl : Nat) (s : State) : execTbar g lvl s = s.coxRun false g [] (tbarEff g lvl) := rfl

theorem tbarEff_held {h : Hold} (hlvl : lvl < (u.corePart c).levels.length) (hhold : t.hold = some h) :
    tbarEff g lvl c k t u = if (u.teamBar c lvl t.team).gen.toNat = h.gen then .wait u h else .done u := by
  simp only [tbarEff, ge_iff_le, if_neg (Nat.not_le.2 hlvl), hhold]

/-- A strand that does not hold yet and whose accesses need not wait arrives, at a level whose teams stay on this module. -/
theorem tbarEff_arrives (hlvl : lvl < (u.corePart c).levels.length) (hhold : t.hold = none) (hrel : u.releaseWaits c k = false)
    (hgang : ∀ l, (u.corePart c).levels[lvl]? = some l → l.scope = 5 → u.ownAtGang c k = true) (hspan : (u.corePart c).spans lvl = false)
    (hpart : (u.core c).part = some n) :
    tbarEff g lvl c k t u = if (u.arriveHere c k lvl t.team).gen = (u.teamBar c lvl t.team).gen
      then .wait (u.arrived c k lvl t.team) ⟨.tbar g lvl, [], (u.teamBar c lvl t.team).gen.toNat, none, []⟩ else .done (u.arrived c k lvl t.team) := by
  have hscope : ((((u.corePart c).levels[lvl]?).map (·.scope)).getD 0 == 5 && !u.ownAtGang c k) = false := by
    cases hl : (u.corePart c).levels[lvl]? with
    | none => rfl
    | some l =>
      by_cases h5 : l.scope = 5
      · simp [hgang l hl h5]
      · simp [h5]
  have hhere : ((u.arrived c k lvl t.team).corePart c).spans lvl = false := by
    rw [State.arrived, State.corePart_onCorePart hpart]
    exact hspan
  simp only [tbarEff, ge_iff_le, if_neg (Nat.not_le.2 hlvl), hhold, hrel, hscope, Bool.or_self, Bool.false_eq_true, if_false, State.tellPeers_here hhere]

end

section
variable {s : State} {c k : Nat} {g : Guard} {uses : List Nat} {long : Bool} {eff : Nat → Nat → Strand → State → Eff}

/-- A word that changes its core beside the strands, in a field that it gives a value. -/
theorem State.coxRun_onCore {α : Type} {f : Core → Core} (h : s.Issues c k g uses) (p : Core → α) {v : α}
    (heff : eff c k (s.found c k g uses) (s.issued c k g uses) = .done ((s.issued c k g uses).onCore c f)) (hf : ∀ x, (f x).strands = x.strands)
    (hp : ∀ x t, p (Core.setStrand x k t) = p x) (hv : p (f ((s.issued c k g uses).core c)) = v) :
    ∃ t', s.coxRun long g uses eff = .next t' ∧ p (t'.core c) = v ∧ t'.mem = s.mem
      ∧ (t'.strand c k).regs = (s.found c k g uses).regs ∧ (t'.strand c k).pc = (s.found c k g uses).pc + wordBytes long := by
  have hstrand : ((s.issued c k g uses).onCore c f).strand c k = s.found c k g uses := by
    rw [State.strand_onCore _ _ hf, State.strand_issued _ _ _ _ h.slot]
  obtain ⟨hregs, -, hpc, -⟩ := State.strand_past_fields ((s.issued c k g uses).onCore c f) c ((s.found c k g uses).pc + wordBytes long) h.slot
  refine ⟨_, State.coxRun_done h heff, ?_, rfl, hregs.trans (by rw [hstrand]), hpc⟩
  rw [State.core_past, hp, State.onCore, State.core_setCore_self, hv]

end

/-! ## Team indices -/

theorem teamNumber_two (x0 x1 : Nat) (y0 y1 : Level) : teamNumber [y0, y1] [x0, x1] = x0 * y1.fanout + x1 := by
  simp [teamNumber]

theorem teamNumber_three (x0 x1 x2 : Nat) (y0 y1 y2 : Level) :
    teamNumber [y0, y1, y2] [x0, x1, x2] = x0 * (y1.fanout * y2.fanout) + (x1 * y2.fanout + x2) := by
  simp [teamNumber]

/-! ## YIELD -/

/-- While a strand of the part runs, a yield asks for no save. -/
theorem State.yieldDone_running {s : State} {n d j : Nat} (hd : d ∈ (s.part n).cores) (hj : j < 4) (hr : (s.strand d j).status = .runnable) :
    s.yieldDone n = s := by
  have hlt : j < (s.core d).strands.toList.length := by simpa using hj
  have hstrand : s.strand d j = (s.core d).strands.toList[j] := by simp [State.strand, Core.strand, hj]
  have hin : s.strand d j ∈ (s.part n).cores.flatMap fun e => (s.core e).strands.toList :=
    List.mem_flatMap.2 ⟨d, hd, hstrand ▸ List.getElem_mem hlt⟩
  refine if_neg fun h => ?_
  simp only [Bool.and_eq_true, List.all_eq_true] at h
  have := h.1.2 _ hin
  rw [hr] at this
  exact absurd this (by decide)

theorem State.strand_setStrand_else (s : State) {c k d j : Nat} (t : Strand) (h : (d, j) ≠ (c, k)) : (s.setStrand c k t).strand d j = s.strand d j := by
  by_cases hd : d = c
  · subst hd
    exact State.strand_setStrand_slot s d t fun hj => h (by rw [hj])
  · exact State.strand_setStrand_core s k j t hd

section
variable {s : State} {c k lvl n : Nat} {g : Guard}

theorem generation_succ_ne (x : BitVec 16) : x + 1 ≠ x := by
  intro h
  have hnat := congrArg BitVec.toNat h
  rw [BitVec.toNat_add] at hnat
  have hlt := x.isLt
  have hone : (1 : BitVec 16).toNat = 1 := rfl
  omega

/-- TBAR of a strand that does not hold yet, in the terms of the state it issues in. -/
theorem State.coxRun_tbar_arrives (h : s.Issues c k g []) (hlvl : lvl < ((s.issued c k g []).corePart c).levels.length)
    (hhold : (s.found c k g []).hold = none) (hrel : (s.issued c k g []).releaseWaits c k = false)
    (hgang : ∀ l, ((s.issued c k g []).corePart c).levels[lvl]? = some l → l.scope = 5 → (s.issued c k g []).ownAtGang c k = true)
    (hspan : ((s.issued c k g []).corePart c).spans lvl = false) (hpart : ((s.issued c k g []).core c).part = some n) :
    let t := s.found c k g []
    let u := s.issued c k g []
    let b := u.teamBar c lvl t.team
    let after := fun (x : State) => (x.corePart c).barAt lvl ((u.corePart c).teamKey lvl t.team)
    ∃ t', s.coxRun false g [] (tbarEff g lvl) = .next t' ∧ t'.mem = s.mem ∧ (t'.strand c k).regs = t.regs ∧ (t'.strand c k).preds = t.preds
      ∧ (u.allHere c k lvl t.team → (after t').gen = b.gen + 1 ∧ (t'.strand c k).pc = t.pc + 4 ∧ (t'.strand c k).hold = none)
      ∧ (¬u.allHere c k lvl t.team → (after t').gen = b.gen ∧ (b.gen.toNat, u.memberNo c k) ∈ (after t').arrived ∧ (t'.strand c k).pc = t.pc
        ∧ (t'.strand c k).hold = some ⟨.tbar g lvl, [], b.gen.toNat, none, []⟩) := by
  dsimp only
  have heff := tbarEff_arrives (g := g) hlvl hhold hrel hgang hspan hpart
  have hstrand := State.strand_arrived (s.issued c k g []) c k lvl (s.found c k g []).team c k
  rw [State.strand_issued _ _ _ _ h.slot] at hstrand
  have hmem := State.mem_arrived (s.issued c k g []) c k lvl (s.found c k g []).team
  have hbar := State.teamBar_arrived hpart k lvl (s.found c k g []).team
  by_cases hall : (s.issued c k g []).allHere c k lvl (s.found c k g []).team
  · have hgen := State.arriveHere_over hspan hall
    rw [if_neg fun e => generation_succ_ne _ (hgen.symm.trans e)] at heff
    rw [State.coxRun_done h heff]
    generalize (s.issued c k g []).arrived c k lvl (s.found c k g []).team = v at hstrand hmem hbar
    obtain ⟨hregs, hpreds, hpc, hhold⟩ := State.strand_past_fields v c ((s.found c k g []).pc + 4) h.slot
    refine ⟨_, rfl, hmem, hregs.trans (by rw [hstrand]), hpreds.trans (by rw [hstrand]), fun _ => ⟨?_, hpc, hhold⟩, fun hn => absurd hall hn⟩
    rw [State.corePart_past, hbar, hgen]
  · obtain ⟨hgen, harrived⟩ := State.arriveHere_waits hspan hall
    rw [if_pos hgen] at heff
    rw [State.coxRun_wait h heff]
    generalize (s.issued c k g []).arrived c k lvl (s.found c k g []).team = v at hstrand hmem hbar
    obtain ⟨hregs, hpreds, hpc, hhold⟩ := State.strand_holds_fields v c (k := k)
      ⟨.tbar g lvl, [], ((s.issued c k g []).teamBar c lvl (s.found c k g []).team).gen.toNat, none, []⟩ h.slot
    refine ⟨_, rfl, hmem, hregs.trans (by rw [hstrand]), hpreds.trans (by rw [hstrand]), fun hn => absurd hn hall,
      fun _ => ⟨?_, ?_, hpc.trans (by rw [hstrand]), hhold⟩⟩
    · rw [State.corePart_holds, hbar, hgen]
    · rw [State.corePart_holds, hbar]; exact harrived

end

/-- Settles O18: TBAR by its cases, TID by the table of levels, YIELD by the request and the other strands. -/
theorem teamsAndBarriers : Obligations.TeamsAndBarriers := by
  unfold Obligations.TeamsAndBarriers
  refine ⟨fun s c k lvl g => ⟨fun h hg => ?unguarded, fun h => ?tbar⟩, fun s c k d a p i g e => ⟨fun h => ?plain, fun h => ?live, fun h => ?tid, fun h => ?yield⟩⟩
  case unguarded =>
    rw [exec_tbar, execTbar_eq]
    exact State.coxRun_unguarded h hg
  case tbar =>
    simp only [exec_tbar, execTbar_eq]
    rw [← State.corePart_issued s c k g [] c]
    refine ⟨fun hlvl hl => ?beyond, fun w hlvl hhold hgen => ?turned, fun w hlvl hhold hgen => ?same, fun n hlvl hhold hrel hgang hspan hpart => ?fresh⟩
    case beyond => exact State.coxRun_trap h hl (by decide) (if_pos hlvl)
    case turned => exact State.coxRun_done h ((tbarEff_held hlvl hhold).trans (if_neg hgen))
    case same => exact State.coxRun_wait h ((tbarEff_held hlvl hhold).trans (if_pos hgen))
    case fresh =>
      exact State.coxRun_tbar_arrives h hlvl hhold hrel hgang hspan (by rw [State.core_issued]; exact hpart)
  case plain =>
    rw [exec_nop, exec_liveLong, execNop, execLiveLong]
    exact ⟨State.coxRun_done h rfl, State.coxRun_onCore h Core.livem rfl (fun _ => rfl) (fun _ _ => rfl) rfl⟩
  case live =>
    rw [exec_live, execLive]
    exact State.coxRun_onCore h Core.livem rfl (fun _ => rfl) (fun _ _ => rfl) rfl
  case tid =>
    dsimp only
    rw [← State.corePart_issued s c k g [d] c]
    simp only [exec_tid, execTid]
    refine ⟨State.coxRun_putS h rfl, State.coxRun_putS h rfl, fun y hy => State.coxRun_putS h ?_, fun hlen => State.coxRun_putS h ?_,
      fun x0 x1 y0 y1 hl hteam => State.coxRun_putS h ?_, fun x0 x1 x2 y0 y1 y2 hl hteam => State.coxRun_putS h ?_⟩
    · rw [hy]; rfl
    · rw [List.getElem?_eq_none hlen]; rfl
    · rw [hl, hteam, teamNumber_two]
    · rw [hl, hteam, teamNumber_three]
  case yield =>
    dsimp only
    rw [← State.corePart_issued s c k g [64 + p] c]
    simp only [exec_yield, execYield]
    refine ⟨fun hno => State.coxRun_setStrand h (if_neg (Bool.not_eq_true _ ▸ hno)), fun n dst j hreq hpart hdst hj hne hrun => ?_⟩
    have hv : ∀ w : Strand, ((s.setStrand c k w).core c).part = some n := fun w => (State.core_setStrand_field s c k w Core.part (fun _ _ => rfl) c).trans hpart
    have hwait : ∀ w : Strand, (s.setStrand c k w).yieldDone n = s.setStrand c k w := fun w =>
      State.yieldDone_running (d := dst) (j := j) hdst hj (by rw [State.strand_setStrand_else _ _ hne]; exact hrun)
    refine State.coxRun_over h ((if_pos hreq).trans ?_)
    simp only [State.issued, State.setStrand_setStrand, hv, hwait]

end Sys2Proof.Machine

/-! SUPPORT. System registers (R169, R234, R407). -/
namespace Sys2Proof.Machine

/-- The numbers of the system registers. -/
def sysNumbers : List Nat :=
  [0x000, 0x001, 0x002, 0x003, 0x004, 0x005, 0x010, 0x011, 0x012, 0x018, 0x019, 0x020, 0x021, 0x022, 0x023, 0x024, 0x100, 0x101, 0x102, 0x103, 0x104]

theorem State.readSys_unassigned (s : State) (c k : Nat) {n : Nat} (h : n ∉ sysNumbers) : s.readSys c k n = none := by
  unfold State.readSys
  dsimp only
  split
  case h_22 => rfl
  all_goals exact absurd h (by decide)

theorem privSys_iff (n : Nat) : privSys n = true ↔ 0x100 ≤ n ∧ n ≤ 0x104 := by simp [privSys]

section
variable {s : State} {c k d n : Nat} {g : Guard} {v : Word64}

/-- MFS of a register that may be read. -/
theorem execMfs_reads (h : s.Issues c k g [d]) (hread : (s.issued c k g [d]).readSys c k n = some v) (hp : privSys n = true → (s.corePart c).priv = true) :
    execMfs g d n s = .next ((s.setStrand c k ((s.found c k g [d]).writeS d v)).past c k ((s.found c k g [d]).pc + 4)) := by
  have hview : ¬(privSys n && !((s.issued c k g [d]).corePart c).priv) = true := by
    rw [State.corePart_issued]
    cases hn : privSys n
    · exact Bool.false_ne_true
    · simp [hp hn]
  exact State.coxRun_setStrand h (by simp only [hread, if_neg hview]; rfl)

/-- MFS of a privileged register without privilege traps with PRIVREG. -/
theorem execMfs_privileged (h : s.Issues c k g [d]) (hread : (s.issued c k g [d]).readSys c k n = some v) (hn : privSys n = true)
    (hp : (s.corePart c).priv = false) (hl : (s.found c k g [d]).loads.any (·.val.isNone) = false) :
    execMfs g d n s = .next ((s.issued c k g [d]).takeTrap c k 0x308 (BitVec.ofNat 64 n) 0) := by
  have hview : (privSys n && !((s.issued c k g [d]).corePart c).priv) = true := by
    rw [State.corePart_issued, hn, hp]; rfl
  exact State.coxRun_trap h hl (by decide) (by simp only [hread, if_pos hview])

theorem execMfs_unassigned (h : s.Issues c k g [d]) (hn : n ∉ sysNumbers) (hl : (s.found c k g [d]).loads.any (·.val.isNone) = false) :
    execMfs g d n s = .next ((s.issued c k g [d]).takeTrap c k 0x307 (BitVec.ofNat 64 n) 0) :=
  State.coxRun_trap h hl (by decide) (by simp only [State.readSys_unassigned _ c k hn])

end

theorem State.readSys_assigned (s : State) (c k : Nat) {n : Nat} (h : n ∈ sysNumbers) : (s.readSys c k n).isNone = false := by
  simp only [sysNumbers, List.mem_cons, List.not_mem_nil, or_false] at h
  rcases h with rfl | rfl | rfl | rfl | rfl | rfl | rfl | rfl | rfl | rfl | rfl | rfl | rfl | rfl | rfl | rfl | rfl | rfl | rfl | rfl | rfl <;> rfl

/-- The numbers that MTS may write. -/
def writableNumbers : List Nat := [0x010, 0x012, 0x018, 0x019, 0x022, 0x023, 0x100, 0x101, 0x102, 0x103, 0x104]

theorem writable_iff (n : Nat) : ([0x010, 0x012, 0x018, 0x019, 0x022, 0x023].contains n || privSys n) = true ↔ n ∈ writableNumbers := by
  simp only [Bool.or_eq_true, privSys_iff, writableNumbers, List.contains_eq_mem, decide_eq_true_eq, List.mem_cons, List.not_mem_nil, or_false]
  omega

section
variable (s : State) (c k n : Nat)

theorem mts_known {u : State} (hn : n ∈ writableNumbers) :
    ¬((u.readSys c k n).isNone || !([0x010, 0x012, 0x018, 0x019, 0x022, 0x023].contains n || privSys n)) = true := by
  have hassigned : n ∈ sysNumbers := by
    revert hn
    simp only [writableNumbers, sysNumbers, List.mem_cons, List.not_mem_nil, or_false]
    omega
  rw [State.readSys_assigned u c k hassigned, (writable_iff n).2 hn]
  exact Bool.false_ne_true

/-- MTS writes a register that may be written, and a privileged one with privilege. -/
theorem mts_permits {u : State} (hn : n ∈ writableNumbers) (hp : privSys n = true → (u.corePart c).priv = true) :
    ¬((u.readSys c k n).isNone || !([0x010, 0x012, 0x018, 0x019, 0x022, 0x023].contains n || privSys n)) = true
      ∧ ¬(privSys n && !(u.corePart c).priv) = true := by
  refine ⟨mts_known c k n hn, ?_⟩
  cases hs : privSys n
  · exact Bool.false_ne_true
  · simp [hp hs]

theorem mts_refuses {u : State} (hn : n ∉ writableNumbers) :
    ((u.readSys c k n).isNone || !([0x010, 0x012, 0x018, 0x019, 0x022, 0x023].contains n || privSys n)) = true := by
  rw [Bool.eq_false_iff.2 (mt (writable_iff n).1 hn)]
  exact Bool.or_true _

end

theorem srStore_word (v : Word64) : BitVec.ofNat 32 (srStore (bitsOf v 31 0)) = if v.truncate 32 = 0#32 then (0x6D2B79F5 : Word32) else v.truncate 32 := by
  have hbits : bitsOf v 31 0 % 2 ^ 32 = (v.truncate 32).toNat := by
    simp [bitsOf, fld, BitVec.toNat_setWidth]
  have hzero : (v.truncate 32).toNat = 0 ↔ v.truncate 32 = 0#32 := ⟨fun h => BitVec.eq_of_toNat_eq h, fun h => by rw [h]; rfl⟩
  rw [srStore, hbits]
  by_cases h : v.truncate 32 = 0#32
  · rw [if_pos (hzero.2 h), if_pos h]; rfl
  · rw [if_neg (mt hzero.1 h), if_neg h, BitVec.ofNat_toNat]
    simp

theorem State.onCorePart_eq {s : State} {c n : Nat} (h : (s.core c).part = some n) (f : Part → Part) :
    s.onCorePart c f = s.setPart n (f (s.corePart c)) := by
  simp only [State.onCorePart, State.corePart, h, State.onPart, Option.map_some, Option.getD_some]

/-- MTS to STTCFG with no fill in flight takes effect at once (R93). -/
theorem sttEff_now {u : State} {c k : Nat} {t : Strand} {i : Instr} {v : Word64} (hgen : (t.hold.map (·.gen)) ≠ some 1) (hgood : (u.core c).sttBad v = false)
    (hpend : (u.core c).sttPend = none) (hfills : (u.core c).fillsOpen = false) : sttEff u c k t i v = .done (u.setCore c ((u.core c).applyStt v)) := by
  simp only [sttEff, if_neg hgen, hgood, hpend, hfills, Option.isSome_none, Bool.false_eq_true, if_false]

/-- Settles O19: each number of the view by its value, and each writable one by what it writes. -/
theorem systemRegisters : Obligations.SystemRegisters := by
  unfold Obligations.SystemRegisters
  intro s c k d a g n p x y
  refine ⟨fun h => ?mfs, fun h => ?mts⟩
  case mfs =>
    intro t e number view privileged gives
    have hstrand : (s.issued c k g [d]).strand c k = t := State.strand_issued s c g [d] h.slot
    have hcore : (s.issued c k g [d]).core c = x.setStrand k t := State.core_issued s c k g [d]
    have hpart : (s.issued c k g [d]).corePart c = p := State.corePart_issued s c k g [d] c
    have hnum : ∀ (b : Bool) m, (if b = true then m else 0) = number b * m := fun b m => by cases b <;> simp [number]
    have hthread : (k + if p.priv = true then 4 else 0) = k + 4 * number p.priv := by rw [hnum, Nat.mul_comm]
    have hword : e.word = e.frame % 2 ^ 8 + e.shf % 2 ^ 8 * 2 ^ 8 + number e.v * 2 ^ 16 + number e.shv * 2 ^ 17 := by
      simp only [SpmEntry.word, hnum, show (2 : Nat) ^ 8 = 256 from rfl]
    have hydl : p.ydl = BitVec.ofNat 64 (number p.yreq + 2 * number p.forced + p.dltick.toNat * 2 ^ 32) := by
      rw [Part.ydl, hnum, hnum, Nat.mul_one, Nat.mul_comm (number p.forced)]
    have hremap : y.remapReq = BitVec.ofNat 64 (y.remapLria.toNat + y.remapLrib.toNat * 2 ^ 16 + number y.swap.isSome * 2 ^ 33 + number y.refused * 2 ^ 34) := by
      rw [Die.remapReq, hnum, hnum]
    have hview : ∀ r ∈ view, (s.issued c k g [d]).readSys c k r.1 = some r.2 ∧ privSys r.1 = false := by
      simp only [view, List.forall_mem_cons, State.readSys, hstrand, hcore, hpart, hthread, hydl, ← hword]
      exact ⟨⟨trivial, rfl⟩, ⟨trivial, rfl⟩, ⟨rfl, rfl⟩, ⟨rfl, rfl⟩, ⟨rfl, rfl⟩, ⟨rfl, rfl⟩, ⟨trivial, rfl⟩, ⟨rfl, rfl⟩, ⟨rfl, rfl⟩, ⟨rfl, rfl⟩, ⟨rfl, rfl⟩,
        ⟨trivial, rfl⟩, ⟨trivial, rfl⟩, ⟨trivial, rfl⟩, ⟨trivial, rfl⟩, ⟨trivial, rfl⟩, List.forall_mem_nil _⟩
    have hpriv : ∀ r ∈ privileged, (s.issued c k g [d]).readSys c k r.1 = some r.2 ∧ privSys r.1 = true := by
      simp only [privileged, List.forall_mem_cons, State.readSys, hpart, ← hremap]
      exact ⟨⟨trivial, rfl⟩, ⟨rfl, rfl⟩, ⟨rfl, rfl⟩, ⟨rfl, rfl⟩, ⟨rfl, rfl⟩, List.forall_mem_nil _⟩
    simp only [exec_mfs]
    refine ⟨fun r hr => execMfs_reads h (hview r hr).1 fun hv => absurd ((hview r hr).2.symm.trans hv) Bool.false_ne_true,
      fun r hr hp => execMfs_reads h (hpriv r hr).1 fun _ => hp, fun hl r hr hp => execMfs_privileged h (hpriv r hr).1 (hpriv r hr).2 hp hl,
      fun hl hn => execMfs_unassigned h hn hl⟩
  case mts =>
    intro t u v writes seed
    have hstrand : u.strand c k = t := State.strand_issued s c g [a] h.slot
    have hcore : u.core c = x.setStrand k t := State.core_issued s c k g [a]
    have hpart : u.corePart c = p := State.corePart_issued s c k g [a] c
    have hplain : ∀ {r}, r ∈ writableNumbers → privSys r = false → _ := fun {r} hr hs =>
      mts_permits c k r (u := u) hr fun hv => absurd (hs.symm.trans hv) Bool.false_ne_true
    simp only [writes, exec_mts, execMts]
    refine ⟨State.coxRun_setStrand h ?sel, State.coxRun_done h ?srsv, State.coxRun_done h ?srsc, State.coxRun_setStrand h ?tvec, State.coxRun_setStrand h ?tframe,
      fun hgood hpend hfills hgen => State.coxRun_done h ?stt, fun hp => ⟨fun m hm => State.coxRun_done h ?ptroot, State.coxRun_done h ?remapctl,
        State.coxRun_done h ?remapreq, State.coxRun_done h ?modesel, State.coxRun_done h ?ramp⟩,
      fun hl => ⟨fun hp hlo hhi => State.coxRun_trap h hl (by decide) ?privileged, fun hn => State.coxRun_trap h hl (by decide) (if_pos (mts_refuses c k n hn))⟩⟩
    case sel | tvec | tframe => exact (if_neg (hplain (by decide) (by decide)).1).trans (if_neg (hplain (by decide) (by decide)).2)
    case srsv | srsc =>
      refine (if_neg (hplain (by decide) (by decide)).1).trans ((if_neg (hplain (by decide) (by decide)).2).trans ?_)
      rw [srStore_word]
      rfl
    case stt =>
      refine (if_neg (hplain (by decide) (by decide)).1).trans ((if_neg (hplain (by decide) (by decide)).2).trans ?_)
      exact sttEff_now hgen (by rw [State.core_issued]; exact hgood) (by rw [State.core_issued]; exact hpend) (by rw [State.core_issued]; exact hfills)
    case privileged =>
      have hn : n ∈ writableNumbers := by
        simp only [writableNumbers, List.mem_cons, List.not_mem_nil, or_false]
        omega
      have hs : privSys n = true := (privSys_iff n).2 ⟨hlo, hhi⟩
      refine (if_neg (mts_known c k n hn)).trans (if_pos ?_)
      rw [State.corePart_issued, hs, hp]
      rfl
    all_goals
      have hpriv : ∀ {r}, r ∈ writableNumbers → _ := fun {r} hr => mts_permits c k r (u := u) hr fun _ => (congrArg Part.priv hpart).trans hp
      refine (if_neg (hpriv (by decide)).1).trans ((if_neg (hpriv (by decide)).2).trans ?_)
    case ptroot =>
      have hm' : (u.core c).part = some m := by rw [hcore]; exact hm
      show Eff.done (u.onCorePart c _) = _
      rw [State.onCorePart_eq hm', hpart]
      rfl
    case remapctl | remapreq | modesel | ramp => rfl

end Sys2Proof.Machine

/-! SUPPORT. Catch barriers and dependence counters (R112, R219 to R223, R226, R227, R407, R408). -/
namespace Sys2Proof.Machine

/-! ## Catch barriers -/

section
variable {s : State} {c k : Nat} {g : Guard} {uses : List Nat}

theorem State.issued_bar (cb : Nat) : ((s.issued c k g uses).core c).bar cb = (s.core c).bar cb :=
  (s.core_issued_field c k g uses (fun x => Core.bar x cb) (fun _ _ => rfl) c)

/-- A barrier of the core written where an instruction issues, in the terms of the core that it found. -/
theorem State.issued_setBar (cb : Nat) (b : CatchBar) :
    (s.issued c k g uses).onCore c (·.setBar cb b)
      = (s.issued c k g uses).setCore c { (s.issued c k g uses).core c with bars := tabPut (s.core c).bars cb b } := by
  simp only [State.onCore, Core.setBar, State.core_issued]
  rfl

theorem State.issued_putSlot (cb slot : Nat) (y : CatchSlot) :
    (s.issued c k g uses).onCore c (·.putSlot cb slot y)
      = (s.issued c k g uses).setCore c { (s.issued c k g uses).core c with
          bars := tabPut (s.core c).bars cb { (s.core c).bar cb with slots := ((s.core c).bar cb).slots.set slot y } } := by
  simp only [State.onCore, Core.putSlot, Core.setBar, State.core_issued]
  rfl

end

section
variable {u : State} {c cb slot count : Nat} {y : CatchSlot}

theorem cexpEff_none (h : ((u.core c).bar cb).slots[slot]? = none) : cexpEff u c cb slot count = .trap 0x30B (catchInfo cb slot) 0 := by
  rw [cexpEff, h]

theorem cexpEff_bad (h : ((u.core c).bar cb).slots[slot]? = some y) (hn : count = 0 ∨ count ≥ 2 ^ 24) :
    cexpEff u c cb slot count = .trap 0x30C (BitVec.ofNat 64 count) 0 := by
  rw [cexpEff, h]
  exact if_pos hn

theorem cexpEff_ok (h : ((u.core c).bar cb).slots[slot]? = some y) (h0 : 0 < count) (hn : count < 2 ^ 24) :
    cexpEff u c cb slot count
      = .done (u.onCore c (·.putSlot cb slot (if y.latched then { y with pending := some count } else { y with expected := count }))) := by
  rw [cexpEff, h]
  exact if_neg (by omega)

end

/-! ## Dependence counters -/

section
variable (x : Core) (n v : Nat)

theorem Core.strand_setDc (k : Nat) : (x.setDc n v).strand k = if v = 0 then (x.strand k).sawZero n else x.strand k := by
  unfold Core.setDc
  split
  · simp only [Core.strand, Core.zeroSeen, Vector.getElem?_map]
    cases x.strands[k]? <;> rfl
  · rfl

theorem Core.setDc_dcs : (x.setDc n v).dcs = tabPut x.dcs n v := by
  unfold Core.setDc
  split <;> rfl

theorem Core.dc_setDc (j : Nat) : (x.setDc n v).dc j = if j = n then v else x.dc j := by
  rw [Core.dc, Core.setDc_dcs]
  split
  · next h => rw [h]; exact tabGet_put_self ..
  · next h => exact tabGet_put_other _ _ _ h

/-- A counter at zero satisfies the records that wait on it. -/
theorem Core.window_setDc_zero {q : Nat × TaskRec} (h : q ∈ (x.setDc n 0).window) (hwait : recWdv q.2.bytes = true) (hctr : recWdc q.2.bytes = n) :
    q.2.wcOk = true := by
  have hmap : (x.setDc n 0).window = x.window.map fun p =>
      (p.1, if field p.2.bytes 6 2 / 2 ^ 15 = 1 ∧ field p.2.bytes 6 2 % 2 ^ 9 = n then { p.2 with wcOk := true } else p.2) := rfl
  rw [hmap] at h
  obtain ⟨p, -, rfl⟩ := List.mem_map.1 h
  dsimp only at hwait hctr ⊢
  split at hwait
  · next hp => rw [if_pos hp]
  · next hp =>
    rw [if_neg hp] at hctr
    exact absurd ⟨by simpa [recWdv] using hwait, hctr⟩ hp

end

section
variable {s : State} {c k n : Nat} {g : Guard} {uses : List Nat} {long alone : Bool} {f : Nat → Nat → Strand → State → Eff} {v : Int} {kind : DcKind}

theorem State.issued_dc : ((s.issued c k g uses).core c).dc n = (s.core c).dc n :=
  s.core_issued_field c k g uses (fun x => Core.dc x n) (fun _ _ => rfl) c

theorem dcEff_in_range {u : State} (h0 : 0 ≤ v) (hv : v < 2 ^ 20) (hrel : u.releaseWaits c k = false) :
    dcEff u c k n v alone kind = .done (u.onCore c (if u.shared then (·.noteDc n kind) else (·.setDc n v.toNat))) := by
  rw [dcEff, if_neg fun h => h.1.elim (by omega) (by omega), hrel]
  rfl

variable (h : s.Issues c k g uses)
  (hf : f c k (s.found c k g uses) (s.issued c k g uses) = dcEff (s.issued c k g uses) c k n v alone kind)
include h hf

/-- A value within the range, in a cycle that is not shared, is the counter's at once. -/
theorem State.coxRun_setDc (h0 : 0 ≤ v) (hv : v < 2 ^ 20) (hrel : (s.issued c k g uses).releaseWaits c k = false) (hs : s.shared = false) :
    ∃ t', s.coxRun long g uses f = .next t' ∧ (t'.core c).dc n = v.toNat ∧ (∀ j, j ≠ n → (t'.core c).dc j = (s.core c).dc j)
      ∧ (v = 0 → ∀ q ∈ (t'.core c).window, recWdv q.2.bytes = true → recWdc q.2.bytes = n → q.2.wcOk = true)
      ∧ t'.mem = s.mem ∧ (t'.strand c k).regs = (s.found c k g uses).regs
      ∧ (t'.strand c k).pc = (s.found c k g uses).pc + wordBytes long := by
  have hdone := State.coxRun_done (long := long) h (hf.trans (dcEff_in_range h0 hv hrel))
  have hsh : (s.issued c k g uses).shared = false := hs
  rw [hsh, if_neg Bool.false_ne_true] at hdone
  have hcore : ∀ a, (((s.issued c k g uses).onCore c (·.setDc n v.toNat)).past c k a).core c
      = (((s.issued c k g uses).core c).setDc n v.toNat).setStrand k _ := fun a => by
    rw [State.core_past, State.onCore, State.core_setCore_self]
  have hstrand : (((s.issued c k g uses).onCore c (·.setDc n v.toNat)).strand c k).regs = (s.found c k g uses).regs := by
    rw [State.onCore, State.strand_setCore_self, Core.strand_setDc, ← State.strand_issued s c g uses h.slot]
    split <;> rfl
  obtain ⟨hregs, -, hpc, -⟩ := State.strand_past_fields ((s.issued c k g uses).onCore c (·.setDc n v.toNat)) c
    ((s.found c k g uses).pc + wordBytes long) h.slot
  refine ⟨_, hdone, ?_, fun j hj => ?_, fun h0 => ?_, rfl, hregs.trans hstrand, hpc⟩
  · rw [hcore]
    exact (Core.dc_setDc ..).trans (if_pos rfl)
  · rw [hcore]
    exact ((Core.dc_setDc ..).trans (if_neg hj)).trans State.issued_dc
  · rw [hcore, h0]
    exact fun q hq => Core.window_setDc_zero _ n hq

/-- In a cycle that units share it is noted. -/
theorem State.coxRun_noteDc (h0 : 0 ≤ v) (hv : v < 2 ^ 20) (hrel : (s.issued c k g uses).releaseWaits c k = false) (hs : s.shared = true) :
    ∃ t' y, s.coxRun long g uses f = .next t' ∧ (t'.core c).dcs = (s.core c).dcs ∧ (t'.core c).dcNow = (s.core c).dcNow ++ [y]
      ∧ y.ctr = n ∧ y.start = (s.core c).dc n ∧ t'.mem = s.mem ∧ (t'.strand c k).regs = (s.found c k g uses).regs
      ∧ (t'.strand c k).pc = (s.found c k g uses).pc + wordBytes long := by
  have hsh : (s.issued c k g uses).shared = true := hs
  have heff := hf.trans (dcEff_in_range h0 hv hrel)
  rw [hsh, if_pos rfl] at heff
  obtain ⟨t', hnext, hfields, hmem, hregs, hpc⟩ := State.coxRun_onCore (long := long) h (fun x => (x.dcs, x.dcNow)) heff (fun _ => rfl)
    (fun _ _ => rfl) rfl
  rw [State.core_issued] at hfields
  exact ⟨t', _, hnext, congrArg Prod.fst hfields, congrArg Prod.snd hfields, rfl, rfl, hmem, hregs, hpc⟩

/-- A value outside the range traps, in a cycle that is not shared. -/
theorem State.coxRun_dc_bad (hv : v < 0 ∨ v ≥ 2 ^ 20) (hs : s.shared = false) (hl : (s.found c k g uses).loads.any (·.val.isNone) = false) :
    s.coxRun long g uses f
      = .next ((s.issued c k g uses).takeTrap c k 0x30D (BitVec.ofNat 64 (n + (v % 2 ^ 32).toNat * 2 ^ 32)) 0) := by
  have hsh : (s.issued c k g uses).shared = false := hs
  exact State.coxRun_trap h hl (by decide) (hf.trans (if_pos ⟨hv, .inr (by rw [hsh]; rfl)⟩))

/-- All three cases, as DCSET and DCADD share them. -/
theorem State.coxRun_dc {w : Int} (hw : v = w) :
    (0 ≤ w → w < 2 ^ 20 → (s.issued c k g uses).releaseWaits c k = false → s.shared = false → ∃ t', s.coxRun long g uses f = .next t'
        ∧ (t'.core c).dc n = w.toNat ∧ (∀ j, j ≠ n → (t'.core c).dc j = (s.core c).dc j)
        ∧ (w = 0 → ∀ q ∈ (t'.core c).window, recWdv q.2.bytes = true → recWdc q.2.bytes = n → q.2.wcOk = true)
        ∧ t'.mem = s.mem ∧ (t'.strand c k).regs = (s.found c k g uses).regs ∧ (t'.strand c k).pc = (s.found c k g uses).pc + wordBytes long)
      ∧ (0 ≤ w → w < 2 ^ 20 → (s.issued c k g uses).releaseWaits c k = false → s.shared = true → ∃ t' y, s.coxRun long g uses f = .next t'
        ∧ (t'.core c).dcs = (s.core c).dcs ∧ (t'.core c).dcNow = (s.core c).dcNow ++ [y] ∧ y.ctr = n ∧ y.start = (s.core c).dc n
        ∧ t'.mem = s.mem ∧ (t'.strand c k).regs = (s.found c k g uses).regs ∧ (t'.strand c k).pc = (s.found c k g uses).pc + wordBytes long)
      ∧ (w < 0 ∨ w ≥ 2 ^ 20 → s.shared = false → (s.found c k g uses).loads.any (·.val.isNone) = false →
          s.coxRun long g uses f
            = .next ((s.issued c k g uses).takeTrap c k 0x30D (BitVec.ofNat 64 (n + (w % 2 ^ 32).toNat * 2 ^ 32)) 0)) := by
  subst hw
  exact ⟨State.coxRun_setDc h hf, State.coxRun_noteDc h hf, State.coxRun_dc_bad h hf⟩

end

/-- A counter that reaches zero is seen by the strand that holds in DCWAIT on it. -/
theorem State.strand_setDc_zero {s : State} {c k n : Nat} {h : Hold} {g : Guard} (hold : (s.strand c k).hold = some h) (hi : h.instr = .dcwait g n) :
    ((s.onCore c (·.setDc n 0)).strand c k).hold = some { h with gen := 1 } := by
  rw [State.onCore, State.strand_setCore_self, Core.strand_setDc, if_pos rfl, Strand.sawZero]
  have hold' : ((s.core c).strand k).hold = some h := hold
  simp [hold', hi]

section
variable {u : State} {c k cb slot p : Nat} {t : Strand} {g : Guard} {y : CatchSlot}

/-- CREL's effect. -/
def crelEff (cb slot c k : Nat) (u : State) : Eff :=
  match ((u.core c).bar cb).slots[slot]? with
  | none => .trap 0x30B (catchInfo cb slot) 0
  | some y =>
    if !y.awaiting then .trap 0x30B (catchInfo cb slot) 0
    else if u.releaseWaits c k then .stay (u.releasing c k)
    else .done (u.onCore c (·.putSlot cb slot
      { y with arrived := 0, expected := y.pending.getD y.expected, pending := none, awaiting := false, latched := false }))

theorem execCrel_eq (s : State) : execCrel g cb slot s = s.coxRun false g [] fun c k _ u => crelEff cb slot c k u := rfl

theorem crelEff_none (h : ((u.core c).bar cb).slots[slot]? = none) : crelEff cb slot c k u = .trap 0x30B (catchInfo cb slot) 0 := by
  rw [crelEff, h]

theorem crelEff_empty (h : ((u.core c).bar cb).slots[slot]? = some y) (ha : y.awaiting = false) :
    crelEff cb slot c k u = .trap 0x30B (catchInfo cb slot) 0 := by
  rw [crelEff, h]
  exact if_pos (by rw [ha]; rfl)

theorem crelEff_full (h : ((u.core c).bar cb).slots[slot]? = some y) (ha : y.awaiting = true) (hr : u.releaseWaits c k = false) :
    crelEff cb slot c k u = .done (u.onCore c (·.putSlot cb slot ⟨y.pending.getD y.expected, 0, y.phase, false, none, false⟩)) := by
  simp only [crelEff, h, ha, hr, Bool.not_true, Bool.false_eq_true, if_false]

/-- CWAIT's effect. -/
def cwaitEff (g : Guard) (cb slot p c k : Nat) (t : Strand) (u : State) : Eff :=
  match ((u.core c).bar cb).slots[slot]? with
  | none => .trap 0x30B (catchInfo cb slot) 0
  | some y =>
    if p = 0 then (if y.awaiting then .done u else .wait u ⟨.cwait g cb slot p, [], 0, none, []⟩)
    else if y.phase = t.readP p then .wait u ⟨.cwait g cb slot p, [], 0, none, []⟩
    else .done (u.setStrand c k (t.writeP p y.phase))

theorem execCwait_eq (s : State) : execCwait g cb slot p s = s.coxRun false g [64 + p] (cwaitEff g cb slot p) := rfl

/-- It goes on with the slot's phase in its predicate (p0 keeps none). -/
theorem cwaitEff_goes (h : ((u.core c).bar cb).slots[slot]? = some y) (ht : u.setStrand c k t = u)
    (hp : (p = 0 ∧ y.awaiting = true) ∨ (p ≠ 0 ∧ y.phase ≠ t.readP p)) :
    cwaitEff g cb slot p c k t u = .done (u.setStrand c k (t.writeP p y.phase)) := by
  rw [cwaitEff, h]
  rcases hp with ⟨rfl, ha⟩ | ⟨h0, hne⟩
  · simp only [ha, if_true]
    exact congrArg Eff.done ht.symm
  · exact (if_neg h0).trans (if_neg hne)

theorem cwaitEff_waits (h : ((u.core c).bar cb).slots[slot]? = some y) (hp : (p = 0 ∧ y.awaiting = false) ∨ (p ≠ 0 ∧ y.phase = t.readP p)) :
    cwaitEff g cb slot p c k t u = .wait u ⟨.cwait g cb slot p, [], 0, none, []⟩ := by
  rw [cwaitEff, h]
  rcases hp with ⟨rfl, ha⟩ | ⟨h0, he⟩
  · simp only [ha, if_true, Bool.false_eq_true, if_false]
  · exact (if_neg h0).trans (if_pos he)

/-- DCWAIT's effect. -/
def dcwaitEff (g : Guard) (n c : Nat) (t : Strand) (u : State) : Eff :=
  if (t.hold.map fun h => h.gen == 1).getD false || (!u.shared && (u.core c).dc n == 0) then .done u
  else .wait u (t.hold.getD ⟨.dcwait g n, [], 0, none, []⟩)

theorem execDcwait_eq (n : Nat) (s : State) : execDcwait g n s = s.coxRun false g [] fun c _ t u => dcwaitEff g n c t u := rfl

theorem dcwaitEff_goes {n : Nat} (h : ((u.core c).dc n = 0 ∧ u.shared = false) ∨ ∃ w, t.hold = some w ∧ w.gen = 1) :
    dcwaitEff g n c t u = .done u := by
  refine if_pos ?_
  rcases h with ⟨hz, hs⟩ | ⟨w, hw, hg⟩
  · simp [hz, hs]
  · simp [hw, hg]

theorem dcwaitEff_waits {n : Nat} (hz : (u.core c).dc n ≠ 0) (hh : t.hold = none) :
    dcwaitEff g n c t u = .wait u ⟨.dcwait g n, [], 0, none, []⟩ := by
  refine (if_neg ?_).trans (by rw [hh]; rfl)
  simp [hh, hz]

end

/-- Settles O20: each catch barrier word by the slot that it names, each counter word by the value it gives. -/
theorem catchBarriersAndCounters : Obligations.CatchBarriersAndCounters := by
  unfold Obligations.CatchBarriersAndCounters
  refine ⟨fun s c k cb slot a p wm1 cnt g => ⟨fun h => ?slots, fun h => ?cexp, fun h => ?waits⟩,
    fun s c k n a v g e => ⟨fun h => ?reg, fun h => ?long, fun w hk hold hi => State.strand_setDc_zero hold hi⟩⟩
  case slots =>
    simp only [exec_cinit, execCinit, exec_cexpLong, execCexpLong, exec_crel, execCrel_eq]
    simp only [← State.issued_setBar]
    rw [← State.issued_bar (s := s) (k := k) (g := g) (uses := [])]
    exact ⟨fun hb => State.coxRun_done h (if_neg (by rw [hb]; exact Bool.false_ne_true)),
      fun hl hb => State.coxRun_trap h hl (by decide) (if_pos hb),
      fun y hy => ⟨fun h0 hn => State.coxRun_done h (cexpEff_ok hy h0 hn), fun hl hn => State.coxRun_trap h hl (by decide) (cexpEff_bad hy hn),
        fun ha hr => State.coxRun_done h (crelEff_full hy ha hr), fun hl ha => State.coxRun_trap h hl (by decide) (crelEff_empty hy ha)⟩,
      fun hl hn => ⟨State.coxRun_trap h hl (by decide) (cexpEff_none hn), State.coxRun_trap h hl (by decide) (crelEff_none hn)⟩⟩
  case cexp =>
    simp only [exec_cexp, execCexp, ← State.issued_putSlot]
    rw [← State.issued_bar (s := s) (k := k) (g := g) (uses := [a])]
    exact fun y hy h0 hn => State.coxRun_done h (cexpEff_ok hy h0 hn)
  case waits =>
    simp only [exec_ctry, execCtry, exec_cwait, execCwait_eq]
    rw [← State.issued_bar (s := s) (k := k) (g := g) (uses := [64 + p])]
    refine fun y hy => ⟨State.coxRun_setStrand h (by rw [hy]), fun hp => State.coxRun_setStrand h (cwaitEff_goes hy ?_ hp),
      fun hp => State.coxRun_wait h (cwaitEff_waits hy hp)⟩
    rw [State.issued, State.setStrand_setStrand]
  case reg =>
    simp only [exec_dcset, execDcset, exec_dcadd, execDcadd]
    exact ⟨State.coxRun_dc h rfl rfl, State.coxRun_dc h rfl (by rw [State.issued_dc])⟩
  case long =>
    simp only [exec_dcsetLong, execDcsetLong, exec_dcaddLong, execDcaddLong, exec_dcwait, execDcwait_eq]
    refine ⟨State.coxRun_dc h rfl rfl, State.coxRun_dc h rfl (by rw [State.issued_dc]), fun hz => State.coxRun_done h (dcwaitEff_goes ?_),
      fun hz hh => State.coxRun_wait h (dcwaitEff_waits ?_ hh)⟩
    · rw [State.issued_dc]; exact hz
    · rw [State.issued_dc]; exact hz

end Sys2Proof.Machine

/-! SUPPORT. POSTR that has had its answer (R225). -/
namespace Sys2Proof.Machine

/-- Strand 0 of core 0, of no launch part, has the turn: it holds with the answer 1 to a post, and a load outside the module is under way. -/
def answeredPost : State :=
  ({ State.reset with turn := .strand 0 0 } : State).setStrand 0 0
    { Strand.reset with
      hold := some ⟨.postr ⟨0, false⟩ 0 0 0 0 false false, [], 1, some 1, []⟩
      loads := [⟨1, 5, none, 0, true, 8, false, none, 0, none, none, 0⟩] }

theorem answeredPost_issues : answeredPost.Issues 0 0 ⟨0, false⟩ [64, 0, 0] := ⟨⟨rfl, by decide, rfl, rfl⟩, rfl, rfl⟩

/-- Its part has no core 0, so the word meets 0x310, which waits for the load: the strand still holds. -/
theorem exec_answeredPost : exec (.postr ⟨0, false⟩ 0 0 0 0 false false) answeredPost
    = .next ((answeredPost.issued 0 0 ⟨0, false⟩ [64, 0, 0]).idle 0) := by
  rw [exec_postr, execPostr, State.coxRun_issues answeredPost_issues]
  rfl

/-- Refutes O21: its last clause does not ask that the core that the held POSTR names is one of the part, and a POSTR of another core has no effect but its cause. -/
theorem not_postingRecords : ¬ Obligations.PostingRecords := by
  unfold Obligations.PostingRecords
  intro h
  obtain ⟨-, -, -, hanswer⟩ := h answeredPost 0 0 0 0 0 0 0 ⟨0, false⟩ false false [] (by decide)
  have hpast := hanswer answeredPost_issues _ 1 rfl rfl rfl (.inr rfl)
  rw [exec_answeredPost] at hpast
  have hstate := Host.Outcome.next.inj hpast
  have hhold := congrArg (fun u : State => (u.strand 0 0).hold.isSome) hstate
  exact absurd hhold (by decide)

end Sys2Proof.Machine

/-! SUPPORT. The copy aperture and the stream words (R141, R143 to R146, R228 to R231, R407). -/
namespace Sys2Proof.Machine

theorem Strand.readS_writeS_same (t : Strand) {n : Nat} (v : Word64) (hn : n < 64) : (t.writeS n v).readS n = if n = 0 then 0 else v := by
  unfold Strand.readS Strand.writeS
  split
  · rfl
  · simp [hn]

section
variable {s w : State} {c k : Nat} {g : Guard} {uses : List Nat} {eff : Nat → Nat → Strand → State → Eff} {F : Strand → Strand}

/-- A word that changes state beside the strands, and then its own strand. -/
theorem State.coxRun_onStrand (long : Bool) (h : s.Issues c k g uses)
    (heff : eff c k (s.found c k g uses) (s.issued c k g uses) = .done (w.onStrand c k F)) (hw : w.strand c k = s.found c k g uses) :
    ∃ t', s.coxRun long g uses eff = .next t' ∧ t'.mem = w.mem ∧ t'.ctxs = w.ctxs
      ∧ t'.strand c k = { F (s.found c k g uses) with pc := (s.found c k g uses).pc + wordBytes long, hold := none, got := [] }
      ∧ ∀ {α : Type} (p : Core → α), (∀ x t, p (Core.setStrand x k t) = p x) → p (t'.core c) = p (w.core c) := by
  refine ⟨_, State.coxRun_done h heff, rfl, rfl, ?_, fun p hp => ?_⟩
  · rw [State.strand_past _ _ _ h.slot, State.onStrand, State.strand_setStrand_self _ _ _ h.slot, hw]
  · rw [State.core_past, hp, State.onStrand, State.core_setStrand_self, hp]

/-- A word that changes its strand beside a change of state that leaves strands alone. -/
theorem State.strand_issued_setCore {x : Core} (hk : k < 4) (hx : x.strands = ((s.issued c k g uses).core c).strands) :
    ((s.issued c k g uses).setCore c x).strand c k = s.found c k g uses := by
  rw [State.strand_setCore_self, Core.strand, hx]
  exact State.strand_issued s c g uses hk

theorem State.onStrand_setStrand (s : State) (c : Nat) {k : Nat} (t : Strand) (F : Strand → Strand) (hk : k < 4) :
    (s.setStrand c k t).onStrand c k F = s.setStrand c k (F t) := by
  rw [State.onStrand, State.strand_setStrand_self _ _ _ hk, State.setStrand_setStrand]

theorem State.ctxs_onStrand_issued (l : Tab Ctx) (F : Strand → Strand) (hk : k < 4) :
    ({ s.issued c k g uses with ctxs := l } : State).onStrand c k F
      = ({ s with ctxs := l } : State).setStrand c k (F (s.found c k g uses)) :=
  State.onStrand_setStrand { s with ctxs := l } c (s.found c k g uses) F hk

theorem State.onStrand_issued (F : Strand → Strand) (hk : k < 4) :
    (s.issued c k g uses).onStrand c k F = (s.issued c k g uses).setStrand c k (F (s.found c k g uses)) := by
  rw [State.onStrand, State.strand_issued _ _ _ _ hk]

end

/-! ## The copy aperture -/

section
variable {u : State} {c k p : Nat} {off d : Word64}

/-- The copy that a word stored at a channel's offset starts. -/
def Core.patched (x : Core) (d : Word64) : ByteList := patchTemplate (x.template (d.toNat % 2 ^ 8)) (d.toNat / 2 ^ 8 % 2 ^ 16)

theorem staEff_bad (h : off.toNat % 8 ≠ 0 ∨ (0x40 ≤ off.toNat ∧ off.toNat < 0x4000) ∨ 0x8000 ≤ off.toNat) :
    staEff u c k p off d = .trap 0x311 off d := by
  unfold staEff
  by_cases h8 : off.toNat % 8 = 0
  · rw [if_neg (not_not_intro h8), if_neg (by omega), if_neg (by omega)]
  · rw [if_pos h8]

theorem staEff_template (h8 : off.toNat % 8 = 0) (hlo : 0x4000 ≤ off.toNat) (hhi : off.toNat < 0x8000) :
    staEff u c k p off d
      = .done ((u.setCore c { u.core c with templates := tabPut (u.core c).templates ((off.toNat - 0x4000) / 8) d }).onStrand c k (·.writeP p true)) := by
  unfold staEff
  rw [if_neg (not_not_intro h8), if_neg (by omega), if_pos ⟨hlo, hhi⟩]

theorem staEff_start (h8 : off.toNat % 8 = 0) (hoff : off.toNat < 0x40) (hd : d.toNat < 2 ^ 24)
    (hok : (u.core c).templateBad (u.corePart c) ((u.core c).patched d) = false) (hrel : u.releaseWaits c k = false) :
    staEff u c k p off d = .done ((u.startCopy c (off.toNat / 8) ((u.core c).patched d)).1.onStrand c k
      (·.writeP p (u.startCopy c (off.toNat / 8) ((u.core c).patched d)).2)) := by
  have hrest : bitsOf d 63 24 = 0 := by
    simp only [bitsOf, fld]
    omega
  have hcopy : patchTemplate ((u.core c).template (bitsOf d 7 0)) (bitsOf d 23 8) = (u.core c).patched d := by
    simp [Core.patched, bitsOf, fld]
  unfold staEff
  rw [if_neg (not_not_intro h8), if_pos hoff, if_neg (not_not_intro hrest), hcopy, if_neg (by rw [hok]; exact Bool.false_ne_true),
    if_neg (by rw [hrel]; exact Bool.false_ne_true)]

theorem State.startCopy_full {ch : Nat} {b : ByteList} (h : ¬(((u.core c).chan ch).length < 128 ∧ u.savingCore c = false)) :
    u.startCopy c ch b = (u, false) := by
  refine if_pos ?_
  cases hs : u.savingCore c with
  | true => exact .inr rfl
  | false => exact .inl (Nat.not_lt.1 fun hl => h ⟨hl, hs⟩)

theorem State.startCopy_room {ch : Nat} {b : ByteList} (h : ((u.core c).chan ch).length < 128 ∧ u.savingCore c = false) :
    ∃ y, u.startCopy c ch b = ((u.setCore c y).bumpId, true) ∧ y.strands = (u.core c).strands
      ∧ (ch < 8 → y.chan ch = (u.core c).chan ch ++ [⟨u.nextId, b, 0, .sta, false, false, [], []⟩]) := by
  refine ⟨_, if_neg ?_, rfl, fun hch => ?_⟩
  · rw [h.2]; simpa using h.1
  · simp [Core.chan, Core.count, Core.pushChan, Core.setChan, hch]

end

section
variable {s : State} {c k p : Nat} {g : Guard} {uses : List Nat} {f : Nat → Nat → Strand → State → Eff} {off d : Word64}
  (long : Bool) (h : s.Issues c k g uses) (hp : p < 24)
  (hf : f c k (s.found c k g uses) (s.issued c k g uses) = staEff (s.issued c k g uses) c k p off d)
include h hp hf

/-- What a word stored in the copy aperture does, by its offset. -/
theorem State.coxRun_sta :
    (off.toNat % 8 = 0 → 0x4000 ≤ off.toNat → off.toNat < 0x8000 → ∃ t', s.coxRun long g uses f = .next t' ∧ t'.mem = s.mem
        ∧ (t'.strand c k).readP p = true ∧ (t'.strand c k).regs = (s.found c k g uses).regs
        ∧ (t'.strand c k).pc = (s.found c k g uses).pc + wordBytes long
        ∧ ∀ w, tabGet 0 (t'.core c).templates w = if w = (off.toNat - 0x4000) / 8 then d else tabGet 0 (s.core c).templates w)
      ∧ (off.toNat % 8 = 0 → off.toNat < 0x40 → d.toNat < 2 ^ 24 →
        ((s.issued c k g uses).core c).templateBad ((s.issued c k g uses).corePart c) ((s.core c).patched d) = false →
        (s.issued c k g uses).releaseWaits c k = false →
        ∃ t', s.coxRun long g uses f = .next t' ∧ t'.mem = s.mem
          ∧ (t'.strand c k).readP p = (p == 0 || decide (((s.core c).chan (off.toNat / 8)).length < 128 ∧ s.savingCore c = false))
          ∧ (t'.strand c k).pc = (s.found c k g uses).pc + wordBytes long
          ∧ (((s.core c).chan (off.toNat / 8)).length < 128 ∧ s.savingCore c = false →
            ∃ e, (t'.core c).chan (off.toNat / 8) = (s.core c).chan (off.toNat / 8) ++ [e] ∧ e.tpl = (s.core c).patched d ∧ e.row = 0
              ∧ e.src = .sta ∧ e.eid = s.nextId)
          ∧ (¬(((s.core c).chan (off.toNat / 8)).length < 128 ∧ s.savingCore c = false) →
            (t'.core c).chan (off.toNat / 8) = (s.core c).chan (off.toNat / 8)))
      ∧ (off.toNat % 8 ≠ 0 ∨ (0x40 ≤ off.toNat ∧ off.toNat < 0x4000) ∨ 0x8000 ≤ off.toNat →
        (s.found c k g uses).loads.any (·.val.isNone) = false →
        s.coxRun long g uses f = .next ((s.issued c k g uses).takeTrap c k 0x311 off d)) := by
  have hread : ∀ b a, ({ (s.found c k g uses).writeP p b with pc := a, hold := none, got := [] } : Strand).readP p = if p = 0 then true else b :=
    fun b _ => (s.found c k g uses).readP_writeP_same b hp
  have hregs : ∀ b, ((s.found c k g uses).writeP p b).regs = (s.found c k g uses).regs := fun b => by unfold Strand.writeP; split <;> rfl
  have htemplates : ((s.issued c k g uses).core c).templates = (s.core c).templates := s.core_issued_field c k g uses _ (fun _ _ => rfl) c
  have hpatched : ((s.issued c k g uses).core c).patched d = (s.core c).patched d :=
    s.core_issued_field c k g uses (fun x => Core.patched x d) (fun _ _ => rfl) c
  have hchan : ∀ ch, ((s.issued c k g uses).core c).chan ch = (s.core c).chan ch := fun ch =>
    s.core_issued_field c k g uses (fun x => Core.chan x ch) (fun _ _ => rfl) c
  have hsaving : (s.issued c k g uses).savingCore c = s.savingCore c := by
    rw [State.savingCore, State.savingCore, s.core_issued_field c k g uses Core.part (fun _ _ => rfl) c]
    rfl
  refine ⟨fun h8 hlo hhi => ?template, fun h8 hoff hd hok hrel => ?start, fun hbad hl => State.coxRun_trap h hl (by decide) (hf.trans (staEff_bad hbad))⟩
  case template =>
    obtain ⟨t', hrun, hmem, -, hstrand, hcore⟩ := State.coxRun_onStrand long h (hf.trans (staEff_template h8 hlo hhi)) (State.strand_issued_setCore h.slot rfl)
    refine ⟨t', hrun, hmem, ?_, ?_, ?_, fun w => ?_⟩
    · rw [hstrand, hread]; exact ite_self _
    · rw [hstrand]; exact hregs true
    · rw [hstrand]
    · rw [hcore Core.templates fun _ _ => rfl, State.core_setCore_self, htemplates]
      split
      · next hw => rw [hw, tabGet_put_self]
      · next hw => exact tabGet_put_other _ _ _ hw
  case start =>
    have heff := hf.trans (staEff_start h8 hoff hd (by rw [hpatched]; exact hok) hrel)
    by_cases hroom : ((s.core c).chan (off.toNat / 8)).length < 128 ∧ s.savingCore c = false
    · obtain ⟨y, hy, hystrands, hychan⟩ := State.startCopy_room (u := s.issued c k g uses) (c := c) (ch := off.toNat / 8)
        (b := ((s.issued c k g uses).core c).patched d) (by rw [hchan, hsaving]; exact hroom)
      rw [hy] at heff
      obtain ⟨t', hrun, hmem, -, hstrand, hcore⟩ := State.coxRun_onStrand long h heff (State.strand_issued_setCore h.slot hystrands)
      refine ⟨t', hrun, hmem, ?_, ?_, 
        fun _ => ⟨⟨s.nextId, ((s.issued c k g uses).core c).patched d, 0, .sta, false, false, [], []⟩, ?_, hpatched, rfl, rfl, rfl⟩, fun hn => absurd hroom hn⟩
      · rw [hstrand, hread, decide_eq_true hroom]; cases p <;> rfl
      · rw [hstrand]
      · rw [hcore (fun x => Core.chan x (off.toNat / 8)) fun _ _ => rfl, show ∀ u : State, u.bumpId.core c = u.core c from fun _ => rfl,
          State.core_setCore_self, hychan (by omega), hchan]
        rfl
    · rw [State.startCopy_full (by rw [hchan, hsaving]; exact hroom)] at heff
      obtain ⟨t', hrun, hmem, -, hstrand, hcore⟩ := State.coxRun_onStrand long h heff (State.strand_issued _ _ _ _ h.slot)
      refine ⟨t', hrun, hmem, ?_, ?_, fun hr => absurd hr hroom, fun _ => ?_⟩
      · rw [hstrand, hread, decide_eq_false hroom]; cases p <;> rfl
      · rw [hstrand]
      · rw [hcore (fun x => Core.chan x (off.toNat / 8)) fun _ _ => rfl]; exact hchan _

end

/-! ## Streams -/

section
variable {u : State} {c k prog cb entry n part m : Nat} {t : Strand} {q : Prog} {d a b : Nat} {g : Guard}

/-- The context that SBIND starts. -/
def bindCtx (t : Strand) (a b part prog c n cb entry : Nat) : Ctx :=
  { Ctx.start part prog c n cb entry with
    regs := ((Ctx.start part prog c n cb entry).regs.setIfInBounds 0 (low48 (t.readS a))).setIfInBounds 1 (low48 (t.readS b)) }

theorem bindCtx_regs : (bindCtx t a b part prog c n cb entry).regs.toList
    = [(t.readS a).truncate 48, (t.readS b).truncate 48] ++ List.replicate 14 0 := rfl

/-- SBIND's effect. -/
def sbindEff (g : Guard) (d a b prog cb entry c k : Nat) (t : Strand) (u : State) : Eff :=
  match (u.corePart c).progs[prog]? with
  | none => .trap 0x312 (BitVec.ofNat 64 ((encode (.sbind g d a b prog cb entry)).getD 1 0)) 0
  | some q =>
    if entry ≥ q.len / 4 ∨ ((u.core c).bar cb).slots = [] ∨ ((u.core c).bar cb).stream.isSome
    then .trap 0x312 (BitVec.ofNat 64 ((encode (.sbind g d a b prog cb entry)).getD 1 0)) 0
    else if u.releaseWaits c k then .stay (u.releasing c k)
    else match (q.ctxs.mergeSort (· ≤ ·)).find? fun n => (u.ctx q.mse n).isNone, (List.range 8).find? fun n => (u.streamOf c n).isNone with
    | some x, some n =>
      .done (((u.setCtx q.mse x (bindCtx t a b ((u.core c).part.getD 0) prog c n cb entry)).onCore c
        (·.setBar cb { (u.core c).bar cb with stream := some n })).onStrand c k (·.writeS d (BitVec.ofNat 64 n)))
    | _, _ => .done (u.onStrand c k (·.writeS d (BitVec.allOnes 64)))

theorem execSbind_eq (s : State) :
    execSbind g d a b prog cb entry s = s.coxRun true g [d, a, b] (sbindEff g d a b prog cb entry) := rfl

section
variable (hq : (u.corePart c).progs[prog]? = some q) (hentry : entry < q.len / 4) (hslots : ((u.core c).bar cb).slots ≠ [])
  (hstream : ((u.core c).bar cb).stream = none) (hrel : u.releaseWaits c k = false)
include hq hentry hslots hstream hrel

theorem sbindEff_ok : sbindEff g d a b prog cb entry c k t u
    = match (q.ctxs.mergeSort (· ≤ ·)).find? fun n => (u.ctx q.mse n).isNone, (List.range 8).find? fun n => (u.streamOf c n).isNone with
      | some x, some n =>
        .done (((u.setCtx q.mse x (bindCtx t a b ((u.core c).part.getD 0) prog c n cb entry)).onCore c
          (·.setBar cb { (u.core c).bar cb with stream := some n })).onStrand c k (·.writeS d (BitVec.ofNat 64 n)))
      | _, _ => .done (u.onStrand c k (·.writeS d (BitVec.allOnes 64))) := by
  have hgood : ¬(entry ≥ q.len / 4 ∨ ((u.core c).bar cb).slots = [] ∨ ((u.core c).bar cb).stream.isSome = true) := by
    rw [hstream]
    simp [hslots, hentry]
  simp only [sbindEff, hq, if_neg hgood, hrel, Bool.false_eq_true, if_false]

theorem sbindEff_binds (hctx : (q.ctxs.mergeSort (· ≤ ·)).find? (fun j => (u.ctx q.mse j).isNone) = some m)
    (hnum : (List.range 8).find? (fun j => (u.streamOf c j).isNone) = some n) : sbindEff g d a b prog cb entry c k t u
      = .done (((u.setCtx q.mse m (bindCtx t a b ((u.core c).part.getD 0) prog c n cb entry)).onCore c
          (·.setBar cb { (u.core c).bar cb with stream := some n })).onStrand c k (·.writeS d (BitVec.ofNat 64 n))) := by
  rw [sbindEff_ok hq hentry hslots hstream hrel, hctx, hnum]

theorem sbindEff_none (hctx : (q.ctxs.mergeSort (· ≤ ·)).find? (fun j => (u.ctx q.mse j).isNone) = none) :
    sbindEff g d a b prog cb entry c k t u = .done (u.onStrand c k (·.writeS d (BitVec.allOnes 64))) := by
  rw [sbindEff_ok hq hentry hslots hstream hrel, hctx]

end

/-- CQPUSH's effect. -/
def cqpushEff (p a stream c k : Nat) (t : Strand) (u : State) : Eff :=
  if u.releaseWaits c k then .stay (u.releasing c k)
  else match u.streamOf c stream with
  | some (n, x) =>
    if x.cq.length ≥ 16 ∨ x.halted then .done (u.onStrand c k (·.writeP p false))
    else .done (({ u with ctxs := tabPut u.ctxs n { x with cq := x.cq ++ [t.readS a] } }).onStrand c k (·.writeP p true))
  | none => .done (u.onStrand c k (·.writeP p false))

theorem execCqpush_eq (p : Nat) (s : State) : execCqpush g p a n s = s.coxRun false g [64 + p, a] (cqpushEff p a n) := rfl

section
variable {p key : Nat} {x : Ctx} (hrel : u.releaseWaits c k = false)
include hrel

theorem cqpushEff_none (hs : u.streamOf c n = none) : cqpushEff p a n c k t u = .done (u.onStrand c k (·.writeP p false)) := by
  rw [cqpushEff, hrel, hs]
  rfl

theorem cqpushEff_full (hs : u.streamOf c n = some (key, x)) (hx : x.cq.length ≥ 16 ∨ x.halted = true) :
    cqpushEff p a n c k t u = .done (u.onStrand c k (·.writeP p false)) := by
  rw [cqpushEff, hrel, hs]
  exact if_pos hx

theorem cqpushEff_room (hs : u.streamOf c n = some (key, x)) (hlen : x.cq.length < 16) (hx : x.halted = false) :
    cqpushEff p a n c k t u
      = .done (({ u with ctxs := tabPut u.ctxs key { x with cq := x.cq ++ [t.readS a] } }).onStrand c k (·.writeP p true)) := by
  have hroom : ¬(x.cq.length ≥ 16 ∨ x.halted = true) := by rw [hx]; simpa using hlen
  rw [cqpushEff, hrel, hs]
  exact if_neg hroom

end

end

section
variable {s : State} {c k d a b prog cb entry n part m : Nat} {g : Guard} {q : Prog}

/-- SBIND of a free context and a free stream number. -/
theorem State.coxRun_sbind (h : s.Issues c k g [d, a, b]) (hd : d < 64) (hpart : (s.core c).part = some part)
    (hf : sbindEff g d a b prog cb entry c k (s.found c k g [d, a, b]) (s.issued c k g [d, a, b])
      = .done ((((s.issued c k g [d, a, b]).setCtx q.mse m (bindCtx (s.found c k g [d, a, b]) a b (((s.issued c k g [d, a, b]).core c).part.getD 0)
          prog c n cb entry)).onCore c (·.setBar cb { ((s.issued c k g [d, a, b]).core c).bar cb with stream := some n })).onStrand c k
            (·.writeS d (BitVec.ofNat 64 n)))) :
    ∃ t' z, s.coxRun true g [d, a, b] (sbindEff g d a b prog cb entry) = .next t' ∧ t'.mem = s.mem
      ∧ t'.ctx q.mse m = some z ∧ z.part = part ∧ z.prog = prog ∧ z.core = c ∧ z.stream = n ∧ z.bar = cb ∧ z.apc = entry ∧ z.held = false
      ∧ z.cq = [] ∧ z.regs.toList = [((s.found c k g [d, a, b]).readS a).truncate 48, ((s.found c k g [d, a, b]).readS b).truncate 48]
          ++ List.replicate 14 0
      ∧ (t'.core c).bar cb = { (s.core c).bar cb with stream := some n }
      ∧ (t'.strand c k).readS d = (if d = 0 then 0 else BitVec.ofNat 64 n) ∧ (t'.strand c k).pc = (s.found c k g [d, a, b]).pc + 8 := by
  have hissuedPart : ((s.issued c k g [d, a, b]).core c).part.getD 0 = part := by
    rw [s.core_issued_field c k g [d, a, b] Core.part (fun _ _ => rfl) c, hpart]
    rfl
  rw [hissuedPart] at hf
  obtain ⟨t', hrun, hmem, hctxs, hstrand, hcore⟩ := State.coxRun_onStrand true h hf (by
    rw [State.strand_onCore]
    · exact State.strand_issued _ _ _ _ h.slot
    · exact fun _ => rfl)
  refine ⟨t', bindCtx (s.found c k g [d, a, b]) a b part prog c n cb entry, hrun, hmem, ?ctx, rfl, rfl, rfl, rfl, rfl, rfl, rfl, rfl, bindCtx_regs,
    ?bar, ?reg, ?pc⟩
  case ctx =>
    rw [State.ctx, hctxs]
    exact State.ctx_setCtx_self ..
  case bar =>
    rw [hcore (fun x => Core.bar x cb) fun _ _ => rfl, State.onCore, State.core_setCore_self, State.issued_bar]
    exact tabGet_put_self ..
  case reg =>
    have hregs := congrArg Strand.regs hstrand
    generalize s.found c k g [d, a, b] = t at hregs
    rw [Strand.readS, hregs]
    exact t.readS_writeS_same _ hd
  case pc => rw [hstrand]; rfl

end

/-- Settles O22: STA by its offset, SBIND by what is free, CQPUSH and SSTOP by the stream's context. -/
theorem copiesAndStreams : Obligations.CopiesAndStreams := by
  unfold Obligations.CopiesAndStreams
  refine ⟨fun s c k p a b imm g hp h => ?sta, fun s c k d a b prog cb entry p n key part m g q x hd => ⟨fun h => ?sbind, fun h => ?cqpush, fun h => ?sstop⟩⟩
  case sta =>
    dsimp only
    rw [exec_sta, execSta, exec_staLong, execStaLong]
    exact ⟨State.coxRun_sta false h hp rfl, State.coxRun_sta true h hp rfl⟩
  case sbind =>
    dsimp only
    rw [exec_sbind, execSbind_eq, ← State.corePart_issued s c k g [d, a, b] c]
    intro hq hentry hslots hstream hrel hpart
    rw [← State.issued_bar (s := s) (k := k) (g := g) (uses := [d, a, b])] at hslots hstream
    refine ⟨fun hctx hnum => State.coxRun_sbind h hd hpart (sbindEff_binds hq hentry hslots hstream hrel hctx hnum), fun hctx => ?_⟩
    exact State.coxRun_setStrand h ((sbindEff_none hq hentry hslots hstream hrel hctx).trans (by rw [State.onStrand_issued _ h.slot]))
  case cqpush =>
    dsimp only
    rw [exec_cqpush, execCqpush_eq]
    refine fun hrel => ⟨fun hs => ?_, fun hs hlen hx => ?_, fun hs hx => ?_⟩
    · exact State.coxRun_setStrand h ((cqpushEff_none hrel hs).trans (by rw [State.onStrand_issued _ h.slot]))
    · exact State.coxRun_done h ((cqpushEff_room hrel hs hlen hx).trans (congrArg Eff.done (State.ctxs_onStrand_issued _ _ h.slot)))
    · exact State.coxRun_setStrand h ((cqpushEff_full hrel hs hx).trans (by rw [State.onStrand_issued _ h.slot]))
  case sstop =>
    rw [exec_sstop, execSstop]
    exact ⟨fun hs => State.coxRun_done h (by rw [show (s.issued c k g []).streamOf c n = _ from hs]; rfl),
      fun hs => State.coxRun_done h (by rw [show (s.issued c k g []).streamOf c n = _ from hs])⟩

end Sys2Proof.Machine

/-! SUPPORT. Firmware requests, HALT, EXIT and barrier arrivals of other modules (R111, R217, R235 to R237). -/
namespace Sys2Proof.Machine

/-! ## EXIT -/

/-- A change of state that leaves the cores, memory and the yield requests of the parts alone. -/
structure State.KeepsYields (s u : State) : Prop where
  cores : u.cores = s.cores
  mem : u.mem = s.mem
  yreq : ∀ p, (u.part p).yreq = (s.part p).yreq

theorem State.KeepsYields.refl (s : State) : s.KeepsYields s := ⟨rfl, rfl, fun _ => rfl⟩
theorem State.KeepsYields.trans {s t u : State} (h : s.KeepsYields t) (g : t.KeepsYields u) : s.KeepsYields u :=
  ⟨g.cores.trans h.cores, g.mem.trans h.mem, fun p => (g.yreq p).trans (h.yreq p)⟩

theorem State.OnlySends.keepsYields {s u : State} (h : s.OnlySends u) : s.KeepsYields u :=
  ⟨h.cores, h.mem, fun p => by rw [State.part, h.parts, State.part]⟩

theorem State.onPart_keepsYields (s : State) (p : Nat) {f : Part → Part} (hf : ∀ x, (f x).yreq = x.yreq) : s.KeepsYields (s.onPart p f) := by
  refine ⟨rfl, rfl, fun q => ?_⟩
  by_cases h : q = p
  · subst h
    exact (congrArg Part.yreq (tabGet_put_self ..)).trans (hf _)
  · exact congrArg Part.yreq (tabGet_put_other _ _ _ h)

theorem State.onCorePart_keepsYields (s : State) (c : Nat) {f : Part → Part} (hf : ∀ x, (f x).yreq = x.yreq) : s.KeepsYields (s.onCorePart c f) := by
  unfold State.onCorePart
  split
  · exact s.onPart_keepsYields _ hf
  · exact .refl s

theorem State.tellPeers_onlySends (s : State) (c lvl : Nat) (m : FabricMsg) : s.OnlySends (s.tellPeers c lvl m) := by
  rw [State.tellPeers]
  split
  · exact List.foldlRecOn (motive := fun u => s.OnlySends u) _ _ (.refl s) fun u hu i _ => hu.trans (u.sendFabric_onlySends ..)
  · exact .refl s

/-- What an exit does to the barrier of one level. -/
def State.exitBar (u : State) (c lvl : Nat) (team : NatList) (member : Nat) : State :=
  (u.onCorePart c (·.setBar (u.settle (u.corePart c) ((u.corePart c).barAt lvl ((u.corePart c).teamKey lvl team))
    (u.members (u.corePart c) lvl team)))).tellPeers c lvl (.barrier lvl ((u.corePart c).teamKey lvl team) 65536 member)

theorem State.exitBar_keepsYields (u : State) (c lvl : Nat) (team : NatList) (member : Nat) : u.KeepsYields (u.exitBar c lvl team member) := by
  unfold State.exitBar
  refine .trans (u.onCorePart_keepsYields c ?_) (State.tellPeers_onlySends ..).keepsYields
  exact fun _ => rfl

theorem State.exitBars_eq (s : State) (c k : Nat) : s.exitBars c k
    = (List.range (s.corePart c).levels.length).foldl (fun u lvl => u.exitBar c lvl (s.strand c k).team (s.memberNo c k)) s := rfl

theorem State.exitBars_keepsYields (s : State) (c k : Nat) : s.KeepsYields (s.exitBars c k) := by
  rw [State.exitBars_eq]
  exact List.foldlRecOn (motive := fun u => s.KeepsYields u) _ _ (.refl s) fun u hu lvl _ => hu.trans (u.exitBar_keepsYields c lvl _ _)

theorem State.yieldDone_quiet {s : State} {p : Nat} (h : (s.part p).yreq = false) : s.yieldDone p = s := by
  rw [State.yieldDone, h]
  rfl

/-- The strand as EXIT leaves it. -/
def exitStrand (t : Strand) : Strand := { (t.interlock allUses).landUsed allUses with pc := t.pc + 4, status := .exited, hold := none, got := [] }

/-- EXIT's effect. -/
def exitEff (g : Guard) (c k : Nat) (t : Strand) (u : State) : Eff :=
  if t.loads.any (·.val.isNone) then .wait u ⟨.exit g, [], 0, none, []⟩
  else .over (match (((u.setStrand c k (exitStrand t)).exitBars c k).core c).part with
    | some p => ((u.setStrand c k (exitStrand t)).exitBars c k).yieldDone p
    | none => (u.setStrand c k (exitStrand t)).exitBars c k)

theorem execExit_eq (g : Guard) (s : State) : execExit g s = s.coxRun false g [] (exitEff g) := rfl

theorem exitEff_ends {u : State} {c k : Nat} {g : Guard} {t : Strand} (hl : t.loads.any (·.val.isNone) = false) (hy : (u.corePart c).yreq = false) :
    exitEff g c k t u = .over ((u.setStrand c k (exitStrand t)).exitBars c k) := by
  have hkeeps := (u.setStrand c k (exitStrand t)).exitBars_keepsYields c k
  have hpart : (((u.setStrand c k (exitStrand t)).exitBars c k).core c).part = (u.core c).part := by
    rw [State.core, hkeeps.cores]
    exact State.core_setStrand_field u c k _ Core.part (fun _ _ => rfl) c
  rw [exitEff, hl, if_neg Bool.false_ne_true, hpart]
  cases hp : (u.core c).part with
  | none => rfl
  | some p =>
    refine congrArg Eff.over (State.yieldDone_quiet ?_)
    rw [hkeeps.yreq]
    rw [State.corePart, hp] at hy
    exact hy

/-- Settles O24: each word by what its strand holds, SYS_REPLY by the request, the arrival by its part. -/
theorem firmwareRequestsAndEnds : Obligations.FirmwareRequestsAndEnds := by
  unfold Obligations.FirmwareRequestsAndEnds
  refine ⟨fun s c k d a g svc h v => ⟨fun hi => ?sys, fun hi => ?halt, fun hi => ?exit⟩, fun s c k r h hk hr hsvc halive hheld hkeel hold => ?echo,
    fun s c k r hr hsvc halive hheld hkeel => ?notify, fun s p lvl gen m hpart hspan hgen hm hlinked => ?arrival⟩
  case sys =>
    rw [exec_sys, execSys]
    exact ⟨fun hh => State.coxRun_wait hi (by rw [hh]; rfl), fun hh hv => State.coxRun_setStrand hi (by rw [hh]; dsimp only; rw [hv])⟩
  case halt =>
    rw [exec_halt, execHalt]
    have hstrand : ∀ y, (s.issued c k g []).setStrand c k y = s.setStrand c k y := fun y => by rw [State.issued, State.setStrand_setStrand]
    have hpart : ∀ y, ((s.setStrand c k y).core c).part = (s.core c).part := fun y => State.core_setStrand_field s c k y Core.part (fun _ _ => rfl) c
    refine ⟨fun p hp => State.coxRun_over hi ?_, fun hp => State.coxRun_over hi ?_⟩
    · simp only [hstrand, hpart, hp]
    · simp only [hstrand, hpart, hp]
  case exit =>
    dsimp only
    rw [exec_exit, execExit_eq, ← State.corePart_issued s c k g [] c]
    refine ⟨fun hl => State.coxRun_wait hi (if_pos hl), fun hl hy => ⟨_, State.coxRun_over hi (exitEff_ends hl hy), ?_⟩⟩
    have hkeeps := ((s.issued c k g []).setStrand c k (exitStrand (s.found c k g []))).exitBars_keepsYields c k
    have hstrand : (((s.issued c k g []).setStrand c k (exitStrand (s.found c k g []))).exitBars c k).strand c k = exitStrand (s.found c k g []) := by
      rw [State.strand, State.core, hkeeps.cores]
      exact State.strand_setStrand_self _ _ _ hi.slot
    rw [hstrand]
    exact ⟨hkeeps.mem, rfl, rfl, rfl⟩
  case echo =>
    rw [exec_sysReply, execSysReply, hr]
    simp only [halive, hheld, hkeel, hsvc, Bool.not_true, Bool.or_self, Bool.false_eq_true, if_false]
    refine ⟨_, rfl, ?hold, ?regs, rfl, fun q hq => ?requests⟩
    case hold =>
      rw [State.onStrand, State.strand_setStrand_self _ _ _ hk]
      exact congrArg (Option.map _) hold
    case regs =>
      rw [State.onStrand, State.strand_setStrand_self _ _ _ hk]
      rfl
    case requests =>
      have hne := (List.mem_filter.1 hq).2
      exact fun ⟨hc, hs⟩ => by simp [hc, hs] at hne
  case notify =>
    rw [exec_sysReply, execSysReply, hr]
    simp [halive, hheld, hkeel, hsvc]
  case arrival =>
    rw [exec_gangBarrierArrival, execGangBarrierArrival, if_pos hlinked, State.arriveAtBar]
    refine congrArg Host.Outcome.next (if_neg ?_)
    have hsome : (tabFind s.parts p).isNone = false := by rw [← Option.not_isSome, hpart]; rfl
    have hpeer : (m / 65536 == (s.part p).gidx) = false := by simpa using hm
    simp [hsome, hspan, hgen, hpeer]

end Sys2Proof.Machine

/-! SUPPORT. What accesses, records and notifications move beside what they are about (R114, R347, R352, R354, R397, R440). -/
namespace Sys2Proof.Machine

/-- A state without what accesses, messages, records and notifications move. -/
def State.apart (s : State) : State :=
  { s.uncachedRest with
    mem := [], port := [], ports := [], unsent := [], nextId := 0, requests := [], errseq := 0, errwr := 0, errlost := 0, queues := []
    xlat := { s.xlat with waits := [], pending := [], refused := [] } }

/-- A change of a state that accesses, messages, records and notifications can make: every other field is equal by `congrArg` of `rest`, `core`, `die` or `queue`. -/
structure State.OnlyReports (s u : State) : Prop where
  rest : u.apart = s.apart
  core : ∀ c, (u.core c).uncached = (s.core c).uncached
  die : ∀ d, (u.die d).uncounted = (s.die d).uncounted
  queue : ∀ q, (u.queue q).unnoted = (s.queue q).unnoted

namespace State.OnlyReports

theorem refl (s : State) : s.OnlyReports s := ⟨rfl, fun _ => rfl, fun _ => rfl, fun _ => rfl⟩

theorem trans {s t u : State} (h : s.OnlyReports t) (g : t.OnlyReports u) : s.OnlyReports u :=
  ⟨g.rest.trans h.rest, fun c => (g.core c).trans (h.core c), fun d => (g.die d).trans (h.die d), fun q => (g.queue q).trans (h.queue q)⟩

section
variable {s u : State} (h : s.OnlyReports u)
include h

theorem parts : u.parts = s.parts := have e := congrArg State.parts h.rest; e
theorem ctxs : u.ctxs = s.ctxs := have e := congrArg State.ctxs h.rest; e
theorem traps : u.traps = s.traps := have e := congrArg State.traps h.rest; e
theorem fw : u.fw = s.fw := have e := congrArg State.fw h.rest; e
theorem tick : u.tick = s.tick := have e := congrArg State.tick h.rest; e
theorem cycle : u.cycle = s.cycle := have e := congrArg State.cycle h.rest; e
theorem shared : u.shared = s.shared := have e := congrArg State.shared h.rest; e
theorem modesel : u.modesel = s.modesel := have e := congrArg State.modesel h.rest; e
theorem poisoned : u.poisoned = s.poisoned := have e := congrArg State.poisoned h.rest; e
theorem part (p : Nat) : u.part p = s.part p := by rw [State.part, h.parts, State.part]
theorem ctx (m x : Nat) : u.ctx m x = s.ctx m x := by rw [State.ctx, h.ctxs, State.ctx]
theorem kernel (c : Nat) : (u.core c).kernel = (s.core c).kernel := have e := congrArg Core.kernel (h.core c); e
theorem window (c : Nat) : (u.core c).window = (s.core c).window := have e := congrArg Core.window (h.core c); e
theorem corePartNo (c : Nat) : (u.core c).part = (s.core c).part := have e := congrArg Core.part (h.core c); e
theorem strands (c : Nat) : (u.core c).strands = (s.core c).strands := have e := congrArg Core.strands (h.core c); e
theorem strand (c k : Nat) : u.strand c k = s.strand c k := by rw [State.strand, Core.strand, h.strands, State.strand, Core.strand]
theorem corePart (c : Nat) : u.corePart c = s.corePart c := by
  have hpart : u.part = s.part := funext h.part
  rw [State.corePart, h.corePartNo, hpart, State.corePart]

end

end State.OnlyReports

/-! ## The frames of single operations -/

theorem State.OnlyCaches.onlyReports {s u : State} (h : s.OnlyCaches u) : s.OnlyReports u :=
  ⟨congrArg (fun t : State => ({ t with
      mem := [], port := [], ports := [], unsent := [], nextId := 0, requests := [], errseq := 0, errwr := 0, errlost := 0, queues := []
      xlat := { t.xlat with waits := [], pending := [], refused := [] } } : State)) h.rest, h.core, h.die,
    fun q => by rw [State.queue, h.queues, State.queue]⟩

theorem State.OnlySends.onlyReports {s u : State} (h : s.OnlySends u) : s.OnlyReports u :=
  ⟨have e := congrArg State.apart h.rest; e, fun c => by rw [h.core], fun d => by rw [State.die, h.dies, State.die],
    fun q => by rw [State.queue, h.queues, State.queue]⟩

theorem State.OnlyRecords.onlyReports {s u : State} (h : s.OnlyRecords u) : s.OnlyReports u :=
  ⟨have e := congrArg State.apart h.rest; e, fun c => by rw [State.core, h.cores, State.core], fun d => congrArg (fun x : Die => { x with access := [] }) (h.die d),
    fun q => by rw [State.queue, h.queues, State.queue]⟩

theorem State.OnlyLines.onlyReports {s u : State} (h : s.OnlyLines u) : s.OnlyReports u := h.onlyCaches.onlyReports

/-- A change of fields that reports move, of a state that stays the same otherwise. -/
theorem State.OnlyReports.of_apart {s u : State} (h : u.apart = s.apart) (hcores : u.cores = s.cores) (hdies : u.dies = s.dies)
    (hqueues : u.queues = s.queues) : s.OnlyReports u :=
  ⟨h, fun c => by rw [State.core, hcores, State.core], fun d => by rw [State.die, hdies, State.die], fun q => by rw [State.queue, hqueues, State.queue]⟩

section
variable (s : State)

theorem State.send_onlyReports (m : PortMsg) : s.OnlyReports (s.send m) := .of_apart rfl rfl rfl rfl

theorem State.onQueue_onlyReports (q : Nat) {f : Queue → Queue} (hf : ∀ x, (f x).unnoted = x.unnoted) : s.OnlyReports (s.onQueue q f) :=
  ⟨rfl, fun _ => rfl, fun _ => rfl, (s.onQueue_onlyNotes q hf).queue⟩

theorem State.passNote_onlyReports (q : Nat) : s.OnlyReports (s.passNote q) := s.onQueue_onlyReports q fun _ => rfl

theorem State.meetRefusal_onlyReports (code : Nat) (info1 : Word64) : s.OnlyReports (s.meetRefusal code info1) := by
  unfold State.meetRefusal
  split <;> exact .of_apart rfl rfl rfl rfl

theorem State.askAts_onlyReports (r : ReqFor) (iova : Nat) : s.OnlyReports (s.askAts r iova) := by
  unfold State.askAts
  dsimp only
  split <;> split <;> exact .of_apart rfl rfl rfl rfl

theorem State.arriveAt_onlyReports (r : ReqFor) (key : Nat) : s.OnlyReports (s.arriveAt r key) := by
  unfold State.arriveAt
  split <;> exact .of_apart rfl rfl rfl rfl

theorem State.await_onlyReports (w : Who) (x : Cause) : s.OnlyReports (s.await w x) := by
  unfold State.await
  split
  · exact State.askAts_onlyReports ..
  split
  · exact State.arriveAt_onlyReports ..
  dsimp only
  split
  · exact .refl s
  split
  · exact .of_apart rfl rfl rfl rfl
  · exact (State.ask_onlySends ..).onlyReports

theorem State.writePiece_onlyReports (w : Who) (shadow : Bool) (p : Piece) (b : ByteList) : s.OnlyReports (s.writePiece w shadow p b) := by
  unfold State.writePiece
  split
  · exact (State.touchLines_onlyLines ..).onlyReports.trans (.of_apart rfl rfl rfl rfl)
  · exact .refl s
  · exact (State.ask_onlySends ..).onlyReports
  · exact (State.ask_onlySends ..).onlyReports

theorem State.foldl_onlyReports {α : Type} (f : State → α → State) (h : ∀ s a, State.OnlyReports s (f s a)) (l : List α) (s : State) :
    s.OnlyReports (l.foldl f s) := by
  induction l generalizing s with
  | nil => exact .refl s
  | cons a l ih => exact (h s a).trans (ih _)

theorem State.sendMsix_onlyReports (q vector : Nat) : s.OnlyReports (s.sendMsix q vector) := by
  unfold State.sendMsix
  split
  · exact .refl s
  · exact s.send_onlyReports _

theorem State.keepRecord_onlyReports (e : ErrRec) : s.OnlyReports (s.keepRecord e) := (s.keepRecord_onlyRecords e).onlyReports

end

section
variable {s u : State} {w : Who} {shadow : Bool} {b : ByteList}

theorem State.writeG_onlyReports {va : Nat} (h : s.writeG w shadow va b = .ok u) : s.OnlyReports u := by
  unfold State.writeG at h
  split at h
  · cases h; exact .refl s
  split at h
  · cases h
  split at h
  · cases h
  split at h
  · cases h
  · cases h
    exact (State.fillAll_onlyCaches ..).onlyReports.trans (State.foldl_onlyReports _ (fun t p => State.writePiece_onlyReports ..) _ _)

theorem State.writeForm_onlyReports {a : Word64} (h : s.writeForm w a b = .ok u) : s.OnlyReports u := by
  unfold State.writeForm at h
  split at h
  · cases h; exact s.send_onlyReports _
  · exact State.writeG_onlyReports h

end

/-! ## Notifications and records -/

theorem State.putEntry_onlyReports {s u : State} {q : Nat} {b : ByteList} (h : s.putEntry q b = .ok u) : s.OnlyReports u := by
  unfold State.putEntry at h
  dsimp only at h
  split at h
  next v hv =>
    have hpass : s.OnlyReports (v.passNote q) := (State.writeForm_onlyReports hv).trans (v.passNote_onlyReports q)
    cases h
    split
    · exact hpass.trans (State.sendMsix_onlyReports ..)
    · exact hpass
  next => cases h

section
variable (s : State) (q addr : Nat) (b : ByteList)

theorem State.requeueNote_onlyReports : s.OnlyReports (s.requeueNote q addr b) := s.onQueue_onlyReports q fun _ => rfl

theorem State.loseNote_onlyReports (c : Cause) : s.OnlyReports (s.loseNote q addr c) := by
  unfold State.loseNote
  dsimp only
  refine State.OnlyReports.trans (((s.meetRefusal_onlyReports c.code c.info1).trans (State.passNote_onlyReports _ q)).trans
    (State.keepRecord_onlyReports _ (sideRecord q (bitsOf (s.queue q).qctl 11 5) addr c))) ?_
  split
  · exact State.requeueNote_onlyReports ..
  split
  next h => exact State.putEntry_onlyReports h
  next =>
    split
    · exact (State.requeueNote_onlyReports ..).trans (State.await_onlyReports ..)
    · exact State.passNote_onlyReports _ q

theorem State.putNote_onlyReports : s.OnlyReports (s.putNote q addr b) := by
  unfold State.putNote
  split
  next h => exact State.putEntry_onlyReports h
  next =>
    split
    · exact (State.requeueNote_onlyReports ..).trans (State.await_onlyReports ..)
    · exact State.loseNote_onlyReports ..

theorem State.notify_onlyReports : s.OnlyReports (s.notify q addr b) := by
  unfold State.notify
  split
  · exact .refl s
  split
  · exact s.onQueue_onlyReports q fun _ => rfl
  · exact State.putNote_onlyReports ..

end

/-- A record, whichever queue it names. -/
theorem State.errorRecord_onlyReports (s : State) (e : ErrRec) : s.OnlyReports (s.errorRecord e) := by
  unfold State.errorRecord
  split
  · split
    · exact s.keepRecord_onlyReports e
    · exact (s.keepRecord_onlyReports e).trans (State.notify_onlyReports ..)
  · exact s.keepRecord_onlyReports e

end Sys2Proof.Machine

/-! SUPPORT. Words that are no instruction, and stops of kernels and contexts (R160, R162, R164, R190, R321, R406). -/
namespace Sys2Proof.Machine

/-- A unit that stops is reported; the report changes no kernel and no context. -/
theorem State.unitFault_reports (s : State) (u : UnitRef) (x : Cause) (unit loc sub place : Nat) (origin : Option (Nat × Nat)) :
    (∀ c, ((s.unitFault u x unit loc sub place origin).core c).kernel = (s.core c).kernel) ∧ (s.unitFault u x unit loc sub place origin).ctxs = s.ctxs
      ∧ ∃ q, (s.unitFault u x unit loc sub place origin).traps = s.traps ++ [q] ∧ q.unit = u ∧ q.cause = x.code ∧ q.info = x.info := by
  rw [State.unitFault]
  dsimp only
  generalize hr : ErrRec.mk _ _ _ _ _ _ _ _ _ _ _ = r
  have hkeeps := (s.meetRefusal_onlyReports x.code x.info1).trans (State.errorRecord_onlyReports _ r)
  exact ⟨hkeeps.kernel, hkeeps.ctxs, ⟨(s.meetRefusal x.code x.info1).errseq.toNat, u, x.code, x.info, _, _⟩,
    congrArg (· ++ [_]) hkeeps.traps, rfl, rfl, rfl⟩

section
variable {s : State} {p : Cause} (h : p.waits = false)
include h

/-- A kernel that meets a cause stops at its word. -/
theorem State.kernelFault_stops {c : Nat} {y : Kernel} (hy : (s.core c).kernel = some y) :
    ((s.kernelFault c p).core c).kernel = some { y with held := true }
      ∧ ∃ q, (s.kernelFault c p).traps = s.traps ++ [q] ∧ q.unit = .kernel c ∧ q.cause = p.code ∧ q.info = p.info := by
  rw [State.kernelFault, hy]
  dsimp only
  rw [h, if_neg Bool.false_ne_true]
  obtain ⟨hkernel, -, hreport⟩ := State.unitFault_reports (s.onCore c fun z => { z with kernel := some { y with held := true } }) (.kernel c) p 1 c 0
    y.next.toNat (some ((s.corePart c).queue, (s.corePart c).key))
  refine ⟨(hkernel c).trans ?_, hreport⟩
  rw [State.onCore, State.core_setCore_self]

/-- A context that meets a cause stops at its word. -/
theorem State.ctxFault_stops {m x : Nat} {t : Ctx} (ht : s.ctx m x = some t) :
    (s.ctxFault m x p).ctx m x = some { t with held := true }
      ∧ ∃ q, (s.ctxFault m x p).traps = s.traps ++ [q] ∧ q.unit = .ctx m x ∧ q.cause = p.code ∧ q.info = p.info := by
  rw [State.ctxFault, ht]
  dsimp only
  rw [h, if_neg Bool.false_ne_true]
  obtain ⟨-, hctxs, hreport⟩ := State.unitFault_reports (s.setCtx m x { t with held := true }) (.ctx m x) p 5 m x t.apc
    (some ((s.part t.part).queue, (s.part t.part).key))
  refine ⟨?_, hreport⟩
  rw [State.ctx, hctxs]
  exact State.ctx_setCtx_self ..

end

/-- Settles O25: each turn meets its cause where its word stands; what stops is held and reported. -/
theorem wordsThatAreNoInstruction : Obligations.WordsThatAreNoInstruction := by
  unfold Obligations.WordsThatAreNoInstruction
  intro s c k m x cause w e info y t
  refine ⟨fun hturn hloads => ⟨?word, fun hfailed hcause => ?fetch⟩, fun hturn => ⟨?vector, fun hcause => ?kernelFetch⟩, fun hturn => ?access,
    fun p hp => ⟨State.kernelFault_stops hp, State.ctxFault_stops hp⟩⟩
  case word =>
    rw [exec_illegalCoxWord, execIllegalCoxWord, hturn]
    exact congrArg Host.Outcome.next (if_neg (by rw [hloads]; exact Bool.false_ne_true))
  case fetch =>
    simp only [exec_instructionFetchFault, execInstructionFetchFault, hturn, hfailed, if_neg (Nat.not_lt.2 hcause), State.trapHere, hloads,
      Bool.false_eq_true, if_false]
  case vector =>
    rw [exec_illegalVectorWord, execIllegalVectorWord, State.vecRun_turn hturn]
  case kernelFetch =>
    simp only [exec_instructionFetchFault, execInstructionFetchFault, hturn.turn, hturn.here, if_neg (Nat.not_lt.2 hcause)]
  case access =>
    rw [exec_illegalAccessWord, execIllegalAccessWord, State.ctxRun_turn hturn]

end Sys2Proof.Machine

/-! SUPPORT. Lanes of vector words: a row as a function of the lane number, and what the words that compute give (R271, R274, R278 to R288, R294, R298). -/
namespace Sys2Proof.Machine

/-! ## Rows -/

theorem chunks_eq_map {α : Type} (n k : Nat) (l : List α) : chunks n k l = (List.range k).map fun i => (l.drop (n * i)).take n := by
  induction k generalizing l with
  | zero => rfl
  | succ k ih =>
    rw [chunks, ih, List.range_succ_eq_map, List.map_cons, List.map_map]
    refine congrArg (_ :: ·) (List.map_congr_left fun i _ => ?_)
    simp only [Function.comp_apply, List.drop_drop, Nat.succ_eq_add_one, Nat.mul_add, Nat.mul_one, Nat.add_comm]

/-- The lanes of a register are its fields. -/
theorem rowLanes_eq_map (w : Nat) (b : ByteList) : rowLanes w b = (List.range (512 / w)).map fun i => field b (w * i) w := by
  rw [rowLanes, chunks_eq_map, List.map_map]
  exact List.map_congr_left fun i _ => (field_eq_leNat_take b (w * i) w).symm

theorem mapIdx_map_range {α β : Type} (n : Nat) (f : Nat → α) (g : Nat → α → β) :
    ((List.range n).map f).mapIdx g = (List.range n).map fun j => g j (f j) :=
  List.ext_getElem (by simp) (by simp)

theorem maskLanes_map_range (m : Mask) (n : Nat) (f : Nat → Nat) :
    maskLanes m ((List.range n).map f) = (List.range n).map fun j => if m.getLsbD j then some (f j) else none := mapIdx_map_range ..

theorem zipWith_map_range {α β γ : Type} (n : Nat) (f : Nat → α) (g : Nat → β) (h : α → β → γ) :
    List.zipWith h ((List.range n).map f) ((List.range n).map g) = (List.range n).map fun j => h (f j) (g j) := by
  rw [List.zipWith_map, List.zipWith_self]

theorem getD_map_range {α : Type} {n j : Nat} (f : Nat → α) (d : α) : ((List.range n).map f).getD j d = if j < n then f j else d := by
  by_cases h : j < n
  · simp [h]
  · simp [h]

theorem replicate_eq_map_range {α : Type} (n : Nat) (v : α) : List.replicate n v = (List.range n).map fun _ => v := by
  rw [List.map_const', List.length_range]

theorem lanes_pos (t : VTy) : 0 < 512 / vWidth t := by cases t <;> decide

/-! ## Words of one and two sources -/

section
variable {s : State} {c : Nat} {k : Kernel} {w : Bool} {d a b m : Nat} {t : VTy} {ra rb rd : ByteList}

/-- The kernel that a word finds, with the address of its next word. -/
def State.vecKernel (s : State) (c : Nat) (k : Kernel) : Kernel := { (s.vecFound c k).2 with next := k.next + 4 }

/-- A word gives lanes of a width to its destination. -/
def State.vecGives (s : State) (c : Nat) (k : Kernel) (reads : List Nat) (dst wd : Nat) (l : Lanes) : State :=
  State.vecWrote ((s.vecFound c k).1, s.vecKernel c k) c k.entry k.posn reads dst wd l

variable (h : s.KernelTurn c k)
include h

theorem State.vecRun_lanes {reads : List Nat} {dst wd : Nat} {l : Lanes} {f : Nat → Kernel → State → Acc (State × Option Kernel × Option (Nat × Lanes))}
    (hf : f c (s.vecKernel c k) (s.vecFound c k).1 = .ok ((s.vecFound c k).1, some (s.vecKernel c k), some (wd, l))) :
    s.vecRun reads dst f = .next (s.vecGives c k reads dst wd l) := by
  rw [State.vecRun_turn h]
  exact hf ▸ rfl

theorem State.vecRun_word {reads : List Nat} {dst : Nat} {q : Kernel} {f : Nat → Kernel → State → Acc (State × Option Kernel × Option (Nat × Lanes))}
    (hf : f c (s.vecKernel c k) (s.vecFound c k).1 = .ok ((s.vecFound c k).1, some q, none)) :
    s.vecRun reads dst f = .next (State.vecWord ((s.vecFound c k).1, q) c k.entry (k.posn + 1) reads) := by
  rw [State.vecRun_turn h]
  exact hf ▸ rfl

end

/-- Lanes that a mask enables, as a function of the lane number. -/
def enabledLanes (m : Mask) (n : Nat) (F : Nat → Nat) : Lanes := (List.range n).map fun j => if m.getLsbD j then some (F j) else none

section
variable {s : State} {c : Nat} {k : Kernel} {w : Bool} {d a b m : Nat} {t : VTy} {ra rb rd : ByteList} {F : Nat → Nat}
  (h : s.KernelTurn c k) (ha : (s.vecFound c k).1.readSel c (s.vecKernel c k) (vWidth t) a = .ok ra)
include h ha

theorem State.vec1_gives {f : Nat → Nat} (hf : ∀ j, f (field ra (vWidth t * j) (vWidth t)) = F j) : s.vec1 w d a m t f
    = .next (s.vecGives c k [a] (destSel w d) (vWidth t) (enabledLanes ((s.vecKernel c k).mask m) (512 / vWidth t) F)) := by
  refine State.vecRun_lanes h ?_
  rw [ha, Acc.next, rowLanes_eq_map, List.map_map, maskLanes_map_range]
  simp only [Function.comp_apply, hf]
  rfl

variable (hb : (s.vecFound c k).1.readSel c (s.vecKernel c k) (vWidth t) b = .ok rb)
include hb

theorem State.vec2_gives {f : Nat → Nat → Nat} (hf : ∀ j, f (field ra (vWidth t * j) (vWidth t)) (field rb (vWidth t * j) (vWidth t)) = F j) :
    s.vec2 w d a b m t f
      = .next (s.vecGives c k [a, b] (destSel w d) (vWidth t) (enabledLanes ((s.vecKernel c k).mask m) (512 / vWidth t) F)) := by
  refine State.vecRun_lanes h ?_
  rw [ha, Acc.next, hb, Acc.next, rowLanes_eq_map, rowLanes_eq_map, zipWith_map_range, maskLanes_map_range]
  simp only [hf]
  rfl

theorem State.vfma_gives (hd : (s.vecFound c k).1.readSel c (s.vecKernel c k) (vWidth t) (destSel w d) = .ok rd)
    (hf : ∀ j, laneFma t (field ra (vWidth t * j) (vWidth t)) (field rb (vWidth t * j) (vWidth t)) (field rd (vWidth t * j) (vWidth t)) = F j) :
    execVfma w d a b m t s
      = .next (s.vecGives c k [a, b, destSel w d] (destSel w d) (vWidth t) (enabledLanes ((s.vecKernel c k).mask m) (512 / vWidth t) F)) := by
  refine State.vecRun_lanes h ?_
  rw [ha, Acc.next, hb, Acc.next, hd, Acc.next, rowLanes_eq_map, rowLanes_eq_map, rowLanes_eq_map, List.zip, zipWith_map_range, zipWith_map_range,
    maskLanes_map_range]
  simp only [hf]
  rfl

theorem State.vsel_gives : execVsel w d a b m t s = .next (s.vecGives c k [a, b] (destSel w d) (vWidth t) ((List.range (512 / vWidth t)).map fun j =>
    some (if ((s.vecKernel c k).mask m).getLsbD j then field ra (vWidth t * j) (vWidth t) else field rb (vWidth t * j) (vWidth t)))) := by
  refine State.vecRun_lanes h ?_
  rw [ha, Acc.next, hb, Acc.next, rowLanes_eq_map, rowLanes_eq_map, List.zip, zipWith_map_range, mapIdx_map_range]

theorem State.vbcst_gives : execVbcst w d a b m t s = .next (s.vecGives c k [a, b] (destSel w d) (vWidth t)
    (enabledLanes ((s.vecKernel c k).mask m) (512 / vWidth t) fun _ =>
      field ra (vWidth t * (field rb (vWidth t * 0) (vWidth t) % (512 / vWidth t))) (vWidth t))) := by
  refine State.vecRun_lanes h ?_
  rw [ha, Acc.next, hb, Acc.next]
  dsimp only
  rw [rowLanes_eq_map, getD_map_range, if_pos (Nat.mod_lt _ (lanes_pos t)), replicate_eq_map_range, maskLanes_map_range]
  rfl

theorem State.vprm_gives : execVprm w d a b m t s = .next (s.vecGives c k [a, b] (destSel w d) (vWidth t)
    (enabledLanes ((s.vecKernel c k).mask m) (512 / vWidth t) fun j =>
      if field rb (vWidth t * j) (vWidth t) < 512 / vWidth t then field ra (vWidth t * field rb (vWidth t * j) (vWidth t)) (vWidth t) else 0)) := by
  refine State.vecRun_lanes h ?_
  rw [ha, Acc.next, hb, Acc.next, rowLanes_eq_map, rowLanes_eq_map, List.map_map, maskLanes_map_range]
  simp only [Function.comp_apply, getD_map_range]
  rfl

end

/-! ## Integer lanes -/

section
variable (n a b : Nat)

theorem toNat_emod_two_pow (i : Int) : (i % 2 ^ n).toNat = (BitVec.ofInt n i).toNat := by
  rw [BitVec.toNat_ofInt]
  norm_cast

theorem laneAdd_eq : (((a : Int) + b) % 2 ^ n).toNat = (BitVec.ofNat n a + BitVec.ofNat n b).toNat := by
  rw [toNat_emod_two_pow, BitVec.ofInt_add, BitVec.ofInt_natCast, BitVec.ofInt_natCast]

theorem laneNeg_eq : ((-(a : Int)) % 2 ^ n).toNat = (-BitVec.ofNat n a).toNat := by
  rw [toNat_emod_two_pow, BitVec.ofInt_neg, BitVec.ofInt_natCast]

theorem laneSub_eq : (((a : Int) - b) % 2 ^ n).toNat = (BitVec.ofNat n a - BitVec.ofNat n b).toNat := by
  rw [toNat_emod_two_pow, Int.sub_eq_add_neg, BitVec.ofInt_add, BitVec.ofInt_neg, BitVec.ofInt_natCast, BitVec.ofInt_natCast, ← BitVec.sub_eq_add_neg]

theorem laneMul_eq : (((a : Int) * b) % 2 ^ n).toNat = (BitVec.ofNat n a * BitVec.ofNat n b).toNat := by
  rw [toNat_emod_two_pow, BitVec.ofInt_mul, BitVec.ofInt_natCast, BitVec.ofInt_natCast]

theorem laneFma_eq (e : Nat) : (a * b + e) % 2 ^ n = (BitVec.ofNat n a * BitVec.ofNat n b + BitVec.ofNat n e).toNat := by
  rw [← BitVec.ofNat_mul, ← BitVec.ofNat_add, BitVec.toNat_ofNat]

theorem laneShl_eq (e : Nat) : a * 2 ^ e % 2 ^ n = (BitVec.ofNat n a <<< e).toNat := by
  rw [BitVec.toNat_shiftLeft, BitVec.toNat_ofNat, Nat.shiftLeft_eq, Nat.mod_mul_mod]

theorem laneShr_eq (e : Nat) (ha : a < 2 ^ n) : a / 2 ^ e = (BitVec.ofNat n a >>> e).toNat := by
  rw [BitVec.toNat_ushiftRight, BitVec.toNat_ofNat, Nat.mod_eq_of_lt ha, Nat.shiftRight_eq_div_pow]

theorem laneSra_eq (e : Nat) : (sextInt a n / 2 ^ e % 2 ^ n).toNat = ((BitVec.ofNat n a).sshiftRight e).toNat := by
  rw [toNat_emod_two_pow, BitVec.sshiftRight_eq, Int.shiftRight_eq_div_pow]
  norm_cast

end

theorem leNat_lt (l : ByteList) : leNat l < 2 ^ (8 * l.length) := by
  induction l with
  | nil => simp [leNat]
  | cons x r ih =>
    have hx := x.isLt
    rw [leNat, List.length_cons, Nat.mul_add, Nat.pow_add]
    omega

theorem field_lt (l : ByteList) (off n : Nat) : field l off n < 2 ^ (8 * n) := by
  have hlen : (slice l off n).length = n := by
    simp only [slice, List.length_append, List.length_take, List.length_drop, List.length_replicate]
    omega
  exact Nat.lt_of_lt_of_eq (leNat_lt _) (by rw [hlen])

/-! ## VCMP -/

theorem testBit_bitsNat (l : List Bool) (j : Nat) : (bitsNat l).testBit j = l.getD j false := by
  induction l generalizing j with
  | nil => simp [bitsNat]
  | cons b r ih =>
    cases j with
    | zero => cases b <;> simp [bitsNat]
    | succ j =>
      rw [Nat.testBit_succ, List.getD_cons_succ, ← ih]
      refine congrArg (Nat.testBit · j) ?_
      cases b <;> simp only [bitsNat, if_true, Bool.false_eq_true, if_false] <;> omega

/-- What VCMP writes to its mask: the conditions of the enabled lanes, the other bits as they were. -/
def vcmpMask (old on : Mask) (n : Nat) (l : List Bool) : Mask :=
  (old &&& ~~~(on &&& BitVec.ofNat 256 (2 ^ n - 1))) ||| (BitVec.ofNat 256 (bitsNat l) &&& (on &&& BitVec.ofNat 256 (2 ^ n - 1)))

theorem getLsbD_vcmpMask (old on : Mask) (n : Nat) (f : Nat → Bool) {j : Nat} (hj : j < 256) :
    (vcmpMask old on n ((List.range n).map f)).getLsbD j = if j < n ∧ on.getLsbD j = true then f j else old.getLsbD j := by
  simp only [vcmpMask, BitVec.getLsbD_or, BitVec.getLsbD_and, BitVec.getLsbD_not, BitVec.getLsbD_ofNat, hj, decide_true, Bool.true_and,
    Nat.testBit_two_pow_sub_one, testBit_bitsNat, getD_map_range]
  by_cases hn : j < n <;> cases on.getLsbD j <;> simp [hn]

section
variable {s : State} {c : Nat} {k : Kernel} {w : Bool} {d a b m : Nat} {t : VTy} {ra rb rd : ByteList} (h : s.KernelTurn c k)
include h

theorem State.vcmp_word (ha : (s.vecFound c k).1.readSel c (s.vecKernel c k) (vWidth t) a = .ok ra)
    (hb : (s.vecFound c k).1.readSel c (s.vecKernel c k) (vWidth t) b = .ok rb) (cc : VCond) :
    ∃ v, execVcmp cc d a b m t s = .next (State.vecWord ((s.vecFound c k).1, (s.vecKernel c k).setMask d v) c k.entry (k.posn + 1) [a, b])
      ∧ ∀ j, j < 256 → v.getLsbD j = if j < 512 / vWidth t ∧ ((s.vecKernel c k).mask m).getLsbD j = true
        then laneCmp cc t (field ra (vWidth t * j) (vWidth t)) (field rb (vWidth t * j) (vWidth t)) else ((s.vecKernel c k).mask d).getLsbD j := by
  refine ⟨_, State.vecRun_word h ?_, fun j hj => getLsbD_vcmpMask _ _ _ _ hj⟩
  rw [ha, Acc.next, hb, Acc.next, rowLanes_eq_map, rowLanes_eq_map, zipWith_map_range]
  rfl

/-! ## Conversion and scale -/

/-- The module after SRSV has advanced. -/
def State.drawn (u : State) (c : Nat) : State := u.onCore c fun y => { y with srsv := BitVec.ofNat 32 (srAdvance (u.core c).srsv.toNat) }

/-- A word that gives lanes, and may change the module or the kernel. -/
theorem State.vecRun_writes {u : State} {q : Kernel} {reads : List Nat} {dst wd : Nat} {l : Lanes}
    {f : Nat → Kernel → State → Acc (State × Option Kernel × Option (Nat × Lanes))}
    (hf : f c (s.vecKernel c k) (s.vecFound c k).1 = .ok (u, some q, some (wd, l))) :
    s.vecRun reads dst f = .next (State.vecWrote (u, q) c k.entry k.posn reads dst wd l) := by
  rw [State.vecRun_turn h]
  exact hf ▸ rfl

section
variable (ha : (s.vecFound c k).1.readSel c (s.vecKernel c k) 4 a = .ok ra)
include ha

theorem State.vcvt_widens {kind : Nat} (hk : kind < 8) (mode : Nat) : execVcvt w d a kind mode m s
    = .next (State.vecWrote ((s.vecFound c k).1.drawn c, s.vecKernel c k) c k.entry k.posn [a] (destSel w d) 4
      (enabledLanes ((s.vecKernel c k).mask m) 128 (vcvtWide kind ra))) := by
  have hn : vcvtNarrow kind = false := by rw [vcvtNarrow, decide_eq_false (Nat.not_le.2 hk)]; rfl
  rw [execVcvt, hn]
  refine State.vecRun_writes h ?_
  rw [ha]
  simp only [Acc.next, Bool.false_eq_true, if_false, State.drawV, hk, if_true, maskLanes_map_range]
  rfl

/-- The element that a narrowing kind gives for a source lane. -/
def vcvtElem (kind mode : Nat) (random : Nat → Nat) (ra : ByteList) (j : Nat) : Nat × Bool × Bool :=
  encodeElem (vcvtTo kind).1 mode (random j)
    (if (vcvtTo kind).2.2 then fpOfInt (sextInt (field ra (4 * j) 4) 32) else fpVal fmtF32 (field ra (4 * j) 4))

/-- Elements of the lanes that a mask enables. -/
def enabledElems {α : Type} (m : Mask) (n : Nat) (f : Nat → α) : List (Option α) := (List.range n).map fun j => if m.getLsbD j then some (f j) else none

omit h ha in
theorem any_enabledElems {α : Type} (m : Mask) (n : Nat) (f : Nat → α) (p : α → Bool) :
    (enabledElems m n f).any (fun e => (e.map p).getD false) = true ↔ ∃ j, j < n ∧ m.getLsbD j = true ∧ p (f j) = true := by
  simp only [enabledElems, List.any_map, List.any_eq_true, List.mem_range, Function.comp_apply]
  refine exists_congr fun j => and_congr_right fun _ => ?_
  cases m.getLsbD j <;> simp

omit h ha in
theorem map_enabledElems {α : Type} (m : Mask) (n : Nat) (f : Nat → α) (g : α → Nat) :
    (enabledElems m n f).map (fun e => e.map g) = enabledLanes m n fun j => g (f j) := by
  rw [enabledElems, enabledLanes, List.map_map]
  refine List.map_congr_left fun j _ => ?_
  simp only [Function.comp_apply]
  split <;> rfl

theorem State.vcvt_narrows {kind mode : Nat} (hk : 8 ≤ kind)
    (hd : vcvtNarrow kind = true → (s.vecFound c k).1.readSel c (s.vecKernel c k) 4 (destSel w d) = .ok rd) :
    ∃ f : Bool × Bool, execVcvt w d a kind mode m s = .next (State.vecWrote ((s.vecFound c k).1.drawn c, (s.vecKernel c k).accrue f.1 f.2 false false)
        c k.entry k.posn (if vcvtNarrow kind then [a, destSel w d] else [a]) (destSel w d) (vcvtTo kind).2.1
        (enabledLanes ((s.vecKernel c k).mask m) 128 fun j => (vcvtElem kind mode (srLane (srAdvance ((s.vecFound c k).1.core c).srsv.toNat)) ra j).1))
      ∧ (f.1 = true ↔ ∃ j, j < 128 ∧ ((s.vecKernel c k).mask m).getLsbD j = true
          ∧ (vcvtElem kind mode (srLane (srAdvance ((s.vecFound c k).1.core c).srsv.toNat)) ra j).2.1 = true)
      ∧ (f.2 = true ↔ ∃ j, j < 128 ∧ ((s.vecKernel c k).mask m).getLsbD j = true
          ∧ (vcvtElem kind mode (srLane (srAdvance ((s.vecFound c k).1.core c).srsv.toNat)) ra j).2.2 = true) := by
  have hread : ∃ rd', (if vcvtNarrow kind then (s.vecFound c k).1.readSel c (s.vecKernel c k) 4 (destSel w d) else .ok []) = .ok rd' := by
    cases hn : vcvtNarrow kind with
    | true => exact ⟨rd, by rw [if_pos rfl]; exact hd hn⟩
    | false => exact ⟨[], rfl⟩
  obtain ⟨rd', hrd⟩ := hread
  have hreads : ([a] ++ if vcvtNarrow kind then [destSel w d] else []) = if vcvtNarrow kind then [a, destSel w d] else [a] := by
    cases vcvtNarrow kind <;> rfl
  refine ⟨(_, _), ?_, any_enabledElems _ _ (vcvtElem kind mode (srLane (srAdvance ((s.vecFound c k).1.core c).srsv.toNat)) ra) (·.2.1),
    any_enabledElems _ _ (vcvtElem kind mode (srLane (srAdvance ((s.vecFound c k).1.core c).srsv.toNat)) ra) (·.2.2)⟩
  rw [execVcvt, hreads]
  refine State.vecRun_writes h ?_
  rw [ha, Acc.next, hrd, 
    ← map_enabledElems _ _ (vcvtElem kind mode (srLane (srAdvance ((s.vecFound c k).1.core c).srsv.toNat)) ra) (·.1)]
  simp only [Acc.next, State.drawV, if_neg (Nat.not_lt.2 hk), rowLanes_eq_map, mapIdx_map_range]
  rfl

theorem State.vscl_encodes (mw mode : Nat) :
    ∃ (f : Bool × Bool) (b : ByteList), execVscl w d a mw true mode m s
        = .next (State.vecWrote ((s.vecFound c k).1.drawn c, (s.vecKernel c k).accrue f.1 f.2 false false) c k.entry k.posn [a] (destSel w d) 1
          (b.map fun v => some v.toNat))
      ∧ (b, f) = (Fmt.bfp (mw + 2)).encodeAll mode (srLane (srAdvance ((s.vecFound c k).1.core c).srsv.toNat))
          ((List.range 128).map fun j => if ((s.vecKernel c k).mask m).getLsbD j then fpVal fmtF32 (field ra (4 * j) 4) else .fin false 0 0) := by
  refine ⟨_, _, State.vecRun_writes h ?_, rfl⟩
  rw [ha]
  simp only [Acc.next, if_true, State.drawV, rowLanes_eq_map, mapIdx_map_range]
  rfl

omit h ha in
theorem bfpDecode_eq_map (n : Nat) (b : ByteList) : ∃ f : Nat → Fp, bfpDecode n b = (List.range 32).map f :=
  ⟨_, List.map_map⟩

omit h ha in
/-- The four blocks of a row, decoded, as a function of the lane number. -/
theorem flatMap_range_blocks {α : Type} (f : Nat → List α) (z : α) (hlen : ∀ q, (f q).length = 32) :
    (List.range 4).flatMap f = (List.range 128).map fun j => (f (j / 32)).getD (j % 32) z := by
  have hblock : ∀ q, f q = (List.range 32).map fun i => (f q).getD i z := fun q =>
    List.ext_getElem (by simp [hlen]) fun i h₁ h₂ => by simp [h₁]
  have hsplit : (List.range 128) = (List.range 4).flatMap fun q => (List.range 32).map fun i => 32 * q + i := by decide
  rw [hsplit, List.map_flatMap]
  refine congrArg List.flatten (List.map_congr_left fun q _ => (hblock q).trans ?_)
  rw [List.map_map]
  refine List.map_congr_left fun i hi => ?_
  have hi : i < 32 := List.mem_range.1 hi
  simp only [Function.comp_apply]
  rw [show (32 * q + i) / 32 = q by omega, show (32 * q + i) % 32 = i by omega]

theorem State.vscl_decodes (mw mode : Nat) :
    ∃ inf nanb, execVscl w d a mw false mode m s
        = .next (State.vecWrote ((s.vecFound c k).1, (s.vecKernel c k).accrue false inf nanb false) c k.entry k.posn [a] (destSel w d) 4
          (enabledLanes ((s.vecKernel c k).mask m) 128 fun j =>
            ieeeF32 ((bfpDecode (mw + 2) (slice ra (j / 32 * (1 + 4 * (mw + 2))) (1 + 4 * (mw + 2)))).getD (j % 32) .nan))) := by
  apply Exists.intro
  apply Exists.intro
  apply State.vecRun_writes h
  rw [ha, Acc.next, if_neg Bool.false_ne_true]
  dsimp only
  rw [List.flatMap_map, flatMap_range_blocks (fun q => bfpDecode (mw + 2) (slice ra (q * (1 + 4 * (mw + 2))) (1 + 4 * (mw + 2)))) .nan fun q => by
    simp [bfpDecode, bfpSplit], List.map_map, maskLanes_map_range]
  rfl

end

/-! ## Unpacking, reductions, special functions -/

section
variable (ha : (s.vecFound c k).1.readSel c (s.vecKernel c k) (vWidth t) a = .ok ra)
include ha

/-- The digit that VUNP3 gives a lane. -/
def unpackedTrit (ra : ByteList) (off j : Nat) : Int :=
  t3p5Trit (if (if off + j / 5 < 512 then field ra (off + j / 5) 1 else 121) < 243 then (if off + j / 5 < 512 then field ra (off + j / 5) 1 else 121)
    else 121) (j % 5)

theorem State.vunp3_gives (off : Nat) : ∃ f, execVunp3 w d a off m t s
    = .next (State.vecWrote ((s.vecFound c k).1, (s.vecKernel c k).accrue false false false f) c k.entry k.posn [a] (destSel w d) (vWidth t)
      (enabledLanes ((s.vecKernel c k).mask m) (512 / vWidth t) fun j => match vFmt t with
        | some g => roundFp g 0 0 (fpOfInt (unpackedTrit ra off j))
        | none => (unpackedTrit ra off j % 2 ^ (8 * vWidth t)).toNat)) := by
  apply Exists.intro
  apply State.vecRun_writes h
  rw [ha, Acc.next]
  dsimp only
  rw [maskLanes_map_range]
  simp only [t3p5Ok, decide_eq_true_eq]
  rfl

theorem State.vecReduce_gives (out : Nat) (f : List Nat → Nat) : s.vecReduce w d a m t out f
    = .next (s.vecGives c k [a] (destSel w d) (vWidth t) (List.replicate (512 / vWidth t) (some (f ((List.range (512 / vWidth t)).map fun j =>
      if ((s.vecKernel c k).mask m).getLsbD j then field ra (vWidth t * j) (vWidth t) else out))))) := by
  refine State.vecRun_lanes h ?_
  rw [ha, Acc.next, rowLanes_eq_map, mapIdx_map_range]

end

theorem State.vecSpecial_queues {ft : FTy} (ha : (s.vecFound c k).1.readSel c (s.vecKernel c k) (vWidth (ofFTy ft)) a = .ok ra) (f : SFn) (i : Instr) :
    s.vecSpecial f i a m ft = .next (State.vecWord ((s.vecFound c k).1, { s.vecKernel c k with rq := (s.vecKernel c k).rq ++
      [⟨BitVec.ofNat 32 ((encode i).getD 0 0), (s.vecKernel c k).posn + sfnLat f, (s.vecKernel c k).mask m, BitVec.ofNat 4096 (leNat ra)⟩] })
      c k.entry (k.posn + 1) [a]) := by
  refine State.vecRun_word h ?_
  rw [ha, Acc.next]

end

/-! ## What the operations give a lane -/

section
variable {g : FFmt} {t : VTy}

theorem laneOp_float (hg : vFmt t = some g) (ff : Fp → Fp → Fp) (fi : Int → Int → Int) (a b : Nat) :
    laneOp t ff fi a b = roundIeee g 0 0 (ff (fpVal g a) (fpVal g b)) := by rw [laneOp, hg]

theorem laneOp_int (hg : vFmt t = none) (ff : Fp → Fp → Fp) (fi : Int → Int → Int) (a b : Nat) :
    laneOp t ff fi a b = (fi a b % 2 ^ (8 * vWidth t)).toNat := by rw [laneOp, hg]

theorem laneMinMax_float (hg : vFmt t = some g) (wantMax : Bool) : laneMinMax t wantMax = fpMinMax g wantMax := by
  funext a b
  rw [laneMinMax, hg]

theorem laneMin_int (hg : vFmt t = none) (a b : Nat) : laneMinMax t false a b
    = if (BitVec.ofNat (8 * vWidth t) a).toInt < (BitVec.ofNat (8 * vWidth t) b).toInt then a else b := by
  rw [laneMinMax, hg]
  by_cases h : (BitVec.ofNat (8 * vWidth t) a).toInt < (BitVec.ofNat (8 * vWidth t) b).toInt <;> simp [sextInt, h]

theorem laneMax_int (hg : vFmt t = none) (a b : Nat) : laneMinMax t true a b
    = if (BitVec.ofNat (8 * vWidth t) a).toInt < (BitVec.ofNat (8 * vWidth t) b).toInt then b else a := by
  rw [laneMinMax, hg]
  by_cases h : (BitVec.ofNat (8 * vWidth t) a).toInt < (BitVec.ofNat (8 * vWidth t) b).toInt <;> simp [sextInt, h]

end

section
variable {s : State} {c : Nat} {k : Kernel} (h : s.KernelTurn c k) (w : Bool) (d a b m : Nat) (t : VTy) (ra rb rd : ByteList)
include h

/-- The lane-wise arithmetic of a floating-point type. -/
theorem State.floatLanes {g : FFmt} (hg : vFmt t = some g) (ha : (s.vecFound c k).1.readSel c (s.vecKernel c k) (vWidth t) a = .ok ra) :
    let gives := fun (i : Instr) (reads : List Nat) (f : Nat → Nat) =>
      exec i s = .next (s.vecGives c k reads (destSel w d) (vWidth t) (enabledLanes ((s.vecKernel c k).mask m) (512 / vWidth t) f))
    let lane := fun (r : ByteList) (i : Nat) => field r (vWidth t * i) (vWidth t)
    gives (.vabs w d a m t) [a] (fun j => if (fpVal g (lane ra j)).isNan then g.nanBits else lane ra j % g.signBit)
    ∧ gives (.vneg w d a m t) [a] (fun j => if (fpVal g (lane ra j)).isNan then g.nanBits else lane ra j ^^^ g.signBit)
    ∧ ((s.vecFound c k).1.readSel c (s.vecKernel c k) (vWidth t) b = .ok rb →
      gives (.vadd w d a b m t) [a, b] (fun j => roundIeee g 0 0 (fpAdd (fpVal g (lane ra j)) (fpVal g (lane rb j))))
      ∧ gives (.vsub w d a b m t) [a, b] (fun j => roundIeee g 0 0 (fpAdd (fpVal g (lane ra j)) (fpNeg (fpVal g (lane rb j)))))
      ∧ gives (.vmul w d a b m t) [a, b] (fun j => roundIeee g 0 0 (fpMul (fpVal g (lane ra j)) (fpVal g (lane rb j))))
      ∧ gives (.vmin w d a b m t) [a, b] (fun j => fpMinMax g false (lane ra j) (lane rb j))
      ∧ gives (.vmax w d a b m t) [a, b] (fun j => fpMinMax g true (lane ra j) (lane rb j))
      ∧ ((s.vecFound c k).1.readSel c (s.vecKernel c k) (vWidth t) (destSel w d) = .ok rd →
        gives (.vfma w d a b m t) [a, b, destSel w d]
          (fun j => roundIeee g 0 0 (fpAdd (fpMul (fpVal g (lane ra j)) (fpVal g (lane rb j))) (fpVal g (lane rd j)))))) := by
  dsimp only
  rw [exec_vabs, execVabs, exec_vneg, execVneg, exec_vadd, execVadd, exec_vsub, execVsub, exec_vmul, execVmul, exec_vmin, execVmin, exec_vmax, execVmax,
    exec_vfma, laneMinMax_float hg, laneMinMax_float hg]
  exact ⟨State.vec1_gives h ha fun j => by rw [laneAbs, hg], State.vec1_gives h ha fun j => by rw [laneNeg, hg], fun hb =>
    ⟨State.vec2_gives h ha hb fun j => laneOp_float hg .., State.vec2_gives h ha hb fun j => laneOp_float hg ..,
      State.vec2_gives h ha hb fun j => laneOp_float hg .., State.vec2_gives h ha hb fun _ => rfl, State.vec2_gives h ha hb fun _ => rfl,
      fun hd => State.vfma_gives h ha hb hd fun j => by rw [laneFma, hg]⟩⟩

/-- The lane-wise arithmetic of an integer type. -/
theorem State.intLanes (hg : vFmt t = none) (ha : (s.vecFound c k).1.readSel c (s.vecKernel c k) (vWidth t) a = .ok ra) :
    let gives := fun (i : Instr) (reads : List Nat) (f : Nat → Nat) =>
      exec i s = .next (s.vecGives c k reads (destSel w d) (vWidth t) (enabledLanes ((s.vecKernel c k).mask m) (512 / vWidth t) f))
    let lane := fun (r : ByteList) (i : Nat) => field r (vWidth t * i) (vWidth t)
    let x := fun j => BitVec.ofNat (8 * vWidth t) (lane ra j)
    let y := fun j => BitVec.ofNat (8 * vWidth t) (lane rb j)
    gives (.vabs w d a m t) [a] (fun j => (x j).toInt.natAbs) ∧ gives (.vneg w d a m t) [a] (fun j => (-(x j)).toNat)
    ∧ ((s.vecFound c k).1.readSel c (s.vecKernel c k) (vWidth t) b = .ok rb →
      gives (.vadd w d a b m t) [a, b] (fun j => (x j + y j).toNat) ∧ gives (.vsub w d a b m t) [a, b] (fun j => (x j - y j).toNat)
      ∧ gives (.vmul w d a b m t) [a, b] (fun j => (x j * y j).toNat)
      ∧ gives (.vmin w d a b m t) [a, b] (fun j => if (x j).toInt < (y j).toInt then lane ra j else lane rb j)
      ∧ gives (.vmax w d a b m t) [a, b] (fun j => if (x j).toInt < (y j).toInt then lane rb j else lane ra j)
      ∧ ((s.vecFound c k).1.readSel c (s.vecKernel c k) (vWidth t) (destSel w d) = .ok rd →
        gives (.vfma w d a b m t) [a, b, destSel w d] (fun j => (x j * y j + BitVec.ofNat (8 * vWidth t) (lane rd j)).toNat))) := by
  dsimp only
  rw [exec_vabs, execVabs, exec_vneg, execVneg, exec_vadd, execVadd, exec_vsub, execVsub, exec_vmul, execVmul, exec_vmin, execVmin, exec_vmax, execVmax,
    exec_vfma]
  exact ⟨State.vec1_gives h ha fun j => by rw [laneAbs, hg]; rfl, State.vec1_gives h ha fun j => by rw [laneNeg, hg]; exact laneNeg_eq .., fun hb =>
    ⟨State.vec2_gives h ha hb fun j => (laneOp_int hg ..).trans (laneAdd_eq ..), State.vec2_gives h ha hb fun j => (laneOp_int hg ..).trans (laneSub_eq ..),
      State.vec2_gives h ha hb fun j => (laneOp_int hg ..).trans (laneMul_eq ..), State.vec2_gives h ha hb fun _ => laneMin_int hg ..,
      State.vec2_gives h ha hb fun _ => laneMax_int hg .., fun hd => State.vfma_gives h ha hb hd fun j => by rw [laneFma, hg]; exact laneFma_eq ..⟩⟩

/-- The lane shifts. -/
theorem State.shiftLanes (it : ITy) (ha : (s.vecFound c k).1.readSel c (s.vecKernel c k) (vWidth (ofITy it)) a = .ok ra)
    (hb : (s.vecFound c k).1.readSel c (s.vecKernel c k) (vWidth (ofITy it)) b = .ok rb) :
    let wd := vWidth (ofITy it)
    let gives := fun (i : Instr) (f : Nat → Nat) =>
      exec i s = .next (s.vecGives c k [a, b] (destSel w d) wd (enabledLanes ((s.vecKernel c k).mask m) (512 / wd) f))
    let x := fun j => BitVec.ofNat (8 * wd) (field ra (wd * j) wd)
    let n := fun j => field rb (wd * j) wd % (8 * wd)
    gives (.vshl w d a b m it) (fun j => (x j <<< n j).toNat) ∧ gives (.vshr w d a b m it) (fun j => (x j >>> n j).toNat)
      ∧ gives (.vsra w d a b m it) (fun j => ((x j).sshiftRight (n j)).toNat) := by
  dsimp only
  rw [exec_vshl, execVshl, exec_vshr, execVshr, exec_vsra, execVsra]
  exact ⟨State.vec2_gives h ha hb fun j => laneShl_eq .., State.vec2_gives h ha hb fun j => laneShr_eq _ _ _ (field_lt ..),
    State.vec2_gives h ha hb fun j => laneSra_eq ..⟩

/-- The reductions of a floating-point type. -/
theorem State.floatReductions {g : FFmt} (hg : vFmt t = some g) (ha : (s.vecFound c k).1.readSel c (s.vecKernel c k) (vWidth t) a = .ok ra) :
    let enter := fun (out : Nat) => (List.range (512 / vWidth t)).map fun j =>
      if ((s.vecKernel c k).mask m).getLsbD j then field ra (vWidth t * j) (vWidth t) else out
    let all := fun (i : Instr) (v : Nat) =>
      exec i s = .next (s.vecGives c k [a] (destSel w d) (vWidth t) (List.replicate (512 / vWidth t) (some v)))
    all (.vreds w d a m t) ((treeSum (laneOp t fpAdd (· + ·)) (if vWidth t = 4 then 7 else 8) (enter g.signBit)).headD 0)
      ∧ all (.vredm w d a m t) ((enter (roundIeee g 0 0 (.inf true))).foldl (fpMinMax g true) ((enter (roundIeee g 0 0 (.inf true))).headD 0))
      ∧ all (.vredn w d a m t) ((enter (roundIeee g 0 0 (.inf false))).foldl (fpMinMax g false) ((enter (roundIeee g 0 0 (.inf false))).headD 0)) := by
  dsimp only
  rw [exec_vreds, execVreds, exec_vredm, execVredm, exec_vredn, execVredn, hg, laneMinMax_float hg, laneMinMax_float hg]
  exact ⟨State.vecReduce_gives h ha .., State.vecReduce_gives h ha .., State.vecReduce_gives h ha ..⟩

theorem State.intReductions (hg : vFmt t = none) (ha : (s.vecFound c k).1.readSel c (s.vecKernel c k) (vWidth t) a = .ok ra) :
    let enter := fun (out : Nat) => (List.range (512 / vWidth t)).map fun j =>
      if ((s.vecKernel c k).mask m).getLsbD j then field ra (vWidth t * j) (vWidth t) else out
    let all := fun (i : Instr) (v : Nat) =>
      exec i s = .next (s.vecGives c k [a] (destSel w d) (vWidth t) (List.replicate (512 / vWidth t) (some v)))
    let low := 2 ^ (8 * vWidth t - 1)
    all (.vreds w d a m t) ((treeSum (laneOp t fpAdd (· + ·)) (if vWidth t = 4 then 7 else 8) (enter 0)).headD 0)
      ∧ all (.vredm w d a m t) ((enter low).foldl (laneMinMax t true) ((enter low).headD 0))
      ∧ all (.vredn w d a m t) ((enter (low - 1)).foldl (laneMinMax t false) ((enter (low - 1)).headD 0)) := by
  dsimp only
  rw [exec_vreds, execVreds, exec_vredm, execVredm, exec_vredn, execVredn, hg]
  exact ⟨State.vecReduce_gives h ha .., State.vecReduce_gives h ha .., State.vecReduce_gives h ha ..⟩

end

/-- Settles O26: a row is a function of the lane number, so each word's lanes are its operation's values. -/
theorem laneResults : Obligations.LaneResults := by
  unfold Obligations.LaneResults
  refine ⟨fun s c k w d a b m t ra rb rd h => ?arithmetic, fun s c k w d a b m t ra rb h => ?moves, fun s c k w d a m t ra rd h => ?conversions⟩
  case arithmetic =>
    dsimp only
    intro ha
    cases hg : vFmt t with
    | some g => exact State.floatLanes h w d a b m t ra rb rd hg ha
    | none => exact State.intLanes h w d a b m t ra rb rd hg ha
  case moves =>
    dsimp only
    rw [exec_vmov, execVmov, exec_vand, execVand, exec_vor, execVor, exec_vxor, execVxor, exec_vsel, exec_vbcst, exec_vprm]
    refine fun ha => ⟨State.vec1_gives h ha fun _ => rfl, fun hb => ⟨State.vec2_gives h ha hb fun _ => rfl, State.vec2_gives h ha hb fun _ => rfl,
      State.vec2_gives h ha hb fun _ => rfl, State.vsel_gives h ha hb, State.vbcst_gives h ha hb, State.vprm_gives h ha hb, ?_,
      fun cc => (exec_vcmp (s := s) ..) ▸ State.vcmp_word h ha hb cc⟩⟩
    rintro it rfl
    exact State.shiftLanes h w d a b m ra rb it ha hb
  case conversions =>
    dsimp only
    refine ⟨fun ha => ⟨fun kind mode hk => ?widen, fun kind mode hk hd => ?narrow, fun mw mode => ?encode, fun mw mode => ?decode⟩,
      fun ha => ⟨fun off => ?unpack, ?reduce⟩, fun ft ha => ?special⟩
    case widen => exact State.vcvt_widens h ha hk mode
    case narrow => exact State.vcvt_narrows h ha hk hd
    case encode => exact State.vscl_encodes h ha mw mode
    case decode =>
      obtain ⟨inf, nanb, hrun⟩ := State.vscl_decodes (w := w) (d := d) (m := m) h ha mw mode
      exact ⟨(inf, nanb), hrun⟩
    case unpack => exact State.vunp3_gives h ha off
    case reduce =>
      cases hg : vFmt t with
      | some g => exact State.floatReductions h w d a m t ra hg ha
      | none => exact State.intReductions h w d a m t ra hg ha
    case special =>
      rw [exec_vrcp, execVrcp, exec_vrsq, execVrsq, exec_vexp2, execVexp2, exec_vlog2, execVlog2, exec_vsqrt, execVsqrt, exec_vsig, execVsig,
        exec_vtanh, execVtanh]
      exact ⟨State.vecSpecial_queues h ha .., State.vecSpecial_queues h ha .., State.vecSpecial_queues h ha .., State.vecSpecial_queues h ha ..,
        State.vecSpecial_queues h ha .., State.vecSpecial_queues h ha .., State.vecSpecial_queues h ha ..⟩

end Sys2Proof.Machine

/-! SUPPORT. Masks, loops and ends of kernels (R277, R295 to R297, R412). -/
namespace Sys2Proof.Machine

section
variable (q : Kernel) (d : Nat) (v : Mask)

@[simp] theorem Kernel.mask_zero : q.mask 0 = BitVec.allOnes 256 := rfl
@[simp] theorem Kernel.setMask_zero : q.setMask 0 v = q := rfl

theorem Kernel.mask_setMask {d : Nat} (n : Nat) (h1 : 1 ≤ d) (h8 : d < 8) : (q.setMask d v).mask n = if n = d then v else q.mask n := by
  have hd : d ≠ 0 := by omega
  rw [Kernel.setMask, if_neg hd]
  by_cases hn : n = 0
  · subst hn
    rw [if_neg hd.symm]
    rfl
  · rw [Kernel.mask, Kernel.mask, if_neg hn, if_neg hn]
    by_cases hnd : n = d
    · subst hnd; simp [h8]
    · simp [hnd, Vector.getElem?_setIfInBounds_ne (Ne.symm hnd)]

end

section
variable {s : State} {c : Nat} {k : Kernel} {a n : Nat} {ra : ByteList} (h : s.KernelTurn c k)
include h

theorem State.vecRun_bad {reads : List Nat} {dst : Nat} {x : Cause} {f : Nat → Kernel → State → Acc (State × Option Kernel × Option (Nat × Lanes))}
    (hf : f c (s.vecKernel c k) (s.vecFound c k).1 = .bad x) : s.vecRun reads dst f = .next (s.kernelFault c x) := by
  rw [State.vecRun_turn h]
  exact hf ▸ rfl

theorem State.vecRun_wait {reads : List Nat} {dst : Nat} {w : Held} {f : Nat → Kernel → State → Acc (State × Option Kernel × Option (Nat × Lanes))}
    (hf : f c (s.vecKernel c k) (s.vecFound c k).1 = .wait w) : s.vecRun reads dst f = .next (s.wait w) := by
  rw [State.vecRun_turn h]
  exact hf ▸ rfl

theorem State.vecRun_end {reads : List Nat} {dst : Nat} {u : State} {f : Nat → Kernel → State → Acc (State × Option Kernel × Option (Nat × Lanes))}
    (hf : f c (s.vecKernel c k) (s.vecFound c k).1 = .ok (u, none, none)) : s.vecRun reads dst f
      = .next ((u.onCore c fun x => { x with kernel := none, active := true, fresh := true }).spend (.task c k.entry)) := by
  rw [State.vecRun_turn h]
  exact hf ▸ rfl

end

/-! ## Tasks of a core -/

theorem tabFind_map_value {α β : Type} (t : Tab α) (f : Nat → α → β) (k : Nat) : tabFind (t.map fun p => (p.1, f p.1 p.2)) k = (tabFind t k).map (f k) := by
  induction t with
  | nil => rfl
  | cons p r ih =>
    rw [List.map_cons, tabFind, tabFind, ih]
    split
    · next h => rw [h]; rfl
    · rfl

/-- A task of a core after a change of it. -/
theorem State.task_onTask_self (s : State) (c n : Nat) (f : TaskRec → TaskRec) :
    tabFind ((s.onTask c n f).core c).window n = (tabFind (s.core c).window n).map f := by
  rw [State.onTask, State.onCore, State.core_setCore_self]
  refine (tabFind_map_value _ (fun j x => if j = n then f x else x) n).trans ?_
  simp

/-- Another task of the core after a change of one. -/
theorem State.task_onTask_other (s : State) (c : Nat) {n j : Nat} (f : TaskRec → TaskRec) (h : j ≠ n) :
    tabFind ((s.onTask c n f).core c).window j = tabFind (s.core c).window j := by
  rw [State.onTask, State.onCore, State.core_setCore_self]
  refine (tabFind_map_value _ (fun j x => if j = n then f x else x) j).trans ?_
  simp [h]

section
variable {s : State} {c : Nat} {k : Kernel} {a n : Nat} {ra : ByteList} (h : s.KernelTurn c k)
include h

/-- VLOOP, by the count and the open loops. -/
theorem State.vloop_cases (ha : (s.vecFound c k).1.readSel c (s.vecKernel c k) 4 a = .ok ra) :
    let u := (s.vecFound c k).1
    let q := s.vecKernel c k
    let goes := fun (r : Kernel) => execVloop a s = .next (State.vecWord (u, r) c k.entry (k.posn + 1) [a])
    let bad := execVloop a s = .next (s.kernelFault c ⟨0x313, q.next - 4, 0⟩)
    (0 < field ra 0 4 → q.loops.length < 4 → goes { q with loops := (q.next, field ra 0 4) :: q.loops })
    ∧ (0 < field ra 0 4 → 4 ≤ q.loops.length → bad)
    ∧ (∀ pc, field ra 0 4 = 0 → u.loopEnd (u.whoKernel c q) 4096 0 q.next = .ok (some pc) → goes { q with next := pc })
    ∧ (field ra 0 4 = 0 → u.loopEnd (u.whoKernel c q) 4096 0 q.next = .ok none → bad) := by
  refine ⟨fun hn hl => State.vecRun_word h ?_, fun hn hl => State.vecRun_bad h ?_, fun pc hn he => State.vecRun_word h ?_, fun hn he => State.vecRun_bad h ?_⟩
  · rw [ha, Acc.next]
    exact (if_neg (Nat.pos_iff_ne_zero.1 hn)).trans (if_neg (Nat.not_le.2 hl))
  · rw [ha, Acc.next]
    exact (if_neg (Nat.pos_iff_ne_zero.1 hn)).trans (if_pos hl)
  · rw [ha, Acc.next]
    refine (if_pos hn).trans ?_
    rw [he]
    rfl
  · rw [ha, Acc.next]
    refine (if_pos hn).trans ?_
    rw [he]
    rfl

theorem State.vend_closes {body : Word64} {left : Nat} {r : List (Word64 × Nat)} (hl : (s.vecKernel c k).loops = (body, left) :: r) :
    let goes := fun (q : Kernel) => execVend s = .next (State.vecWord ((s.vecFound c k).1, q) c k.entry (k.posn + 1) [])
    (1 < left → goes { s.vecKernel c k with next := body, loops := (body, left - 1) :: r }) ∧ (left ≤ 1 → goes { s.vecKernel c k with loops := r }) := by
  refine ⟨fun h1 => State.vecRun_word h ?_, fun h1 => State.vecRun_word h ?_⟩
  · rw [hl]
    exact if_pos h1
  · rw [hl]
    exact if_neg (Nat.not_lt.2 h1)

/-- The kernel ends with the VEND that closes no loop. -/
theorem State.vend_ends (hl : (s.vecKernel c k).loops = []) (ho : (s.vecFound c k).1.asksOpen (.task c (s.vecKernel c k).entry) = false) :
    ∃ t', execVend s = .next t' ∧ (t'.core c).kernel = none
      ∧ ∀ x, tabFind (t'.core c).window (s.vecKernel c k).entry = some x → x.st = .done := by
  refine ⟨_, State.vecRun_end h (by rw [hl]; exact if_neg (by rw [ho]; exact Bool.false_ne_true)), ?_, fun x hx => ?_⟩
  · rw [show ∀ (v : State) r, (v.spend r).core c = v.core c from fun _ _ => rfl, State.onCore, State.core_setCore_self]
  · rw [show ∀ (v : State) r, (v.spend r).core c = v.core c from fun _ _ => rfl, State.onCore, State.core_setCore_self] at hx
    dsimp only at hx
    rw [State.task_onTask_self, Option.map_eq_some_iff] at hx
    obtain ⟨y, -, rfl⟩ := hx
    rfl

end

/-- Settles O27: the mask words and VLOOP by what they read, VEND by the loops that are open. -/
theorem masksAndKernelLoops : Obligations.MasksAndKernelLoops := by
  unfold Obligations.MasksAndKernelLoops
  intro s c k d a b h
  dsimp only
  rw [exec_vnop, exec_mand, exec_mor, exec_mnot, exec_vloop, exec_vend]
  refine ⟨State.vecRun_word h rfl, State.vecRun_word h rfl, State.vecRun_word h rfl, State.vecRun_word h rfl, rfl, fun v => rfl,
    fun v n h1 h8 => Kernel.mask_setMask _ v n h1 h8, fun ra ha => State.vloop_cases h ha, fun body left r hl => State.vend_closes h hl, fun hl ho => ?waits,
    fun hl ho => State.vend_ends h hl ho⟩
  case waits =>
    exact State.vecRun_wait h (w := .turn) (by
      rw [show (s.vecKernel c k).loops = [] from hl]
      exact if_pos ho)

end Sys2Proof.Machine

/-! SUPPORT. Vector words that reach memory (R256, R291 to R293, R412). -/
namespace Sys2Proof.Machine

/-! ## Lanes by number -/

theorem zipIdx_map_range {α : Type} (n : Nat) (f : Nat → α) : ((List.range n).map f).zipIdx = (List.range n).map fun i => (f i, i) :=
  List.ext_getElem (by simp) (by simp)

/-- The bytes that a read of several lanes gives the lane at place n. -/
theorem find?_zip_chunks {w i : Nat} {l : List Nat} (b : ByteList) {n : Nat} (hl : l.Nodup) (hn : l[n]? = some i) :
    (l.zip (chunks w l.length b)).find? (fun p => p.1 == i) = some (i, (b.drop (w * n)).take w) := by
  induction l generalizing b n with
  | nil => simp at hn
  | cons j r ih =>
    obtain ⟨hj, hr⟩ := List.nodup_cons.1 hl
    rw [List.length_cons, chunks, List.zip_cons_cons]
    cases n with
    | zero =>
      have hji : j = i := by simpa using hn
      subst hji
      simp
    | succ n =>
      have hn : r[n]? = some i := by simpa using hn
      have hne : (j == i) = false := by
        rw [beq_eq_false_iff_ne]
        exact fun e => hj (e ▸ List.mem_of_getElem? hn)
      rw [List.find?_cons, hne, ih _ hr hn, List.drop_drop, Nat.mul_succ, Nat.add_comm w]

theorem find?_zip_none {i : Nat} {l : List Nat} (cs : List ByteList) (hi : i ∉ l) : (l.zip cs).find? (fun p => p.1 == i) = none := by
  refine List.find?_eq_none.2 fun p hp => ?_
  rw [beq_iff_eq]
  exact fun e => hi (e ▸ (List.of_mem_zip hp).1)

/-- A list of lanes read, and of lanes that are zero. -/
def gathered (w : Nat) (reads zeros : List Nat) (b : ByteList) : List (Nat × ByteList) :=
  (reads.zip (chunks w reads.length b)) ++ zeros.map fun i => (i, [])

section
variable {n w i j : Nat} {reads zeros : List Nat} {b : ByteList}

theorem getElem?_numbered (l : List (Nat × ByteList)) (hi : i < n) :
    (numbered n l)[i]? = some ((l.find? fun p => p.1 == i).map fun p => leNat p.2) := by simp [numbered, hi]

theorem numbered_gathered_read (hi : i < n) (hnodup : reads.Nodup) (hj : reads[j]? = some i) :
    (numbered n (gathered w reads zeros b))[i]? = some (some (leNat ((b.drop (w * j)).take w))) := by
  rw [getElem?_numbered _ hi, gathered, List.find?_append, find?_zip_chunks b hnodup hj]
  rfl

theorem numbered_gathered_zero (hi : i < n) (hr : i ∉ reads) (hz : i ∈ zeros) : (numbered n (gathered w reads zeros b))[i]? = some (some 0) := by
  have hfind : (zeros.map fun i => ((i, []) : Nat × ByteList)).find? (fun p => p.1 == i) = some (i, []) := by
    rw [List.find?_map]
    cases hf : zeros.find? ((fun p : Nat × ByteList => p.1 == i) ∘ fun i => (i, [])) with
    | none => exact absurd (List.find?_eq_none.1 hf i hz) (by simp)
    | some j =>
      have hji : j = i := by simpa using List.find?_some hf
      rw [hji]
      rfl
  rw [getElem?_numbered _ hi, gathered, List.find?_append, find?_zip_none _ hr, hfind]
  rfl

theorem numbered_gathered_none (hi : i < n) (hr : i ∉ reads) (hz : i ∉ zeros) : (numbered n (gathered w reads zeros b))[i]? = some none := by
  have hfind : (zeros.map fun i => ((i, []) : Nat × ByteList)).find? (fun p => p.1 == i) = none := by
    refine List.find?_eq_none.2 fun p hp => ?_
    obtain ⟨j, hj, rfl⟩ := List.mem_map.1 hp
    rw [beq_iff_eq]
    exact fun e => hz (e ▸ hj)
  rw [getElem?_numbered _ hi, gathered, List.find?_append, find?_zip_none _ hr, hfind]
  rfl

end

/-! ## The words -/

section
variable {s u : State} {c : Nat} {k q : Kernel} {w g wr : Bool} {d pair sz b m wd : Nat} {t : VTy} {rb : ByteList} {p : Nat × List (Nat × Nat × Nat)}

/-- The address of an access that passes its checks. -/
theorem State.laneAccess_address (h : u.laneAccess c q pair g sz rb m wd wr = .ok p) : p.1 = (q.base pair + field rb 0 4) % 2 ^ 64 := by
  rw [State.laneAccess] at h
  dsimp only at h
  split at h
  · cases h
  · cases hs : u.laneSlots (u.kernelJob c q) g wr wd [(q.base pair + field rb 0 4) % 2 ^ 64]
      ((lanesAt (q.mask m) wd (512 / 2 ^ sz) ((q.base pair + field rb 0 4) % 2 ^ 64)).map (·.2)) with
    | ok sl =>
      rw [hs] at h
      cases h
      rfl
    | wait x => rw [hs] at h; cases h
    | bad x => rw [hs] at h; cases h
    | part v x => rw [hs] at h; cases h

theorem State.laneAccess_beyond (hg : g = false) (h : 2 ^ 21 ≤ (q.base pair + field rb 0 4) % 2 ^ 64) :
    u.laneAccess c q pair g sz rb m wd wr = .bad ⟨0x301, BitVec.ofNat 64 ((q.base pair + field rb 0 4) % 2 ^ 64), 0⟩ := by
  subst hg
  exact if_pos (by rw [decide_eq_true h]; rfl)

/-- With no results queued nothing lands. -/
theorem State.landSome_none (h : q.rq = []) (f : VReplay → Bool) : State.landSome c (u, q) f = (u, q) := by
  have hq : { q with rq := q.rq.filter fun r => !f r } = q := by rw [h, List.filter_nil, ← h]
  rw [State.landSome]
  dsimp only
  rw [hq, h, List.filter_nil, List.mergeSort_nil]
  rfl

variable (h : s.KernelTurn c k)
include h

/-- A word that gives no lanes, and may change the module or the kernel. -/
theorem State.vecRun_goes {v : State} {q : Kernel} {reads : List Nat} {dst : Nat}
    {f : Nat → Kernel → State → Acc (State × Option Kernel × Option (Nat × Lanes))} (hf : f c (s.vecKernel c k) (s.vecFound c k).1 = .ok (v, some q, none)) :
    s.vecRun reads dst f = .next (State.vecWord (v, q) c k.entry (k.posn + 1) reads) := by
  rw [State.vecRun_turn h]
  exact hf ▸ rfl

variable (hb : (s.vecFound c k).1.readSel c (s.vecKernel c k) (vWidth t) b = .ok rb)
include hb

theorem State.vld_bad {x : Cause} (ha : (s.vecFound c k).1.laneAccess c (s.vecKernel c k) pair g sz rb m (vWidth t) false = .bad x) :
    execVld w d pair g sz b m t s = .next (s.kernelFault c x) :=
  State.vecRun_bad h (by rw [hb, Acc.next, ha]; rfl)

theorem State.vld_reads {r : List (Nat × ByteList) × State}
    (ha : (s.vecFound c k).1.laneAccess c (s.vecKernel c k) pair g sz rb m (vWidth t) false = .ok p)
    (hr : State.readRuns ((s.vecFound c k).1.kernelJob c (s.vecKernel c k)) (if g then 1 else 0) (vWidth t) p.1 p.2 (s.vecFound c k).1 = .ok r) :
    execVld w d pair g sz b m t s = .next (State.vecWrote (r.2, s.vecKernel c k) c k.entry k.posn [b] (destSel w d) (vWidth t)
      (numbered (512 / vWidth t) r.1)) :=
  State.vecRun_writes h (by rw [hb, Acc.next, ha, Acc.next, hr]; rfl)

theorem State.vst_writes {rd : ByteList} {v : State} (hd : (s.vecFound c k).1.readVreg c (s.vecKernel c k) d = .ok rd)
    (ha : (s.vecFound c k).1.laneAccess c (s.vecKernel c k) pair g sz rb m (vWidth t) true = .ok p) (hq : (s.vecKernel c k).rq = [])
    (hv : State.writeRuns ((s.vecFound c k).1.kernelJob c (s.vecKernel c k)) (if g then 1 else 0) (vWidth t) p.1 rd p.2 (s.vecFound c k).1 = .ok v) :
    execVst d pair g sz b m t s = .next (State.vecWord (v, s.vecKernel c k) c k.entry (k.posn + 1) [b]) := by
  refine State.vecRun_goes h ?_
  rw [hb, Acc.next, ha, Acc.next, hd, Acc.next]
  dsimp only
  rw [State.landSome_none hq, hv]
  rfl

omit h hb in
theorem Acc.next_ok {α β : Type} {a : Acc α} {v : α} {f : α → Acc β} (ha : a = .ok v) : a.next f = f v := by
  rw [ha, Acc.next]

/-- What VGTH reads: the enabled lanes whose index is not all ones. -/
theorem State.vgth_gathers {v : ByteList × State} :
    let u := (s.vecFound c k).1
    let q := s.vecKernel c k
    let wd := vWidth t
    let l := (List.range (512 / wd)).filter fun i => (q.mask m).getLsbD i
    let idx := fun i => field rb (wd * i) wd
    let at_ := fun i => (q.base pair + wd * idx i) % 2 ^ 64
    let reads := l.filter fun i => idx i != 2 ^ (8 * wd) - 1
    (∃ x, u.laneSlots (u.kernelJob c q) g false wd (reads.map at_) (reads.map at_) = .ok x) →
    State.engReads (u.kernelJob c q) (if g then 1 else 0) (reads.map fun i => (at_ i, wd)) u = .ok v →
    execVgth w d pair g b m t s = .next (State.vecWrote (v.2, q) c k.entry k.posn [b] (destSel w d) wd
      (numbered (512 / wd) (gathered wd reads (l.filter fun i => idx i == 2 ^ (8 * wd) - 1) v.1))) := by
  intro u q wd l idx at_ reads ⟨x, hx⟩ hv
  refine State.vecRun_writes h ?_
  have hl : ((rowLanes wd rb).zipIdx.filter fun p => (q.mask m).getLsbD p.2) = l.map fun i => (idx i, i) := by
    rw [rowLanes_eq_map, zipIdx_map_range, List.filter_map]
    rfl
  have hreads : ((l.map fun i => (idx i, i)).filter fun p => p.1 != 2 ^ (8 * wd) - 1) = reads.map fun i => (idx i, i) := by
    rw [List.filter_map]
    rfl
  have hzeros : ((l.map fun i => (idx i, i)).filter fun p => p.1 == 2 ^ (8 * wd) - 1) = (l.filter fun i => idx i == 2 ^ (8 * wd) - 1).map fun i => (idx i, i) := by
    rw [List.filter_map]
    rfl
  rw [hb, Acc.next]
  dsimp only
  rw [hl, hreads, hzeros]
  simp only [List.map_map, List.length_map]
  refine (Acc.next_ok hx).trans ((Acc.next_ok hv).trans ?_)
  simp only [gathered, Function.comp_def, List.map_id']
  rfl

end

/-- Settles O28: the checks stop a word before any lane, and a read or write that is made gives its lanes. -/
theorem kernelMemoryWords : Obligations.KernelMemoryWords := by
  unfold Obligations.KernelMemoryWords
  intro s c k w g d pair sz b m t rb h
  dsimp only
  rw [exec_vld, exec_vst, exec_vgth]
  refine fun hb => ⟨fun x ha => State.vld_bad h hb ha, fun hg hea => State.vld_bad h hb (State.laneAccess_beyond hg hea),
    fun p r ha hr => ⟨State.vld_reads h hb ha hr, State.laneAccess_address ha⟩, fun p rd v hd ha hq hv => State.vst_writes h hb hd ha hq hv,
    fun v hx hv => ⟨_, State.vgth_gathers h hb hx hv, by simp [numbered], fun i hi hl => ?none, fun i hl hidx => ?zero, fun n i hn => ?read⟩⟩
  case none =>
    exact numbered_gathered_none hi (fun hr => hl (List.mem_filter.1 hr).1) fun hz => hl (List.mem_filter.1 hz).1
  case zero =>
    have hi : i < 512 / vWidth t := List.mem_range.1 (List.mem_filter.1 hl).1
    refine numbered_gathered_zero hi (fun hr => ?_) (List.mem_filter.2 ⟨hl, by simpa using hidx⟩)
    have hne := (List.mem_filter.1 hr).2
    exact absurd hidx (by simpa using hne)
  case read =>
    have hmem := List.mem_of_getElem? hn
    have hi : i < 512 / vWidth t := List.mem_range.1 (List.mem_filter.1 (List.mem_filter.1 hmem).1).1
    exact numbered_gathered_read hi ((List.nodup_range.filter _).filter _) hn

end Sys2Proof.Machine

/-! SUPPORT. Bytes of memory after a run of bytes is written, and writing a vector register (R271, R272, R274, R275; log 4). -/
namespace Sys2Proof.Machine

/-! ## Runs of bytes -/

theorem tabFind_append {α : Type} (t u : Tab α) (a : Nat) : tabFind (t ++ u) a = (tabFind t a).or (tabFind u a) := by
  induction t with
  | nil => rfl
  | cons p r ih =>
    rw [List.cons_append, tabFind, tabFind, ih]
    split <;> rfl

theorem tabFind_takeWhile_lt {α : Type} (t : Tab α) {k a : Nat} (hr : t.Pairwise fun p q => p.1 < q.1) :
    tabFind (t.takeWhile fun p => decide (p.1 < k)) a = if a < k then tabFind t a else none := by
  induction t with
  | nil => exact (ite_self _).symm
  | cons p r ih =>
    obtain ⟨hp, hr⟩ := List.pairwise_cons.1 hr
    rw [List.takeWhile_cons, tabFind]
    by_cases hk : p.1 < k
    · rw [decide_eq_true hk, if_pos rfl, tabFind, ih hr]
      split
      · next e => rw [← e, if_pos hk]
      · rfl
    · rw [decide_eq_false hk, if_neg Bool.false_ne_true]
      by_cases ha : a < k
      · rw [if_pos ha, if_neg (by omega), tabFind_none_of_lt (t := r) fun q hq => by have := hp q hq; omega]
        rfl
      · rw [if_neg ha]
        rfl

theorem tabFind_dropWhile_lt {α : Type} (t : Tab α) {k a : Nat} (hr : t.Pairwise fun p q => p.1 < q.1) :
    tabFind (t.dropWhile fun p => decide (p.1 < k)) a = if k ≤ a then tabFind t a else none := by
  induction t with
  | nil => exact (ite_self _).symm
  | cons p r ih =>
    have hcons := hr
    obtain ⟨hp, hr⟩ := List.pairwise_cons.1 hr
    rw [List.dropWhile_cons]
    by_cases hk : p.1 < k
    · rw [decide_eq_true hk, if_pos rfl, ih hr]
      split
      · next ha => rw [tabFind, if_neg (by omega)]
      · rfl
    · rw [decide_eq_false hk, if_neg Bool.false_ne_true]
      split
      · rfl
      · next ha =>
        refine tabFind_none_of_lt fun q hq => ?_
        rcases List.mem_cons.1 hq with rfl | hq
        · omega
        · have := hp q hq
          omega

theorem tabGet_listed (k : Nat) (b : ByteList) (a : Nat) : tabGet 0#8 (listed k b) a = if k ≤ a then b.getD (a - k) 0#8 else 0#8 := by
  induction b generalizing k with
  | nil => simp [listed, tabGet]
  | cons x r ih =>
    have hrest : k < a → tabGet 0#8 (listed (k + 1) r) a = (x :: r).getD (a - k) 0#8 := fun h => by
      rw [ih, if_pos (by omega), show a - k = a - (k + 1) + 1 by omega, List.getD_cons_succ]
    have hbelow : ¬k < a → tabGet 0#8 (listed (k + 1) r) a = 0#8 := fun h => by rw [ih, if_neg (by omega)]
    rw [listed]
    by_cases hx : x = 0#8
    · rw [if_pos hx]
      rcases Nat.lt_trichotomy k a with h | h | h
      · rw [hrest h, if_pos (by omega)]
      · subst h
        rw [hbelow (by omega), if_pos (Nat.le_refl k)]
        simp [hx]
      · rw [hbelow (by omega), if_neg (by omega)]
    · rw [if_neg hx, tabGet, tabFind]
      rcases Nat.lt_trichotomy k a with h | h | h
      · rw [if_neg (by omega), if_pos (by omega), ← hrest h, tabGet]
      · subst h
        simp
      · rw [if_neg (by omega), if_neg (by omega)]
        exact hbelow (by omega)

theorem mem_of_tabFind {α : Type} {t : Tab α} {k : Nat} {v : α} (h : tabFind t k = some v) : (k, v) ∈ t := by
  induction t with
  | nil => cases h
  | cons p r ih =>
    obtain ⟨a, w⟩ := p
    rw [tabFind] at h
    split at h
    · next e =>
      cases h
      exact e ▸ List.mem_cons_self
    · exact List.mem_cons_of_mem _ (ih h)

/-- The bytes of memory after a run of bytes is written. -/
theorem memByte_memSetList {m : Memory} (h : m.wf = true) (k : Nat) (b : ByteList) (a : Nat) :
    memByte (memSetList m k b) a = if k ≤ a ∧ a < k + b.length then b.getD (a - k) 0#8 else memByte m a := by
  rw [Memory.wf_iff] at h
  obtain ⟨hr, -⟩ := h
  have hout : ¬(k ≤ a ∧ a < k + b.length) → tabFind (listed k b) a = none := fun hn => by
    cases hf : tabFind (listed k b) a with
    | none => rfl
    | some v =>
      obtain ⟨hlo, hhi, -⟩ := mem_listed (mem_of_tabFind hf)
      exact absurd ⟨hlo, hhi⟩ hn
  rw [memByte, memSetList, tabGet, tabFind_append, tabFind_append, tabFind_takeWhile_lt m hr, tabFind_dropWhile_lt m hr]
  rcases Nat.lt_or_ge a k with ha | ha
  · rw [if_pos ha, if_neg (by omega), hout (by omega), if_neg (by omega), Option.none_or, Option.or_none]
    rfl
  · rw [if_neg (by omega), Option.none_or]
    rcases Nat.lt_or_ge a (k + b.length) with hb | hb
    · rw [if_neg (by omega), Option.or_none, if_pos ⟨ha, hb⟩, ← tabGet, tabGet_listed, if_pos ha]
    · rw [if_pos hb, hout (by omega), if_neg (by omega), Option.none_or]
      rfl

theorem tabFrom_eq_map {α : Type} (d : α) (t : Tab α) (k n : Nat) (hr : t.Pairwise fun p q => p.1 < q.1) (hk : ∀ p ∈ t, k ≤ p.1) :
    tabFrom d t k n = (List.range n).map fun i => tabGet d t (k + i) := by
  induction n generalizing t k with
  | zero => cases t <;> rfl
  | succ n ih =>
    rw [List.range_succ_eq_map, List.map_cons, List.map_map]
    have hshift : ∀ i, k + (i + 1) = k + 1 + i := fun i => by omega
    cases t with
    | nil =>
      rw [tabFrom, ih [] (k + 1) hr (fun p hp => absurd hp List.not_mem_nil)]
      rfl
    | cons p r =>
      obtain ⟨a, v⟩ := p
      obtain ⟨hp, hr'⟩ := List.pairwise_cons.1 hr
      have ha : k ≤ a := hk (a, v) List.mem_cons_self
      rw [tabFrom]
      by_cases e : a = k
      · rw [if_pos e, ih r (k + 1) hr' fun q hq => by have := hp q hq; omega]
        refine congr (congrArg List.cons (by simp [tabGet, tabFind, e])) (List.map_congr_left fun i _ => ?_)
        rw [Function.comp_apply, Nat.succ_eq_add_one, hshift i, tabGet, tabGet, tabFind, if_neg (by omega)]
      · rw [if_neg e, ih ((a, v) :: r) (k + 1) hr fun q hq => ?_]
        · refine congr (congrArg List.cons ?_) (List.map_congr_left fun i _ => ?_)
          · rw [tabGet, tabFind_none_of_lt fun q hq => ?_]
            · rfl
            · rcases List.mem_cons.1 hq with rfl | hq
              · show k + 0 < a
                omega
              · have := hp q hq
                show k + 0 < q.1
                omega
          · rw [Function.comp_apply, Nat.succ_eq_add_one, hshift i]
        · rcases List.mem_cons.1 hq with rfl | hq
          · show k + 1 ≤ a
            omega
          · have := hp q hq
            omega

theorem memList_eq_map {m : Memory} (h : m.wf = true) (k n : Nat) : memList m k n = (List.range n).map fun i => memByte m (k + i) := by
  rw [Memory.wf_iff] at h
  obtain ⟨hr, -⟩ := h
  rw [memList, tabList, tabFrom_eq_map _ _ _ _ (hr.sublist (List.dropWhile_sublist _)) fun p hp => mem_dropWhile_lt hr hp]
  refine List.map_congr_left fun i _ => ?_
  rw [tabGet, tabFind_dropWhile_lt m hr, if_pos (Nat.le_add_right k i)]
  rfl

/-! ## Rows of a register -/

theorem length_leBytes (n v : Nat) : (leBytes n v).length = n := by
  induction n generalizing v with
  | zero => rfl
  | succ n ih => rw [leBytes, List.length_cons, ih]

theorem getElem_leBytes (n v i : Nat) (h : i < (leBytes n v).length) : (leBytes n v)[i] = BitVec.ofNat 8 (v / 256 ^ i) := by
  induction n generalizing v i with
  | zero => exact absurd h (by simp [leBytes])
  | succ n ih =>
    cases i with
    | zero => simp [leBytes]
    | succ i =>
      simp only [leBytes, List.getElem_cons_succ]
      rw [ih, Nat.div_div_eq_div_mul, Nat.pow_succ, Nat.mul_comm]

theorem length_slice (l : ByteList) (off n : Nat) : (slice l off n).length = n := by
  simp only [slice, List.length_append, List.length_take, List.length_drop, List.length_replicate]
  omega

theorem getElem?_slice {l : ByteList} {off n i : Nat} (hi : i < n) (hl : off + i < l.length) : (slice l off n)[i]? = l[off + i]? := by
  have hlt : i < ((l.drop off).take n).length := by
    rw [List.length_take, List.length_drop]
    omega
  rw [slice, List.getElem?_append_left hlt, List.getElem?_take, if_pos hi, List.getElem?_drop]

/-- The places of a list of lists of one length. -/
theorem getElem?_flatten_same {α : Type} {w : Nat} (hw : 0 < w) (ls : List (List α)) (h : ∀ l ∈ ls, l.length = w) (i : Nat) :
    ls.flatten[i]? = (ls[i / w]?).bind (·[i % w]?) := by
  induction ls generalizing i with
  | nil => simp
  | cons l r ih =>
    have hl := h l List.mem_cons_self
    rw [List.flatten_cons, List.getElem?_append]
    rcases Nat.lt_or_ge i w with hi | hi
    · rw [if_pos (by omega), Nat.div_eq_of_lt hi, Nat.mod_eq_of_lt hi]
      rfl
    · rw [if_neg (by omega), ih (fun x hx => h x (List.mem_cons_of_mem _ hx)), hl, Nat.div_eq_sub_div hw hi, Nat.mod_eq_sub_mod hi]
      rfl

section
variable {old : ByteList} {w : Nat} {l : Lanes}

/-- The bytes of a lane of a merged row. -/
def laneBytes (old : ByteList) (w i : Nat) (v : Option Nat) : ByteList :=
  match v with
  | some x => leBytes w x
  | none => slice old (w * i) w

theorem mergeRow_eq (old : ByteList) (w : Nat) (l : Lanes) : mergeRow old w l = (l.mapIdx (laneBytes old w)).flatten ++ old.drop (w * l.length) := rfl

theorem length_laneBytes (i : Nat) (v : Option Nat) : (laneBytes old w i v).length = w := by
  cases v with
  | some x => exact length_leBytes ..
  | none => exact length_slice ..

theorem length_mergeRow_lanes : (l.mapIdx (laneBytes old w)).flatten.length = w * l.length := by
  have hmap : (l.mapIdx (laneBytes old w)).map List.length = List.replicate l.length w :=
    List.ext_getElem (by simp) fun i h₁ h₂ => by simp [length_laneBytes]
  rw [List.length_flatten, hmap, List.sum_replicate_nat, Nat.mul_comm]

theorem length_mergeRow (hl : w * l.length ≤ old.length) : (mergeRow old w l).length = old.length := by
  rw [mergeRow_eq, List.length_append, length_mergeRow_lanes, List.length_drop]
  omega

/-- A byte of a merged row: of its lane's value, or as it was. -/
theorem getElem?_mergeRow (hw : 0 < w) {i : Nat} (hi : i < old.length) : (mergeRow old w l)[i]? = some (match (l[i / w]?).join with
    | some v => BitVec.ofNat 8 (v / 256 ^ (i % w))
    | none => old.getD i 0#8) := by
  have hmod := Nat.mod_lt i hw
  have hold : old[i]? = some (old.getD i 0#8) := by simp [hi]
  rw [mergeRow_eq, List.getElem?_append, length_mergeRow_lanes]
  by_cases hin : i / w < l.length
  · have hlt : i < w * l.length := by
      rw [Nat.mul_comm]
      exact (Nat.div_lt_iff_lt_mul hw).1 hin
    rw [if_pos hlt, getElem?_flatten_same hw _ fun x hx => ?_, List.getElem?_mapIdx, List.getElem?_eq_getElem hin]
    · simp only [Option.map_some, Option.bind_some, Option.join_some]
      cases l[i / w] with
      | some v =>
        have hlen : i % w < (leBytes w v).length := by rw [length_leBytes]; exact hmod
        exact (List.getElem?_eq_getElem hlen).trans (congrArg some (getElem_leBytes w v _ hlen))
      | none => exact (getElem?_slice hmod (by rw [Nat.div_add_mod]; exact hi)).trans (by rw [Nat.div_add_mod]; exact hold)
    · obtain ⟨j, hj, rfl⟩ := List.mem_mapIdx.1 hx
      exact length_laneBytes ..
  · have hge : ¬ i < w * l.length := fun hlt => hin ((Nat.div_lt_iff_lt_mul hw).2 (by rwa [Nat.mul_comm]))
    rw [if_neg hge, List.getElem?_drop, show w * l.length + (i - w * l.length) = i by omega, hold, List.getElem?_eq_none (Nat.not_lt.1 hin)]
    rfl

end

/-- Settles O29: a register's row is merged lane by lane into 512 bytes of memory; a latch takes its row and is armed. -/
theorem vectorRegisterWrite : Obligations.VectorRegisterWrite := by
  unfold Obligations.VectorRegisterWrite
  intro s c k dst w l hmem hw hl
  dsimp only
  refine ⟨fun hdst => ?register, fun hlo hhi => ?latch⟩
  case register =>
    have hoff : (s.core c).acBase + 512 * (k.vbase + dst) = (s.core c).vregOff k.vbase dst := rfl
    rw [State.putV, if_pos hdst, hoff]
    have hold : (memList s.mem (poolKey c ((s.core c).vregOff k.vbase dst)) 512).length = 512 := by rw [memList_eq_map hmem]; simp
    have hnew : ∀ a, memByte (memSetList s.mem (poolKey c ((s.core c).vregOff k.vbase dst))
        (mergeRow (memList s.mem (poolKey c ((s.core c).vregOff k.vbase dst)) 512) w l)) a = _ := memByte_memSetList hmem _ _
    rw [length_mergeRow (by rw [hold]; exact hl), hold] at hnew
    refine ⟨rfl, rfl, memSetList_wf hmem _ _, fun i hi => (hnew _).trans ?_, fun a ha => (hnew a).trans (if_neg ?_)⟩
    · rw [if_pos ⟨Nat.le_add_right _ _, Nat.add_lt_add_left hi _⟩, Nat.add_sub_cancel_left, List.getD_eq_getElem?_getD,
        getElem?_mergeRow hw (by rw [hold]; exact hi), Option.getD_some, memList_eq_map hmem, getD_map_range, if_pos hi] <;> rfl
    · omega
  case latch =>
    rw [State.putV, if_neg (Nat.not_lt.2 hlo)]
    have hslot : dst - 64 < 4 := by omega
    refine ⟨rfl, ?_, ?_, fun n hn => ?_⟩
    · simp [Kernel.setLatch, Kernel.latch, hslot]
    · simp [Kernel.setLatch, Kernel.latch, hslot]
    · simp [Kernel.setLatch, Kernel.latch, Vector.getElem?_setIfInBounds_ne (Ne.symm hn)]

end Sys2Proof.Machine

/-! SUPPORT. Access words that compute, branch and wait (R299 to R305, R310 to R312, R413). -/
namespace Sys2Proof.Machine

section
variable {s : State} {m x : Nat} {t t1 : Ctx} {f : Nat → Nat → Ctx → State → AEff} (h : s.CtxTurn m x t)
include h

theorem State.ctxRun_hold (hf : f m x t s = .hold) : s.ctxRun f = .next (s.setCtx m x { t with waits := true }) := by
  rw [State.ctxRun_turn h, hf]

theorem State.ctxRun_fault {e : Cause} (hf : f m x t s = .fault e) : s.ctxRun f = .next (s.ctxFault m x e) := by
  rw [State.ctxRun_turn h, hf]

/-- A jump goes to its target inside the program, and stops the context at another (R303, R413). -/
theorem State.ctxRun_jumps {p : Prog} (hp : s.progOf t = some p) {dest : Int} (hf : f m x t s = .jump t1 s dest) :
    (0 ≤ dest → dest < ((p.len / 4 : Nat) : Int) → s.ctxRun f = .next (s.ctxGoes m x t1 dest.toNat))
      ∧ (dest < 0 ∨ ((p.len / 4 : Nat) : Int) ≤ dest → s.ctxRun f = .next (s.ctxFault m x ⟨0x314, w64 dest, 0⟩)) := by
  rw [State.ctxRun_turn h, hf, hp]
  exact ⟨fun h0 h1 => if_neg (by rintro (h | h); exact absurd h (Int.not_lt.2 h0); exact absurd h (Int.not_le.2 h1)), fun hout => if_pos hout⟩

theorem State.ctxAlu_gives {d a : Nat} {y : Src} {g : Word48 → Word48 → Word48} {r : Word48} (hr : g (t.read a) (t.src y) = r) :
    s.ctxAlu d a y g = .next (s.ctxGoes m x { t with regs := t.regs.setIfInBounds d r } (t.apc + 1)) := by
  subst hr
  exact State.ctxRun_done h rfl

end

/-- The arithmetic words, o being their second operand. -/
theorem State.ctx_arithmetic {s : State} {m x : Nat} {t : Ctx} (h : s.CtxTurn m x t) (d a : Nat) {y : Src} {o : Word48} (ho : t.src y = o) :
    let v := t.regs[a]?.getD 0
    let gives := fun (i : Instr) (r : Word48) => exec i s = .next (s.ctxGoes m x { t with regs := t.regs.setIfInBounds d r } (t.apc + 1))
    exec .anop s = .next (s.ctxGoes m x t (t.apc + 1))
    ∧ gives (.amov d y) o ∧ gives (.aadd d a y) (v + o) ∧ gives (.asub d a y) (v - o) ∧ gives (.amul d a y) (v * o) ∧ gives (.aand d a y) (v &&& o)
    ∧ gives (.ashl d a y) (v <<< (o.toNat % 64)) ∧ gives (.ashr d a y) (v >>> (o.toNat % 64))
    ∧ gives (.amin d a y) (if o.toInt < v.toInt then o else v)
    ∧ gives (.acmp d a y) (if v.toInt < o.toInt then BitVec.ofInt 48 (-1) else if v.toInt = o.toInt then 0 else 1) := by
  subst ho
  have hamount : ∀ o : Word48, bitsOf o 5 0 = o.toNat % 64 := fun o => by simp [bitsOf, fld]
  dsimp only
  rw [exec_anop, exec_amov, exec_aadd, exec_asub, exec_amul, exec_aand, exec_ashl, exec_ashr, exec_amin, exec_acmp]
  refine ⟨State.ctxRun_done h rfl, State.ctxAlu_gives h rfl, State.ctxAlu_gives h rfl, State.ctxAlu_gives h rfl, State.ctxAlu_gives h rfl,
    State.ctxAlu_gives h rfl, State.ctxAlu_gives h (by rw [hamount]; rfl), State.ctxAlu_gives h (by rw [hamount]; rfl),
    State.ctxAlu_gives h ?_, State.ctxAlu_gives h ?_⟩
  · simp only [BitVec.slt_iff_toInt_lt]
    rfl
  · simp only [BitVec.slt_iff_toInt_lt, BitVec.toInt_inj]
    rfl

/-! ## Conditions and counts -/

theorem acondHolds_iff (cc : ACond) (v : Word48) : acondHolds cc v = true ↔ match cc with
    | .eqz => v.toInt = 0
    | .nez => v.toInt ≠ 0
    | .ltz => v.toInt < 0
    | .gez => v.toInt ≥ 0
    | .gtz => v.toInt > 0
    | .lez => v.toInt ≤ 0 := by
  have hzero : v = 0#48 ↔ v.toInt = 0 := by rw [← BitVec.toInt_inj]; rfl
  cases cc <;> simp [acondHolds, hzero, BitVec.slt_iff_toInt_lt, BitVec.sle_iff_toInt_le]

theorem find?_range_shift {p : Nat → Bool} {lo i n : Nat} (hlo : lo < i) (hi : i < n) (hp : p i = true) (hbefore : ∀ j, lo < j → j < i → p j = false) :
    ((List.range (n - (lo + 1))).map (· + lo + 1)).find? p = some i := by
  rw [List.find?_map]
  have hfirst : (List.range (n - (lo + 1))).find? (p ∘ (· + lo + 1)) = some (i - (lo + 1)) := by
    rw [List.find?_range_eq_some]
    refine ⟨?_, List.mem_range.2 (by omega), fun j hj => ?_⟩
    · rw [Function.comp_apply, show i - (lo + 1) + lo + 1 = i by omega, hp]
    · rw [Function.comp_apply, hbefore _ (by omega) (by omega)]
      rfl
  rw [hfirst, Option.map_some, show i - (lo + 1) + lo + 1 = i by omega]

section
variable {s : State} {m x : Nat} {t : Ctx} {p : Prog} (h : s.CtxTurn m x t) (hp : s.progOf t = some p)
include h

/-- ALOOP's count (R304). -/
def Ctx.loopCount (t : Ctx) : Src → Int
  | .imm i => i.toInt
  | .reg r => ((t.regs[r]?.getD 0).toNat : Int)

/-- ALOOP's effect. -/
def aloopEff (n : Nat) (y : Src) (m : Nat) (t : Ctx) (u : State) : AEff :=
  if t.loopCount y < 0 ∨ t.loopCount y > 4095 then .fault ⟨0x313, w64 (t.loopCount y), 0⟩
  else if t.loopCount y = 0 then
    match u.progOf t with
    | none => .hold
    | some p =>
      match ((List.range (p.len / 4 - (t.apc + 1))).map (· + t.apc + 1)).find? fun i => u.progWord m p i == some (.aend n) with
      | some i => .done { t with apc := i } u
      | none => .fault ⟨0x313, BitVec.ofNat 64 t.apc, 0⟩
  else .done { t with lc := t.lc.setIfInBounds n (BitVec.ofInt 12 (t.loopCount y)), hd := t.hd.setIfInBounds n (BitVec.ofNat 12 (t.apc + 1)) } u

omit h in
theorem execAloop_eq (n : Nat) (y : Src) : execAloop n y s = s.ctxRun fun m _ t u => aloopEff n y m t u := by
  cases y <;> rfl

theorem State.aloop_enters (n : Nat) {y : Src} (h1 : 1 ≤ t.loopCount y) (h2 : t.loopCount y ≤ 4095) : execAloop n y s = .next (s.ctxGoes m x
    { t with lc := t.lc.setIfInBounds n (BitVec.ofNat 12 (t.loopCount y).toNat), hd := t.hd.setIfInBounds n (BitVec.ofNat 12 (t.apc + 1)) }
    (t.apc + 1)) := by
  rw [execAloop_eq]
  refine State.ctxRun_done h ((if_neg (by omega)).trans ((if_neg (by omega)).trans ?_))
  rw [← BitVec.ofInt_natCast 12 (t.loopCount y).toNat, Int.toNat_of_nonneg (by omega)]

theorem State.aloop_bad (n : Nat) {y : Src} (hc : t.loopCount y < 0 ∨ 4095 < t.loopCount y) :
    execAloop n y s = .next (s.ctxFault m x ⟨0x313, w64 (t.loopCount y), 0⟩) := by
  rw [execAloop_eq]
  exact State.ctxRun_fault h (if_pos hc)

include hp

/-- A loop of zero iterations goes on after the first AEND of its number. -/
theorem State.aloop_skips (n : Nat) {y : Src} {i : Nat} (hc : t.loopCount y = 0) (hlo : t.apc < i) (hhi : i < p.len / 4)
    (hi : s.progWord m p i = some (.aend n)) (hbefore : ∀ j, t.apc < j → j < i → s.progWord m p j ≠ some (.aend n)) :
    execAloop n y s = .next (s.ctxGoes m x { t with apc := i } (i + 1)) := by
  rw [execAloop_eq]
  refine State.ctxRun_done (t1 := { t with apc := i }) h ((if_neg (by omega)).trans ((if_pos hc).trans ?_))
  rw [hp]
  dsimp only
  rw [find?_range_shift hlo hhi (by rw [hi]; exact beq_self_eq_true _) fun j h1 h2 => beq_eq_false_iff_ne.2 (hbefore j h1 h2)]

theorem State.aloop_cases (n : Nat) {y : Src} {count : Int} (hcount : t.loopCount y = count) :
    (1 ≤ count → count ≤ 4095 → execAloop n y s = .next (s.ctxGoes m x
        { t with lc := t.lc.setIfInBounds n (BitVec.ofNat 12 count.toNat), hd := t.hd.setIfInBounds n (BitVec.ofNat 12 (t.apc + 1)) } (t.apc + 1)))
      ∧ (count < 0 ∨ 4095 < count → execAloop n y s = .next (s.ctxFault m x ⟨0x313, w64 count, 0⟩))
      ∧ (∀ i, count = 0 → t.apc < i → i < p.len / 4 → s.progWord m p i = some (.aend n) →
        (∀ j, t.apc < j → j < i → s.progWord m p j ≠ some (.aend n)) → execAloop n y s = .next (s.ctxGoes m x { t with apc := i } (i + 1))) := by
  subst hcount
  exact ⟨State.aloop_enters h n, State.aloop_bad h n, fun i => State.aloop_skips h hp n⟩

theorem State.aend_cases (n : Nat) :
    let left := t.lc[n]?.getD 0
    (left = 0 → execAend n s = .next (s.ctxGoes m x t (t.apc + 1)))
      ∧ (left = 1 → execAend n s = .next (s.ctxGoes m x { t with lc := t.lc.setIfInBounds n 0 } (t.apc + 1)))
      ∧ (1 < left.toNat →
        (0 ≤ ((t.hd[n]?.getD 0).toNat : Int) → ((t.hd[n]?.getD 0).toNat : Int) < ((p.len / 4 : Nat) : Int) →
          execAend n s = .next (s.ctxGoes m x { t with lc := t.lc.setIfInBounds n (left - 1) } ((t.hd[n]?.getD 0).toNat : Int).toNat))
        ∧ (((t.hd[n]?.getD 0).toNat : Int) < 0 ∨ ((p.len / 4 : Nat) : Int) ≤ ((t.hd[n]?.getD 0).toNat : Int) →
          execAend n s = .next (s.ctxFault m x ⟨0x314, w64 ((t.hd[n]?.getD 0).toNat : Int), 0⟩))) := by
  intro left
  refine ⟨fun h0 => State.ctxRun_done h (if_pos h0), fun h1 => State.ctxRun_done h ?_, fun h1 => State.ctxRun_jumps h hp ?_⟩
  · refine (if_neg (by rw [show t.lc[n]?.getD 0 = _ from h1]; decide)).trans ?_
    rw [show t.lc[n]?.getD 0 = _ from h1]
    rfl
  · have h0 : left ≠ 0 := fun e => by rw [e] at h1; exact absurd h1 (by decide)
    have hne : left - 1 ≠ 0 := fun e => by
      rw [show left = 1 by rw [← BitVec.sub_add_cancel left 1, e]; rfl] at h1
      exact absurd h1 (by decide)
    exact (if_neg h0).trans (if_pos hne)

end

/-- Settles O30: each arithmetic word by its operation, each jump by its target, each waiting word by what it waits for. -/
theorem accessComputation : Obligations.AccessComputation := by
  unfold Obligations.AccessComputation
  refine ⟨fun s m x t d a y h => ?arithmetic, fun s m x t p h hp => ?control⟩
  case arithmetic =>
    dsimp only
    exact State.ctx_arithmetic h d a (by cases y <;> rfl)
  case control =>
    dsimp only
    simp only [exec_abr, execAbr, exec_ajmp, execAjmp, exec_aloop, exec_aend, exec_ahalt, execAhalt, exec_swin, execSwin, exec_cqpop, execCqpop,
      exec_afence, execAfence]
    refine ⟨fun cc a off => ⟨fun htaken => State.ctxRun_jumps h hp ?branch, fun htaken => State.ctxRun_done h ?fall⟩,
      fun off => State.ctxRun_jumps h hp rfl, fun n => State.ctxRun_jumps h hp ?register, fun n y => ?loop, fun n => State.aend_cases h hp n,
      State.ctxRun_done h rfl, fun y hy => ⟨fun hfree => State.ctxRun_done h ?free, fun hfull => State.ctxRun_hold h ?full⟩,
      fun d v r hq => State.ctxRun_done (t1 := { t with cq := r, regs := t.regs.setIfInBounds d (v.truncate 48) }) h ?pop,
      fun d hq => State.ctxRun_hold h ?empty, fun hl => State.ctxRun_done h ?landed, fun hl => State.ctxRun_hold h ?landing⟩
    case branch => exact if_pos ((acondHolds_iff cc _).2 htaken)
    case fall => exact if_neg fun hc => htaken ((acondHolds_iff cc _).1 hc)
    case register =>
      have hlow : bitsOf (t.read n) 11 0 = (t.read n).toNat % 2 ^ 12 := by simp [bitsOf, fld]
      rw [← show (t.read n).toNat = (t.regs[n]?.getD 0).toNat from rfl, ← hlow]
    case loop =>
      exact State.aloop_cases h hp n (by cases y <;> rfl)
    case free =>
      rw [State.slotOf, hy]
      exact if_pos (by simp [hfree.1, hfree.2])
    case full =>
      rw [State.slotOf, hy]
      refine if_neg fun hc => ?_
      rcases hfull with h0 | ha
      · exact h0 hc.1
      · simp [ha] at hc
    case pop => rw [hq]; rfl
    case empty => rw [hq]
    case landed => exact if_pos (by rw [hl]; rfl)
    case landing => exact if_neg (by simpa using hl)

end Sys2Proof.Machine

/-! SUPPORT. Pushes of access contexts, their landing and the end of a context (R112, R146, R307 to R309, R413, R418). -/
namespace Sys2Proof.Machine

/-! ## The rows of a push -/

theorem State.readRow48_none {s : State} {w : Who} {va : Nat} (h : va < 2 ^ 48) : s.readRow48 w va 0 = .ok ([], s) := by
  rw [State.readRow48, if_pos (by omega), State.readV, State.apertureAt, if_neg (by omega), State.readG]
  exact if_pos rfl

theorem State.pushRows_none (w : Who) : ∀ (l : List (Option Nat)) (s : State), (∀ va, some va ∈ l → va < 2 ^ 48) →
    (State.pushRows w 0 l s).1 = []
  | [], _, _ => rfl
  | none :: r, s, h => State.pushRows_none w r s fun va hva => h va (List.mem_cons_of_mem _ hva)
  | some va :: r, s, h => by
    rw [State.pushRows, State.readRow48_none (h va List.mem_cons_self)]
    exact State.pushRows_none w r s fun va hva => h va (List.mem_cons_of_mem _ hva)

/-- A push of no bytes reads none. -/
theorem State.pushRows_empty {w : Who} {l : List (Option Nat)} {s : State} {len : Nat} (h : l.length * len = 0)
    (hva : ∀ va, some va ∈ l → va < 2 ^ 48) : (State.pushRows w len l s).1 = [] := by
  rcases Nat.mul_eq_zero.1 h with hl | rfl
  · rw [List.length_eq_zero_iff.1 hl]
    rfl
  · exact State.pushRows_none w l s hva

/-! ## Counting a push -/

section
variable {t : Ctx} {n expected window : Nat} (dst : Nat) (b : ByteList)

theorem Ctx.pushed_pushes (slot : Nat) (h : b ≠ [] → t.lastSlot window = slot) : (t.pushed window dst b).pushes
    = if b = [] then t.pushes else t.pushes ++ [⟨slot, b.mapIdx fun i v => (dst + i, v), b.length⟩] := by
  by_cases hb : b = []
  · simp only [Ctx.pushed, hb, if_true]
  · simp only [Ctx.pushed, if_neg hb, h hb]

theorem Ctx.counted_full (h : t.issued + n = expected) : t.counted n expected window = { t with issued := 0, cslot := (t.cslot + 1) % window, rest := n } :=
  if_pos (beq_iff_eq.2 h)

theorem Ctx.counted_part (h : t.issued + n < expected) : t.counted n expected window = { t with issued := t.issued + n, rest := n } :=
  if_neg fun e => absurd (beq_iff_eq.1 e) (by omega)

/-- A push is counted against the slot that was the current one, also when it completes the fill. -/
theorem Ctx.counted_lastSlot (hn : 0 < n) (hw : t.cslot < window) : (t.counted n expected window).lastSlot window = t.cslot := by
  by_cases h : t.issued + n = expected
  · rw [Ctx.counted_full h]
    refine (if_pos rfl).trans ?_
    rw [Nat.mod_add_mod, show t.cslot + 1 + (window - 1) = t.cslot + window by omega, Nat.add_mod_right, Nat.mod_eq_of_lt hw]
  · rw [Ctx.counted, if_neg (by simpa using h)]
    exact if_neg (by simp only []; omega)

end

/-- The context after a first push of n bytes, b of which could be read. -/
def Ctx.issues (t : Ctx) (n expected window dst : Nat) (b : ByteList) : Ctx := (if n = 0 then t else t.counted n expected window).pushed window dst b

section
variable {t : Ctx} {n expected window : Nat} (dst : Nat) {b : ByteList}

theorem Ctx.issues_pushes (hw : t.cslot < window) (hb : n = 0 → b = []) : (t.issues n expected window dst b).pushes
    = if b = [] then t.pushes else t.pushes ++ [⟨t.cslot, b.mapIdx fun i v => (dst + i, v), b.length⟩] := by
  by_cases hn : n = 0
  · rw [Ctx.issues, if_pos hn, Ctx.pushed_pushes dst b t.cslot fun h => absurd (hb hn) h]
  · rw [Ctx.issues, if_neg hn, Ctx.pushed_pushes dst b t.cslot fun _ => Ctx.counted_lastSlot (by omega) hw]
    by_cases h : t.issued + n = expected <;> simp only [Ctx.counted, beq_iff_eq, h, if_true, if_false]

theorem Ctx.issues_full (hn : 0 < n) (h : t.issued + n = expected) :
    (t.issues n expected window dst b).issued = 0 ∧ (t.issues n expected window dst b).cslot = (t.cslot + 1) % window := by
  rw [Ctx.issues, if_neg (by omega), Ctx.counted_full h]
  exact ⟨rfl, rfl⟩

theorem Ctx.issues_part (h : t.issued + n < expected) :
    (t.issues n expected window dst b).issued = t.issued + n ∧ (t.issues n expected window dst b).cslot = t.cslot := by
  by_cases hn : n = 0
  · rw [Ctx.issues, if_pos hn, hn]
    exact ⟨rfl, rfl⟩
  · rw [Ctx.issues, if_neg hn, Ctx.counted_part h]
    exact ⟨rfl, rfl⟩

theorem Ctx.issues_keeps : (t.issues n expected window dst b).regs = t.regs ∧ (t.issues n expected window dst b).apc = t.apc := by
  by_cases hn : n = 0
  · rw [Ctx.issues, if_pos hn]
    exact ⟨rfl, rfl⟩
  · rw [Ctx.issues, if_neg hn]
    by_cases h : t.issued + n = expected <;> simp [Ctx.counted, Ctx.pushed, h]

theorem Ctx.issues_rest (hn : 0 < n) : (t.issues n expected window dst b).rest = n - b.length := by
  rw [Ctx.issues, if_neg (by omega)]
  by_cases h : t.issued + n = expected <;> simp [Ctx.counted, Ctx.pushed, h]

end

/-! ## Issuing a push -/

/-- The slot that a context fills has been latched (R112). -/
def State.latchSlot (u : State) (t : Ctx) (y : CatchSlot) : State := u.onCore t.core fun z =>
  { z with bars := tabPut z.bars t.bar { z.bar t.bar with slots := (z.bar t.bar).slots.set t.cslot { y with latched := true } } }

theorem bitsOf_shape (sh : Word48) : bitsOf sh 15 0 = sh.toNat % 2 ^ 16 ∧ bitsOf sh 27 16 = sh.toNat / 2 ^ 16 % 2 ^ 12
    ∧ bitsOf sh 47 28 = sh.toNat / 2 ^ 28 % 2 ^ 20 := by
  simp [bitsOf, fld]

section
variable {s : State} {m x : Nat} {t : Ctx} {dst : Nat} {sh : Word48} {rows : State → Except Cause (List (Option Nat) × State)} {y : CatchSlot}
variable {len n : Nat} (hy : s.slotOf t = some y)

/-- A push of no bytes, or one whose bytes all go to mapped pages (R77, R413). -/
def State.pushFits (s : State) (t : Ctx) (dst n : Nat) : Prop := n = 0 ∨ (s.core t.core).pushOk dst n = true

include hy

theorem State.pushHolds_iff : s.pushHolds t = true ↔ y.awaiting = true ∨ t.issued = 0 ∧ ∃ q ∈ t.pushes, q.slot = t.cslot := by
  simp [State.pushHolds, hy]

theorem pushEff_hold (h0 : t.rest = 0) (h : s.pushHolds t = true) : pushEff m x t dst sh rows s = .hold := by
  simp only [pushEff, hy]
  exact if_pos (by simp [h0, h])

variable (hlen : bitsOf sh 15 0 = len) (hn : bitsOf sh 27 16 * len = n)
include hlen hn

theorem pushEff_tooLarge (h0 : t.rest = 0) (hfree : s.pushHolds t = false) (hbig : y.expected - t.issued < n) :
    pushEff m x t dst sh rows s = .fault ⟨0x315, BitVec.ofNat 64 n, BitVec.ofNat 64 (y.expected - t.issued)⟩ := by
  subst hlen hn
  simp only [pushEff, hy]
  exact (if_neg (by simp [hfree])).trans (if_pos (by simpa [h0] using hbig))

theorem pushEff_outside (h0 : t.rest = 0) (hfree : s.pushHolds t = false) (hle : n ≤ y.expected - t.issued) (hout : ¬s.pushFits t dst n) :
    pushEff m x t dst sh rows s = .fault ⟨0x316, BitVec.ofNat 64 dst, 0⟩ := by
  subst hlen hn
  obtain ⟨hne, hbad⟩ := not_or.1 hout
  simp only [pushEff, hy]
  exact (if_neg (by simp [hfree])).trans ((if_neg (by simpa [h0] using hle)).trans (if_pos ⟨hne, by simpa using hbad⟩))

/-- A first push: what its rows bring is issued. -/
theorem pushEff_issues (h0 : t.rest = 0) (hfree : s.pushHolds t = false) (hle : n ≤ y.expected - t.issued) (hfits : s.pushFits t dst n)
    {l : List (Option Nat)} {v u : State} {bytes : ByteList} {c : Option Cause} (hrows : rows s = .ok (l, v))
    (hread : State.pushRows (s.whoCtx m x t) len l v = (bytes, u, c)) :
    pushEff m x t dst sh rows s = match c with
      | none => .done (t.issues n y.expected (s.windowOf t) dst bytes) (u.latchSlot t y)
      | some e => if e.waits then .fault e else .part (t.issues n y.expected (s.windowOf t) dst bytes) (u.latchSlot t y) e := by
  subst hlen hn
  have hin : ¬(bitsOf sh 27 16 * bitsOf sh 15 0 ≠ 0 ∧ !(s.core t.core).pushOk dst (bitsOf sh 27 16 * bitsOf sh 15 0)) := by
    rintro ⟨hne, hbad⟩
    rcases hfits with hz | hok
    · exact hne hz
    · simp [hok] at hbad
  simp only [pushEff, hy]
  refine (if_neg (by simp [hfree])).trans ((if_neg (by simpa [h0] using hle)).trans ((if_neg hin).trans ?_))
  simp only [hrows, h0, bne_self_eq_false, Bool.false_eq_true, if_false, Nat.zero_div, List.drop_zero, hread, Bool.false_or, beq_iff_eq, Nat.add_zero]
  cases c <;> rfl

/-- A push that is retried: only the rows that are left are read (R418). -/
theorem pushEff_again (h0 : t.rest ≠ 0) (hfits : s.pushFits t dst n) {l : List (Option Nat)} {v u : State} {bytes : ByteList}
    (hrows : rows s = .ok (l, v)) (hread : State.pushRows (s.whoCtx m x t) len (l.drop ((n - t.rest) / len)) v = (bytes, u, none)) :
    pushEff m x t dst sh rows s = .done (t.pushed (s.windowOf t) (dst + (n - t.rest)) bytes) u := by
  subst hlen hn
  have hin : ¬(bitsOf sh 27 16 * bitsOf sh 15 0 ≠ 0 ∧ !(s.core t.core).pushOk dst (bitsOf sh 27 16 * bitsOf sh 15 0)) := by
    rintro ⟨hne, hbad⟩
    rcases hfits with hz | hok
    · exact hne hz
    · simp [hok] at hbad
  have hagain : (t.rest != 0) = true := bne_iff_ne.2 h0
  simp only [pushEff, hy]
  refine (if_neg (by simp [hagain])).trans ((if_neg (by simp [hagain])).trans ((if_neg hin).trans ?_))
  simp only [hrows, hagain, if_true, hread, Bool.true_or]

end

section
variable {s : State} {m x : Nat} {t : Ctx} {dst : Nat} {sh : Word48} {rows : State → Except Cause (List (Option Nat) × State)} {y : CatchSlot}
variable {f : Nat → Nat → Ctx → State → AEff} {len n : Nat}

/-- What a push word does, by whether its slot takes its bytes and what its rows bring. -/
theorem State.push_ends (h : s.CtxTurn m x t) (hf : f m x t s = pushEff m x t dst sh rows s) (hlen : bitsOf sh 15 0 = len)
    (hn : bitsOf sh 27 16 * len = n) (hy : ((s.core t.core).bar t.bar).slots[t.cslot]? = some y)
    (hnone : ∀ l v, rows s = .ok (l, v) → n = 0 → (State.pushRows (s.whoCtx m x t) len l v).1 = []) :
    (t.rest = 0 → y.awaiting = true ∨ (t.issued = 0 ∧ ∃ q ∈ t.pushes, q.slot = t.cslot) → s.ctxRun f = .next (s.setCtx m x { t with waits := true }))
    ∧ (t.rest = 0 → y.awaiting = false → (t.issued ≠ 0 ∨ ∀ q ∈ t.pushes, q.slot ≠ t.cslot) →
      (y.expected - t.issued < n → s.ctxRun f = .next (s.ctxFault m x ⟨0x315, BitVec.ofNat 64 n, BitVec.ofNat 64 (y.expected - t.issued)⟩))
      ∧ (n ≤ y.expected - t.issued → ¬s.pushFits t dst n → s.ctxRun f = .next (s.ctxFault m x ⟨0x316, BitVec.ofNat 64 dst, 0⟩))
      ∧ (n ≤ y.expected - t.issued → s.pushFits t dst n → ∀ l v bytes u, rows s = .ok (l, v) →
        (State.pushRows (s.whoCtx m x t) len l v = (bytes, u, none) →
          ∃ t', s.ctxRun f = .next ((u.latchSlot t y).ctxGoes m x t' (t.apc + 1))
            ∧ t'.pushes = (if bytes = [] then t.pushes else t.pushes ++ [⟨t.cslot, bytes.mapIdx fun k z => (dst + k, z), bytes.length⟩])
            ∧ (0 < n → t.issued + n = y.expected → t'.issued = 0 ∧ t'.cslot = (t.cslot + 1) % ((s.core t.core).bar t.bar).slots.length)
            ∧ (t.issued + n < y.expected → t'.issued = t.issued + n ∧ t'.cslot = t.cslot) ∧ t'.regs = t.regs)
        ∧ (∀ e, 0 < n → State.pushRows (s.whoCtx m x t) len l v = (bytes, u, some e) → e.waits = false →
          ∃ t', s.ctxRun f = .next (((u.latchSlot t y).setCtx m x t').ctxFault m x e) ∧ t'.apc = t.apc ∧ t'.rest = n - bytes.length
            ∧ t'.pushes = (if bytes = [] then t.pushes else t.pushes ++ [⟨t.cslot, bytes.mapIdx fun k z => (dst + k, z), bytes.length⟩])
            ∧ (t.issued + n < y.expected → t'.issued = t.issued + n))))
    ∧ (t.rest ≠ 0 → s.pushFits t dst n → ∀ l v bytes u, rows s = .ok (l, v) →
        State.pushRows (s.whoCtx m x t) len (l.drop ((n - t.rest) / len)) v = (bytes, u, none) →
        ∃ t', s.ctxRun f = .next (u.ctxGoes m x t' (t.apc + 1)) ∧ t'.issued = t.issued ∧ t'.cslot = t.cslot
          ∧ ∃ slot, t'.pushes = (if bytes = [] then t.pushes else t.pushes ++ [⟨slot, bytes.mapIdx fun k z => (dst + (n - t.rest) + k, z), bytes.length⟩])) := by
  have hslot : t.cslot < s.windowOf t := (List.getElem?_eq_some_iff.1 hy).1
  refine ⟨fun h0 hh => State.ctxRun_hold h (hf.trans (pushEff_hold hy h0 ((State.pushHolds_iff hy).2 hh))),
    fun h0 ha hq => ?first, fun h0 hfits l v bytes u hrows hread => ?again⟩
  case first =>
    have hfree : s.pushHolds t = false := by
      rw [← Bool.not_eq_true, State.pushHolds_iff hy, ha]
      rintro (e | ⟨e, q, hmem, hs⟩)
      · exact absurd e Bool.false_ne_true
      · exact hq.elim (fun hi => hi e) fun hi => hi q hmem hs
    refine ⟨fun hbig => State.ctxRun_fault h (hf.trans (pushEff_tooLarge hy hlen hn h0 hfree hbig)),
      fun hle hout => State.ctxRun_fault h (hf.trans (pushEff_outside hy hlen hn h0 hfree hle hout)),
      fun hle hfits l v bytes u hrows => ⟨fun hread => ?read, fun e hpos hread he => ?stopped⟩⟩
    case read =>
      have hempty : n = 0 → bytes = [] := fun hz => by rw [← hnone l v hrows hz, hread]
      refine ⟨_, (State.ctxRun_done h (hf.trans (pushEff_issues hy hlen hn h0 hfree hle hfits hrows hread))).trans ?_,
        Ctx.issues_pushes dst hslot hempty, Ctx.issues_full dst, Ctx.issues_part dst, (Ctx.issues_keeps dst).1⟩
      rw [(Ctx.issues_keeps dst).2]
    case stopped =>
      refine ⟨_, (State.ctxRun_turn h).trans ?_, (Ctx.issues_keeps dst).2, Ctx.issues_rest dst hpos,
        Ctx.issues_pushes dst hslot fun hz => absurd hz (by omega), fun hlt => (Ctx.issues_part dst hlt).1⟩
      rw [hf, pushEff_issues hy hlen hn h0 hfree hle hfits hrows hread]
      simp only [he, Bool.false_eq_true, if_false]
  case again =>
    exact ⟨t.pushed (s.windowOf t) (dst + (n - t.rest)) bytes, State.ctxRun_done h (hf.trans (pushEff_again hy hlen hn h0 hfits hrows hread)),
      rfl, rfl, t.lastSlot (s.windowOf t), Ctx.pushed_pushes _ _ _ fun _ => rfl⟩

end

/-! ## The source rows -/

theorem rowAddr_lt (a : Word48) (off : Nat) : rowAddr a off < 2 ^ 48 := Nat.mod_lt _ (by decide)

theorem length_chunks {α : Type} (k : Nat) : ∀ (n : Nat) (l : List α), (chunks k n l).length = n
  | 0, _ => rfl
  | n + 1, l => congrArg (· + 1) (length_chunks k n (l.drop k))

/-- The rows of an index list are as many as the shape names, and their addresses are those of rows. -/
theorem State.indexRows_ok {s u : State} {m x : Nat} {t : Ctx} {a b : Nat} {sh : Word48} {l : List (Option Nat)}
    (h : s.indexRows m x t a b sh = .ok (l, u)) : l.length = bitsOf sh 27 16 ∧ ∀ va, some va ∈ l → va < 2 ^ 48 := by
  simp only [State.indexRows] at h
  split at h
  · exact absurd h (by simp)
  · split at h
    · exact absurd h (by simp)
    · simp only [Except.ok.injEq, Prod.mk.injEq] at h
      obtain ⟨rfl, -⟩ := h
      refine ⟨by simp [length_chunks], fun va hva => ?_⟩
      obtain ⟨e, -, he⟩ := List.mem_map.1 hva
      split at he
      · exact absurd he (by simp)
      · rw [← Option.some_inj.1 he]
        exact rowAddr_lt _ _

/-! ## Landing -/

theorem State.writeLocal_frame (c : Nat) (sh : Bool) : ∀ (b : ByteList) (s : State) (off : Nat), ∃ m, s.writeLocal c sh off b = { s with mem := m }
    ∧ ∀ key, (∀ i, i < b.length → s.localKey c sh (off + i) ≠ some key) → memByte m key = memByte s.mem key
  | [], s, _ => ⟨s.mem, rfl, fun _ _ => rfl⟩
  | v :: r, s, off => by
    have hlater : ∀ {key}, (∀ i, i < (v :: r).length → s.localKey c sh (off + i) ≠ some key) →
        ∀ i, i < r.length → s.localKey c sh (off + 1 + i) ≠ some key := fun h i hi => by
      rw [show off + 1 + i = off + (i + 1) by omega]
      exact h (i + 1) (Nat.succ_lt_succ hi)
    rw [State.writeLocal]
    cases hk : s.localKey c sh off with
    | none =>
      obtain ⟨m, hm, hother⟩ := State.writeLocal_frame c sh r s (off + 1)
      exact ⟨m, hm, fun key h => hother key (hlater h)⟩
    | some k =>
      obtain ⟨m, hm, hother⟩ := State.writeLocal_frame c sh r { s with mem := memSet s.mem k v } (off + 1)
      refine ⟨m, hm, fun key h => (hother key (hlater h)).trans (memByte_set_other _ _ fun e => ?_)⟩
      exact h 0 (Nat.succ_pos _) (by rw [Nat.add_zero, hk, e])

theorem Core.latchCatch_bars (x : Core) (n k : Nat) : (x.latchCatch n k).bars = x.bars := by
  unfold Core.latchCatch
  split <;> rfl

theorem State.core_onCore_self (s : State) (c : Nat) (f : Core → Core) : (s.onCore c f).core c = f (s.core c) := State.core_setCore_self _ _ _

theorem Core.bar_latchCatch (x : Core) (n k : Nat) (b : CatchBar) : tabGet ⟨[], none⟩ ((x.setBar n b).latchCatch n k).bars n = b := by
  rw [Core.latchCatch_bars]
  exact tabGet_put_self _ _ _ _

theorem CatchSlot.arrive_eq (y : CatchSlot) (n : Nat) : y.arrive n
    = if y.arrived + n ≥ y.expected ∧ y.awaiting = false then { y with arrived := y.arrived + n, phase := !y.phase, awaiting := true }
      else { y with arrived := y.arrived + n } := by
  simp only [CatchSlot.arrive, Bool.not_eq_true']

/-- Settles O31: a push word by `State.push_ends`; a landing by its slot and the keys it writes; an end by what it frees. -/
theorem accessPushes : Obligations.AccessPushes := by
  unfold Obligations.AccessPushes
  refine ⟨fun s m x t d a b y h => ?push, fun s m x t p ht => ⟨fun hwf hp hfr hmse dst bs hbytes hne => ?land, fun hstop hp hfr hmse hrise => ?ends⟩⟩
  case push =>
    dsimp only
    refine ⟨fun hy => ?direct, fun hy => ?indexed⟩
    case direct =>
      obtain ⟨hlen, hrows, hstride⟩ := bitsOf_shape (t.read b)
      have hn : bitsOf (t.read b) 27 16 * ((t.read b).toNat % 2 ^ 16) = (t.read b).toNat / 2 ^ 16 % 2 ^ 12 * ((t.read b).toNat % 2 ^ 16) := by rw [hrows]
      have hends := State.push_ends (dst := (t.read d).toNat) (sh := t.read b)
        (rows := fun v => .ok ((List.range ((t.read b).toNat / 2 ^ 16 % 2 ^ 12)).map fun r =>
          some (((t.read a).toNat + r * ((t.read b).toNat / 2 ^ 28 % 2 ^ 20)) % 2 ^ 48), v))
        (f := fun m x t u => pushEff m x t (t.read d).toNat (t.read b)
          (fun v => .ok ((List.range (bitsOf (t.read b) 27 16)).map fun r => some (rowAddr (t.read a) (r * bitsOf (t.read b) 47 28)), v)) u)
        h (by simp only [hrows, hstride, rowAddr]) hlen hn hy fun l v hl hz => ?_
      · exact hends
      · obtain ⟨rfl, rfl⟩ := Prod.mk.inj (Except.ok.inj hl)
        refine State.pushRows_empty (by simpa using hz) fun va hva => ?_
        obtain ⟨r, -, hr⟩ := List.mem_map.1 hva
        rw [← Option.some_inj.1 hr]
        exact Nat.mod_lt _ (by decide)
    case indexed =>
      obtain ⟨hlen, hrows, hstride⟩ := bitsOf_shape (t.read (b + 1))
      have hn : bitsOf (t.read (b + 1)) 27 16 * ((t.read (b + 1)).toNat % 2 ^ 16)
          = (t.read (b + 1)).toNat / 2 ^ 16 % 2 ^ 12 * ((t.read (b + 1)).toNat % 2 ^ 16) := by rw [hrows]
      refine State.push_ends (f := fun m x t u => pushEff m x t (t.read d).toNat (t.read (b + 1)) (fun v => v.indexRows m x t a b (t.read (b + 1))) u)
        h rfl hlen hn hy fun l v hl hz => ?_
      obtain ⟨hcount, hva⟩ := State.indexRows_ok hl
      exact State.pushRows_empty ((congrArg (· * _) hcount).trans (hn.trans hz)) hva
  case land =>
    have hk : Config.choice s.steps % t.pushes.length = 0 := by rw [hp]; exact Nat.mod_one _
    have hsrc : (p.bytes.headD (0, 0)).1 = dst := by
      rw [hbytes]
      cases bs with
      | nil => exact absurd rfl hne
      | cons v r => simp [List.mapIdx_cons]
    have hvals : p.bytes.map (·.2) = bs := by
      rw [hbytes]
      exact List.ext_getElem (by simp) fun i h1 h2 => by simp
    rw [exec_pushLand, execPushLand, ht]
    dsimp only
    rw [hk, hp]
    dsimp only [List.getElem?_cons_zero]
    rw [hfr, hmse, hsrc, hvals]
    obtain ⟨mem, hmem, hother⟩ := State.writeLocal_frame t.core false bs s ((s.core t.core).spBase + dst)
    refine ⟨_, rfl, ?_, fun i y hy => ?_, fun key hkey => ?_⟩
    · rw [State.putLocal, hmem]
      exact tabFind_put_self _ _ _
    · rw [State.putLocal, hmem, State.core_onCore_self, Core.bar, Core.bar_latchCatch]
      refine (List.getElem?_mapIdx ..).trans ((congrArg (Option.map _) hy).trans (congrArg some ?_))
      rw [← CatchSlot.arrive_eq]
      by_cases hi : i = p.slot
      · exact (if_pos hi).trans (if_neg (not_not_intro hi)).symm
      · exact (if_neg hi).trans (if_pos hi).symm
    · rw [State.putLocal, hmem]
      exact hother key hkey
  case ends =>
    rw [exec_contextEnd, execContextEnd, ht]
    dsimp only
    rw [hstop, hp, hfr, hmse]
    have hbar : (((s.disown (· == .context m x)).onCore t.core fun z => z.setBar t.bar { z.bar t.bar with stream := none }).core t.core).bar t.bar
        = { (s.core t.core).bar t.bar with stream := none } := by
      rw [State.core_onCore_self]
      exact tabGet_put_self _ _ _ _
    have hstream := congrArg CatchBar.stream hbar
    have hslots := congrArg CatchBar.slots hbar
    exact ⟨_, rfl, tabFind_del_self _ hrise, hstream, hslots, rfl⟩

end Sys2Proof.Machine

/-! SUPPORT. What ends of parts, queue errors, erasures and records leave of the module, and alarms (R400, R437, R456 to R460). -/
namespace Sys2Proof.Machine

/-- Keel's state without the root of the counter tree, which every access to HBM moves. -/
def Keel.rootless (k : Keel) : Keel := { k with root := [] }

/-- A state without what units, launch parts, queues, memory, accesses and records hold. -/
def State.aside (s : State) : State :=
  { s.apart with ctxs := [], parts := [], dies := [], traps := [], sysreqs := [], replies := [], posted := [], poisoned := [] }

/-- A change of units, parts, queues, dies, memory and records: every other field is equal by `congrArg` of `rest`. -/
structure State.OnlyWork (s u : State) : Prop where
  rest : u.aside = s.aside

namespace State.OnlyWork

theorem refl (s : State) : s.OnlyWork s := ⟨rfl⟩
theorem trans {s t u : State} (h : s.OnlyWork t) (g : t.OnlyWork u) : s.OnlyWork u := ⟨g.rest.trans h.rest⟩

section
variable {s u : State} (h : s.OnlyWork u)
include h

theorem keel : u.keel.rootless = s.keel.rootless := have e := congrArg State.keel h.rest; e
theorem vfs : u.vfs = s.vfs := have e := congrArg State.vfs h.rest; e
theorem ide : u.ide = s.ide := have e := congrArg State.ide h.rest; e
theorem vf (v : Nat) : u.vf v = s.vf v := by rw [State.vf, h.vfs, State.vf]

end

end State.OnlyWork

theorem State.OnlyReports.onlyWork {s u : State} (h : s.OnlyReports u) : s.OnlyWork u :=
  ⟨congrArg (fun t : State =>
    ({ t with ctxs := [], parts := [], dies := [], traps := [], sysreqs := [], replies := [], posted := [], poisoned := [] } : State)) h.rest⟩

theorem State.foldl_onlyWork {α : Type} (f : State → α → State) (h : ∀ s a, State.OnlyWork s (f s a)) (l : List α) (s : State) :
    s.OnlyWork (l.foldl f s) := by
  induction l generalizing s with
  | nil => exact .refl s
  | cons a l ih => exact (h s a).trans (ih (f s a))

theorem State.onQueue_onlyWork (s : State) (q : Nat) (f : Queue → Queue) : s.OnlyWork (s.onQueue q f) := ⟨rfl⟩
theorem State.onCore_onlyWork (s : State) (c : Nat) (f : Core → Core) : s.OnlyWork (s.onCore c f) := ⟨rfl⟩
theorem State.onPart_onlyWork (s : State) (p : Nat) (f : Part → Part) : s.OnlyWork (s.onPart p f) := ⟨rfl⟩
theorem State.disown_onlyWork (s : State) (f : ReqFor → Bool) : s.OnlyWork (s.disown f) := ⟨rfl⟩
theorem State.errorRecord_onlyWork (s : State) (e : ErrRec) : s.OnlyWork (s.errorRecord e) := (s.errorRecord_onlyReports e).onlyWork

theorem State.freePart_onlyWork (s : State) (p : Nat) : s.OnlyWork (s.freePart p) := by
  have hcores : s.OnlyWork ((s.part p).cores.foldl (fun u c => u.onCore c Core.freed) (s.disown (s.partOwns p))) :=
    (s.disown_onlyWork _).trans (foldl_onlyWork _ (fun u c => u.onCore_onlyWork c _) _ _)
  exact hcores.trans ⟨rfl⟩

theorem State.endPart_onlyWork (s : State) (p : Nat) (x : Cause) (seq : Nat) : s.OnlyWork (s.endPart p x seq) := by
  unfold State.endPart
  have hslot : ∀ t : State, s.OnlyWork t → s.OnlyWork (((t.freePart p).onPart p fun y => { y with phase := .ended, cores := [], progs := [] }).abortPacket
      (s.part p).queue (s.part p).pid x (some seq)) := fun t ht => ht.trans ((t.freePart_onlyWork p).trans ⟨rfl⟩)
  exact hslot _ (by split <;> exact ⟨rfl⟩)

theorem State.queueError_onlyWork (s : State) (q cause seq : Nat) : s.OnlyWork (s.queueError q cause seq) := s.onQueue_onlyWork q _

theorem State.OnlyWork.poolWords (s : State) (m : Memory) (l : NatList) : s.OnlyWork { s with mem := m, poisoned := l } := ⟨rfl⟩

theorem State.zeroSlice_onlyWork (s : State) (c : Nat) : s.OnlyWork (s.zeroSlice c) := by
  unfold State.zeroSlice
  exact .trans (.poolWords s _ _) (onCore_onlyWork _ c _)

theorem State.zeroSlices_onlyWork (s : State) (f : Nat → Bool) : s.OnlyWork (s.zeroSlices f) := by
  unfold State.zeroSlices
  refine foldl_onlyWork _ (fun t p => ?_) _ s
  exact State.zeroSlice_onlyWork t p.1

/-! ## TDIs that move to ERROR (R459, R460) -/

/-- Besides the state of its VF an error of a TDI changes work and records alone. -/
theorem State.tdiError_onlyWork (s : State) (v reason extra : Nat) (h : (s.vf v).tdi ≠ .unlocked) (h1 : (s.vf v).tdi ≠ .error) :
    (s.setVf v { s.vf v with tdi := .error }).OnlyWork (s.tdiError v reason extra) := by
  rw [State.tdiError, if_neg (not_or.2 ⟨h, h1⟩)]
  refine .trans (foldl_onlyWork _ (fun t q => ?_) _ _) (.trans (foldl_onlyWork _ (fun t q => ?_) _ _) (State.errorRecord_onlyWork _ _))
  · exact ⟨rfl⟩
  · exact foldl_onlyWork _ (fun u p => u.endPart_onlyWork p _ _) _ _

theorem State.tdiError_idle (s : State) {v reason extra : Nat} (h : (s.vf v).tdi = .unlocked ∨ (s.vf v).tdi = .error) :
    s.tdiError v reason extra = s := if_pos h

theorem State.tdiError_keeps (s : State) (v reason extra : Nat) : (s.tdiError v reason extra).keel.rootless = s.keel.rootless ∧ (s.tdiError v reason extra).ide = s.ide := by
  by_cases h : (s.vf v).tdi = .unlocked ∨ (s.vf v).tdi = .error
  · rw [s.tdiError_idle h]
    exact ⟨rfl, rfl⟩
  · obtain ⟨h0, h1⟩ := not_or.1 h
    have hwork := s.tdiError_onlyWork v reason extra h0 h1
    exact ⟨hwork.keel, hwork.ide⟩

theorem State.vf_setVf_other (s : State) {v w : Nat} (x : Vf) (h : w ≠ v) : (s.setVf v x).vf w = s.vf w := tabGet_put_other _ _ _ h

theorem State.tdiError_vf (s : State) (v reason extra : Nat) (w : Nat) : ((s.tdiError v reason extra).vf w).tdi
    = if w = v ∧ (s.vf v).tdi ≠ .unlocked then .error else (s.vf w).tdi := by
  by_cases h : (s.vf v).tdi = .unlocked ∨ (s.vf v).tdi = .error
  · rw [s.tdiError_idle h]
    by_cases hw : w = v
    · subst hw
      rcases h with h | h <;> simp [h]
    · simp [hw]
  · obtain ⟨h0, h1⟩ := not_or.1 h
    rw [(s.tdiError_onlyWork v reason extra h0 h1).vf]
    by_cases hw : w = v
    · subst hw
      rw [State.vf_setVf_self, if_pos ⟨rfl, h0⟩]
    · rw [State.vf_setVf_other _ _ hw, if_neg fun hc => hw hc.1]

/-- Of several TDIs that move to ERROR, each that is not unlocked is then in ERROR, and no other changes. -/
theorem State.tdiErrors_vf (reason extra : Nat) (w : Nat) : ∀ (l : List Nat) (s : State),
    ((l.foldl (fun u v => u.tdiError v reason extra) s).vf w).tdi = if w ∈ l ∧ (s.vf w).tdi ≠ .unlocked then .error else (s.vf w).tdi
  | [], s => by simp
  | v :: r, s => by
    rw [List.foldl_cons, State.tdiErrors_vf reason extra w r, State.tdiError_vf]
    by_cases hv : w = v
    · subst hv
      by_cases hu : (s.vf w).tdi = .unlocked <;> simp [hu]
    · simp [hv]

theorem State.tdiErrors_keep (reason extra : Nat) : ∀ (l : List Nat) (s : State),
    (l.foldl (fun u v => u.tdiError v reason extra) s).keel.rootless = s.keel.rootless ∧ (l.foldl (fun u v => u.tdiError v reason extra) s).ide = s.ide
  | [], _ => ⟨rfl, rfl⟩
  | v :: r, s => by
    obtain ⟨hkeel, hide⟩ := State.tdiErrors_keep reason extra r (s.tdiError v reason extra)
    obtain ⟨hkeel1, hide1⟩ := s.tdiError_keeps v reason extra
    exact ⟨hkeel.trans hkeel1, hide.trans hide1⟩

theorem State.tdiErrorAll_keel (s : State) (reason extra : Nat) : (s.tdiErrorAll reason extra).keel.rootless = s.keel.rootless := by
  rw [State.tdiErrorAll, ← List.foldl_map (f := Prod.fst) (g := fun (u : State) v => u.tdiError v reason extra)]
  exact (State.tdiErrors_keep reason extra _ s).1

/-! ## Erasure (R457) -/

/-- What an erasure leaves of Keel (R457). -/
theorem State.erase_keel (s : State) (all : Bool) : (s.erase all).keel.rootless = { s.keel.rootless with
    alloc := s.keel.alloc.filter fun k => !(all || k != 0), retiring := [], erased := true, sessions := if all then [] else s.keel.sessions
    halted := s.keel.halted || all } := by
  let s1 : State := { s with keel := { s.keel with
    alloc := s.keel.alloc.filter fun k => !(all || k != 0), retiring := [], erased := true, sessions := if all then [] else s.keel.sessions } }
  have hwork : ∀ (parts qs : List Nat) (c : Cause) (seq cause : Nat) (gone : Nat → Bool),
      s1.OnlyWork (qs.foldl (fun t q => t.queueError q cause seq) ((parts.foldl (fun t p => t.endPart p c seq) s1).zeroSlices gone)) :=
    fun parts qs c seq cause gone => .trans (foldl_onlyWork _ (fun t p => t.endPart_onlyWork p c seq) parts s1)
      (.trans (zeroSlices_onlyWork _ gone) (foldl_onlyWork _ (fun t q => t.queueError_onlyWork q cause seq) qs _))
  have hkeel : ∀ (t : State) (e : ErrRec), s1.OnlyWork t → ((t.tdiErrorAll 3 0).errorRecord e).keel.rootless = s1.keel.rootless := fun t e ht => by
    rw [(State.errorRecord_onlyWork _ e).keel, State.tdiErrorAll_keel, ht.keel]
  exact congrArg (fun k : Keel => { k with halted := k.halted || all }) (hkeel _ _ (hwork ..))

/-- Settles O52: an alarm by its definition, an erasure by what it leaves of Keel, an IDE failure by the states of its TDIs. -/
theorem alarms : Obligations.Alarms := by
  unfold Obligations.Alarms
  refine ⟨fun s n hboot hhalt => ?alarm, fun s => ?erase, fun s n hboot => ?ide⟩
  case alarm =>
    have hopen : s.doeOpen = true := by rw [State.doeOpen, hboot, hhalt]; rfl
    dsimp only
    rw [exec_tamper, exec_glitch, execTamper, execGlitch, if_pos hopen, if_pos hopen]
    exact ⟨rfl, rfl⟩
  case erase =>
    have hall := s.erase_keel true
    have hsome := s.erase_keel false
    have halloc : (s.erase false).keel.alloc = s.keel.alloc.filter fun k => !(false || k != 0) := congrArg Keel.alloc hsome
    refine ⟨(congrArg Keel.alloc hall).trans (by simp), congrArg Keel.sessions hall, (congrArg Keel.halted hall).trans (by simp),
      (congrArg Keel.halted hsome).trans (by simp), fun k hk => ?_⟩
    rw [halloc] at hk
    simpa using (List.mem_filter.1 hk).2
  case ide =>
    rw [exec_ideFailure, execIdeFailure]
    dsimp only
    rw [hboot]
    let t : State := { (s.errorRecord (keelRecord 0xB05 0 n 0)) with ide := if s.ide.contains n then s.ide else s.ide ++ [n] }
    have hwork := s.errorRecord_onlyWork (keelRecord 0xB05 0 n 0)
    have hvfs : t.vfs = s.vfs := hwork.vfs
    let l := (t.vfs.filter fun p => p.2.tdi == .run && p.2.stream == n).map (·.1)
    have hfold : (t.vfs.filter fun p => p.2.tdi == .run && p.2.stream == n).foldl (fun u p => u.tdiError p.1 2 n) t
        = l.foldl (fun u v => u.tdiError v 2 n) t := (List.foldl_map (g := fun (u : State) v => u.tdiError v 2 n)).symm
    refine ⟨_, rfl, ?_, fun p hp hrun hstream hfind => ?_⟩
    · have hide : (l.foldl (fun u v => u.tdiError v 2 n) t).ide = if s.ide.contains n then s.ide else s.ide ++ [n] := (State.tdiErrors_keep 2 n l t).2
      have hmem : n ∈ if s.ide.contains n then s.ide else s.ide ++ [n] := by
        split
        · exact List.contains_iff_mem.1 ‹_›
        · simp
      rw [← hide, ← hfold] at hmem
      exact hmem
    · have htdi : (t.vf p.1).tdi = .run := (congrArg Vf.tdi (hwork.vf p.1)).trans (by rw [State.vf, tabGet, hfind, ← hrun]; rfl)
      refine (congrArg (fun u : State => (u.vf p.1).tdi) hfold).trans ((State.tdiErrors_vf 2 n p.1 l t).trans (if_pos ⟨?_, ?_⟩))
      · exact List.mem_map.2 ⟨p, List.mem_filter.2 ⟨hvfs ▸ hp, by simp [hrun, hstream]⟩, rfl⟩
      · rw [htdi]
        decide

end Sys2Proof.Machine

/-! SUPPORT. Operations of a queue (R341, R342, R356, R437, R439). -/
namespace Sys2Proof.Machine

/-- Clearing a bit leaves every other one. -/
theorem getLsbD_setBits_clear (r : Word64) : (setBits r 0 0 0).getLsbD 0 = false ∧ ∀ i, i ≠ 0 → (setBits r 0 0 0).getLsbD i = r.getLsbD i := by
  have hmask : setBits r 0 0 0 = r &&& ~~~1#64 := by simp [setBits]
  refine ⟨by simp [setBits], fun i hi => ?_⟩
  by_cases h64 : i < 64
  · rw [hmask, BitVec.getLsbD_and, BitVec.getLsbD_not, BitVec.getLsbD_one]
    simp [h64, hi]
  · rw [BitVec.getLsbD_of_ge _ _ (by omega), BitVec.getLsbD_of_ge _ _ (by omega)]

theorem State.part_onPart_self (s : State) (p : Nat) (f : Part → Part) : (s.onPart p f).part p = f (s.part p) := tabGet_put_self _ _ _ _

theorem State.queue_onQueue_self (s : State) (q : Nat) (f : Queue → Queue) : (s.onQueue q f).queue q = f (s.queue q) := tabGet_put_self _ _ _ _

section
variable {s : State} {p reason n : Nat} (hrun : (s.part p).phase = .running) (hfrozen : s.partFrozen p = false)
include hrun hfrozen

/-- A running part that is asked for a save is saved into the lowest free slot of its queue (R322). -/
theorem State.askSave_decides (hslot : (s.queue (s.part p).queue).freeSlot = some n) :
    s.askSave p reason = (s.onPart p fun y => { y with asked := none }).decideSave p reason n := by
  rw [State.askSave, if_pos hrun, hfrozen]
  exact (if_neg Bool.false_ne_true).trans (by rw [hslot])

end

theorem State.decideSave_part (s : State) (p reason n : Nat) : (s.decideSave p reason n).part p = { s.part p with
    phase := .saving, reason := reason, slot := n, image := none, savedTick := s.tick, savedCycle := s.cycle.toNat
    forced := (s.part p).forced || reason == 2, probe := none } :=
  State.part_setPart_self s p _

theorem State.decideSave_queue (s : State) (p reason n : Nat) : (s.decideSave p reason n).queue (s.part p).queue
    = { s.queue (s.part p).queue with used := (s.queue (s.part p).queue).used ||| 2 ^ n } := State.queue_onQueue_self _ _ _

/-- Settles O43: each operation by its branch; PREEMPT of a running part by the save decision. -/
theorem queueOperations : Obligations.QueueOperations := by
  unfold Obligations.QueueOperations
  intro s q hreach
  dsimp only
  simp only [exec_queueEnable, execQueueEnable, exec_queueDisable, execQueueDisable, exec_qckrel, execQckrel, exec_qerrRetry, execQerrRetry,
    exec_qerrSkip, execQerrSkip, exec_preempt, execPreempt, hreach, if_true]
  refine ⟨fun hen => ?enable, fun hen => ?enabled, ?disable, fun m => rfl, fun herr => ?retry, fun herr => ?noError, fun heq => ?caughtUp,
    fun herr hne => ?skip, fun hmode => ?refused, fun hmode => ?preempt⟩
  case enable => rw [State.opQueueEnable, hen]; rfl
  case enabled => rw [State.opQueueEnable, hen]; rfl
  case disable => exact ⟨setBits (s.queue q).qctl 0 0 0, rfl, getLsbD_setBits_clear _⟩
  case retry => rw [State.opQerrRetry, herr]; rfl
  case noError =>
    rw [State.opQerrRetry, State.opQerrSkip, herr]
    exact ⟨rfl, rfl⟩
  case caughtUp =>
    rw [State.opQerrSkip]
    exact congrArg _ (if_pos (by simp [heq]))
  case skip =>
    have hskip : s.opQerrSkip q = s.skipPacket q := if_neg (by simp [herr, hne])
    rw [hskip, State.skipPacket]
    dsimp only
    refine ⟨fun b hb => ?_, fun c hc hw => ?_, fun c hc hw => ?_⟩
    · rw [hb]; rfl
    · rw [hc]; simp only [hw, if_true]; rfl
    · rw [hc]; simp only [hw, Bool.false_eq_true, if_false]
  case refused => rw [State.opPreempt, hmode]; rfl
  case preempt =>
    rw [State.opPreempt, if_pos hmode]
    refine ⟨rfl, fun p n hparts hq hrun hfrozen hslot => ⟨_, rfl, ?_⟩⟩
    rw [hparts, List.foldl_cons, List.foldl_nil]
    let t := s.onPart p fun y => { y with hosted := y.hosted || y.phase == .running || y.phase == .setUp || y.phase == .resuming }
    have ht : t.part p = { s.part p with hosted := true } := by
      rw [State.part_onPart_self]
      simp [hrun]
    have hfrozen' : t.partFrozen p = false := by rw [State.partFrozen, ht]; exact hfrozen
    rw [State.askSave_decides (n := n) (by rw [ht]; exact hrun) hfrozen' (by rw [ht, hq]; exact hslot)]
    let t1 := t.onPart p fun y => { y with asked := none }
    have ht1 : t1.part p = { s.part p with hosted := true, asked := none } := by rw [State.part_onPart_self, ht]
    have hpart := t1.decideSave_part p 0 n
    have hqueue := t1.decideSave_queue p 0 n
    rw [ht1] at hpart hqueue
    have hq1 : ({ s.part p with hosted := true, asked := none } : Part).queue = q := hq
    rw [hq1] at hqueue
    exact ⟨congrArg Part.phase hpart, congrArg Part.hosted hpart, congrArg Part.reason hpart, congrArg Part.slot hpart, congrArg Queue.used hqueue⟩

end Sys2Proof.Machine

/-! SUPPORT. Invalidations of the TLBs and host translations (R347, R348, R416, R429, R444). -/
namespace Sys2Proof.Machine

theorem State.cachePage_mem (s : State) (p : Nat) : p ∈ (s.cachePage p).xlat.cache := by
  unfold State.cachePage
  dsimp only
  split
  · exact List.contains_iff_mem.1 ‹_›
  · split <;> exact List.mem_cons_self

/-- What a TLB keeps meets no invalidation. -/
theorem not_invalidates_of_mem {r : Nat × Nat × Nat} {l : List TlbEntry} {e : TlbEntry} (h : e ∈ l.filter fun e => !invalidates r e) :
    invalidates r e = false := by
  simpa using (List.mem_filter.1 h).2

/-- Settles O48: each operation by its branch, what is left in a table by its filter. -/
theorem invalidations : Obligations.Invalidations := by
  unfold Obligations.Invalidations
  refine ⟨⟨fun s hboot => ?queued, fun s r rest hq hopen => ?complete⟩, fun s a hp => ?ats, fun s a hp => ?pri, fun s a => ⟨fun hp r => ?noAts, fun hp r => ?noPri⟩,
    fun s a n => ?request, fun s p r hi hreq => ?answered⟩
  case queued =>
    dsimp only
    rw [exec_tlbInvalidateRoot, execTlbInvalidateRoot, exec_tlbInvalidatePage, execTlbInvalidatePage, if_pos hboot, if_pos hboot]
    refine ⟨fun k hk => ?_, rfl, rfl⟩
    rw [exec_tlbInvalidateAll, execTlbInvalidateAll, if_pos ⟨hboot, hk⟩]
    rcases hk with rfl | rfl <;> rfl
  case complete =>
    rw [exec_tlbinvComplete, execTlbinvComplete, hq]
    dsimp only
    rw [hopen]
    refine ⟨_, rfl, rfl, rfl, rfl, fun p hp e he => ?_, fun p hp e he => ?_, fun p hp e he => ?_, fun p hp => ?_⟩
    · obtain ⟨q, -, rfl⟩ := List.mem_map.1 hp
      exact not_invalidates_of_mem he
    · obtain ⟨q, -, rfl⟩ := List.mem_map.1 hp
      exact not_invalidates_of_mem he
    · obtain ⟨q, -, rfl⟩ := List.mem_map.1 hp
      exact not_invalidates_of_mem he
    · obtain ⟨q, -, rfl⟩ := List.mem_map.1 hp
      rfl
  case ats =>
    dsimp only
    have hasked : ¬(!s.xlat.pending.contains (a / 4096)) = true := by rw [hp]; exact Bool.false_ne_true
    rw [exec_atsCompletion, exec_atsCompletion, exec_atsCompletion]
    exact ⟨if_neg hasked, State.cachePage_mem _ _, if_neg hasked, if_neg hasked⟩
  case pri =>
    dsimp only
    have hasked : ¬(!s.xlat.paged.contains (a / 4096)) = true := by rw [hp]; exact Bool.false_ne_true
    rw [exec_priResponse, exec_priResponse]
    exact ⟨if_neg hasked, if_neg hasked⟩
  case noAts =>
    rw [exec_atsCompletion, execAtsCompletion]
    exact if_pos (by rw [hp]; rfl)
  case noPri =>
    rw [exec_priResponse, execPriResponse]
    exact if_pos (by rw [hp]; rfl)
  case request =>
    refine ⟨_, rfl, fun p => ?_, rfl⟩
    simp only [List.mem_filter, Bool.not_eq_true', Bool.and_eq_false_iff, decide_eq_false_iff_not, Decidable.not_and_iff_not_or_not]
  case answered =>
    rw [exec_atsInvalidationComplete, execAtsInvalidationComplete, hi]
    exact if_neg (by rw [hreq]; exact Bool.false_ne_true)

end Sys2Proof.Machine

/-! SUPPORT. Link ports, flits and the time root (R362, R363, R366, R367, R451). -/
namespace Sys2Proof.Machine

/-! ## Ports -/

theorem State.nport_setPort (s : State) (n : Nat) (x : Port) : (s.setPort n x).nport n = x := tabGet_put_self _ _ _ _
theorem State.nport_setPort_ne (s : State) {n m : Nat} (x : Port) (h : m ≠ n) : (s.setPort n x).nport m = s.nport m := tabGet_put_other _ _ _ h
theorem State.setPort_again (s : State) (n : Nat) (x y : Port) : (s.setPort n x).setPort n y = s.setPort n y := by
  unfold State.setPort
  dsimp only
  rw [tabPut_put]

theorem State.flushUnsent_none {s : State} (h : s.unsent = []) : s.flushUnsent = s := by
  rw [State.flushUnsent, h, List.foldl_nil, ← h]

/-- Messages sent one after another are appended to the port in their order. -/
theorem State.foldl_send {α : Type} (f : α → PortMsg) : ∀ (l : List α) (s : State), l.foldl (fun t a => t.send (f a)) s = { s with port := s.port ++ l.map f }
  | [], s => by simp
  | a :: r, s => by
    rw [List.foldl_cons, State.foldl_send f r]
    simp [State.send, List.append_assoc]

theorem State.OnlyRecords.ports {s u : State} (h : s.OnlyRecords u) : u.ports = s.ports := have e := congrArg State.ports h.rest; e
theorem State.OnlyRecords.unsent {s u : State} (h : s.OnlyRecords u) : u.unsent = s.unsent := have e := congrArg State.unsent h.rest; e
theorem State.OnlyRecords.nport {s u : State} (h : s.OnlyRecords u) (n : Nat) : u.nport n = s.nport n := by rw [State.nport, h.ports, State.nport]

/-! ## A port that goes down (R451) -/

/-- The port after it has gone down. -/
def Port.downed (p : Port) (reason : Nat) : Port :=
  { p with up := false, lanes := 0, reason := if p.pctl = 0 then 0 else reason, downs := 0, unacked := [], moved := 0 }

/-- What its flits become: the other up ports of its die are given. -/
def State.giveUp (s1 : State) (n : Nat) (l : List Flit) : List Nat → State
  | [] => { s1 with unsent := (l.map fun (f : Flit) => (portDie n, f.dest, f.msg.addr, f.msg)) ++ s1.unsent }
  | m :: _ => if l.isEmpty then s1 else ((s1.sendFlits m l).setPort m { (s1.sendFlits m l).nport m with moved := ((s1.sendFlits m l).nport m).txSeq })

theorem State.linkDown_records (s : State) (n r : Nat) :
    ((s.setPort n ((s.nport n).downed r)).giveUp n (s.nport n).unacked ((s.setPort n ((s.nport n).downed r)).upPorts (portDie n))).OnlyRecords (s.linkDown n r) := by
  unfold State.linkDown
  refine .trans ?_ (State.errorRecord_onlyRecords _ _ ?_)
  · change State.OnlyRecords _ (match (s.setPort n ((s.nport n).downed r)).upPorts (portDie n) with
      | [] => _
      | _ :: _ => _)
    cases (s.setPort n ((s.nport n).downed r)).upPorts (portDie n) <;> exact .refl _
  · rfl

/-! ## The other ports of a die (R364) -/

theorem State.upPorts_none {s : State} {d : Nat} (h : ∀ j, j < 36 → portDie j = d → (s.nport j).up = false) : s.upPorts d = [] := by
  rw [State.upPorts, List.filter_eq_nil_iff]
  intro j hj hc
  obtain ⟨hdie, hup⟩ := Bool.and_eq_true_iff.1 hc
  rw [h j (List.mem_range.1 hj) (beq_iff_eq.1 hdie)] at hup
  exact Bool.false_ne_true hup

theorem State.upPorts_first {s : State} {m : Nat} (hm : m < 36) (hup : (s.nport m).up = true)
    (hbefore : ∀ j, j < m → portDie j = portDie m → (s.nport j).up = false) : ∃ l, s.upPorts (portDie m) = m :: l := by
  have hhead : (s.upPorts (portDie m)).head? = some m := by
    rw [State.upPorts, List.head?_filter, List.find?_range_eq_some]
    refine ⟨by simp [hup], List.mem_range.2 hm, fun j hj => ?_⟩
    by_cases hdie : portDie j = portDie m
    · simp [hbefore j hj hdie]
    · simp [hdie]
  exact List.head?_eq_some_iff.1 hhead

/-! ## Flits sent again -/

theorem State.nport_sendFlits (s : State) (m : Nat) (l : List Flit) : (s.sendFlits m l).nport m = { s.nport m with
    txSeq := (s.nport m).txSeq + l.length, unacked := (s.nport m).unacked ++ l.mapIdx fun i (f : Flit) => { f with seq := (s.nport m).txSeq + i } } := by
  rw [State.sendFlits, State.foldl_send]
  exact State.nport_setPort _ _ _

theorem State.nport_sendFlits_ne (s : State) {m n : Nat} (l : List Flit) (h : n ≠ m) : (s.sendFlits m l).nport n = s.nport n := by
  rw [State.sendFlits, State.foldl_send]
  exact State.nport_setPort_ne _ _ h

theorem State.unsent_sendFlits (s : State) (m : Nat) (l : List Flit) : (s.sendFlits m l).unsent = s.unsent := by
  rw [State.sendFlits, State.foldl_send]
  rfl

theorem map_msg_mapIdx (l : List Flit) (k : Nat) : (l.mapIdx fun i (f : Flit) => { f with seq := k + i }).map (·.msg) = l.map (·.msg) :=
  List.ext_getElem (by simp) fun i h1 h2 => by simp

section
variable (s1 : State) (n m : Nat) (l : List Flit) (rest : List Nat)

theorem State.giveUp_msgs : ((s1.giveUp n l (m :: rest)).nport m).unacked.map (·.msg) = (s1.nport m).unacked.map (·.msg) ++ l.map (·.msg) := by
  unfold State.giveUp
  cases l with
  | nil => simp
  | cons f r =>
    refine (congrArg (fun p : Port => p.unacked.map (·.msg)) (State.nport_setPort _ _ _)).trans ?_
    dsimp only
    rw [State.nport_sendFlits, List.map_append, map_msg_mapIdx]

theorem State.giveUp_unsent : (s1.giveUp n l (m :: rest)).unsent = s1.unsent := by
  unfold State.giveUp
  cases l with
  | nil => rfl
  | cons f r => exact s1.unsent_sendFlits m (f :: r)

theorem State.giveUp_nport {others : List Nat} (h : n ∉ others) : (s1.giveUp n l others).nport n = s1.nport n := by
  cases others with
  | nil => rfl
  | cons m rest =>
    have hne : n ≠ m := fun e => h (e ▸ List.mem_cons_self)
    unfold State.giveUp
    cases l with
    | nil => rfl
    | cons f r => exact (State.nport_setPort_ne _ _ hne).trans (s1.nport_sendFlits_ne _ hne)

end

/-- What a port leaves that goes down (R451). -/
theorem State.linkDown_leaves (s : State) (n r : Nat) :
    ((s.linkDown n r).nport n = (s.nport n).downed r)
    ∧ ((∀ m, m < 36 → m ≠ n → portDie m = portDie n → (s.nport m).up = false) →
      (s.linkDown n r).unsent = ((s.nport n).unacked.map fun (f : Flit) => (portDie n, f.dest, f.msg.addr, f.msg)) ++ s.unsent)
    ∧ (∀ m, m < 36 → m ≠ n → portDie m = portDie n → (s.nport m).up = true → (∀ j, j < m → j ≠ n → portDie j = portDie n → (s.nport j).up = false) →
      ((s.linkDown n r).nport m).unacked.map (·.msg) = (s.nport m).unacked.map (·.msg) ++ (s.nport n).unacked.map (·.msg)
        ∧ (s.linkDown n r).unsent = s.unsent) := by
  have hrec := s.linkDown_records n r
  generalize hs1 : s.setPort n ((s.nport n).downed r) = s1 at hrec
  have hself : s1.nport n = (s.nport n).downed r := by rw [← hs1, State.nport_setPort]
  have hother : ∀ j, j ≠ n → s1.nport j = s.nport j := fun j hj => by rw [← hs1, State.nport_setPort_ne _ _ hj]
  have hunsent : s1.unsent = s.unsent := by rw [← hs1]; rfl
  have hdown : (s1.nport n).up = false := by rw [hself]; rfl
  refine ⟨?_, fun hnone => ?_, fun m hm hne hdie hup hbefore => ?_⟩
  · rw [hrec.nport, State.giveUp_nport, hself]
    intro hmem
    simp [State.upPorts, hdown] at hmem
  · have hports : s1.upPorts (portDie n) = [] := State.upPorts_none fun j hj hd => by
      by_cases hjn : j = n
      · rw [hjn, hdown]
      · rw [hother j hjn, hnone j hj hjn hd]
    rw [hrec.unsent, hports, ← hunsent]
    rfl
  · obtain ⟨rest, hports⟩ := State.upPorts_first (s := s1) hm (by rw [hother m hne, hup]) fun j hj hd => by
      by_cases hjn : j = n
      · rw [hjn, hdown]
      · rw [hother j hjn, hbefore j hj hjn (hd.trans hdie)]
    rw [hdie] at hports
    rw [hrec.nport, hrec.unsent, hports, State.giveUp_msgs, State.giveUp_unsent, hother m hne]
    exact ⟨rfl, hunsent⟩

/-! ## Flits that arrive (R362, R366) -/

section
variable {s : State} {n : Nat} (hn : n < 36) (hup : (s.nport n).up = true) (fec : Nat)
include hn hup

/-- The port after the corrected beats of a flit have been counted. -/
def Port.corrected (p : Port) (fec : Nat) : Port := { p with corr := min (p.corr + fec) (2 ^ 32 - 1) }

omit hn hup in
theorem State.nport_countFec : (s.countFec n fec).nport n = (s.nport n).corrected fec := State.nport_setPort _ _ _

omit hn hup in
theorem State.countFec_setPort (p : Port) : (s.countFec n fec).setPort n p = s.setPort n p := s.setPort_again n _ p

theorem State.receives {good : Bool} {q : Nat} {w : FlitType} {u : State} (hu : ∀ t, t = s.countFec n fec → (if !good then t.badFlit n q
      else match w with
        | .data dest _ msgs => t.takeFlit n q dest msgs
        | .ack below => t.ackFlits n below
        | .replay a => t.replayFlits n a) = u) : execFlitReceive n good ⟨fec, q, w⟩ s = .next u := by
  rw [← hu _ rfl]
  unfold execFlitReceive
  refine (if_neg (not_or.2 ⟨Nat.not_le.2 hn, by simp [hup]⟩)).trans ?_
  cases good <;> cases w <;> rfl

/-- A flit whose CRC fails is counted and asked for again. -/
theorem State.receives_bad (q : Nat) (w : FlitType) : execFlitReceive n false ⟨fec, q, w⟩ s
    = .next ((s.setPort n { (s.nport n).corrected fec with crc := satInc ((s.nport n).corrected fec).crc }).send (.retransmit n q)) := by
  refine State.receives hn hup fec fun t ht => ?_
  subst ht
  refine (if_pos rfl).trans ?_
  rw [State.badFlit, State.nport_countFec]
  dsimp only
  rw [State.countFec_setPort]

/-- A flit of this module in its position is taken when all its messages are. -/
theorem State.receives_own (cls : Nat) (msgs : List FlitMsg) {u : State} (h : (s.countFec n fec).takeMsgs msgs = some u) :
    execFlitReceive n true ⟨fec, ((s.nport n).corrected fec).rxSeq, .data s.ownId cls msgs⟩ s
      = .next (u.setPort n { u.nport n with rxSeq := ((s.nport n).corrected fec).rxSeq + 1 }) := by
  refine State.receives hn hup fec fun t ht => (if_neg (by simp)).trans ?_
  subst ht
  refine (if_neg (by rw [State.nport_countFec]; simp)).trans ?_
  have hown : (if s.ownId = (s.countFec n fec).ownId then (s.countFec n fec).takeMsgs msgs else some (s.countFec n fec)) = some u := (if_pos rfl).trans h
  simp only [hown]

theorem State.receives_untaken (cls : Nat) (msgs : List FlitMsg) (h : (s.countFec n fec).takeMsgs msgs = none) :
    execFlitReceive n true ⟨fec, ((s.nport n).corrected fec).rxSeq, .data s.ownId cls msgs⟩ s = .next (s.countFec n fec) := by
  refine State.receives hn hup fec fun t ht => (if_neg (by simp)).trans ?_
  subst ht
  refine (if_neg (by rw [State.nport_countFec]; simp)).trans ?_
  have hown : (if s.ownId = (s.countFec n fec).ownId then (s.countFec n fec).takeMsgs msgs else some (s.countFec n fec)) = none := (if_pos rfl).trans h
  simp only [hown]

/-- A flit of another module is passed over. -/
theorem State.receives_foreign {dest : Nat} (cls : Nat) (msgs : List FlitMsg) (h : dest ≠ s.ownId) :
    execFlitReceive n true ⟨fec, ((s.nport n).corrected fec).rxSeq, .data dest cls msgs⟩ s
      = .next (s.setPort n { (s.nport n).corrected fec with rxSeq := ((s.nport n).corrected fec).rxSeq + 1 }) := by
  refine State.receives hn hup fec fun t ht => (if_neg (by simp)).trans ?_
  subst ht
  refine (if_neg (by rw [State.nport_countFec]; simp)).trans ?_
  have hown : (if dest = (s.countFec n fec).ownId then (s.countFec n fec).takeMsgs msgs else some (s.countFec n fec)) = some (s.countFec n fec) := if_neg h
  simp only [hown]
  rw [State.nport_countFec, State.countFec_setPort]

theorem State.receives_displaced {q : Nat} (dest cls : Nat) (msgs : List FlitMsg) (h : q ≠ ((s.nport n).corrected fec).rxSeq) :
    execFlitReceive n true ⟨fec, q, .data dest cls msgs⟩ s = .next (s.countFec n fec) := by
  refine State.receives hn hup fec fun t ht => (if_neg (by simp)).trans ?_
  subst ht
  exact if_pos (by rw [State.nport_countFec]; exact h)

/-- What the partner acknowledges is kept no longer. -/
theorem State.receives_ack (q below : Nat) (hunsent : s.unsent = []) : execFlitReceive n true ⟨fec, q, .ack below⟩ s
    = .next (s.setPort n { (s.nport n).corrected fec with
      unacked := ((s.nport n).corrected fec).unacked.filter fun f => decide (below ≤ f.seq)
      downs := if ((s.nport n).corrected fec).unacked.any fun f => decide (f.seq < below) then 0 else ((s.nport n).corrected fec).downs
      moved := if ((s.nport n).corrected fec).moved ≤ below then 0 else ((s.nport n).corrected fec).moved }) := by
  refine State.receives hn hup fec fun t ht => (if_neg (by simp)).trans ?_
  subst ht
  dsimp only
  rw [State.ackFlits]
  refine (State.flushUnsent_none ?_).trans ?_
  · exact hunsent
  rw [State.nport_countFec, State.countFec_setPort]

/-- The flits that the partner asks for again are sent; the sixteenth time in a row the port goes down. -/
theorem State.receives_replay (q a : Nat) :
    let p := (s.nport n).corrected fec
    let l := p.unacked.filter fun f => decide (a ≤ f.seq)
    let u := l.foldl (fun u f => u.send (.flit n f)) (s.setPort n { p with replay := min (p.replay + l.length) (2 ^ 32 - 1), downs := p.downs + 1 })
    (l = [] → execFlitReceive n true ⟨fec, q, .replay a⟩ s = .next (s.countFec n fec))
      ∧ (l ≠ [] → p.downs + 1 < 16 → execFlitReceive n true ⟨fec, q, .replay a⟩ s = .next u)
      ∧ (l ≠ [] → 16 ≤ p.downs + 1 → execFlitReceive n true ⟨fec, q, .replay a⟩ s = .next (u.linkDown n 2)) := by
  intro p l u
  have hl : ((s.countFec n fec).nport n).unacked.filter (fun f => decide (a ≤ f.seq)) = l := by rw [State.nport_countFec]
  have hu : l.foldl (fun u f => u.send (.flit n f)) ((s.countFec n fec).setPort n { (s.countFec n fec).nport n with
      replay := min (((s.countFec n fec).nport n).replay + l.length) (2 ^ 32 - 1), downs := ((s.countFec n fec).nport n).downs + 1 }) = u := by
    rw [State.countFec_setPort, State.nport_countFec]
  have hdowns : ((s.countFec n fec).nport n).downs = p.downs := by rw [State.nport_countFec]
  have hrun : (s.countFec n fec).replayFlits n a
      = if l.isEmpty then s.countFec n fec else if p.downs + 1 ≥ 16 then u.linkDown n 2 else u := by
    unfold State.replayFlits
    dsimp only
    rw [hl, hu, hdowns]
  have hout : ∀ {v}, (if l.isEmpty then s.countFec n fec else if p.downs + 1 ≥ 16 then u.linkDown n 2 else u) = v →
      execFlitReceive n true ⟨fec, q, .replay a⟩ s = .next v := fun hv =>
    State.receives hn hup fec fun t ht => (if_neg (by simp)).trans (by subst ht; exact hrun.trans hv)
  exact ⟨fun h => hout (if_pos (List.isEmpty_iff.2 h)), fun h hlt => hout ((if_neg (mt List.isEmpty_iff.1 h)).trans (if_neg (by omega))),
    fun h hge => hout ((if_neg (mt List.isEmpty_iff.1 h)).trans (if_pos hge))⟩

end

/-! ## The time root (R366, R367) -/

/-- The bits of TSYNC that a write can not set. -/
theorem tsyncWord_fields (old : Word32) (lock conflict : Bool) (ofs rid : Nat) :
    (tsyncWord old lock conflict ofs rid).getLsbD 1 = lock ∧ (tsyncWord old lock conflict ofs rid).getLsbD 2 = conflict
      ∧ bitsOf (tsyncWord old lock conflict ofs rid) 26 16 = rid % 2048 := by
  have hlow : (old &&& 1).toNat < 2 := by
    rw [BitVec.toNat_and]
    exact Nat.lt_of_le_of_lt Nat.and_le_right (by decide)
  have hodd : ∀ i, 0 < i → (old &&& 1).getLsbD i = false := fun i hi => by
    rw [BitVec.getLsbD_and, show (1 : Word32) = 1#32 from rfl, BitVec.getLsbD_one]
    simp [Nat.pos_iff_ne_zero.1 hi]
  generalize hv : (if lock then 2 else 0) + (if conflict then 4 else 0) + ofs % 256 * 2 ^ 8 + rid % 2 ^ 11 * 2 ^ 16 = v
  have hrid : v / 2 ^ 16 = rid % 2048 := by cases lock <;> cases conflict <;> simp at hv <;> omega
  have hlock : v / 2 % 2 = (if lock then 1 else 0) := by cases lock <;> cases conflict <;> simp at hv ⊢ <;> omega
  have hconf : v / 4 % 2 = (if conflict then 1 else 0) := by cases lock <;> cases conflict <;> simp at hv ⊢ <;> omega
  unfold tsyncWord
  rw [hv]
  refine ⟨?_, ?_, ?_⟩
  · rw [BitVec.getLsbD_or, hodd 1 (by decide), BitVec.getLsbD_ofNat, Nat.testBit_eq_decide_div_mod_eq]
    cases lock <;> simp_all
  · rw [BitVec.getLsbD_or, hodd 2 (by decide), BitVec.getLsbD_ofNat, Nat.testBit_eq_decide_div_mod_eq]
    cases conflict <;> simp_all
  · have hv32 : v < 2 ^ 32 := by cases lock <;> cases conflict <;> simp at hv <;> omega
    rw [bitsOf, fld, BitVec.toNat_or, Nat.or_div_two_pow, Nat.div_eq_of_lt (Nat.lt_trans hlow (by decide)), Nat.zero_or, BitVec.toNat_ofNat,
      Nat.mod_eq_of_lt hv32, hrid]
    exact Nat.mod_mod _ _

/-- A module that may follow the root it hears does so, and passes the announcement on at its other up ports. -/
theorem execRootAnnouncementReceive_follows {s : State} {n id : Nat} (t : Word64) (hn : n < 36) (hup : (s.nport n).up = true) (hid : id < 2048)
    (hroot : ¬(s.isRoot && decide (id ≥ s.ownId)) = true) (hlow : ∀ r, s.root = some r → id ≤ r) {u : State}
    (hu : (if s.isRoot then { s with tsync := s.tsync ||| 4 } else s : State).followTick id (t + BitVec.ofNat 64 (s.nport n).delay) = u) :
    execRootAnnouncementReceive n id t s = .next { u with
      port := u.port ++ ((List.range 36).filter fun m => m != n && (s.nport m).up).map fun m => PortMsg.announce m id (t + BitVec.ofNat 64 (s.nport n).delay) } := by
  subst hu
  unfold execRootAnnouncementReceive
  refine (if_neg ?_).trans ((if_neg hroot).trans ((if_neg ?_).trans ?_))
  · rintro (h | h | h)
    · omega
    · simp [hup] at h
    · omega
  · cases hr : s.root with
    | none => simp
    | some r => simpa using hlow r hr
  · exact congrArg _ (State.foldl_send (fun m => PortMsg.announce m id (t + BitVec.ofNat 64 (s.nport n).delay)) _ _)

section
variable {s : State} {id : Nat} {rt : Word64}

/-- At the first lock the counter steps to the announced count. -/
theorem State.followTick_first (hroot : s.root = none) (hsync : s.synced = false) : s.followTick id rt = { s with
    tsync := tsyncWord s.tsync true (s.tsync.getLsbD 2) (rootOffset s.tick rt) id, root := some id, rootSeen := rt, tick := rt, tickLag := 0
    rootFix := rt, synced := s.synced || true } := by
  unfold State.followTick
  exact (if_neg (by simp [hroot])).trans (if_pos (Or.inl (by simp [hsync])))

/-- A locked counter that agrees keeps its count. -/
theorem State.followTick_agrees (hroot : s.root = some id) (hlock : s.tsync.getLsbD 1 = true) (ht : s.tick = rt) : s.followTick id rt = { s with
    tsync := tsyncWord s.tsync true (s.tsync.getLsbD 2) (rootOffset s.tick rt) id, root := some id, rootSeen := s.tick, tick := s.tick
    tickLag := s.tickLag, rootFix := s.rootFix, synced := s.synced || true } := by
  unfold State.followTick
  exact (if_pos ⟨hroot, hlock, by simp [nearTicks, ht]⟩).trans (if_pos (Or.inl ht))

/-- Whatever the counter does, its module follows the root and keeps CONFLICT. -/
theorem State.followTick_root (hroot : s.root = none) : (s.followTick id rt).root = some id
    ∧ (s.followTick id rt).tsync.getLsbD 2 = s.tsync.getLsbD 2 ∧ (s.followTick id rt).port = s.port := by
  have hother : ¬(s.root = some id ∧ s.tsync.getLsbD 1 ∧ nearTicks s.tick rt) := by simp [hroot]
  unfold State.followTick
  dsimp only
  rw [if_neg hother]
  split <;> exact ⟨rfl, (tsyncWord_fields ..).2.1, rfl⟩

end

/-- Settles O53: ports by their branches, flits by what they are, the root by what a module follows. -/
theorem linksAndTime : Obligations.LinksAndTime := by
  unfold Obligations.LinksAndTime
  refine ⟨fun s n hn => ?ports, fun s hroot => ?send, fun s n id t hn hup hid => ?receive, fun s r hroot hlate => ?lost⟩
  case ports =>
    rw [exec_portEnable, exec_counterClear, exec_counterClear, execPortEnable, execCounterClear, execCounterClear, if_pos hn, if_pos hn, if_pos hn]
    refine ⟨rfl, rfl, rfl, fun lanes peer hen hdown hreason h1 h4 hpeer hunsent => ?up, fun hup => ⟨fun r hr => ?down, fun fec => ?flits⟩⟩
    case up =>
      rw [exec_linkUp, execLinkUp]
      refine (if_pos ⟨hn, hen, by simp [hdown], hreason, h1, h4, hpeer⟩).trans ?_
      exact congrArg _ (State.flushUnsent_none hunsent)
    case down =>
      obtain ⟨hself, hnone, hfirst⟩ := s.linkDown_leaves n r
      rw [exec_linkDown, execLinkDown, if_pos ⟨hn, hup, hr⟩]
      exact ⟨_, rfl, congrArg Port.up hself, congrArg Port.unacked hself, congrArg Port.reason hself, hnone, hfirst⟩
    case flits =>
      simp only [exec_flitReceive]
      exact ⟨State.receives_bad hn hup fec, fun dest cls msgs h => State.receives_foreign hn hup fec cls msgs h,
        fun cls msgs u h => State.receives_own hn hup fec cls msgs h, fun cls msgs h => State.receives_untaken hn hup fec cls msgs h,
        fun q dest cls msgs h => State.receives_displaced hn hup fec dest cls msgs h, fun q below h => State.receives_ack hn hup fec q below h,
        fun q a => State.receives_replay hn hup fec q a⟩
  case send =>
    rw [exec_rootAnnouncementSend, execRootAnnouncementSend, if_pos hroot, State.foldl_send]
    exact ⟨_, rfl, rfl⟩
  case receive =>
    have hfree : s.isRoot = false → ¬(s.isRoot && decide (id ≥ s.ownId)) = true := fun h => by simp [h]
    have hplain : s.isRoot = false → (if s.isRoot then { s with tsync := s.tsync ||| 4 } else s : State) = s := fun h => by rw [h]; rfl
    dsimp only
    rw [exec_rootAnnouncementReceive]
    refine ⟨fun hno hr hsync => ?first, fun hno hr hlock htick => ?agrees, fun hno r hr hlt => ?higher, fun hyes hge => ?own, fun hyes hlt hr => ?conflict⟩
    case first =>
      refine ⟨_, execRootAnnouncementReceive_follows t hn hup hid (hfree hno) (by simp [hr]) ((congrArg (State.followTick · id _) (hplain hno)).trans (State.followTick_first hr hsync)),
        rfl, rfl, rfl, (tsyncWord_fields ..).1, ?_, rfl⟩
      exact (tsyncWord_fields ..).2.2.trans (Nat.mod_eq_of_lt hid)
    case agrees =>
      exact ⟨_, execRootAnnouncementReceive_follows t hn hup hid (hfree hno) (by simp [hr]) 
        ((congrArg (State.followTick · id _) (hplain hno)).trans (State.followTick_agrees hr hlock htick)),
        rfl, rfl, rfl, (tsyncWord_fields ..).1, rfl⟩
    case higher =>
      rw [execRootAnnouncementReceive]
      split
      · rfl
      · exact (if_neg (hfree hno)).trans (if_pos (by simp [hr, hlt]))
    case own =>
      rw [execRootAnnouncementReceive]
      split
      · rfl
      · exact if_pos (by simp [hyes, hge])
    case conflict =>
      obtain ⟨hfollows, hbit, hport⟩ := State.followTick_root (s := { s with tsync := s.tsync ||| 4 }) (id := id)
        (rt := t + BitVec.ofNat 64 (s.nport n).delay) hr
      refine ⟨_, execRootAnnouncementReceive_follows t hn hup hid (by simp [hyes, hlt]) (by simp [hr]) (by rw [if_pos hyes]),
        hbit.trans ?_, hfollows, congrArg (· ++ _) hport⟩
      simp
  case lost =>
    rw [exec_rootLost, execRootLost]
    refine ⟨_, if_pos ⟨by rw [hroot]; rfl, hlate⟩, rfl, rfl, (tsyncWord_fields ..).1, ?_⟩
    exact (tsyncWord_fields ..).2.2.trans (Nat.mod_eq_of_lt (Nat.mod_lt _ (by decide)))

end Sys2Proof.Machine

/-! SUPPORT. What arrives from peers (R92, R131, R363 to R365, R422, R423). -/
namespace Sys2Proof.Machine

section
variable {s : State} {r : PeerReq} {tag key addr n : Nat} {write : Bool} {f : State → List Piece → State × ByteList}

theorem State.servePeer_outside (h : 2 ^ 40 < addr % 2 ^ 41 + n) :
    s.servePeer r tag key addr n write f = s.letOutside.send (.peerReply tag (leBytes 2 0x908) false) := if_pos h

variable (hin : addr % 2 ^ 41 + n ≤ 2 ^ 40)
include hin

theorem State.servePeer_unbacked (h : s.dpaPieces (addr % 2 ^ 41) n = none) :
    s.servePeer r tag key addr n write f = s.letOutside.send (.peerReply tag (leBytes 2 0x606) false) :=
  (if_neg (Nat.not_lt.2 hin)).trans (by rw [h])

variable {ps : List Piece} (hps : s.dpaPieces (addr % 2 ^ 41) n = some ps)
include hps

theorem State.servePeer_held {k : Nat} (h : s.blockedAt s.outsideReq (pieceRegions ps) = some k) :
    s.servePeer r tag key addr n write f = s.holdOutside (.peer r) k :=
  (if_neg (Nat.not_lt.2 hin)).trans (by rw [hps]; dsimp only; rw [h])

variable (hfree : s.blockedAt s.outsideReq (pieceRegions ps) = none)
include hfree

theorem State.servePeer_refused {x : Cause} (h : ps.findSome? (s.pieceCause (whoPeer key) write false) = some x) :
    s.servePeer r tag key addr n write f = s.letOutside.send (.peerReply tag (leBytes 2 x.code) false) :=
  (if_neg (Nat.not_lt.2 hin)).trans (by rw [hps]; dsimp only; rw [hfree]; dsimp only; rw [h])

theorem State.servePeer_served (h : ps.findSome? (s.pieceCause (whoPeer key) write false) = none) :
    s.servePeer r tag key addr n write f = (ps.foldl State.serve (f s.letOutside ps).1).send (.peerReply tag (f s.letOutside ps).2 true) :=
  (if_neg (Nat.not_lt.2 hin)).trans (by rw [hps]; dsimp only; rw [hfree]; dsimp only; rw [h])

end

/-- A request for bytes is served with its operation, as one that may write unless it reads. -/
theorem State.peerRequest_serves (s : State) {tag key addr n : Nat} {r : PeerReq}
    (h : r = .read tag addr n key ∨ (∃ b : ByteList, r = .write tag addr key b ∧ b.length = n) ∨ (∃ op sz v, r = .amo tag addr key op sz v ∧ amoBytes sz = n) ∨
      ∃ sz v w, r = .cas tag addr key sz v w ∧ amoBytes sz = n) :
    ∃ write f, s.peerRequest r = s.servePeer r tag key addr n write f ∧ (r = .read tag addr n key ∧ write = false ∨ (∀ a b c d, r ≠ .read a b c d) ∧ write = true) := by
  rcases h with rfl | ⟨b, rfl, rfl⟩ | ⟨op, sz, v, rfl, rfl⟩ | ⟨sz, v, w, rfl, rfl⟩
  · exact ⟨_, _, by rw [State.peerRequest], .inl ⟨rfl, rfl⟩⟩
  all_goals exact ⟨_, _, by rw [State.peerRequest], .inr ⟨nofun, rfl⟩⟩

/-- Settles O37: a record by what its core takes, a request by the branch of its service. -/
theorem peerArrivals : Obligations.PeerArrivals := by
  unfold Obligations.PeerArrivals
  refine ⟨fun s c b hc => ?record, fun s tag key addr n r hboot hlink hr => ?refused, fun s tag key addr n ps hboot hlink hin hps hfree => ?served,
    fun s tag c b hboot hlink => ?postr⟩
  case record =>
    rw [exec_ingressArrival, execIngressArrival, hc, State.arrive]
    cases (s.core c).part.isSome && s.takesIngress (s.corePart c) c <;> rfl
  case refused =>
    obtain ⟨write, f, hserve, hwrite⟩ := s.peerRequest_serves hr
    have hexec : exec (.peerRequest r) s = .next (s.servePeer r tag key addr n write f) := (if_pos ⟨hboot, hlink⟩).trans (by rw [hserve])
    dsimp only
    rw [hexec]
    refine ⟨fun h => congrArg _ (State.servePeer_outside h), fun hin => ⟨fun h => congrArg _ (State.servePeer_unbacked hin h), fun ps hps =>
      ⟨fun k h => congrArg _ (State.servePeer_held hin hps h), fun hfree x hx => congrArg _ (State.servePeer_refused hin hps hfree ?_)⟩⟩⟩
    rcases hwrite with ⟨rfl, rfl⟩ | ⟨hne, rfl⟩
    · exact hx
    · cases r with
      | read a b c d => exact absurd rfl (hne a b c d)
      | write | amo | cas | postr => exact hx
  case served =>
    have hexec : ∀ r, exec (.peerRequest r) s = .next (s.peerRequest r) := fun r => if_pos ⟨hboot, hlink⟩
    dsimp only
    simp only [hexec, State.peerRequest]
    refine ⟨fun h => congrArg _ (State.servePeer_served hin hps hfree h), fun h => ⟨fun b hb => ?_, fun op sz v hn => ?_, fun sz v new hn => ?_⟩⟩
    · subst hb
      exact congrArg _ (State.servePeer_served hin hps hfree h)
    · subst hn
      exact congrArg _ (State.servePeer_served hin hps hfree h)
    · subst hn
      exact congrArg _ (State.servePeer_served hin hps hfree h)
  case postr =>
    have hexec : exec (.peerRequest (.postr tag c b)) s = .next (s.peerRequest (.postr tag c b)) := if_pos ⟨hboot, hlink⟩
    rw [hexec]
    exact ⟨fun h => congrArg _ (if_neg (by rw [h]; exact Bool.false_ne_true)), fun h => congrArg _ (if_pos h)⟩

end Sys2Proof.Machine

/-! SUPPORT. Swaps, retirement moves and what remapping chooses (R88, R91, R92, R424, R425). -/
namespace Sys2Proof.Machine

/-! ## Entries of a die's indirection table -/

/-- An entry of the table is replaced. -/
def Die.setRit (x : Die) (l : Nat) (e : RitEntry) : Die := { x with rit := tabPut x.rit l e }

theorem Die.ritAt_setRit_self (x : Die) (l : Nat) (e : RitEntry) : (x.setRit l e).ritAt l = e := tabGet_put_self _ _ _ _
theorem Die.ritAt_setRit_ne (x : Die) {l j : Nat} (e : RitEntry) (h : j ≠ l) : (x.setRit l e).ritAt j = x.ritAt j := tabGet_put_other _ _ _ h
theorem Die.ritAt_congr {x y : Die} (h : x.rit = y.rit) (l : Nat) : x.ritAt l = y.ritAt l := by rw [Die.ritAt, h, Die.ritAt]

theorem State.die_onDie_self (s : State) (d : Nat) (f : Die → Die) : (s.onDie d f).die d = f (s.die d) := State.die_setDie_self _ _ _

theorem Die.nextSwap_rit (x : Die) : x.nextSwap.rit = x.rit := by
  unfold Die.nextSwap
  split
  · rfl
  · split <;> rfl

theorem Die.nextSwap_withheld (x : Die) : x.nextSwap.withheld = x.withheld := by
  unfold Die.nextSwap
  split
  · rfl
  · split <;> rfl

theorem Die.nextSwap_none {x : Die} (h : x.swapNext = []) : x.nextSwap = x := by
  unfold Die.nextSwap
  split
  · rfl
  · have hdrop : (x.swapNext.dropWhile fun p => [p.1, p.2].any fun l => !x.swappable l || x.leaving.getLsbD (chanBit (x.ritAt l).pri)) = [] := by
      rw [h]
      rfl
    rw [hdrop]
    change { x with swapNext := [] } = x
    rw [← h]

/-- The first of the chosen swaps begins when its regions may still be swapped. -/
theorem Die.nextSwap_begins {x : Die} {p : Nat × Nat} {r : List (Nat × Nat)} (hswap : x.swap = none) (hnext : x.swapNext = p :: r)
    (h : ∀ l, (l = p.1 ∨ l = p.2) → x.swappable l = true ∧ x.leaving.getLsbD (chanBit (x.ritAt l).pri) = false) :
    x.nextSwap = { x with swap := some ⟨p.1, some p.2, false, 0⟩, swapNext := r } := by
  obtain ⟨h1, h2⟩ := h p.1 (.inl rfl)
  obtain ⟨h3, h4⟩ := h p.2 (.inr rfl)
  have hkept : (x.swapNext.dropWhile fun p => [p.1, p.2].any fun l => !x.swappable l || x.leaving.getLsbD (chanBit (x.ritAt l).pri)) = p :: r := by
    rw [hnext]
    exact List.dropWhile_cons_of_neg (by simp [h1, h2, h3, h4])
  unfold Die.nextSwap
  rw [hkept]
  exact if_neg (by rw [hswap]; exact Bool.false_ne_true)

theorem Die.chooseSwaps_length (x : Die) : ∀ (n : Nat) (l : NatList), (x.chooseSwaps n l).length ≤ n
  | 0, _ => Nat.le_refl 0
  | n + 1, l => by
    rw [Die.chooseSwaps]
    split
    · exact Nat.succ_le_succ (Die.chooseSwaps_length x n _)
    · exact Nat.zero_le _

/-! ## Moves -/

theorem State.foldl_onlyRecords {α : Type} (f : State → α → State) (h : ∀ s a, State.OnlyRecords s (f s a)) (l : List α) (s : State) :
    s.OnlyRecords (l.foldl f s) := by
  induction l generalizing s with
  | nil => exact .refl s
  | cons a l ih => exact (h s a).trans (ih _)

theorem State.movePoison_onlyRecords (s : State) (d lri pri : Nat) : s.OnlyRecords (s.movePoison d lri pri) :=
  State.foldl_onlyRecords _ (fun t _ => t.errorRecord_onlyRecords _ rfl) _ s

section
variable {s u : State} (h : s.OnlyRecords u) (d : Nat)
include h

theorem State.OnlyRecords.ritHeld : (u.die d).ritHeld = (s.die d).ritHeld := have e := congrArg Die.ritHeld (h.die d); e
theorem State.OnlyRecords.swap : (u.die d).swap = (s.die d).swap := have e := congrArg Die.swap (h.die d); e
theorem State.OnlyRecords.swapNext : (u.die d).swapNext = (s.die d).swapNext := have e := congrArg Die.swapNext (h.die d); e
theorem State.OnlyRecords.withheld : (u.die d).withheld = (s.die d).withheld := have e := congrArg Die.withheld (h.die d); e
theorem State.OnlyRecords.retired : (u.die d).retired = (s.die d).retired := have e := congrArg Die.retired (h.die d); e
theorem State.OnlyRecords.ritAt (l : Nat) : (u.die d).ritAt l = (s.die d).ritAt l := Die.ritAt_congr (h.rit d) l
theorem State.OnlyRecords.chret : u.chret = s.chret := have e := congrArg State.chret h.rest; e
theorem State.OnlyRecords.chbusy : u.chbusy = s.chbusy := have e := congrArg State.chbusy h.rest; e
theorem State.OnlyRecords.chmoving : u.chmoving = s.chmoving := have e := congrArg State.chmoving h.rest; e
theorem State.OnlyRecords.chfailed : u.chfailed = s.chfailed := have e := congrArg State.chfailed h.rest; e

end

/-- A region that is quiesced no longer, where no write of the table was held. -/
theorem State.unquiesce_die {s : State} {d : Nat} (h : (s.die d).ritHeld = []) (l : Nat) :
    (s.unquiesce d l).die d = (s.die d).setRit l { (s.die d).ritAt l with qs := false } := by
  unfold State.unquiesce State.applyRit
  have hheld : (((s.onDie d fun x => { x with rit := tabPut x.rit l { x.ritAt l with qs := false } }).die d)).ritHeld = [] := by
    rw [State.die_onDie_self]
    exact h
  dsimp only
  rw [State.die_onDie_self, hheld, State.die_onDie_self]
  simp only [List.filter_nil, List.foldl_nil, Die.setRit, h]

/-- What an unquiesced region leaves of the rest of its die, whatever writes were held. -/
theorem State.unquiesce_keeps (s : State) (d l : Nat) : ((s.unquiesce d l).die d).swap = (s.die d).swap
    ∧ ((s.unquiesce d l).die d).swapNext = (s.die d).swapNext ∧ ((s.unquiesce d l).die d).withheld = (s.die d).withheld := by
  unfold State.unquiesce State.applyRit
  rw [State.die_onDie_self, State.die_onDie_self]
  exact ⟨rfl, rfl, rfl⟩

/-! ## The end of a swap (R92, R425) -/

/-- The entries of a die once the regions of a swap have been exchanged. -/
def Die.exchange (a b pri spare : Nat) (x : Die) : Die :=
  { x with swap := none, rit := tabPut (tabPut x.rit a { x.ritAt a with pri := pri }) b { x.ritAt b with pri := spare } }

section
variable {a b pri spare : Nat} (x : Die) (hab : a ≠ b)

theorem Die.exchange_second : (x.exchange a b pri spare).ritAt b = { x.ritAt b with pri := spare } := tabGet_put_self _ _ _ _

include hab in
theorem Die.exchange_first : (x.exchange a b pri spare).ritAt a = { x.ritAt a with pri := pri } :=
  (tabGet_put_other _ _ _ hab).trans (tabGet_put_self _ _ _ _)

theorem Die.exchange_other {l : Nat} (ha : l ≠ a) (hb : l ≠ b) : (x.exchange a b pri spare).ritAt l = x.ritAt l :=
  (tabGet_put_other _ _ _ hb).trans (tabGet_put_other _ _ _ ha)

end

/-- Two regions that are quiesced no longer. -/
theorem State.unquiesce_both {s : State} {d : Nat} (hheld : (s.die d).ritHeld = []) (a b l : Nat) :
    ((((s.unquiesce d a).unquiesce d b).onDie d Die.nextSwap).die d).ritAt l
      = if l = a ∨ l = b then { (s.die d).ritAt l with qs := false } else (s.die d).ritAt l := by
  have hda := State.unquiesce_die hheld a
  have hdb := State.unquiesce_die (s := s.unquiesce d a) (by rw [hda]; exact hheld) b
  rw [State.die_onDie_self, Die.ritAt_congr (Die.nextSwap_rit _), hdb, hda]
  by_cases hla : l = a
  · subst hla
    by_cases hlb : l = b
    · subst hlb
      rw [Die.ritAt_setRit_self, Die.ritAt_setRit_self, if_pos (.inl rfl)]
    · rw [Die.ritAt_setRit_ne _ _ hlb, Die.ritAt_setRit_self, if_pos (.inl rfl)]
  · by_cases hlb : l = b
    · subst hlb
      rw [Die.ritAt_setRit_self, Die.ritAt_setRit_ne _ _ hla, if_pos (.inr rfl)]
    · rw [Die.ritAt_setRit_ne _ _ hlb, Die.ritAt_setRit_ne _ _ hla, if_neg (not_or.2 ⟨hla, hlb⟩)]

/-- A finished swap is an exchange, after moves that leave the table as it is. -/
theorem State.finishSwap_exchanges (s : State) (d : Nat) (w : Swap) (b : Nat) : ∃ t : State, (∀ l, (t.die d).ritAt l = (s.die d).ritAt l)
    ∧ (t.die d).ritHeld = (s.die d).ritHeld ∧ s.finishSwap d w b
      = (((t.onDie d (Die.exchange w.a b (s.rit d b).pri w.spare)).unquiesce d w.a).unquiesce d b).onDie d Die.nextSwap := by
  have hrec := (s.movePoison_onlyRecords d b (s.rit d b).pri).trans (State.movePoison_onlyRecords _ d w.a (s.rit d w.a).pri)
  have hcopy : ∀ (t : State) (dst src : Nat), (t.copyRegion d dst src).die d = t.die d := fun _ _ _ => rfl
  refine ⟨(((s.movePoison d b (s.rit d b).pri).movePoison d w.a (s.rit d w.a).pri).copyRegion d w.spare (s.rit d b).pri).copyRegion d
    (s.rit d b).pri (s.rit d w.a).pri, fun l => ?_, ?_, ?_⟩
  · rw [hcopy, hcopy, hrec.ritAt]
  · rw [hcopy, hcopy, hrec.ritHeld]
  · unfold State.finishSwap
    rfl

theorem State.finishSwap_rit {s : State} {d b : Nat} {w : Swap} (hheld : (s.die d).ritHeld = []) (hab : w.a ≠ b) : let u := s.finishSwap d w b
    ((u.die d).ritAt w.a).pri = ((s.die d).ritAt b).pri ∧ ((u.die d).ritAt b).pri = w.spare
      ∧ (∀ l, (l = w.a ∨ l = b) → ((u.die d).ritAt l).qs = false) ∧ (∀ l, l ≠ w.a → l ≠ b → (u.die d).ritAt l = (s.die d).ritAt l) := by
  obtain ⟨t, hrit, htheld, hu⟩ := s.finishSwap_exchanges d w b
  have hdie : (t.onDie d (Die.exchange w.a b (s.rit d b).pri w.spare)).die d = (t.die d).exchange w.a b (s.rit d b).pri w.spare := t.die_onDie_self d _
  have hboth := State.unquiesce_both (s := t.onDie d (Die.exchange w.a b (s.rit d b).pri w.spare)) (by rw [hdie]; exact htheld.trans hheld) w.a b
  rw [hdie, ← hu] at hboth
  refine ⟨?_, ?_, fun l hl => ?_, fun l hla hlb => ?_⟩
  · rw [hboth, if_pos (.inl rfl), Die.exchange_first _ hab]
    rfl
  · rw [hboth, if_pos (.inr rfl), Die.exchange_second]
  · rw [hboth, if_pos hl]
  · rw [hboth, if_neg (not_or.2 ⟨hla, hlb⟩), Die.exchange_other _ hla hlb, hrit]

/-- An abandoned swap leaves the entries' regions, ends, and withholds its staging region. -/
theorem State.abandon_leaves {s : State} {d b : Nat} {w : Swap} (hswap : (s.die d).swap = some w) (hb : w.b = some b) (hstart : w.started = true) :
    ∃ u, execSwapAbandon d s = .next u ∧ ((s.die d).swapNext = [] → (u.die d).swap = none)
      ∧ (u.die d).withheld = (s.die d).withheld ++ [w.spare]
      ∧ ((s.die d).ritHeld = [] → ∀ l, ((u.die d).ritAt l).pri = ((s.die d).ritAt l).pri ∧ ((u.die d).ritAt l).v = ((s.die d).ritAt l).v) := by
  unfold execSwapAbandon
  rw [hswap]
  dsimp only
  rw [hstart, hb]
  generalize ht : s.onDie d (fun x => { x with swap := none, withheld := x.withheld ++ [w.spare] }) = t
  have htdie : t.die d = { s.die d with swap := none, withheld := (s.die d).withheld ++ [w.spare] } := by rw [← ht, State.die_onDie_self]
  have hrec := State.errorRecord_onlyRecords (((t.unquiesce d w.a).unquiesce d b).onDie d Die.nextSwap)
    (memRecord d (regionStack w.spare) 0x707 (BitVec.ofNat 64 w.a) (BitVec.ofNat 64 (b * 2 ^ 16))) rfl
  obtain ⟨hswap1, hnext1, hwith1⟩ := t.unquiesce_keeps d w.a
  obtain ⟨hswap2, hnext2, hwith2⟩ := (t.unquiesce d w.a).unquiesce_keeps d b
  refine ⟨_, rfl, fun hnone => ?_, ?_, fun hheld l => ?_⟩
  · refine (hrec.swap d).trans ?_
    rw [State.die_onDie_self, Die.nextSwap_none (by rw [hnext2, hnext1, htdie]; exact hnone), hswap2, hswap1, htdie]
  · refine (hrec.withheld d).trans ?_
    rw [State.die_onDie_self, Die.nextSwap_withheld, hwith2, hwith1, htdie]
  · have hboth := State.unquiesce_both (s := t) (by rw [htdie]; exact hheld) w.a b l
    rw [← hrec.ritAt, htdie] at hboth
    have hsame : ∀ e : RitEntry, e = (if l = w.a ∨ l = b then { (s.die d).ritAt l with qs := false } else (s.die d).ritAt l) →
        e.pri = ((s.die d).ritAt l).pri ∧ e.v = ((s.die d).ritAt l).v := fun e he => by
      rw [he]
      split <;> exact ⟨rfl, rfl⟩
    exact hsame _ hboth

/-! ## Channel retirement (R424) -/

/-- The end of a retirement is its record, after the mask bit or FAILED. -/
theorem State.endRetire_leaves (s : State) (failed : Bool) : let u := s.endRetire failed
    u.chbusy = false ∧ u.chmoving = false ∧ u.chfailed = failed
      ∧ (u.die s.retDie).retired = (if failed then (s.die s.retDie).retired else (s.die s.retDie).retired ||| BitVec.ofNat 64 (2 ^ (32 * s.retStack + s.retChan)))
      ∧ (u.die s.retDie).swap = (s.die s.retDie).swap ∧ ∀ l, (u.die s.retDie).ritAt l = (s.die s.retDie).ritAt l := by
  unfold State.endRetire
  dsimp only
  generalize ht : (if failed then s else s.onDie s.retDie fun x => { x with retired := x.retired ||| BitVec.ofNat 64 (2 ^ (32 * s.retStack + s.retChan)) }) = t
  have hrec := State.errorRecord_onlyRecords ({ t with chbusy := false, chmoving := false, chfailed := failed } : State)
    (memRecord s.retDie s.retStack 0x708 (BitVec.ofNat 64 (bitsOf s.chret 8 0)) (BitVec.ofNat 64 s.chleft)) rfl
  have hdie : t.die s.retDie = if failed then s.die s.retDie else { s.die s.retDie with
      retired := (s.die s.retDie).retired ||| BitVec.ofNat 64 (2 ^ (32 * s.retStack + s.retChan)) } := by
    rw [← ht]
    cases failed
    · simp only [Bool.false_eq_true, if_false]
      exact State.die_onDie_self _ _ _
    · rfl
  refine ⟨hrec.chbusy, hrec.chmoving, hrec.chfailed, (hrec.retired _).trans ?_, (hrec.swap _).trans ?_, fun l => (hrec.ritAt _ l).trans ?_⟩
  · refine (congrArg Die.retired hdie).trans ?_
    cases failed <;> rfl
  · refine (congrArg Die.swap hdie).trans ?_
    cases failed <;> rfl
  · refine (congrArg (Die.ritAt · l) hdie).trans ?_
    cases failed <;> rfl

/-- The entry of a region that a retirement has moved to a spare one: its visible region, or else its shadow. -/
def RitEntry.moved (e : RitEntry) (vis : Bool) (spare : Nat) : RitEntry := if vis then { e with pri := spare } else { e with spri := spare }

/-- The die after a retirement move has ended its swap and replaced the entry of its region. -/
def Die.endMove (a : Nat) (vis : Bool) (spare : Nat) (x : Die) : Die := { x with swap := none, rit := tabPut x.rit a ((x.ritAt a).moved vis spare) }

/-- The state whose region has been copied for a retirement move: its visible region, or else its shadow with its counters. -/
def State.movedTo (s : State) (d : Nat) (w : Swap) (vis : Bool) (src : Nat) : State :=
  let s1 := (s.movePoison d w.a src).copyRegion d w.spare src
  if vis then s1 else
    { s1 with shadowCtr := tabClear (tabCopy s1.shadowCtr (regionLines d w.spare) s1.shadowCtr (regionLines d src) (2 ^ 15)) (regionLines d src) (2 ^ 15) }

/-- The count of the regions left, with which a retirement may end. -/
def State.countLeft (s : State) : State :=
  let t := { s with chleft := s.leftRegions.length }
  if t.chleft = 0 then t.endRetire false else t

theorem State.finishMove_eq (s : State) (d : Nat) (w : Swap) (vis : Bool) (hvis : inChannel s.retStack s.retChan (s.rit d w.a).pri = vis) :
    s.finishMove d w = (((s.movedTo d w vis (if vis then (s.rit d w.a).pri else (s.rit d w.a).spri)).onDie d
      (Die.endMove w.a vis w.spare)).unquiesce d w.a).countLeft := by
  subst hvis
  rfl

theorem State.movedTo_keeps (s : State) (d : Nat) (w : Swap) (vis : Bool) (src : Nat) :
    (s.movedTo d w vis src).dies = (s.movePoison d w.a src).dies ∧ (s.movedTo d w vis src).chret = (s.movePoison d w.a src).chret := by
  unfold State.movedTo
  cases vis <;> exact ⟨rfl, rfl⟩

theorem State.onlyCount (s : State) (n : Nat) : ({ s with chleft := n } : State).retDie = s.retDie ∧ ∀ d, ({ s with chleft := n } : State).die d = s.die d :=
  ⟨rfl, fun _ => rfl⟩

theorem State.countLeft_keeps (s : State) : (s.countLeft.die s.retDie).swap = (s.die s.retDie).swap
    ∧ ∀ l, (s.countLeft.die s.retDie).ritAt l = (s.die s.retDie).ritAt l := by
  unfold State.countLeft
  dsimp only
  generalize s.leftRegions.length = n
  obtain ⟨hret, hdie⟩ := s.onlyCount n
  obtain ⟨-, -, -, -, hswap, hrit⟩ := State.endRetire_leaves { s with chleft := n } false
  rw [hret] at hswap hrit
  split
  · exact ⟨hswap, hrit⟩
  · exact ⟨rfl, fun _ => rfl⟩

/-- What a retirement move leaves (R424). -/
theorem State.finishMove_leaves (s : State) (w : Swap) (vis : Bool) (hvis : inChannel s.retStack s.retChan ((s.die s.retDie).ritAt w.a).pri = vis) :
    let u := s.finishMove s.retDie w
    (u.die s.retDie).swap = none ∧ ((s.die s.retDie).ritHeld = [] →
      (u.die s.retDie).ritAt w.a = { (((s.die s.retDie).ritAt w.a).moved vis w.spare) with qs := false }
        ∧ ∀ l, l ≠ w.a → (u.die s.retDie).ritAt l = (s.die s.retDie).ritAt l) := by
  dsimp only
  rw [s.finishMove_eq s.retDie w vis hvis]
  generalize (if vis then (s.rit s.retDie w.a).pri else (s.rit s.retDie w.a).spri) = src
  obtain ⟨hdies, hchret⟩ := s.movedTo_keeps s.retDie w vis src
  have hrec := s.movePoison_onlyRecords s.retDie w.a src
  generalize s.movedTo s.retDie w vis src = t at hdies hchret
  have htdie : t.die s.retDie = (s.movePoison s.retDie w.a src).die s.retDie := by rw [State.die, hdies, State.die]
  generalize hv : t.onDie s.retDie (Die.endMove w.a vis w.spare) = v
  have hvdie : v.die s.retDie = (t.die s.retDie).endMove w.a vis w.spare := by rw [← hv, State.die_onDie_self]
  have hret : (v.unquiesce s.retDie w.a).retDie = s.retDie := by
    rw [← hv]
    exact congrArg (bitsOf · 2 0) (hchret.trans hrec.chret)
  obtain ⟨hswap, hrit⟩ := (v.unquiesce s.retDie w.a).countLeft_keeps
  rw [hret] at hswap hrit
  refine ⟨?_, fun hheld => ?_⟩
  · rw [hswap, (v.unquiesce_keeps s.retDie w.a).1, hvdie]
    rfl
  · have hvheld : (v.die s.retDie).ritHeld = [] := by
      rw [hvdie]
      refine Eq.trans ?_ hheld
      rw [← hrec.ritHeld, ← htdie]
      rfl
    refine ⟨?_, fun l hl => ?_⟩
    · rw [hrit, State.unquiesce_die hvheld, Die.ritAt_setRit_self, hvdie, ← hrec.ritAt, ← htdie]
      exact congrArg (fun e : RitEntry => { e with qs := false }) (tabGet_put_self _ _ _ _)
    · rw [hrit, State.unquiesce_die hvheld, Die.ritAt_setRit_ne _ _ hl, hvdie, ← hrec.ritAt, ← htdie]
      exact tabGet_put_other _ _ _ hl

/-! ## Requests and epochs (R91) -/

section
variable {s : State} {d : Nat} (hd : d < 8)
include hd

theorem execRemapRequest_goes {v : Word64} (hgo : v.getLsbD 32 = true) : let a := bitsOf v 15 0; let b := bitsOf v 31 16
    ((a ≠ b ∧ (s.die d).swappable a = true ∧ (s.die d).swappable b = true ∧ (s.die d).swap = none) →
      ∃ u, execRemapRequest d v s = .next (s.setDie d u) ∧ u.swap = some ⟨a, some b, false, 0⟩ ∧ u.refused = false ∧ u.rit = (s.die d).rit) ∧
    ((a = b ∨ (s.die d).swappable a = false ∨ (s.die d).swappable b = false ∨ (s.die d).swap.isSome = true) →
      ∃ u, execRemapRequest d v s = .next (s.setDie d u) ∧ u.swap = (s.die d).swap ∧ u.refused = true ∧ u.rit = (s.die d).rit) := by
  intro a b
  have hgo' : ¬(!v.getLsbD 32) = true := by rw [hgo]; exact Bool.false_ne_true
  refine ⟨fun ⟨hab, ha, hb, hswap⟩ => ?_, fun hbad => ?_⟩
  · refine ⟨_, (if_pos hd).trans (congrArg _ ((if_neg hgo').trans (if_neg ?_))), rfl, rfl, rfl⟩
    rintro (h | h | h | h)
    · exact hab h
    · rw [show (s.die d).swappable (bitsOf v 15 0) = true from ha] at h
      exact Bool.false_ne_true h
    · rw [show (s.die d).swappable (bitsOf v 31 16) = true from hb] at h
      exact Bool.false_ne_true h
    · rw [hswap] at h
      exact Bool.false_ne_true h
  · refine ⟨_, (if_pos hd).trans (congrArg _ ((if_neg hgo').trans (if_pos ?_))), rfl, rfl, rfl⟩
    simpa only [Bool.not_eq_true'] using hbad

theorem execRemapEpochEnd_drops (h : (s.die d).swapNext = []) (hoff : (s.die d).swap.isSome = true ∨ (s.die d).remapctl.getLsbD 0 = false ∨
    s.modesel.getLsbD 1 = true) : execRemapEpochEnd d s = .next (s.setDie d { s.die d with access := [], swapNext := [] }) := by
  have hnot : ((s.die d).remapctl.getLsbD 0 && !s.modesel.getLsbD 1 && (s.die d).swap.isNone) = false := by
    rcases hoff with hs | hc | hm
    · obtain ⟨w, hw⟩ := Option.isSome_iff_exists.1 hs
      simp [hw]
    · rw [hc, Bool.false_and, Bool.false_and]
    · rw [hm, Bool.not_true, Bool.and_false, Bool.false_and]
  unfold execRemapEpochEnd
  refine (if_neg (Nat.not_le.2 hd)).trans ?_
  dsimp only
  rw [hnot, h]
  exact congrArg (fun x => Host.Outcome.next (s.setDie d x)) (Die.nextSwap_none rfl)

theorem execRemapEpochEnd_chooses (hswap : (s.die d).swap = none) (hen : (s.die d).remapctl.getLsbD 0 = true) (hmode : s.modesel.getLsbD 1 = false)
    {l : List (Nat × Nat)} (hl : (s.die d).chooseSwaps (bitsOf (s.die d).remapctl 31 24) [] = l) :
    execRemapEpochEnd d s = .next (s.setDie d { s.die d with access := [], swapNext := l }.nextSwap) := by
  have hon : ((s.die d).remapctl.getLsbD 0 && !s.modesel.getLsbD 1 && (s.die d).swap.isNone) = true := by
    rw [hswap, hen, hmode]
    rfl
  unfold execRemapEpochEnd
  refine (if_neg (Nat.not_le.2 hd)).trans ?_
  dsimp only
  rw [if_pos hon, hl]

end

/-- Settles O49: requests, epochs, swaps, retirements and their ends, each by its branch. -/
theorem regionMoves : Obligations.RegionMoves := by
  unfold Obligations.RegionMoves
  refine ⟨⟨Die.chooseSwaps_length, fun s d hd => ⟨fun v hgo => execRemapRequest_goes hd hgo, fun v hgo => ?fields, fun hn hoff => execRemapEpochEnd_drops hd hn hoff,
    fun hswap hen hmode => ⟨fun hl => ?noneChosen, fun p r hl hfit => ?chosen⟩, fun w b hswap hb => ?swap⟩⟩,
    fun s v hboot => ?request, fun s hbusy hswap => ?move, fun s w hbusy hswap hb hcausal => ?arrive, fun s failed => ?ended⟩
  case fields =>
    rw [exec_remapRequest, execRemapRequest, if_pos hd]
    exact congrArg _ (if_pos (by rw [hgo]; rfl))
  case noneChosen =>
    refine (execRemapEpochEnd_chooses hd hswap hen hmode hl).trans ?_
    exact congrArg (fun x => Host.Outcome.next (s.setDie d x)) (Die.nextSwap_none rfl)
  case chosen =>
    refine (execRemapEpochEnd_chooses hd hswap hen hmode hl).trans ?_
    exact congrArg (fun x => Host.Outcome.next (s.setDie d x)) (Die.nextSwap_begins (x := { s.die d with access := [], swapNext := p :: r }) hswap rfl hfit)
  case swap =>
    refine ⟨fun hstart p r hspare => ?_, fun hstart ha hcb => ?_, fun hstart hab hheld => State.finishSwap_rit hheld hab,
      fun hstart => State.abandon_leaves hswap hb hstart⟩
    · rw [exec_regionSwap, execRegionSwap, hswap]
      dsimp only
      rw [hb]
      dsimp only
      rw [hstart, hspare]
      rfl
    · rw [exec_regionSwap, execRegionSwap, hswap]
      dsimp only
      rw [hb]
      dsimp only
      rw [hstart, ha, hcb]
      rfl
  case request =>
    rw [exec_channelRetire, execChannelRetire, if_pos hboot]
    refine ⟨fun hbusy => ?_, fun hbusy hgo => ?_, fun hbusy hgo => ?_⟩
    · rw [State.opChannelRetire, hbusy, Bool.not_true, Bool.and_false]
      rfl
    · rw [State.opChannelRetire, hbusy, hgo]
      rfl
    · rw [State.opChannelRetire, hbusy, hgo]
      rfl
  case move =>
    have hnot : ¬(!s.chbusy || s.retDie != s.retDie) = true := by rw [hbusy]; simp
    simp only [exec_retirementMove, execRetirementMove, if_neg hnot, hswap]
    refine ⟨fun hm => if_pos (by rw [hm]; rfl), fun hm hleft => ?_, fun hm a r hleft hpub => ⟨fun hspare => ?_, fun p q hspare => ?_⟩⟩
    all_goals
      refine (if_neg (by rw [hm]; exact Bool.false_ne_true)).trans ?_
      rw [hleft]
    · exact (if_neg (by rw [hpub]; exact Bool.false_ne_true)).trans (by rw [hspare])
    · exact (if_neg (by rw [hpub]; exact Bool.false_ne_true)).trans (by rw [hspare])
  case arrive =>
    have hnot : ¬(!s.chbusy || s.retDie != s.retDie) = true := by rw [hbusy]; simp
    obtain ⟨hnone, hrit⟩ := s.finishMove_leaves w _ rfl
    refine ⟨?_, hnone, fun hheld => ?_⟩
    · simp only [exec_retirementMove, execRetirementMove, if_neg hnot, hswap]
      exact if_pos (by rw [hb, hcausal]; rfl)
    · obtain ⟨ha, hother⟩ := hrit hheld
      refine ⟨fun hvis => ?_, fun hvis => ?_, hother⟩ <;> rw [ha, hvis] <;> rfl
  case ended =>
    obtain ⟨hbusy, hmoving, hfailed, hret, -, -⟩ := s.endRetire_leaves failed
    exact ⟨hbusy, hmoving, hfailed, hret⟩

end Sys2Proof.Machine

/-! SUPPORT. Errors of on-die storage and of HBM lines (R377, R419 to R423, R426, R449, R456). -/
namespace Sys2Proof.Machine

theorem State.OnlyRecords.crewTlb {s u : State} (h : s.OnlyRecords u) : u.crewTlb = s.crewTlb := have e := congrArg State.crewTlb h.rest; e
theorem State.OnlyRecords.mseTlb {s u : State} (h : s.OnlyRecords u) : u.mseTlb = s.mseTlb := have e := congrArg State.mseTlb h.rest; e
theorem State.OnlyRecords.core {s u : State} (h : s.OnlyRecords u) (c : Nat) : u.core c = s.core c := by rw [State.core, h.cores, State.core]

theorem sramRecord_onlyRecords (s : State) (cause sev unit loc arr word : Nat) :
    s.OnlyRecords (s.errorRecord (sramRecord cause sev unit loc arr word none)) := s.errorRecord_onlyRecords _ rfl

theorem State.poisonWord_marks (s : State) (w : Nat) : w ∈ (s.poisonWord w).poisoned ∧ (s.poisonWord w).mem = s.mem ∧ (s.poisonWord w).cores = s.cores := by
  unfold State.poisonWord
  split
  · exact ⟨List.contains_iff_mem.1 ‹_›, rfl, rfl⟩
  · exact ⟨by simp, rfl, rfl⟩

/-- With no save asked for inside a freeze none is decided at its end. -/
theorem State.decideAsked_none {s : State} (h : ∀ p ∈ s.parts, p.2.asked = none) : s.decideAsked = s := by
  have hnone : (s.parts.filter fun p => p.2.phase == .running && p.2.asked.isSome) = [] := by
    rw [List.filter_eq_nil_iff]
    intro p hp
    simp [h p hp]
  rw [State.decideAsked, hnone, List.foldl_nil]

theorem State.lineAt_onLine (s : State) (k : Nat) (f : LineMeta → LineMeta) : (s.onLine k f).lineAt k = f (s.lineAt k) := tabGet_put_self _ _ _ _

section
variable (s : State) (n word : Nat)

theorem sramUncorrectable_array : (∃ u, execSramUncorrectableError (.core n 7 word) s = .next u ∧ ((u.core n).tagAt word).st = .invalid ∧ ((u.core n).tagAt word).pins = 0)
    ∧ (word < 64 → ∃ u, execSramUncorrectableError (.core n 8 word) s = .next u ∧ (u.core n).tlb = (s.core n).tlb.eraseIdx word)
    ∧ (64 ≤ word → ∃ u, execSramUncorrectableError (.core n 8 word) s = .next u
      ∧ tabGet [] u.crewTlb (coreCrew n) = (tabGet [] s.crewTlb (coreCrew n)).eraseIdx (word - 64))
    ∧ ∃ u, execSramUncorrectableError (.mse n 8 word) s = .next u ∧ tabGet [] u.mseTlb n = (tabGet [] s.mseTlb n).eraseIdx word := by
  refine ⟨⟨_, rfl, ?_⟩, fun hlow => ?_, fun hhigh => ?_, _, rfl, ?_⟩
  · have htag := (sramRecord_onlyRecords (s.onCore n fun x => x.setTag word { x.tagAt word with st := .invalid, pins := 0 }) 0x703 0 0 n 7 word).core n
    rw [State.core_onCore_self] at htag
    have hat := (congrArg (Core.tagAt · word) htag).trans (tabGet_put_self _ _ _ _)
    exact ⟨congrArg Tag.st hat, congrArg Tag.pins hat⟩
  · refine ⟨_, rfl, ?_⟩
    rw [(sramRecord_onlyRecords ..).core, if_pos hlow, State.core_onCore_self]
  · refine ⟨_, rfl, ?_⟩
    rw [(sramRecord_onlyRecords ..).crewTlb, if_neg (Nat.not_lt.2 hhigh)]
    exact tabGet_put_self _ _ _ _
  · rw [(sramRecord_onlyRecords ..).mseTlb]
    exact tabGet_put_self _ _ _ _

end

/-! ## Lines (R423, R426) -/

section
variable {s : State} {dpa key k : Nat}

theorem execTier0LineRead_nothing (h : 2 ^ 40 ≤ dpa ∨ s.hbmKey false dpa = none) (o : LineOutcome) : execTier0LineRead dpa key o s = .next s := by
  have hnone : (if dpa < 2 ^ 40 then s.hbmKey false dpa else none) = none := by
    rcases h with h | h
    · exact if_neg (Nat.not_lt.2 h)
    · rw [h, ite_self]
  unfold execTier0LineRead
  rw [hnone]

/-- What a line of backed HBM finds. -/
theorem execTier0LineRead_found (hin : dpa < 2 ^ 40) (hk : s.hbmKey false dpa = some k) :
    execTier0LineRead dpa key .clean s = .next s
    ∧ execTier0LineRead dpa key .corrected s = .next (s.errorRecord
      (memRecord (dpa / 2 ^ 37) (regionStack (k / 2 ^ 21 % 2 ^ 16)) 0x704 (BitVec.ofNat 64 (k / 64 * 64)) 0))
    ∧ execTier0LineRead dpa key .uncorrectable s = .next (s.onLine k fun m => { m with poison := true })
    ∧ execTier0LineRead dpa key .macBad s = .next (s.onLine k fun m => { m with tag := max 1 m.tag, la := dpa / 64 + 1 })
    ∧ (∀ l, execTier0LineRead dpa key (.treeBad l) s = if (s.uncached dpa).contains l then
        .next (({ s with cacheBad := if s.cacheBad.contains (treeNode l dpa) then s.cacheBad else s.cacheBad ++ [treeNode l dpa] } : State).treeAlarm dpa)
      else .next s)
    ∧ ∀ l, execTier0LineRead dpa key (.cacheError l) s = .next (s.dropCached dpa l) := by
  have hfound : (if dpa < 2 ^ 40 then s.hbmKey false dpa else none) = some k := (if_pos hin).trans hk
  unfold execTier0LineRead
  rw [hfound]
  exact ⟨rfl, rfl, rfl, rfl, fun _ => rfl, fun _ => rfl⟩

end

theorem State.dropCached_none {s : State} {dpa l : Nat} (h : (s.die (dpa / 2 ^ 37)).caches (treeNode l dpa) = false) : s.dropCached dpa l = s := by
  have hnone : ((s.die (dpa / 2 ^ 37)).ctrCache.find? fun q => q.1 == treeNode l dpa) = none := by
    rw [List.find?_eq_none]
    intro q hq hc
    rw [Die.caches, List.any_eq_false] at h
    exact h q hq hc
  unfold State.dropCached
  dsimp only
  rw [hnone]

theorem State.dropCached_clean {s : State} {dpa l : Nat}
    (h : ((s.die (dpa / 2 ^ 37)).ctrCache.find? fun q => q.1 == treeNode l dpa) = some (treeNode l dpa, false)) :
    s.dropCached dpa l = s.onDie (dpa / 2 ^ 37) fun x => { x with ctrCache := x.ctrCache.filter fun q => q.1 != treeNode l dpa } := by
  unfold State.dropCached
  dsimp only
  rw [h]
  exact if_neg Bool.false_ne_true

/-- Settles O54: on-die errors by what they record and drop, lines by what their checks find. -/
theorem storageErrors : Obligations.StorageErrors := by
  unfold Obligations.StorageErrors
  refine ⟨⟨fun s n arr word => ?corrected, fun s n hasked => ?noneAsked, fun s n => ?freezeEnd, fun s n word => ?uncorrectable, fun s b => ?throttle⟩,
    fun s dpa key => ⟨fun h o => execTier0LineRead_nothing (key := key) h o, fun k hin hk => ?line⟩⟩
  case corrected =>
    have hrec := sramRecord_onlyRecords s 0x701 0 5 n arr word
    refine ⟨rfl, ⟨_, rfl, ?_, hrec.cores, rfl⟩, rfl⟩
    dsimp only
    split
    · exact List.contains_iff_mem.1 ‹_›
    · simp
  case noneAsked =>
    rw [exec_freezeEnd, execFreezeEnd, exec_freezeEnd, execFreezeEnd]
    refine ⟨fun hfrozen => (if_pos hfrozen).trans (congrArg _ (State.decideAsked_none ?_)), congrArg _ (State.decideAsked_none ?_)⟩ <;> exact hasked
  case freezeEnd =>
    rw [exec_freezeEnd, execFreezeEnd]
    exact ⟨fun hfrozen => if_pos hfrozen, rfl⟩
  case uncorrectable =>
    obtain ⟨htag, htlb, hcrew, hmse⟩ := sramUncorrectable_array s n word
    refine ⟨⟨_, rfl, s.poisonWord_marks _⟩, ⟨_, rfl, s.poisonWord_marks _⟩, fun arr p harr hpart hphase => ?_, htag, htlb, hcrew, hmse, rfl, fun halive hboot => ?_⟩
    · have hlost : exec (.sramUncorrectableError (.core n arr word)) s = .next (s.lostState (s.core n).part (arrayUnit arr) n arr word) := by
        rcases harr with rfl | rfl | rfl | rfl | rfl <;> rfl
      rw [hlost, hpart]
      exact congrArg _ (if_neg hphase)
    · rw [exec_sramUncorrectableError, execSramUncorrectableError]
      exact if_pos (by rw [halive, hboot]; rfl)
  case throttle =>
    rw [exec_thermalThrottle, execThermalThrottle]
    refine ⟨?_, rfl⟩
    split
    · exact ⟨s, rfl, List.contains_iff_mem.1 ‹_›, rfl, rfl⟩
    · exact ⟨_, rfl, by simp, rfl, rfl⟩
  case line =>
    obtain ⟨hclean, hcorrected, hpoison, hmac, htree, hcache⟩ := execTier0LineRead_found (key := key) hin hk
    simp only [exec_tier0LineRead]
    refine ⟨hclean, hcorrected, ⟨_, hpoison, ?_, rfl⟩, ⟨_, hmac, ?_, ?_, rfl⟩, fun l hl hboot hhalt => (htree l).trans ?_, fun l hl => (htree l).trans ?_,
      fun l hl => (hcache l).trans (congrArg _ (State.dropCached_none hl)), fun l hl => (hcache l).trans (congrArg _ (State.dropCached_clean hl))⟩
    · rw [State.lineAt_onLine]
    · rw [State.lineAt_onLine]
    · rw [State.lineAt_onLine]
      exact Nat.pos_iff_ne_zero.1 (Nat.lt_of_lt_of_le Nat.one_pos (Nat.le_max_left 1 _))
    · refine (if_pos (List.contains_iff_mem.2 hl)).trans (congrArg _ (if_pos ?_))
      exact (congr (congrArg and hboot) (congrArg not hhalt)).trans rfl
    · exact if_neg (mt List.contains_iff_mem.1 hl)

end Sys2Proof.Machine

/-! SUPPORT. Keys, secured sessions and device interfaces (R40, R368 to R370, R374 to R376, R460). -/
namespace Sys2Proof.Machine

/-! ## Messages that need a session -/

section
variable {s : State} {f : State → State} (hboot : s.keel.booted = true)
include hboot

theorem State.inSession_open (hhalt : s.keel.halted = false) (hsess : s.keel.sessions ≠ []) : s.inSession f = .next (f s) := by
  have hopen : ¬(s.keel.halted || s.keel.sessions.isEmpty) = true := by simp [hhalt, hsess]
  rw [State.inSession, hboot, if_neg hopen]
  rfl

theorem State.inSession_closed (h : s.keel.halted = true ∨ s.keel.sessions = []) : s.inSession f = .next (s.send (.spdm 0 [])) := by
  rw [State.inSession, hboot]
  refine (if_neg (by simp)).trans (if_pos ?_)
  rcases h with h | h <;> simp [h]

end

/-! ## Retired identifiers (R40, R370) -/

theorem State.zeroSlice_keeps (s : State) (c : Nat) : (s.zeroSlice c).keel = s.keel ∧ (s.zeroSlice c).port = s.port := ⟨rfl, rfl⟩

theorem State.zeroSlice_wkey (s : State) (c d : Nat) : ((s.zeroSlice c).core d).wkey = if d = c then none else (s.core d).wkey := by
  unfold State.zeroSlice
  by_cases h : d = c
  · subst h
    rw [State.core_onCore_self, if_pos rfl]
  · rw [if_neg h]
    exact congrArg Core.wkey (State.core_setCore_other _ _ h)

theorem State.zeroFold_wkey (d : Nat) : ∀ (l : List (Nat × Core)) (s : State), ((l.foldl (fun t p => t.zeroSlice p.1) s).core d).wkey
    = if d ∈ l.map (·.1) then none else (s.core d).wkey
  | [], s => by simp
  | p :: r, s => by
    rw [List.foldl_cons, State.zeroFold_wkey d r, State.zeroSlice_wkey]
    by_cases hp : d = p.1 <;> simp only [hp, List.map_cons, List.mem_cons, true_or, false_or, if_true, if_false, ite_self]

theorem State.zeroFold_keeps : ∀ (l : List (Nat × Core)) (s : State), (l.foldl (fun t p => t.zeroSlice p.1) s).keel = s.keel
    ∧ (l.foldl (fun t p => t.zeroSlice p.1) s).port = s.port
  | [], _ => ⟨rfl, rfl⟩
  | p :: r, s => by
    obtain ⟨hkeel, hport⟩ := State.zeroFold_keeps r (s.zeroSlice p.1)
    obtain ⟨hkeel1, hport1⟩ := s.zeroSlice_keeps p.1
    exact ⟨hkeel.trans hkeel1, hport.trans hport1⟩

/-- No core's slice carries an identifier once those that did have been zeroed. -/
theorem State.zeroSlices_wkey (s : State) (k c : Nat) : ((s.zeroSlices (· == k)).core c).wkey ≠ some k := by
  unfold State.zeroSlices
  rw [State.zeroFold_wkey]
  split
  · exact Option.some_ne_none _ ∘ Eq.symm
  · next hc =>
    intro hk
    cases hf : tabFind s.cores c with
    | none =>
      rw [State.core, tabGet, hf] at hk
      exact Option.some_ne_none _ hk.symm
    | some x =>
      have hx : s.core c = x := by rw [State.core, tabGet, hf]; rfl
      rw [hx] at hk
      exact hc (List.mem_map.2 ⟨(c, x), List.mem_filter.2 ⟨mem_of_tabFind hf, by simp [hk]⟩, rfl⟩)

theorem State.retireKey_leaves (s : State) (k : Nat) : k ∉ (s.retireKey k).keel.alloc ∧ k ∉ (s.retireKey k).keel.retiring ∧ (s.retireKey k).port = s.port
    ∧ ∀ c, ((s.retireKey k).core c).wkey ≠ some k := by
  refine ⟨fun h => ?_, fun h => ?_, (State.zeroFold_keeps _ s).2, s.zeroSlices_wkey k⟩
  · exact absurd (List.mem_filter.1 h).2 (by simp)
  · exact absurd (List.mem_filter.1 h).2 (by simp)

theorem Keel.mem_allocate (x : Keel) (k n : Nat) : n ∈ (x.allocate k).alloc ↔ n = k ∨ n ∈ x.alloc := by
  rw [Keel.allocate, List.mem_mergeSort, List.mem_append, List.mem_singleton]
  exact or_comm

/-! ## Stopped interfaces (R374, R460) -/

theorem State.queue_onQueue_ne (s : State) {p q : Nat} (f : Queue → Queue) (h : q ≠ p) : (s.onQueue p f).queue q = s.queue q := tabGet_put_other _ _ _ h

theorem State.opQueueDisable_en (s : State) (p q : Nat) : ((s.opQueueDisable p).queue q).en = if q = p then false else (s.queue q).en := by
  unfold State.opQueueDisable
  by_cases h : q = p
  · subst h
    rw [State.queue_onQueue_self, if_pos rfl]
    exact (getLsbD_setBits_clear _).1
  · rw [State.queue_onQueue_ne _ _ h, if_neg h]

theorem State.disableFold (v : Nat) : ∀ (l : List Nat) (s : State), (l.foldl (fun u q => u.opQueueDisable q) s).vf v = s.vf v
    ∧ (l.foldl (fun u q => u.opQueueDisable q) s).port = s.port
    ∧ ∀ q, ((l.foldl (fun u q => u.opQueueDisable q) s).queue q).en = if q ∈ l then false else (s.queue q).en
  | [], _ => ⟨rfl, rfl, fun _ => by simp⟩
  | p :: r, s => by
    obtain ⟨hvf, hport, hen⟩ := State.disableFold v r (s.opQueueDisable p)
    refine ⟨hvf, hport, fun q => ?_⟩
    rw [List.foldl_cons, hen, State.opQueueDisable_en]
    by_cases hq : q = p <;> simp [hq]

section
variable {s : State} (hboot : s.keel.booted = true) (hhalt : s.keel.halted = false)
include hboot hhalt

theorem execSpdmRequest_measured {i : Nat} {l : NatList} (h : s.measurement i = some l) : execSpdmRequest (.measurement i) s = .next (s.send (.spdm 2 (i :: l))) := by
  unfold execSpdmRequest
  dsimp only
  rw [hboot, hhalt, h]
  rfl

theorem execSpdmRequest_unmeasured {i : Nat} (h : s.measurement i = none) : execSpdmRequest (.measurement i) s = .next (s.send (.spdm 0 [])) := by
  unfold execSpdmRequest
  dsimp only
  rw [hboot, hhalt, h]
  rfl

theorem execSpdmRequest_certificate (n : Nat) : execSpdmRequest (.certificate n) s
    = .next (if n = 0 && s.keel.identity then s.answer 3 [Config.certificate deviceKey] else s.answer 0 []) := by
  unfold execSpdmRequest
  rw [hboot, hhalt]
  rfl

theorem execSpdmRequest_negotiate : execSpdmRequest .negotiate s = .next (s.send (.spdm 7 [1024, 256])) := by
  unfold execSpdmRequest
  rw [hboot, hhalt]
  rfl

theorem execSpdmRequest_openSession (id : Nat) : execSpdmRequest (.openSession id) s = .next (({ s with keel := { s.keel with
    sessions := if s.keel.sessions.contains id then s.keel.sessions else s.keel.sessions ++ [id] } } : State).answer 4 [id]) := by
  unfold execSpdmRequest
  rw [hboot, hhalt]
  rfl

theorem execSpdmRequest_streamKeys (id n : Nat) : execSpdmRequest (.streamKeys id n) s
    = .next (if s.keel.sessions.contains id then ({ s with keel := s.keel.keyStream n id } : State).answer 1 [n] else s.answer 0 []) := by
  unfold execSpdmRequest
  rw [hboot, hhalt]
  rfl

end

/-! ## Interfaces in a session (R374 to R376) -/

section
variable {s : State} {v : Nat} (hboot : s.keel.booted = true) (hhalt : s.keel.halted = false) (hsess : s.keel.sessions ≠ []) (hv : isVf v = true)
include hboot hhalt hsess

theorem execLockInterfaceRequest_refuses (h : s.vfKey v = none ∨ (s.vf v).tdi ≠ .unlocked) : execLockInterfaceRequest v s = .next (s.send (.spdm 0 [])) := by
  rw [execLockInterfaceRequest, State.inSession_open hboot hhalt hsess]
  cases hk : s.vfKey v with
  | none => rfl
  | some k => exact congrArg _ (if_neg fun hc => h.elim (fun hn => absurd (hk.symm.trans hn) (Option.some_ne_none k)) fun ht => ht hc.2)

include hv

theorem execLockInterfaceRequest_locks {k : Nat} (hk : s.vfKey v = some k) (h : (s.vf v).tdi = .unlocked) : execLockInterfaceRequest v s
    = .next ((s.setVf v { s.vf v with tdi := .locked, key := k, digest := leNat (shake256 (s.frozenBytes v)) }).send (.spdm 1 [])) := by
  rw [execLockInterfaceRequest, State.inSession_open hboot hhalt hsess, hk]
  exact congrArg _ (if_pos ⟨hv, h⟩)

/-- A VF that stops has its queues disabled. -/
theorem execStopInterfaceRequest_stops (h : (s.vf v).tdi ≠ .unlocked) : ∃ u : State, execStopInterfaceRequest v s = .next (u.send (.spdm 1 []))
    ∧ u.vf v = { s.vf v with stopping := true } ∧ (∀ q ∈ s.ownedBy v, (u.queue q).en = false) ∧ u.port = s.port := by
  obtain ⟨hvf, hport, hen⟩ := State.disableFold v (s.ownedBy v) (s.setVf v { s.vf v with stopping := true })
  refine ⟨_, (State.inSession_open hboot hhalt hsess).trans (congrArg _ (if_pos ⟨hv, h⟩)), hvf.trans (State.vf_setVf_self _ _ _), fun q hq => ?_, hport⟩
  rw [hen, if_pos hq]

end

/-- Settles O51: each message by its branch, a retired identifier by what its zeroed slices leave. -/
theorem keysAndInterfaces : Obligations.KeysAndInterfaces := by
  unfold Obligations.KeysAndInterfaces
  refine ⟨⟨fun s k hboot hhalt hsess => ?keys, fun s k hboot h => ?closed, fun s hboot hhalt => ?spdm, fun s r hboot hhalt => ?held⟩,
    fun s v => ⟨fun hboot hhalt hsess h1 h63 => ?interfaces, fun hboot hsess => ?outside, fun hstop hidle => ?unlock⟩⟩
  case keys =>
    rw [exec_keyAlloc, execKeyAlloc, exec_keyRetire, execKeyRetire, State.inSession_open hboot hhalt hsess, State.inSession_open hboot hhalt hsess]
    refine ⟨fun h1 h127 hnew => ?_, fun hbad => ?_, fun h1 h127 hold hfree => ?_, fun h1 h127 hold hused => ?_, fun hbad => ?_⟩
    · have hok : ¬(k = 0 ∨ k > 127 ∨ s.keel.alloc.contains k) := by
        rintro (h | h | h)
        · omega
        · omega
        · rw [hnew] at h
          exact Bool.false_ne_true h
      exact ⟨_, congrArg _ (if_neg hok), s.keel.mem_allocate k, tabFind_put_self _ _ _, rfl, rfl⟩
    · exact congrArg _ (if_pos hbad)
    · have hok : ¬(k = 0 ∨ k > 127 ∨ !s.keel.alloc.contains k) := by
        rintro (h | h | h)
        · omega
        · omega
        · rw [hold] at h
          exact Bool.false_ne_true h
      exact ⟨s.retireKey k, congrArg _ ((if_neg hok).trans (if_pos (by rw [hfree]; rfl))), s.retireKey_leaves k⟩
    · have hok : ¬(k = 0 ∨ k > 127 ∨ !s.keel.alloc.contains k) := by
        rintro (h | h | h)
        · omega
        · omega
        · rw [hold] at h
          exact Bool.false_ne_true h
      exact congrArg _ ((if_neg hok).trans (if_neg (by simpa using hused)))
    · exact congrArg _ (if_pos (by simpa only [Bool.not_eq_true', gt_iff_lt] using hbad))
  case closed =>
    rw [exec_keyAlloc, execKeyAlloc, exec_keyRetire, execKeyRetire]
    exact ⟨State.inSession_closed hboot h, State.inSession_closed hboot h⟩
  case spdm =>
    simp only [exec_spdmRequest]
    have hkeys := execSpdmRequest_streamKeys hboot hhalt
    refine ⟨fun i l hl => execSpdmRequest_measured hboot hhalt hl, fun i hi => execSpdmRequest_unmeasured hboot hhalt hi,
      fun hid => (execSpdmRequest_certificate hboot hhalt 0).trans (congrArg _ (if_pos (by rw [hid]; rfl))),
      fun n hn => (execSpdmRequest_certificate hboot hhalt n).trans (congrArg _ (if_neg (by simp [hn]))), execSpdmRequest_negotiate hboot hhalt,
      fun id => ⟨_, execSpdmRequest_openSession hboot hhalt id, ?_, rfl⟩, fun id n hid => ?_,
      fun id n hid => (hkeys id n).trans (congrArg _ (if_neg (by rw [hid]; exact Bool.false_ne_true)))⟩
    · have hmem : id ∈ if s.keel.sessions.contains id then s.keel.sessions else s.keel.sessions ++ [id] := by
        split
        · exact List.contains_iff_mem.1 ‹_›
        · simp
      exact hmem
    · refine ⟨_, (hkeys id n).trans (congrArg _ (if_pos hid)), List.mem_append_right _ (List.mem_singleton.2 rfl), fun p hp hpn => ?_, rfl⟩
      rcases List.mem_append.1 (show p ∈ (s.keel.streamKeys.filter fun q => q.1 != n) ++ [(n, id)] from hp) with h | h
      · exact absurd hpn (by simpa using (List.mem_filter.1 h).2)
      · exact List.mem_singleton.1 h
  case held =>
    exact (if_neg (by rw [hboot]; exact Bool.false_ne_true)).trans (if_pos hhalt)
  case interfaces =>
    have hv : isVf v = true := by simp [isVf, h1, h63]
    have hopen : ∀ f, s.inSession f = .next (f s) := fun f => State.inSession_open hboot hhalt hsess
    simp only [exec_lockInterfaceRequest, exec_startInterfaceRequest, exec_stopInterfaceRequest, exec_getDeviceInterfaceReport,
      exec_getDeviceInterfaceState]
    exact ⟨fun k hk h => execLockInterfaceRequest_locks hboot hhalt hsess hv hk h, fun h => execLockInterfaceRequest_refuses hboot hhalt hsess h,
      fun st h hstop => (hopen _).trans (congrArg _ (if_pos ⟨hv, h, by simp [hstop]⟩)), fun st h => (hopen _).trans (congrArg _ (if_neg fun hc => h hc.2.1)),
      fun h => execStopInterfaceRequest_stops hboot hhalt hsess hv h, fun h => (hopen _).trans (congrArg _ (if_neg fun hc => hc.2 h)),
      (hopen _).trans (congrArg _ (if_pos hv)), (hopen _).trans (congrArg _ (if_pos hv))⟩
  case outside =>
    simp only [exec_lockInterfaceRequest, execLockInterfaceRequest, exec_startInterfaceRequest, execStartInterfaceRequest, exec_stopInterfaceRequest,
      execStopInterfaceRequest, exec_getDeviceInterfaceReport, execGetDeviceInterfaceReport, exec_getDeviceInterfaceState, execGetDeviceInterfaceState]
    exact ⟨State.inSession_closed hboot (.inr hsess), fun st => State.inSession_closed hboot (.inr hsess), State.inSession_closed hboot (.inr hsess),
      State.inSession_closed hboot (.inr hsess), State.inSession_closed hboot (.inr hsess)⟩
  case unlock =>
    rw [exec_interfaceUnlock, execInterfaceUnlock]
    exact if_pos (by rw [hstop, hidle]; rfl)

end Sys2Proof.Machine

/-! SUPPORT. What packets do (R114, R349, R351, R353, R438, R443). -/
namespace Sys2Proof.Machine

section
variable {s : State} {q pid : Nat} {k : Packet} (hk : s.packet q pid = some k) (hready : k.ready = false)
include hk hready

/-- A packet that has started and not begun takes effect (R351). -/
theorem State.beginPacket_begins (hbegun : k.begun = false) {type : Nat} (htype : k.type = type) (f : Packet → State → State) :
    s.beginPacket q pid type f = .next (f k (s.onPacket q pid fun p => { p with begun := true })) := by
  rw [State.beginPacket, hk]
  exact if_pos ⟨htype, by rw [hbegun]; rfl, by rw [hready]; rfl⟩

theorem execSignal_done (hbegun : k.begun = false) (htype : k.type = 4) {u : State}
    (hu : (if k.word 0x18 1 = 0 then (s.onPacket q pid fun p => { p with begun := true }).writeData (s.whoQueue q (.packet q pid)) (k.addrAt 0x10)
        (leBytes 8 (k.addrAt 0x20).toNat)
      else (s.onPacket q pid fun p => { p with begun := true }).updateSignal (s.whoQueue q (.packet q pid)) (k.addrAt 0x10) 16 (k.addrAt 0x20)
        (· + k.addrAt 0x20)) = .ok u) :
    execSignal q pid s = .next (((if k.word 0x1A 2 / 32768 = 1 then u.sendMsix q (k.word 0x1A 2 % 2048) else u).finishPacket q pid 0 0).wakeWaits
      (u.updatedLoc (s.whoQueue q (.packet q pid)) (k.addrAt 0x10))) := by
  rw [execSignal, State.beginPacket_begins hk hready hbegun htype]
  dsimp only
  rw [hu]

theorem execSignal_stopped (hbegun : k.begun = false) (htype : k.type = 4) {c : Cause}
    (hu : (if k.word 0x18 1 = 0 then (s.onPacket q pid fun p => { p with begun := true }).writeData (s.whoQueue q (.packet q pid)) (k.addrAt 0x10)
        (leBytes 8 (k.addrAt 0x20).toNat)
      else (s.onPacket q pid fun p => { p with begun := true }).updateSignal (s.whoQueue q (.packet q pid)) (k.addrAt 0x10) 16 (k.addrAt 0x20)
        (· + k.addrAt 0x20)) = .error c) :
    execSignal q pid s = .next ((s.onPacket q pid fun p => { p with begun := true }).packetData q pid (k.addrAt 0x10) c) := by
  rw [execSignal, State.beginPacket_begins hk hready hbegun htype]
  dsimp only
  rw [hu]

theorem execCopy_unread (hbegun : k.begun = false) (htype : k.type = 8) {c : Cause}
    (hread : (s.onPacket q pid fun p => { p with begun := true }).readData (s.whoQueue q (.packet q pid)) (k.addrAt 0x10) (k.word 0x20 8) = .error c) :
    execCopy q pid s = .next ((s.onPacket q pid fun p => { p with begun := true }).packetData q pid (k.addrAt 0x10) c) := by
  rw [execCopy, State.beginPacket_begins hk hready hbegun htype]
  dsimp only
  rw [hread]

theorem execCopy_done (hbegun : k.begun = false) (htype : k.type = 8) {b : ByteList} {u : State}
    (hread : (s.onPacket q pid fun p => { p with begun := true }).readData (s.whoQueue q (.packet q pid)) (k.addrAt 0x10) (k.word 0x20 8) = .ok b)
    (hwrite : (s.onPacket q pid fun p => { p with begun := true }).writeData (s.whoQueue q (.packet q pid)) (k.addrAt 0x18) b = .ok u) :
    execCopy q pid s = .next (u.finishPacket q pid 0 0) := by
  rw [execCopy, State.beginPacket_begins hk hready hbegun htype]
  dsimp only
  rw [hread]
  dsimp only
  rw [hwrite]

theorem execCopy_unwritten (hbegun : k.begun = false) (htype : k.type = 8) {b : ByteList} {c : Cause}
    (hread : (s.onPacket q pid fun p => { p with begun := true }).readData (s.whoQueue q (.packet q pid)) (k.addrAt 0x10) (k.word 0x20 8) = .ok b)
    (hwrite : (s.onPacket q pid fun p => { p with begun := true }).writeData (s.whoQueue q (.packet q pid)) (k.addrAt 0x18) b = .error c) :
    execCopy q pid s = .next ((s.onPacket q pid fun p => { p with begun := true }).packetData q pid (k.addrAt 0x18) c) := by
  rw [execCopy, State.beginPacket_begins hk hready hbegun htype]
  dsimp only
  rw [hread]
  dsimp only
  rw [hwrite]

/-- A WAIT on one signal whose value is not negative and meets the comparison is ready. -/
theorem execWait_met (hbegun : k.begun = false) (htype : k.type = 3) {v x : Word64} (hlist : k.list = [v])
    (hread : (s.onPacket q pid fun p => { p with begun := true }).readWord
      ((s.onPacket q pid fun p => { p with begun := true }).whoQueue q (.packet q k.pid)) v = .ok x)
    (hpos : 0 ≤ x.toInt) (hcmp : cmpWord (k.word 0x19 1) x (k.addrAt 0x20) = true) :
    execWait q pid s = .next (((s.onPacket q pid fun p => { p with begun := true }).spend (.packet q k.pid)).finishPacket q k.pid 0 0) := by
  have hneg : x.slt 0 = false := by
    rw [← Bool.not_eq_true, BitVec.slt_iff_toInt_lt]
    exact Int.not_lt.2 hpos
  rw [execWait, State.beginPacket_begins hk hready hbegun htype, State.evalWait, hlist]
  simp only [List.map_cons, List.map_nil, hread, List.findSome?_cons, List.findSome?_nil, List.filterMap_cons, List.filterMap_nil, Except.toOption,
    Option.map_some, List.find?_cons, List.find?_nil, hneg, List.all_cons, List.all_nil, hcmp, Bool.and_true, if_true]

theorem execCond_reads (hbegun : k.begun = false) (htype : k.type = 5) {v : Word64}
    (hread : (s.onPacket q pid fun p => { p with begun := true }).readWord (s.whoQueue q (.packet q pid)) (k.addrAt 0x10) = .ok v) :
    execCond q pid s = if cmpWord (k.word 0x18 1) v (k.addrAt 0x20)
      then .next ((s.onPacket q pid fun p => { p with begun := true }).finishPacket q pid 0 0)
      else .next ((s.onPacket q pid fun p => { p with begun := true }).condSkip q pid (k.word 0x1A 2)) := by
  rw [execCond, hk]
  refine (if_pos ⟨htype, by rw [hready]; rfl⟩).trans ((if_neg (by rw [hbegun]; exact Bool.false_ne_true)).trans ?_)
  dsimp only
  rw [hread]

theorem execCond_goesOn (hbegun : k.begun = true) (htype : k.type = 5) : execCond q pid s
    = .next (if (s.queue q).skip = 0 then s.finishPacket q pid 0 0 else s.condSkip q pid (s.queue q).skip) := by
  rw [execCond, hk]
  exact (if_pos ⟨htype, by rw [hready]; rfl⟩).trans (if_pos hbegun)

theorem execLoopPacket_reads (hbegun : k.begun = false) (htype : k.type = 6) {v : Word64}
    (hread : (s.onPacket q pid fun p => { p with begun := true }).readWord (s.whoQueue q (.packet q pid)) (k.addrAt 0x10) = .ok v) :
    execLoopPacket q pid s = .next ((if cmpWord (k.word 0x18 1) v (k.addrAt 0x20) = true ∧ (k.word 0x1C 4 = 0 ∨ (s.queue q).loopCount < k.word 0x1C 4)
      then (s.onPacket q pid fun p => { p with begun := true }).onQueue q (·.loopBack (k.word 0x1A 2))
      else s.onPacket q pid fun p => { p with begun := true }).finishPacket q pid 0 0) := by
  rw [execLoopPacket, State.beginPacket_begins hk hready hbegun htype]
  dsimp only
  rw [hread]
  simp only [Bool.and_eq_true, Bool.or_eq_true, beq_iff_eq, decide_eq_true_eq]

theorem execWaitPoll_polls (hbegun : k.begun = true) (htype : k.type = 3) : execWaitPoll q pid s = .next (s.evalWait q k) := by
  rw [execWaitPoll, hk]
  exact if_pos (by rw [Packet.polls, htype, hbegun, hready]; rfl)

section
variable (hfirst : (s.queue q).firstLeft pid = true)
include hfirst

theorem execEndPacket_first (htype : k.type = 10) : execEndPacket q pid s
    = .next ((s.onPacket q pid fun p => { p with begun := true }).finishPacket q pid 0 0) := by
  rw [execEndPacket, hk]
  exact if_pos ⟨htype, by rw [hready]; rfl, hfirst⟩

/-- The scopes of a fence whose earlier packets have completed. -/
theorem execFencePacket_scopes (htype : k.type = 9) :
    (k.word 0x10 1 = 4 → execFencePacket q pid s = .next (s.finishPacket q pid 0 0))
    ∧ (k.word 0x10 1 = 5 → s.writesOut q = false → execFencePacket q pid s = .next (s.finishPacket q pid 0 0))
    ∧ (k.word 0x10 1 = 6 → k.begun = false → execFencePacket q pid s
      = .next ((s.ask (.packet q pid) (s.queue q).keyid 2 0 0 0 8 []).onPacket q pid fun p => { p with begun := true }))
    ∧ (k.word 0x10 1 = 6 → k.begun = true → s.writesOut q = false → (s.requests.any fun r => r.whose == .packet q pid) = false →
      execFencePacket q pid s = .next (s.finishPacket q pid 0 0)) := by
  have hgo : k.type = 9 ∧ (!k.ready) = true ∧ (s.queue q).firstLeft pid = true := ⟨htype, by rw [hready]; rfl, hfirst⟩
  rw [execFencePacket, hk]
  dsimp only
  rw [if_pos hgo]
  refine ⟨fun h => ?_, fun h hout => ?_, fun h hb => ?_, fun h hb hout hreq => ?_⟩
  · rw [h] <;> rfl
  · rw [h]
    exact if_neg (by rw [hout]; exact Bool.false_ne_true)
  · rw [h]
    exact if_neg (by rw [hb]; exact Bool.false_ne_true)
  · rw [h]
    exact (if_pos hb).trans (if_neg (by rw [hout, hreq]; exact Bool.false_ne_true))

end

end

theorem State.condSkip_passes {s : State} {q pid n : Nat} {x : Queue} (h : (s.queue q).passOver n = some x) :
    s.condSkip q pid n = (s.setQueue q { x with skip := 0 }).finishPacket q pid 0 0 := by
  rw [State.condSkip, h]

theorem State.condSkip_holds {s : State} {q pid n : Nat} (h : (s.queue q).passOver n = none) :
    s.condSkip q pid n = s.onQueue q fun x => { x with skip := n } := by
  rw [State.condSkip, h]

/-- Settles O40: each packet by its own branch. -/
theorem packetEffects : Obligations.PacketEffects := by
  unfold Obligations.PacketEffects
  refine ⟨fun s q pid k hk hbegun hready => ?once, fun s q pid k hk hready => ?later⟩
  case once =>
    dsimp only
    refine ⟨fun h => ?_, fun h => ⟨fun u hu => execSignal_done hk hready hbegun h hu,
      fun c hc => execSignal_stopped hk hready hbegun h hc⟩, fun h => ?_,
      fun h => ⟨fun c hc => execCopy_unread hk hready hbegun h hc, fun b hb => ⟨fun u hu => execCopy_done hk hready hbegun h hb hu,
        fun c hc => execCopy_unwritten hk hready hbegun h hb hc⟩⟩, fun h v hv x hx hpos hcmp hpid => ?_⟩
    · rw [exec_nopPacket, execNopPacket, State.beginPacket_begins hk hready hbegun h]
      rfl
    · rw [exec_indirect, execIndirect, State.beginPacket_begins hk hready hbegun h]
    subst hpid
    exact execWait_met hk hready hbegun h hv hx hpos hcmp
  case later =>
    dsimp only
    refine ⟨fun h hb => execWaitPoll_polls hk hready hb h, fun h hb v hv => ⟨fun hc => ?_, fun hc => ⟨fun x hx => ?_, fun hx => ?_⟩⟩,
      fun h hb => ⟨fun hs => ?_, fun hs x hx => ?_⟩, fun h hb v hv => execLoopPacket_reads hk hready hb h hv,
      fun h hfirst => execFencePacket_scopes hk hready hfirst h, fun h hfirst => execEndPacket_first hk hready hfirst h⟩
    · exact (execCond_reads hk hready hb h hv).trans (if_pos hc)
    · refine (execCond_reads hk hready hb h hv).trans ((if_neg (by rw [hc]; exact Bool.false_ne_true)).trans ?_)
      exact congrArg _ (State.condSkip_passes hx)
    · refine (execCond_reads hk hready hb h hv).trans ((if_neg (by rw [hc]; exact Bool.false_ne_true)).trans ?_)
      exact congrArg _ (State.condSkip_holds hx)
    · exact (execCond_goesOn hk hready hb h).trans (congrArg _ (if_pos hs))
    · exact (execCond_goesOn hk hready hb h).trans (congrArg _ ((if_neg hs).trans (State.condSkip_passes hx)))

end Sys2Proof.Machine

/-! SUPPORT. Starting and completing packets (R346, R349 to R354, R437, R438, R441). -/
namespace Sys2Proof.Machine

/-! ## Starting (R350, R441) -/

section
variable {s : State} {q : Nat} {a : Word64} {b : ByteList}

/-- The packet at the next address is read and checked once the ended levels are dropped. -/
theorem State.startNext_reads {t : State} (ht : s.onQueue q Queue.dropEnded = t) (ha : (t.queue q).nextAddr = some a)
    (hb : t.readForm (t.whoQueue q (.queue q)) a 64 = .ok b) :
    (∀ l, t.checkPacket q a b = .ok l → s.startNext q = ((t.setQueue q
      { (t.queue q).advance with packets := (t.queue q).packets ++ [{ (t.queue q).packetOf t.nextId a b with list := l }] }).bumpId).spend (.queue q))
    ∧ (∀ c, t.checkPacket q a b = .error c → c.waits = false →
      s.startNext q = ((t.onQueue q fun y => { y with ffault := none }).packetFault q a.toNat c).spend (.queue q)) := by
  subst ht
  unfold State.startNext
  dsimp only
  rw [ha]
  dsimp only
  rw [hb]
  dsimp only
  refine ⟨fun l hl => by rw [hl], fun c hc hw => ?_⟩
  rw [hc]
  exact if_neg (by rw [hw]; exact Bool.false_ne_true)

theorem State.checkPacket_form {o : Nat} (h : packetForm (if (s.queue q).owner = 0 then 2048 else 32) b = some o) :
    s.checkPacket q a b = .error ⟨0x901, a, BitVec.ofNat 64 o⟩ := by
  unfold State.checkPacket
  dsimp only
  rw [h]

end

/-! ## Completing (R352, R353) -/

section
variable {s : State} {q : Nat} {k : Packet} (habort : k.abort = none) (hstatus : k.status ≠ 3)
include habort hstatus

/-- The packet leaves its queue, and CPIDX passes it. -/
def State.leaves (s : State) (q : Nat) (k : Packet) : State :=
  (s.spend (.packet q k.pid)).onQueue q fun x => ({ x with packets := x.packets.filter fun p => p.pid != k.pid }).passCp

theorem State.endPacket_quiet (hntfy : field k.bytes 1 1 / 2 % 2 = 0) :
    s.endPacket q k = if k.type = 10 then (s.leaves q k).onQueue q (·.endAt k) else s.leaves q k := by
  unfold State.endPacket
  have hlive : (k.status == 3) = false := beq_eq_false_iff_ne.2 hstatus
  have hquiet : ¬field k.bytes 1 1 / 2 % 2 = 1 := by omega
  dsimp only
  rw [hlive, if_neg hquiet, habort]
  simp only [Bool.not_false, and_true]
  rfl

omit hstatus in
theorem State.endPacket_noted (hntfy : field k.bytes 1 1 / 2 % 2 = 1) (htype : k.type ≠ 10) : s.endPacket q k = (s.leaves q k).notify q k.addr
    (noteBytes 1 k.status (if k.status = 1 ∨ k.status = 2 then k.slot else 0) (field k.bytes 4 4) (BitVec.ofNat 64 k.ring)) := by
  unfold State.endPacket
  have hkind : ¬(k.type = 10 ∧ k.inRing ∧ !(k.status == 3)) := fun h => htype h.1
  have hend : ¬(k.type = 10 ∧ !(k.status == 3)) := fun h => htype h.1
  dsimp only
  rw [if_neg hkind, if_pos hntfy, if_neg hend, habort] <;> rfl

end

theorem Queue.endAt_stops (x : Queue) {k : Packet} (h : k.inRing = true) : (x.endAt k).stopped = true ∧ (x.endAt k).en = false := by
  rw [Queue.endAt, if_pos h]
  exact ⟨rfl, (getLsbD_setBits_clear _).1⟩

section
variable {s t : State} {q pid : Nat} {k : Packet} (ht : s.onQueue q Queue.dropEnded = t) (hk : t.packet q pid = some k) (hready : k.ready = true)
variable (htype : k.type ≠ 7) (hreq : (t.requests.any fun r => r.whose == .packet q k.pid) = false)
include ht hk hready htype hreq

theorem execPacketCompletion_completes : execPacketCompletion q pid s = .next (t.completePacket q k) := by
  subst ht
  unfold execPacketCompletion
  dsimp only
  rw [hk]
  refine if_pos ?_
  rw [State.mayComplete, hreq, if_neg htype, hready]
  rfl

theorem execPacketCompletion_ends (hdone : k.csig = 0 ∨ k.signalled = true) : execPacketCompletion q pid s = .next (t.endPacket q k) :=
  (execPacketCompletion_completes ht hk hready htype hreq).trans (congrArg _ (if_pos hdone))

theorem execPacketCompletion_signals (hsig : k.csig ≠ 0) (hnot : k.signalled = false) (hstatus : k.status ≠ 3) {u : State}
    (hu : t.updateSignal (t.whoQueue q (.packet q k.pid)) k.csig 16 (BitVec.allOnes 64) (· - 1) = .ok u) {v : State}
    (hv : (u.onPacket q k.pid fun p => { p with signalled := true }).wakeWaits (u.updatedLoc (t.whoQueue q (.packet q k.pid)) k.csig) = v) :
    execPacketCompletion q pid s = .next (if v.requests.any fun r => r.whose == .packet q k.pid then v else v.endPacket q k) := by
  subst hv
  have hdone : t.signalDone q k = .ok u := (if_neg hstatus).trans hu
  refine (execPacketCompletion_completes ht hk hready htype hreq).trans (congrArg _ ?_)
  unfold State.completePacket
  refine (if_neg (not_or.2 ⟨hsig, by rw [hnot]; exact Bool.false_ne_true⟩)).trans ?_
  dsimp only
  rw [hdone]

end

/-- Settles O39: a turn by what the next packet is, a completion by the steps that are left. -/
theorem packetStartsAndEnds : Obligations.PacketStartsAndEnds := by
  unfold Obligations.PacketStartsAndEnds
  refine ⟨fun s f q hfront hf hq => ?turn, ⟨fun s q pid k => ?completion, fun x k => x.endAt_stops, fun s q a b r hnotes hroom => ?note⟩⟩
  case turn =>
    have hgo : ¬(!s.frontRuns ∨ f ≥ 16) := by
      rintro (h | h)
      · rw [hfront] at h
        exact Bool.false_ne_true h
      · omega
    dsimp only
    simp only [exec_fetcherTurn, execFetcherTurn, if_neg hgo, hq]
    refine ⟨fun hmode => if_pos hmode, fun hmode a b ha hb => ?_⟩
    obtain ⟨hok, herr⟩ := State.startNext_reads rfl ha hb
    have hone : ¬(s.goOnSkips f).modesel.getLsbD 0 = true := by rw [hmode]; exact Bool.false_ne_true
    exact ⟨fun l hl => (if_neg hone).trans (congrArg _ (hok l hl)),
      fun o ho => (if_neg hone).trans (congrArg _ (herr _ (State.checkPacket_form ho) rfl))⟩
  case completion =>
    intro t hk hready htype hreq
    refine ⟨fun hdone hstatus habort hntfy => ⟨fun h10 => ?_, fun h10 => ?_⟩, fun hdone hstatus habort hntfy h10 => ?_,
      fun hsig hnot hstatus u hu => execPacketCompletion_signals rfl hk hready htype hreq hsig hnot hstatus hu rfl⟩
    · exact (execPacketCompletion_ends rfl hk hready htype hreq hdone).trans (congrArg _ ((State.endPacket_quiet habort hstatus hntfy).trans (if_neg h10)))
    · exact (execPacketCompletion_ends rfl hk hready htype hreq hdone).trans (congrArg _ ((State.endPacket_quiet habort hstatus hntfy).trans (if_pos h10)))
    · exact (execPacketCompletion_ends rfl hk hready htype hreq hdone).trans (congrArg _ (State.endPacket_noted habort hntfy h10))
  case note =>
    rw [exec_notificationWrite, execNotificationWrite, hnotes]
    exact if_neg (by rw [hroom]; exact Bool.false_ne_true)

end Sys2Proof.Machine

/-! SUPPORT. Accesses in flight: performed, returned, applied, served, completed (R100 to R107, R114, R203, R423, R435, R452 to R454). -/
namespace Sys2Proof.Machine

section
variable {s : State} {c i : Nat} {sc : Scope} (hitem : ((s.core c).items.any fun x => x.id == i && x.kind.isAccess) = true)
variable (hfrozen : (s.core c).frozen = false) (hopen : s.accessOpen c i = false)
include hitem hfrozen hopen

theorem execAccessPerformed_goes : execAccessPerformed c i sc s = .next (s.setCore c ((s.core c).perform i (s.reached c sc))) :=
  if_pos (by rw [hitem, hfrozen, hopen]; rfl)

/-- At the widest scope an access is counted no more. -/
theorem execAccessPerformed_forGood (hsc : sc = .gang ∨ (sc = .package ∧ (s.corePart c).gang = false)) :
    ∃ u, execAccessPerformed c i sc s = .next (s.setCore c u) ∧ u.items = (s.core c).items.filter (·.id != i) := by
  have hgang : s.reached c sc = .gang := by
    rcases hsc with rfl | ⟨rfl, hg⟩
    · rfl
    · exact if_pos ⟨rfl, by rw [hg]; rfl⟩
  refine ⟨_, execAccessPerformed_goes hitem hfrozen hopen, ?_⟩
  rw [hgang]
  rfl

theorem execAccessPerformed_atScope (hsc : ¬(sc = .gang ∨ (sc = .package ∧ (s.corePart c).gang = false))) :
    execAccessPerformed c i sc s = .next (s.setCore c { s.core c with
      items := (s.core c).items.map fun x => if x.id = i then { x with scope := some (widerScope x.scope sc) } else x, active := true, fresh := true }) := by
  obtain ⟨hne, hpack⟩ := not_or.1 hsc
  have hsame : s.reached c sc = sc := if_neg fun h => hpack ⟨h.1, by simpa using h.2⟩
  refine (execAccessPerformed_goes hitem hfrozen hopen).trans ?_
  rw [hsame]
  cases sc with
  | gang => exact absurd rfl hne
  | _ => rfl

end

/-! ## Causal stores and loads (R106, R107) -/

/-- The data of a store that arrive change memory at their place, and lines, and nothing else. -/
theorem State.applyData_leaves (s : State) (e : CausalStore) : (∀ x, ((s.applyData e).die x).causal = (s.die x).causal
    ∧ ((s.applyData e).die x).applied = (s.die x).applied) ∧ ∀ k, s.causalKey e.dpa e.key = some k → (s.applyData e).mem = memSetList s.mem k e.data := by
  unfold State.applyData
  cases hk : s.causalKey e.dpa e.key with
  | none => exact ⟨fun _ => ⟨rfl, rfl⟩, fun k h => absurd h (by simp)⟩
  | some key =>
    dsimp only
    cases hd : e.dpa with
    | none =>
      refine ⟨fun _ => ⟨rfl, rfl⟩, fun k h => ?_⟩
      rw [← Option.some_inj.1 h]
      rfl
    | some dpa =>
      have hlines := s.touchLines_onlyLines e.owner dpa key e.data.length false ((dpa + e.data.length - 1) / 64 + 1 - dpa / 64)
      refine ⟨fun x => ⟨hlines.causal x, hlines.applied x⟩, fun k h => ?_⟩
      rw [← Option.some_inj.1 h]
      exact congrArg (memSetList · key e.data) hlines.mem

section
variable {s : State} {d src : Nat} {e : CausalStore} (he : ((s.die d).causal.find? fun e => e.src == src && (s.die d).mayApply e) = some e)
include he

theorem execCausalStoreApply_lands (h : e.data = [] ∨ s.poolFrozen e.key = false) {u : State} (hu : s.landStore e = u) :
    execCausalStoreApply d src s = .next (u.onDie d fun y => { y with causal := y.causal.erase e, applied := bumpClock y.applied src }) := by
  subst hu
  unfold execCausalStoreApply
  dsimp only
  rw [he]
  refine if_neg ?_
  rcases h with h | h <;> simp [h]

end

theorem State.landStore_empty {s : State} {e : CausalStore} (h : e.data = []) : s.landStore e = s := if_pos (by rw [h]; rfl)

theorem State.landStore_data {s : State} {e : CausalStore} (h : e.data ≠ []) :
    (s.causalCause e.owner true e.dpa e.key e.data.length = none → s.landStore e = s.applyData e)
    ∧ ∀ x, s.causalCause e.owner true e.dpa e.key e.data.length = some x → s.landStore e = s.storeFailed e.core e.slot e.item x e.place := by
  have hne : ¬e.data.isEmpty = true := mt List.isEmpty_iff.1 h
  refine ⟨fun hc => (if_neg hne).trans ?_, fun x hc => (if_neg hne).trans ?_⟩ <;> rw [hc]

section
variable {s : State} {c k : Nat} {l : Load} (hl : ((s.strand c k).loads.find? fun l => l.home.isSome && l.val.isNone) = some l)
variable (hfrozen : (s.core c).frozen = false) (hpool : s.poolFrozen l.key = false)
variable (hclock : ∀ i, i < 8 → ((s.strand c k).seen[i]?).getD 0 ≤ (((s.die (l.home.getD 0)).applied)[i]?).getD 0)
include hl hfrozen hpool hclock

theorem execCausalLoadServe_covered :
    (s.causalCause (s.corePart c).key false l.dpa l.key l.nbytes = none → execCausalLoadServe c k s = .next (s.setStrand c k
      ((s.strand c k).served l (memList s.mem ((s.causalKey l.dpa l.key).getD l.key) l.nbytes) (s.die (l.home.getD 0)).applied)))
    ∧ ∀ x, s.causalCause (s.corePart c).key false l.dpa l.key l.nbytes = some x →
      execCausalLoadServe c k s = .next (s.setStrand c k ((s.strand c k).loseLoad l x)) := by
  have hall : ((List.range 8).all fun i => decide (((s.strand c k).seen[i]?.getD 0) ≤ (((s.die (l.home.getD 0)).applied)[i]?.getD 0))) = true := by
    rw [List.all_eq_true]
    exact fun i hi => decide_eq_true (hclock i (List.mem_range.1 hi))
  have hrun : ¬((s.core c).frozen || s.poolFrozen l.key) = true := by rw [hfrozen, hpool]; exact Bool.false_ne_true
  unfold execCausalLoadServe
  dsimp only
  rw [hl]
  dsimp only
  rw [if_neg hrun, if_pos hall]
  exact ⟨fun h => by rw [h], fun x h => by rw [h]⟩

end

/-! ## The ends of requests (R435, R453, R454) -/

section
variable {s : State} {req : Nat} {q : RemoteReq} (hq : s.openRequest req = some q)
include hq

theorem State.complete_ok (b : ByteList) : s.complete req (.ok b) = if q.tier = 0 then (s.dropRequest req).failRequest q (q.cause 0 0)
    else if q.tier = 2 ∧ q.kind = 0 then ((s.dropRequest req).pushedBy q).finishRequest q b else (s.dropRequest req).finishRequest q b := by
  unfold State.complete
  rw [hq]

theorem State.complete_error (e : Nat) : s.complete req (.error e)
    = (s.dropRequest req).failRequest q (q.cause 0xA03 (BitVec.ofNat 64 (e % 2 ^ 12 + q.peer * 2 ^ 16))) := by
  unfold State.complete
  rw [hq]

theorem execCompletionTimeout_open : execCompletionTimeout req s = .next ((s.dropRequest req).failRequest q (q.cause 0xA02 (BitVec.ofNat 64 q.peer))) := by
  unfold execCompletionTimeout
  rw [hq]

end

theorem RemoteReq.cause_out {q : RemoteReq} (h : q.tier ≠ 0) (code : Nat) (info1 : Word64) : q.cause code info1 = ⟨code, q.info, info1⟩ := if_neg h
theorem RemoteReq.cause_noRoute {q : RemoteReq} (h : q.tier = 0) (code : Nat) (info1 : Word64) :
    q.cause code info1 = ⟨0xA04, q.info, BitVec.ofNat 64 q.peer⟩ := if_pos h

theorem State.dropRequest_gone (s : State) (req : Nat) : ∀ r ∈ (s.dropRequest req).requests, r.id ≠ req := fun r hr => by
  simpa using (List.mem_filter.1 hr).2

/-- Settles O36: each event by its branch. -/
theorem accessEvents : Obligations.AccessEvents := by
  unfold Obligations.AccessEvents
  refine ⟨⟨fun s c i sc hitem hfrozen hopen => ⟨execAccessPerformed_forGood hitem hfrozen hopen, execAccessPerformed_atScope hitem hfrozen hopen⟩,
    fun s c k l hfrozen hl => ?returned, fun s d src e he hfree => ?applied, fun s c k l hl hfrozen hpool hclock =>
      execCausalLoadServe_covered hl hfrozen hpool hclock⟩, fun s req q hq => ⟨s.dropRequest_gone req, fun htier => ?ended, fun htier => ?noRoute⟩⟩
  case returned =>
    rw [exec_loadReturn, execLoadReturn]
    refine (if_neg (by rw [hfrozen]; exact Bool.false_ne_true)).trans ?_
    rw [hl]
  case applied =>
    refine ⟨fun hempty => execCausalStoreApply_lands he hfree (State.landStore_empty hempty), fun hdata hc => ⟨_,
      execCausalStoreApply_lands he hfree ((State.landStore_data hdata).1 hc), s.applyData_leaves e⟩, fun hdata x hx =>
      execCausalStoreApply_lands he hfree ((State.landStore_data hdata).2 x hx)⟩
  case ended =>
    simp only [exec_remoteCompletion, execRemoteCompletion, exec_completionTimeout]
    refine ⟨fun b h => ?_, fun b h2 h0 => ?_, fun e => ?_, ?_⟩
    · rw [State.complete_ok hq, if_neg htier, if_neg fun hc => h.elim (fun h2 => h2 hc.1) fun h0 => h0 hc.2]
    · rw [State.complete_ok hq, if_neg htier, if_pos ⟨h2, h0⟩]
      rfl
    · rw [State.complete_error hq, RemoteReq.cause_out htier]
    · rw [execCompletionTimeout_open hq, RemoteReq.cause_out htier]
  case noRoute =>
    simp only [exec_remoteCompletion, execRemoteCompletion, exec_completionTimeout]
    refine ⟨fun r => ?_, ?_⟩
    · cases r with
      | ok b => rw [State.complete_ok hq, if_pos htier, RemoteReq.cause_noRoute htier]
      | error e => rw [State.complete_error hq, RemoteReq.cause_noRoute htier]
    · rw [execCompletionTimeout_open hq, RemoteReq.cause_noRoute htier]

end Sys2Proof.Machine

/-! SUPPORT. Copy channels and the messages of collectives that leave the module. -/

namespace Sys2Proof.Machine

variable (s : State)

theorem runUnits_one_ok {step : Nat → State → Acc State} {note : Nat → State → State} {k : Nat} {s t : State} (h : step k s = .ok t) :
    runUnits step note 1 k s = (note (k + 1) t, none, true) := by simp only [runUnits, h]

theorem runUnits_one_wait {step : Nat → State → Acc State} {note : Nat → State → State} {k : Nat} {s : State} {w : Held}
    (h : step k s = .wait w) : runUnits step note 1 k s = (s.wait w, none, false) := by simp only [runUnits, h]

theorem runUnits_one_bad {step : Nat → State → Acc State} {note : Nat → State → State} {k : Nat} {s : State} {x : Cause}
    (h : step k s = .bad x) : runUnits step note 1 k s = (s, some x, false) := by simp only [runUnits, h]

/-- The rows that a channel moves in one turn, and how the last of them ended. -/
def State.copyTurn (c ch limit : Nat) (e : ChanEntry) : State × Option Cause × Bool :=
  let s1 := s.onCore c fun x => { x with lastChan := ch }
  let j := s1.copyJob c ch e
  runUnits (copyUnit j) (fun k u => ((u.noteRow c ch e k).stirred c).spend j.req)
    (min (copyUnits s1 j - e.row) (if s1.onlyChan c ch then limit else 1)) e.row s1

section runCopy
variable {s} {c ch limit : Nat} {e : ChanEntry} {u : State} (ht : s.nextChan c = some ch)
include ht

theorem State.runCopy_stopped {x : Cause} {fin : Bool} (h : s.copyTurn c ch limit e = (u, some x, fin)) :
    s.runCopy c ch limit e = u.stopCopy c ch e x := by
  unfold State.runCopy
  rw [if_pos ht]
  dsimp only
  rw [show runUnits _ _ _ _ _ = _ from h]

theorem State.runCopy_held (h : s.copyTurn c ch limit e = (u, none, false)) : s.runCopy c ch limit e = u := by
  unfold State.runCopy
  rw [if_pos ht]
  dsimp only
  rw [show runUnits _ _ _ _ _ = _ from h]
  rfl

theorem State.runCopy_moved (h : s.copyTurn c ch limit e = (u, none, true)) :
    let s1 := s.onCore c fun x => { x with lastChan := ch }
    let all := copyUnits s1 (s1.copyJob c ch e)
    s.runCopy c ch limit e = if all ≤ e.row + min (all - e.row) (if s1.onlyChan c ch then limit else 1) then u.finishCopy c ch e else u := by
  unfold State.runCopy
  rw [if_pos ht]
  dsimp only
  rw [show runUnits _ _ _ _ _ = _ from h]
  simp only [Bool.true_and, decide_eq_true_eq]

end runCopy

variable {s} in
theorem State.runCopy_noTurn {c ch limit : Nat} {e : ChanEntry} (ht : s.nextChan c ≠ some ch) : s.runCopy c ch limit e = s := if_neg ht

variable {s} in
theorem execCopyBoxRow_ready {c ch : Nat} {e : ChanEntry} (h : s.copyReady c ch = some e) :
    execCopyBoxRow c ch s = .next (s.runCopy c ch 1 e) := by unfold execCopyBoxRow; rw [h]

/-- COPY_BOX_ROW moves one row when its channel has rows left. -/
theorem min_left_one {all row : Nat} (h : row < all) (b : Bool) : min (all - row) (if b then 1 else 1) = 1 := by
  rw [ite_self]; omega

variable {s} in
theorem execCopyCompletion_closes {c ch : Nat} {e : ChanEntry} {r : List ChanEntry} (hc : (s.core c).chan ch = e :: r)
    (hsrc : ∀ n, e.src ≠ .task n) (hd : e.done = true) (hf : (s.core c).frozen = false) (ho : s.asksOpen (.copy c ch e.eid) = false) :
    execCopyCompletion c ch s = .next (s.closeCopy c ch e false) := by
  unfold execCopyCompletion
  rw [hc]
  dsimp only
  rw [hd, hf, ho]
  split
  · exact absurd ‹_› (hsrc _)
  · rfl

variable {s} in
theorem execCollectiveMessage_received {c n rank : Nat} {data : ByteList} {t : TaskRec} (hw : tabFind (s.core c).window n = some t)
    (ho : recOper t.bytes = 0x49 ∨ recOper t.bytes = 0x4A) (hl : s.linked = true) (hr : rank < s.ranks c (recPar t.bytes 2 0))
    (hs : (s.corePart c).span (recPar t.bytes 2 0) > 1) :
    execCollectiveMessage c n rank data s = .next (s.onCore c (·.receive n rank data)) := by
  unfold execCollectiveMessage
  rw [hw]
  exact if_pos ⟨ho, hr, hs, hl⟩

variable {s} in
theorem execCollectiveAbandon_ends {c n cause : Nat} {t : TaskRec} (hw : tabFind (s.core c).window n = some t)
    (ho : recOper t.bytes = 0x49 ∨ recOper t.bytes = 0x4A) (hl : s.linked = true) :
    execCollectiveAbandon c n cause s = .next (s.endRound c n cause (tagInfo t.bytes)) := by
  unfold execCollectiveAbandon
  rw [hw]
  exact if_pos ⟨ho, hl⟩

/-- Settles O35: a turn of one row is copyTurn with its one unit; the other three events take the branch that their premises name. -/
theorem copyAndCollectiveEvents : Obligations.CopyAndCollectiveEvents := by
  refine ⟨⟨fun s c ch e he ht => ?_, fun s c ch e r hc hsrc hd hf ho => ?_⟩, fun s c n t hw ho hl => ⟨fun rank data hr hs => ?_, fun cause => ?_⟩⟩
  · intro s1 j row hrow
    have hone : min (copyUnits s1 j - e.row) (if s1.onlyChan c ch then 1 else 1) = 1 := min_left_one hrow _
    have hmove : s.copyTurn c ch 1 e = runUnits (copyUnit j) (fun k u => ((u.noteRow c ch e k).stirred c).spend j.req) 1 e.row s1 :=
      congrArg (fun m => runUnits (copyUnit j) (fun k u => ((u.noteRow c ch e k).stirred c).spend j.req) m e.row s1) hone
    rw [exec_copyBoxRow, execCopyBoxRow_ready he]
    refine ⟨fun t hk => congrArg _ ?_, fun h hk => congrArg _ ?_, fun x hk => congrArg _ ?_⟩
    · refine (State.runCopy_moved ht (hmove.trans (runUnits_one_ok hk))).trans ?_
      rw [hone]
    · exact State.runCopy_held ht (hmove.trans (runUnits_one_wait hk))
    · exact State.runCopy_stopped ht (hmove.trans (runUnits_one_bad hk))
  · rw [exec_copyCompletion]; exact execCopyCompletion_closes hc hsrc hd hf ho
  · rw [exec_collectiveMessage]; exact execCollectiveMessage_received hw ho hl hr hs
  · rw [exec_collectiveAbandon]; exact execCollectiveAbandon_ends hw ho hl

end Sys2Proof.Machine

/-! SUPPORT. Admission, release and completion of tasks: what each changes of the task window. -/

namespace Sys2Proof.Machine

/-! ## Admission -/

/-- The fields of an entry that its record alone decides, and the ingress queue: entering a write region leaves them. -/
theorem Core.addWrite_keeps (x : Core) (t : TaskRec) (i : Nat) (g : Region) :
    (x.addWrite t i g).1.ingress = x.ingress ∧
      ((x.addWrite t i g).2.bytes, (x.addWrite t i g).2.st, (x.addWrite t i g).2.vbase) = (t.bytes, t.st, t.vbase) := by
  unfold Core.addWrite
  dsimp only
  split
  · exact ⟨rfl, rfl⟩
  · split
    · split <;> exact ⟨rfl, rfl⟩
    · split <;> exact ⟨rfl, rfl⟩

theorem Core.foldl_addWrite_keeps (l : List (Nat × Region)) (q : Core × TaskRec) :
    let y := l.foldl (fun q g => q.1.addWrite q.2 g.1 g.2) q
    y.1.ingress = q.1.ingress ∧ (y.2.bytes, y.2.st, y.2.vbase) = (q.2.bytes, q.2.st, q.2.vbase) := by
  induction l generalizing q with
  | nil => exact ⟨rfl, rfl⟩
  | cons g r ih =>
    obtain ⟨hi, ht⟩ := ih (q.1.addWrite q.2 g.1 g.2)
    obtain ⟨hi', ht'⟩ := Core.addWrite_keeps q.1 q.2 g.1 g.2
    exact ⟨hi.trans hi', ht.trans ht'⟩

theorem Core.enter_ingress (x : Core) (n : Nat) (r : ByteList) (v : Nat) : (x.enter n r v).ingress = x.ingress := by
  unfold Core.enter
  exact (Core.foldl_addWrite_keeps _ _).1

theorem Core.enter_entry (x : Core) (n : Nat) (r : ByteList) (v : Nat) :
    (tabFind (x.enter n r v).window n).map (fun e => (e.bytes, e.st, e.vbase)) = some (r, .admitted, v) := by
  unfold Core.enter
  dsimp only
  rw [tabFind_put_self]
  exact congrArg some (Core.foldl_addWrite_keeps _ _).2

section ingressAdmission
variable {s : State} {c : Nat} {b : ByteList} {r : List ByteList} (hl : s.coreLive c = true)
  (hturn : (s.core c).ingressTurn = true ∨ (s.core c).postPending = false) (hi : (s.core c).ingress = b :: r)
include hl hturn hi

omit hi in
theorem ingress_mayAdmit : (!s.coreLive c || (!(s.core c).ingressTurn && (s.core c).postPending)) = false := by
  rw [hl]
  obtain h | h := hturn <;> rw [h]
  · rfl
  · rw [Bool.and_false]; rfl

theorem execIngressAdmission_admits {v n : Nat} (hv : s.recordCheck c 0 b = .ok v) (hn : (s.core c).freeEntry = some n) :
    execIngressAdmission c s = .next (s.setCore c (({ s.core c with ingress := r, ingressTurn := false }).enter n b v)) := by
  unfold execIngressAdmission
  dsimp only
  rw [ingress_mayAdmit hl hturn, if_neg Bool.false_ne_true, hi]
  dsimp only
  rw [hv]
  dsimp only
  rw [hn]

theorem execIngressAdmission_drops {e : Cause} (hv : s.recordCheck c 0 b = .error e) :
    execIngressAdmission c s = .next ((s.setCore c { s.core c with ingress := r, ingressTurn := false }).errorRecord
      ⟨e.code, 1, 12, c, 0, false, some ((s.corePart c).queue, (s.corePart c).key), 0, e.info, e.info1, 0⟩) := by
  unfold execIngressAdmission
  dsimp only
  rw [ingress_mayAdmit hl hturn, if_neg Bool.false_ne_true, hi]
  dsimp only
  rw [hv]

end ingressAdmission

/-! ## Release -/

/-- What is left of the window when a task of a class is released: those passed over note it. -/
def Core.passedOver (x : Core) (cls : Nat) (t : TaskRec) : Tab TaskRec :=
  x.window.map fun p =>
    (p.1, if p.2.ready && recCls p.2.bytes == cls && decide (recPrio p.2.bytes < recPrio t.bytes) then { p.2 with passed := p.2.passed + 1 } else p.2)

theorem Core.passedOver_bytes (x : Core) (cls : Nat) (t : TaskRec) (m : Nat) :
    (tabFind (x.passedOver cls t) m).map (·.bytes) = (tabFind x.window m).map (·.bytes) := by
  have h := tabFind_map_value x.window (fun _ (y : TaskRec) =>
    if y.ready && recCls y.bytes == cls && decide (recPrio y.bytes < recPrio t.bytes) then { y with passed := y.passed + 1 } else y) m
  refine (congrArg (Option.map (·.bytes)) h).trans ?_
  rw [Option.map_map]
  refine congrArg (fun f => Option.map f (tabFind x.window m)) (funext fun y => ?_)
  dsimp only [Function.comp]
  split <;> rfl

/-- Binding the frames of a renamed task changes no window, and no other core. -/
theorem State.bindRename_window (s : State) (c : Nat) (t : TaskRec) (d : Nat) : ((s.bindRename c t).core d).window = (s.core d).window := by
  unfold State.bindRename
  refine (State.core_onCore_congr _ c (·.window) ?_ d).trans ?_
  · intro _; rfl
  generalize ((s.core c).renamedPages t).zip t.frames = l
  induction l generalizing s with
  | nil => rfl
  | cons p r ih =>
    refine (ih _).trans (State.core_onCore_congr _ c (·.window) ?_ d)
    intro _; rfl

theorem State.bindRename_core_ne (s : State) {c d : Nat} (h : d ≠ c) (t : TaskRec) : (s.bindRename c t).core d = s.core d := by
  unfold State.bindRename
  refine (State.core_setCore_other _ _ h).trans ?_
  generalize ((s.core c).renamedPages t).zip t.frames = l
  induction l generalizing s with
  | nil => rfl
  | cons p r ih => exact (ih _).trans (State.core_setCore_other _ _ h)

/-- A task as it is released: staged, or running, with the frames of its renamed pages bound. -/
def Core.releasedTask (x : Core) (cls : Nat) (t : TaskRec) : TaskRec :=
  { t with st := if cls = 1 ∨ (cls ≠ 3 ∧ x.engineBusy cls = true) then .staged else .running, bound := !t.frames.isEmpty }

/-- The core from which a task has been released. -/
def Core.released (x : Core) (id cls n : Nat) (t : TaskRec) : Core :=
  let y := { x with window := tabPut (x.passedOver cls t) n (x.releasedTask cls t), active := true, fresh := true }
  let y := y.count id (.task n) (y.matching (y.taskSpans t.bytes t.vbase))
  if cls = 3 then y.pushChan y.emptiest ⟨id, [], 0, .task n, false, false, [], []⟩ else y

theorem Core.released_window (x : Core) (id cls n : Nat) (t : TaskRec) : (x.released id cls n t).window
    = tabPut (x.passedOver cls t) n (x.releasedTask cls t) := by
  unfold Core.released
  dsimp only
  split <;> rfl

theorem execTaskRelease_releases {s : State} {c cls n : Nat} {t : TaskRec} (hl : s.coreLive c = true) (hp : (s.core c).hasPlace cls = true)
    (hpick : (s.core c).pickTask cls = some (n, t)) (hf : (s.core c).releasedFirst cls t = false) :
    execTaskRelease c cls s = .next (((s.setCore c ((s.core c).released s.nextId cls n t)).bumpId).bindRename c t) := by
  unfold execTaskRelease
  dsimp only
  rw [hl, hp, hpick]
  dsimp only
  rw [hf]
  rfl

/-! ## Completion -/

section taskCompletion
variable {s : State} {c n : Nat} {t : TaskRec} (hw : tabFind (s.core c).window n = some t) (hfr : (s.core c).frozen = false)
  (hst : t.st = .done) (ha : s.asksOpen (.task c n) = false) (hp : s.taskPubOpen c n = false)
include hw hfr hst ha hp

theorem execTaskCompletion_frees (h : t.pubPending = false) : execTaskCompletion c n s = .next (s.freeTask c n t t.flags) := by
  unfold execTaskCompletion
  rw [hw]
  dsimp only
  rw [hfr, hst, ha, hp, h]
  rfl

theorem execTaskCompletion_publishes (h : t.pubPending = true) (hr : t.rdeps = []) (hd : t.pdeps = [])
    (hheld : heldAmong (s.pubRegions c n t) = none) : execTaskCompletion c n s =
      .next (if (s.askTaskPub c n t).taskPubOpen c n then s.askTaskPub c n t else (s.askTaskPub c n t).freeTask c n t t.flags) := by
  unfold execTaskCompletion
  rw [hw]
  dsimp only
  rw [hfr, hst, ha, hp, h, hr, hd, hheld]
  rfl

end taskCompletion

/-- Settles O33: each event takes the branch that its premises name; what it leaves of the window is what entering, releasing and freeing leave. -/
theorem taskWindow : Obligations.TaskWindow := by
  refine ⟨⟨fun s c b r hl hturn hi => ⟨fun v n hv hn => ?_, fun e he => ?_⟩, fun s c cls n t hl hp hpick hf => ?_⟩,
    fun s c n t hw hfr hst ha hp => ⟨fun h => ?_, fun h hr hd hheld => ⟨fun ho => ?_, fun ho => ?_⟩⟩⟩
  · rw [exec_ingressAdmission]
    refine ⟨_, execIngressAdmission_admits hl hturn hi hv hn, rfl, ?_, ?_⟩
    · rw [State.core_setCore_self, Core.enter_ingress]
    · rw [State.core_setCore_self, Core.enter_entry]
  · rw [exec_ingressAdmission]; exact execIngressAdmission_drops hl hturn hi he
  · rw [exec_taskRelease]
    have hwin : ∀ d, ((((s.setCore c ((s.core c).released s.nextId cls n t)).bumpId).bindRename c t).core d).window
        = ((s.setCore c ((s.core c).released s.nextId cls n t)).core d).window := State.bindRename_window _ c t
    refine ⟨_, execTaskRelease_releases hl hp hpick hf, ⟨(s.core c).releasedTask cls t, ?_, rfl, rfl, rfl⟩, fun m hm => ?_, fun d hd => ?_⟩
    · rw [hwin, State.core_setCore_self, Core.released_window, tabFind_put_self]
    · rw [hwin, State.core_setCore_self, Core.released_window, tabFind_put_other _ _ hm, Core.passedOver_bytes]
    · exact (State.bindRename_core_ne _ hd t).trans (State.core_setCore_other _ _ hd)
  · rw [exec_taskCompletion]; exact execTaskCompletion_frees hw hfr hst ha hp h
  · rw [exec_taskCompletion, execTaskCompletion_publishes hw hfr hst ha hp h hr hd hheld, if_pos ho]
  · rw [exec_taskCompletion, execTaskCompletion_publishes hw hfr hst ha hp h hr hd hheld, if_neg (by rw [ho]; exact Bool.false_ne_true)]

end Sys2Proof.Machine

/-! SUPPORT. Publishes of scratchpads and of HBM, and the shadows that HBM regions take. -/

namespace Sys2Proof.Machine

/-! ## SCRATCHPAD_PUBLISH and FRAME_RETURN (R76, R116) -/

theorem Core.publish_window (x : Core) (l : List Nat) : (x.publish l).window = x.window := by
  unfold Core.publish
  induction l generalizing x with
  | nil => rfl
  | cons p r ih =>
    refine (ih _).trans ?_
    dsimp only
    split <;> rfl

theorem execScratchpadPublish_publishes {s : State} {c : Nat} (h : (s.core c).frozen = false) :
    execScratchpadPublish c s = .next (s.setCore c
      { (s.core c).publish (((s.core c).pubs.filter fun p => !(s.core c).touches p.pages).flatMap (·.pages)) with
        pubs := (s.core c).pubs.filter fun p => (s.core c).touches p.pages }) :=
  if_neg (by rw [h]; exact Bool.false_ne_true)

theorem execFrameReturn_returns {s : State} {c f : Nat} (h : (s.core c).frozen = false) (hu : s.frameUsed c f = false) :
    execFrameReturn c f s = .next (s.onCore c fun x => { x with retiring := x.retiring.filter (· != f) }) :=
  if_neg (by rw [h, hu]; exact Bool.false_ne_true)

/-! ## HBM_PUBLISH (R89, R116) -/

/-- The entry of a region whose shadow has become the region. -/
def RitEntry.takeShadow (e : RitEntry) : RitEntry := { e with pri := e.spri, spri := 0, shv := false }

/-- The table of a die once the shadow of one region, where it has one, is taken. -/
def ritPublish (t : Tab RitEntry) (l : Nat) : Tab RitEntry :=
  if (tabGet (RitEntry.init l) t l).shv then tabPut t l (tabGet (RitEntry.init l) t l).takeShadow else t

theorem ritPublish_self (t : Tab RitEntry) (l : Nat) : tabGet (RitEntry.init l) (ritPublish t l) l =
    if (tabGet (RitEntry.init l) t l).shv = true then (tabGet (RitEntry.init l) t l).takeShadow else tabGet (RitEntry.init l) t l := by
  unfold ritPublish
  split
  · exact tabGet_put_self _ _ _ _
  · rfl

theorem ritPublish_ne (t : Tab RitEntry) {l k : Nat} (h : k ≠ l) : tabGet (RitEntry.init k) (ritPublish t l) k = tabGet (RitEntry.init k) t k := by
  unfold ritPublish
  split
  · exact tabGet_put_other _ _ _ h
  · rfl

/-- A region that is asked for takes its shadow once, however often it is named. -/
theorem foldl_ritPublish (pages : List Nat) (t : Tab RitEntry) (k : Nat) : tabGet (RitEntry.init k) (pages.foldl ritPublish t) k =
    if k ∈ pages ∧ (tabGet (RitEntry.init k) t k).shv = true then (tabGet (RitEntry.init k) t k).takeShadow else tabGet (RitEntry.init k) t k := by
  induction pages generalizing t with
  | nil => exact (if_neg fun h => List.not_mem_nil h.1).symm
  | cons l r ih =>
    rw [List.foldl_cons, ih]
    by_cases hk : k = l
    · subst hk
      rw [ritPublish_self]
      by_cases hs : (tabGet (RitEntry.init k) t k).shv = true
      · rw [if_pos hs, if_neg fun h => Bool.false_ne_true h.2, if_pos ⟨List.mem_cons_self, hs⟩]
      · rw [if_neg hs, if_neg fun h => hs h.2, if_neg fun h => hs h.2]
    · rw [ritPublish_ne t hk]
      simp only [List.mem_cons, hk, false_or]

/-- A die from which a publish has been taken off, its shadows taken. -/
def Die.published (x : Die) (pages : List Nat) (r : List PendPub) : Die := { x with pubHeld := r, rit := pages.foldl ritPublish x.rit }

theorem State.applyRit_keeps (s : State) (d : Nat) : ((s.applyRit d).die d).pubHeld = (s.die d).pubHeld
    ∧ ((s.die d).ritHeld = [] → ((s.applyRit d).die d).rit = (s.die d).rit) := by
  unfold State.applyRit
  rw [State.die_onDie_self]
  refine ⟨rfl, fun h => ?_⟩
  simp only [h, List.filter_nil, List.foldl_nil]

/-- The state in which the regions of a publish have the counters of their shadows. -/
def State.takeCounters (s : State) (d : Nat) (pages : List Nat) : State :=
  { s with
    ctrs := (pages.filter fun l => (s.rit d l).shv).foldl
      (fun t l => tabCopy t (regionLines d l) s.shadowCtr (regionLines d (s.rit d l).spri) (2 ^ 15)) s.ctrs }

section hbmPublish
variable {s : State} {d : Nat} {p : PendPub} {r : List PendPub} (hp : (s.die d).pubHeld = p :: r)
  (ht : ∀ q ∈ s.cores, q.2.touches (p.pages.map (regionKey d)) = false) (hq : ∀ l ∈ p.pages, (s.rit d l).qs = false ∧ s.causalIn d l = false)
  (hlow : ∀ e, e < d → ∀ q ∈ (s.die e).pubHeld, q.id ≠ p.id)

include ht hq hlow in
theorem State.pubWaits_not : s.pubWaits d p = false := by
  have hforce : s.pubInForce d p = true := by
    unfold State.pubInForce
    simpa only [Bool.not_eq_true', List.any_eq_false, Bool.not_eq_true] using ht
  have hregions : (p.pages.any fun l => (s.rit d l).qs || s.causalIn d l) = false := by
    refine List.any_eq_false.2 fun l hl => ?_
    obtain ⟨hqs, hc⟩ := hq l hl
    rw [hqs, hc]
    exact Bool.false_ne_true
  have hdies : ((List.range d).any fun e => (s.die e).pubHeld.any fun q => q.id == p.id) = false := by
    simpa only [List.any_eq_false, List.mem_range, Bool.not_eq_true, beq_eq_false_iff_ne] using hlow
  unfold State.pubWaits
  rw [hforce, hregions, hdies]
  rfl

include hp ht hq hlow in
theorem execHbmPublish_publishes :
    execHbmPublish d s = .next (((s.takeCounters d p.pages).onDie d (·.published p.pages r)).applyRit d) := by
  unfold execHbmPublish
  rw [hp]
  dsimp only
  exact if_neg (by rw [State.pubWaits_not ht hq hlow]; exact Bool.false_ne_true)

end hbmPublish

/-! ## HBM_SHADOW_BIND (R88, R89, R427) -/

/-- A die without the requests for a shadow of a region. -/
def Die.dropAsk (x : Die) (l : Nat) : Die := { x with bindAsk := x.bindAsk.filter fun q => q.1 / 2 ^ 21 != l }

/-- The state in which a region has a shadow that holds what it holds. -/
def State.takeShadow (s : State) (d l p : Nat) : State :=
  let e := (s.die d).ritAt l
  let s0 := s.copyRegion d p e.pri
  { s0 with shadowCtr := tabCopy s0.shadowCtr (regionLines d p) s0.ctrs (regionLines d l) (2 ^ 15) }.setDie d
    { (s.die d).dropAsk l with rit := tabPut (s.die d).rit l { e with spri := p, shv := true } }

section shadowBind
variable {s : State} {d l a c n : Nat} (hf : ((s.die d).bindAsk.find? fun p => p.1 / 2 ^ 21 == l) = some (a, .task c n))
  (hq : ((s.die d).ritAt l).qs = false) (hs : ((s.die d).ritAt l).shv = false)
include hf hq hs

theorem execHbmShadowBind_takes {p : Nat} {r : List Nat} (hp : (s.die d).spares = p :: r) :
    execHbmShadowBind d l s = .next ((s.takeShadow d l p).onTask c n fun t => { t with shadows := (2 ^ 20 * (d + 1) + l) :: t.shadows }) := by
  unfold execHbmShadowBind
  dsimp only
  rw [hf]
  dsimp only
  rw [if_neg (by rw [hq]; exact Bool.false_ne_true), if_neg (by rw [hs]; exact Bool.false_ne_true), hp]
  rfl

theorem execHbmShadowBind_stops (hp : (s.die d).spares = []) (hc : s.regionComing d = false) :
    execHbmShadowBind d l s = .next ((s.setDie d ((s.die d).dropAsk l)).stopRunning c n ⟨0x801, BitVec.ofNat 64 (d * 2 ^ 37 + a), 0⟩) := by
  unfold execHbmShadowBind
  dsimp only
  rw [hf]
  dsimp only
  rw [hq, hs, hp]
  dsimp only
  rw [hc]
  rfl

end shadowBind

theorem State.takeShadow_ritAt (s : State) (d l p : Nat) :
    ((s.takeShadow d l p).die d).ritAt l = { (s.die d).ritAt l with spri := p, shv := true } := by
  unfold State.takeShadow
  dsimp only
  rw [State.die_setDie_self]
  exact tabGet_put_self _ _ _ _

/-- Settles O34: a publish takes off what it applies, and the folds over its pages touch each page once. -/
theorem publishing : Obligations.Publishing := by
  refine ⟨⟨fun s c h => ?_, fun s d p r hp ht hq hlow => ?_, fun s c f h hu => ?_⟩, fun s d l a c n hf hq hs => ⟨fun p r hp => ?_, fun hp hc => ?_⟩⟩
  · dsimp only
    rw [exec_scratchpadPublish]
    exact ⟨_, execScratchpadPublish_publishes h, rfl, rfl, Core.publish_window _ _⟩
  · rw [exec_hbmPublish]
    obtain ⟨hheld, hrit⟩ := ((s.takeCounters d p.pages).onDie d (·.published p.pages r)).applyRit_keeps d
    rw [State.die_onDie_self] at hheld hrit
    exact ⟨_, execHbmPublish_publishes hp ht hq hlow, hheld, rfl, fun hr k => (Die.ritAt_congr (hrit hr) k).trans (foldl_ritPublish _ _ _)⟩
  · rw [exec_frameReturn]; exact execFrameReturn_returns h hu
  · rw [exec_hbmShadowBind]
    have hrit := s.takeShadow_ritAt d l p
    exact ⟨_, execHbmShadowBind_takes hf hq hs hp,
      congrArg RitEntry.shv hrit, congrArg RitEntry.spri hrit, (congrArg RitEntry.pri hrit).trans rfl, rfl, rfl, rfl⟩
  · rw [exec_hbmShadowBind]; exact execHbmShadowBind_stops hf hq hs hp hc

end Sys2Proof.Machine

/-! SUPPORT. Launches from their packet to their end. -/

namespace Sys2Proof.Machine

/-! ## Packets that are refused -/

theorem State.meetRefusal_errseq (s : State) (code : Nat) (info1 : Word64) : (s.meetRefusal code info1).errseq = s.errseq := by
  unfold State.meetRefusal
  split <;> rfl

theorem State.queue_congr {s t : State} (h : t.queues = s.queues) (q : Nat) : t.queue q = s.queue q := by rw [State.queue, h, State.queue]

/-- A packet that a cause refuses is recorded under the identifier of its queue and leaves as aborted. -/
theorem State.packetFails_eq (s : State) (q : Nat) (k : Packet) (x : Cause) : s.packetFails q k x
    = ((s.meetRefusal x.code x.info1).keepRecord
        ⟨x.code, 2, 6, 0, 0, false, some (q, (s.queue q).keyid), k.addr, x.info, x.info1, 0⟩).abortPacket q k.pid x (some s.errseq.toNat) := by
  unfold State.packetFails
  dsimp only
  rw [State.meetRefusal_errseq, State.queue_congr (State.meetRefusal_queues _ _ _)]

theorem State.keyid_onPacket (s : State) (q pid : Nat) (f : Packet → Packet) : ((s.onPacket q pid f).queue q).keyid = (s.queue q).keyid :=
  (congrArg Queue.keyid (State.queue_onQueue_self s q _)).trans rfl

section launch
variable {s : State} {q pid : Nat} {k : Packet} (hk : s.packet q pid = some k) (hbegun : k.begun = false) (hready : k.ready = false) (htype : k.type = 1)
include hk hbegun hready htype

/-- The state in which a packet has begun. -/
abbrev State.begun (s : State) (q pid : Nat) : State := s.onPacket q pid fun p => { p with begun := true }

theorem execLaunch_asks {y : Part}
    (h : (s.begun q pid).checkLaunch ((s.begun q pid).whoQueue q (.packet q pid)) ((s.begun q pid).queue q).keyid ((s.begun q pid).newPart q k) = .ok y) :
    execLaunch q pid s = .next ((s.begun q pid).partAsks q pid y) := by
  rw [execLaunch, State.beginPacket_begins hk hready hbegun htype, h]

theorem execLaunch_fails {x : Cause} (hx : x.waits = false)
    (h : (s.begun q pid).checkLaunch ((s.begun q pid).whoQueue q (.packet q pid)) ((s.begun q pid).queue q).keyid ((s.begun q pid).newPart q k) = .error x) :
    execLaunch q pid s = .next ((s.begun q pid).packetFails q k x) := by
  rw [execLaunch, State.beginPacket_begins hk hready hbegun htype, h]
  exact congrArg _ (if_neg (by rw [hx]; exact Bool.false_ne_true))

end launch

/-! ## Set-up (R28, R33) -/

/-- The state in which the cores of a placement are set up. -/
def State.setUpCores (s : State) (p : Nat) (l : List Nat) : State := (l.zipIdx).foldl (fun t q => t.setUpCore p (s.part p) q.2 q.1) s

section setUp
variable {s : State} {p : Nat} {pl : Placement} {l : List Prog} (hph : (s.part p).phase = .waiting) (himg : (s.part p).image = none)
  (hfree : pl.cores.all (s.freeCore []) = true) (hin : placedIn none (s.part p).levels 0 4096 pl.cores = true)
  (hpl : s.placement (s.part p) pl = some l)
include hph himg hfree hin hpl

theorem execLaunchSetup_setsUp {v : State} (h : (s.setUpCores p pl.cores).loadProgs (s.partWho p (s.part p)) l = .ok v) :
    execLaunchSetup p pl s
      = .next ((v.setPart p { s.part p with cores := pl.cores, progs := l, phase := .setUp, setTick := s.tick }).spend (.part p)) := by
  unfold execLaunchSetup
  unfold State.setUpCores at h
  dsimp only
  rw [if_neg (by rw [hph, himg]; exact Bool.false_ne_true), if_neg (by rw [hfree, hin]; exact Bool.false_ne_true), hpl]
  dsimp only
  rw [h]

theorem execLaunchSetup_fails {x : Cause} (hx : x.waits = false)
    (h : (s.setUpCores p pl.cores).loadProgs (s.partWho p (s.part p)) l = .error x) :
    execLaunchSetup p pl s
      = .next (((s.setUpCores p pl.cores).setPart p { s.part p with cores := pl.cores, phase := .setUp }).partFails p x) := by
  unfold execLaunchSetup
  unfold State.setUpCores at h ⊢
  dsimp only
  rw [if_neg (by rw [hph, himg]; exact Bool.false_ne_true), if_neg (by rw [hfree, hin]; exact Bool.false_ne_true), hpl]
  dsimp only
  rw [h]
  exact if_neg (by rw [hx]; exact Bool.false_ne_true)

end setUp

/-! ## Start (R28, R38, R49) -/

theorem State.askedSave_none {s : State} {p : Nat} (h : (s.part p).asked = none) : s.askedSave p = s := by
  unfold State.askedSave
  rw [h]

section start
variable {s : State} {p : Nat} (hph : (s.part p).phase = .setUp)
include hph

theorem execLaunchStart_starts (hasked : (s.part p).asked = none)
    (h : (s.part p).gang = false ∨ ((s.part p).setTick.toNat ≤ (s.part p).atick.toNat ∧ s.tsync.getLsbD 1 = true
      ∧ (s.part p).atick.toNat ≤ s.tick.toNat)) :
    execLaunchStart p s = .next ((s.startStrands (s.part p)).setPart p { s.part p with phase := .running, started := s.steps }) := by
  have hset : ((s.startStrands (s.part p)).setPart p { s.part p with phase := .running, started := s.steps }).askedSave p
      = (s.startStrands (s.part p)).setPart p { s.part p with phase := .running, started := s.steps } :=
    State.askedSave_none ((congrArg Part.asked (tabGet_put_self _ _ _ _)).trans hasked)
  have hpast : ((s.part p).gang && decide ((s.part p).atick.toNat < (s.part p).setTick.toNat)) = false := by
    obtain h | ⟨h, -, -⟩ := h
    · rw [h]; rfl
    · rw [decide_eq_false (Nat.not_lt.2 h), Bool.and_false]
  have hagreed : ((s.part p).gang && !s.tsync.getLsbD 1) = false := by
    obtain h | ⟨-, h, -⟩ := h
    · rw [h]; rfl
    · rw [h]; exact Bool.and_false _
  have hcome : ((s.part p).gang && decide (s.tick.toNat < (s.part p).atick.toNat)) = false := by
    obtain h | ⟨-, -, h⟩ := h
    · rw [h]; rfl
    · rw [decide_eq_false (Nat.not_lt.2 h), Bool.and_false]
  unfold execLaunchStart
  dsimp only
  rw [if_neg (by rw [hph]; exact Bool.false_ne_true), if_neg (by rw [hpast]; exact Bool.false_ne_true),
    if_neg (by rw [hagreed]; exact Bool.false_ne_true), if_neg (by rw [hcome]; exact Bool.false_ne_true), hset]

theorem execLaunchStart_past (hg : (s.part p).gang = true) (h : (s.part p).atick.toNat < (s.part p).setTick.toNat) :
    execLaunchStart p s = .next (s.partFails p ⟨0x504, (s.part p).atick, (s.part p).setTick⟩) := by
  unfold execLaunchStart
  dsimp only
  rw [if_neg (by rw [hph]; exact Bool.false_ne_true), if_pos (by rw [hg, decide_eq_true h]; rfl)]

theorem execLaunchStart_noTime (hg : (s.part p).gang = true) (h : (s.part p).setTick.toNat ≤ (s.part p).atick.toNat)
    (ht : s.tsync.getLsbD 1 = false) : execLaunchStart p s = .next (s.partFails p ⟨0x505, (s.part p).atick, 0⟩) := by
  unfold execLaunchStart
  dsimp only
  rw [if_neg (by rw [hph]; exact Bool.false_ne_true),
    if_neg (by rw [decide_eq_false (Nat.not_lt.2 h), Bool.and_false]; exact Bool.false_ne_true), if_pos (by rw [hg, ht]; rfl)]

end start

/-! ## Completion (R43, R46) -/

theorem State.foldl_freed (l : List Nat) (t : State) :
    (l.foldl (fun u c => u.onCore c Core.freed) t).parts = t.parts ∧
      ∀ c, (c ∈ l ∨ (t.core c).part = none) → ((l.foldl (fun u c => u.onCore c Core.freed) t).core c).part = none := by
  induction l generalizing t with
  | nil => exact ⟨rfl, fun c h => h.resolve_left List.not_mem_nil⟩
  | cons d r ih =>
    obtain ⟨hparts, hfree⟩ := ih (t.onCore d Core.freed)
    refine ⟨hparts, fun c h => hfree c ?_⟩
    by_cases hc : c = d
    · exact .inr (by rw [hc, State.core_onCore_self]; rfl)
    · obtain h | h := h
      · exact .inl ((List.mem_cons.1 h).resolve_left hc)
      · exact .inr (by rw [State.onCore, State.core_setCore_other _ _ hc]; exact h)

theorem State.freePart_core {s : State} {p c : Nat} (h : c ∈ (s.part p).cores) : ((s.freePart p).core c).part = none :=
  (State.foldl_freed (s.part p).cores (s.disown (s.partOwns p))).2 c (.inl h)

theorem State.freePart_ctxs {s : State} {p : Nat} : ∀ q ∈ (s.freePart p).ctxs, q.2.part ≠ p := fun _ h =>
  bne_iff_ne.1 (List.mem_filter.1 h).2

theorem State.finishPacket_packets {s : State} {q pid status slot : Nat} : ∀ k ∈ ((s.finishPacket q pid status slot).queue q).packets,
    k.pid = pid → k.ready = true ∧ k.status = status := by
  unfold State.finishPacket
  rw [State.queue_onQueue_self]
  intro k hk hpid
  obtain ⟨y, -, rfl⟩ := List.mem_map.1 hk
  by_cases hy : y.pid = pid
  · rw [if_pos hy]; exact ⟨rfl, rfl⟩
  · rw [if_neg hy] at hpid; exact absurd hpid hy

/-- A launch part that has completed. -/
def Part.completed (y : Part) : Part := { y with phase := .complete, cores := [], progs := [] }

theorem execLaunchComplete_completes {s : State} {p : Nat} (hph : (s.part p).phase = .running) (hd : s.partDone p = true) :
    execLaunchComplete p s = .next (((s.freePart p).onPart p Part.completed).finishPacket (s.part p).queue (s.part p).pid 0 0) :=
  if_pos (by rw [hph, hd]; rfl)

/-- Settles O44: a launch packet's checks, its set-up, its start and its end each take the branch that their premises name. -/
theorem launchEvents : Obligations.LaunchEvents := by
  refine ⟨fun s q pid k hk hb hr ht => ?_, fun s p pl l hph himg hfree hin hpl => ?_,
    fun s p hph => ⟨fun h hasked => ?_, fun hg h => ?_, fun hg h ht => ?_⟩,
    fun s p hph hd => ?_⟩
  · dsimp only
    rw [exec_launch]
    refine ⟨fun y h => execLaunch_asks hk hb hr ht h, fun x h hx => ?_⟩
    rw [execLaunch_fails hk hb hr ht hx h, State.packetFails_eq, State.keyid_onPacket]
    rfl
  · dsimp only
    rw [exec_launchSetup]
    exact ⟨fun v h => execLaunchSetup_setsUp hph himg hfree hin hpl h, fun x h hx => execLaunchSetup_fails hph himg hfree hin hpl hx h⟩
  · rw [exec_launchStart]; exact execLaunchStart_starts hph hasked h
  · rw [exec_launchStart]; exact execLaunchStart_past hph hg h
  · rw [exec_launchStart]; exact execLaunchStart_noTime hph hg h ht
  · rw [exec_launchComplete]
    have hpart : (((s.freePart p).onPart p Part.completed).finishPacket (s.part p).queue (s.part p).pid 0 0).part p
        = ((s.freePart p).part p).completed := State.part_onPart_self _ p Part.completed
    exact ⟨_, execLaunchComplete_completes hph hd, congrArg Part.phase hpart, congrArg Part.cores hpart, fun c hc => State.freePart_core hc,
      State.freePart_ctxs, State.finishPacket_packets⟩

end Sys2Proof.Machine

/-! SUPPORT. Saves of launch parts and their resumes. -/

namespace Sys2Proof.Machine

/-! ## The decision of a save (R322, R323) -/

section
variable {s : State} {p : Nat}

theorem State.askSave_fails {reason : Nat} (hrun : (s.part p).phase = .running) (hfrozen : s.partFrozen p = false)
    (hslot : (s.queue (s.part p).queue).freeSlot = none) : s.askSave p reason = s.saveFail p 1 0 0 := by
  rw [State.askSave, if_pos hrun, hfrozen]
  exact (if_neg Bool.false_ne_true).trans (by rw [hslot])

theorem State.askSave_frozen {reason : Nat} (hrun : (s.part p).phase = .running) (hfrozen : s.partFrozen p = true) :
    s.askSave p reason = s.onPart p fun y => { y with asked := some (max reason (y.asked.getD 0)) } := by
  rw [State.askSave, if_pos hrun]
  exact if_pos hfrozen

theorem execYieldDeadline_asks (hrun : (s.part p).phase = .running) (hy : (s.part p).yreq = true)
    (hd : ((s.tick.truncate 32 : Word32) - (s.part p).dltick).toNat < 2 ^ 31) : execYieldDeadline p s = .next (s.askSave p 2) := by
  unfold execYieldDeadline
  dsimp only
  exact if_pos (by rw [hrun, hy, decide_eq_true hd]; rfl)

theorem execSaveStopped_rests (hph : (s.part p).phase = .saving) (himg : (s.part p).image = none) (hall : s.allStopped p = true) :
    execSaveStopped p s = .next (if ((s.restPart p).part p).phase = .saving then (s.restPart p).writeImage p else s.restPart p) := by
  unfold execSaveStopped
  dsimp only
  rw [if_neg (by rw [hph, himg]; exact Bool.false_ne_true), if_neg (by rw [hall]; exact Bool.false_ne_true)]
  simp only [beq_iff_eq]

end

/-! ## The end of a save (R325, R355, R356) -/

/-- A waiting part, if any, seeks the cores it needs. -/
def State.seekNext (s : State) : State :=
  match s.waitingParts with
  | q :: _ => s.seekVictims q
  | [] => s

section
variable {s : State} {p a : Nat} (hph : (s.part p).phase = .saving) (himg : (s.part p).image = some a)
  (hreq : (s.requests.any fun r => r.whose == .save p) = false)
include hph himg hreq

theorem preemption_mayComplete :
    ¬ ((s.part p).phase != .saving || (s.part p).image.isNone || (s.requests.any fun r => r.whose == .save p)) = true := by
  rw [hph, himg, hreq]
  exact Bool.false_ne_true

theorem execPreemptionComplete_saved (hr : (s.part p).reason ≠ 3) (hh : (s.part p).hosted = false) :
    execPreemptionComplete p s = .next (s.onPart p fun y => { y with phase := .saved }).seekNext := by
  have hends : ((s.part p).reason == 3 || (s.part p).hosted) = false := by rw [hh, beq_eq_false_iff_ne.2 hr]; rfl
  unfold execPreemptionComplete
  dsimp only
  rw [if_neg (preemption_mayComplete hph himg hreq), hends]
  rfl

theorem execPreemptionComplete_ends (h : ((s.part p).reason == 3 || (s.part p).hosted) = true) :
    execPreemptionComplete p s = .next ((s.onPart p fun y => { y with phase := .complete }).finishPacket
      (s.part p).queue (s.part p).pid (if (s.part p).reason = 3 then 1 else 2) (s.part p).slot).seekNext := by
  unfold execPreemptionComplete
  dsimp only
  rw [if_neg (preemption_mayComplete hph himg hreq), h]
  rfl

end

/-! ## RESUME (R335, R434) -/

section
variable {s : State} {q pid : Nat} {k : Packet} (hk : s.packet q pid = some k) (hbegun : k.begun = false) (hready : k.ready = false) (htype : k.type = 2)

/-- What a RESUME packet's image is found to be, once its slot is free again. -/
def State.resumeCheck (s : State) (q pid : Nat) (k : Packet) : Except Cause Part :=
  s.checkImage (s.whoQueue q (.packet q pid)) (s.queue q).keyid (s.newPart q k) (k.addrAt 0x10)

include hk hbegun hready htype

theorem execResume_asks {y : Part} (h : ((s.begun q pid).freeSlotOf q (k.addrAt 0x10).toNat).resumeCheck q pid k = .ok y) :
    execResume q pid s = .next (((s.begun q pid).freeSlotOf q (k.addrAt 0x10).toNat).partAsks q pid y) := by
  rw [execResume, State.beginPacket_begins hk hready hbegun htype]
  unfold State.resumeCheck at h
  dsimp only
  rw [h]

theorem execResume_stops {x : Cause} (h : ((s.begun q pid).freeSlotOf q (k.addrAt 0x10).toNat).resumeCheck q pid k = .error x) :
    execResume q pid s = .next (((s.begun q pid).freeSlotOf q (k.addrAt 0x10).toNat).launchStops q k x) := by
  rw [execResume, State.beginPacket_begins hk hready hbegun htype]
  unfold State.resumeCheck at h
  dsimp only
  rw [h]

end

theorem State.launchStops_fails {x : Cause} (s : State) (q : Nat) (k : Packet) (hx : x.waits = false) :
    s.launchStops q k x = s.packetFails q k x := if_neg (by rw [hx]; exact Bool.false_ne_true)

theorem State.launchStops_waits {x : Cause} (s : State) (q : Nat) (k : Packet) (hx : x.waits = true) :
    s.launchStops q k x = (s.await (s.whoQueue q (.packet q k.pid)) x).onPacket q k.pid fun k => { k with begun := k.type == 3 } :=
  (if_pos hx).trans (if_pos hx)

/-! ## RESUME_RESTORE and HARDWARE_RESUME (R31, R335, R355, R356) -/

/-- A part that runs again on the cores and with the programs it has now, with nothing left of its save. -/
def State.resumedPart (s : State) (p : Nat) (cores : NatList) (l : List Prog) : Part :=
  { s.part p with
    cores := cores, progs := l, phase := .running, image := none, bars := [], started := s.steps, hosted := false
    yreq := false, forced := false, dltick := 0, setTick := s.tick, asked := none }

section
variable {s t : State} {p img : Nat} {pl : Placement} {l : List Prog} (himg : (s.part p).image = some img) (hph : (s.part p).phase = .waiting)
  (hfree : pl.cores.all (s.freeCore []) = true) (hin : placedIn none (s.part p).levels 0 4096 pl.cores = true)
  (hhome : keepsHomes (s.part p).homes pl.cores = true) (hpl : s.placement (s.part p) pl = some l)
  (hl : s.loadProgs (s.partWho p (s.part p)) l = .ok t)
include himg hph hfree hin hhome hpl hl

theorem execResumeRestore_restores {b : ByteList} (hb : t.readImage (s.partWho p (s.part p)) (s.part p).key (BitVec.ofNat 64 img) = .ok b) :
    execResumeRestore p pl s = .next (((t.setPart p (s.resumedPart p pl.cores l)).restoreUnits p b).spend (.part p)) := by
  unfold execResumeRestore
  dsimp only
  rw [himg]
  dsimp only
  rw [if_neg (by rw [hph]; exact Bool.false_ne_true), if_neg (by rw [hfree, hin, hhome]; exact Bool.false_ne_true), hpl]
  dsimp only
  rw [hl]
  dsimp only
  rw [hb]
  rfl

theorem execResumeRestore_unread {x : Cause} (hx : t.readImage (s.partWho p (s.part p)) (s.part p).key (BitVec.ofNat 64 img) = .error x) :
    execResumeRestore p pl s = .next (if x.waits then s.await (s.partWho p (s.part p)) x
      else s.restoreFails p (s.part p) pl.cores (BitVec.ofNat 64 img)) := by
  unfold execResumeRestore
  dsimp only
  rw [himg]
  dsimp only
  rw [if_neg (by rw [hph]; exact Bool.false_ne_true), if_neg (by rw [hfree, hin, hhome]; exact Bool.false_ne_true), hpl]
  dsimp only
  rw [hl]
  dsimp only
  rw [hx]

end

section
variable {s : State} {p : Nat} (hp : (s.savedParts.find? fun p => !s.forestalled p && s.fits [] (s.part p)) = some p)

/-- The state in which the front end checks the image of a part: its slot is free again. -/
def State.rechecked (s : State) (p : Nat) : State := s.freeSlotOf (s.part p).queue (BitVec.ofNat 64 ((s.part p).image.getD 0)).toNat

/-- What the front end finds a saved part's image to be. -/
def State.savedCheck (s : State) (p : Nat) : Except Cause Part :=
  (s.rechecked p).checkImage ((s.rechecked p).partWho p (s.part p)) (s.part p).key (s.part p) (BitVec.ofNat 64 ((s.part p).image.getD 0))

include hp

theorem execHardwareResume_resumes {q : Part} (h : s.savedCheck p = .ok q) :
    execHardwareResume s = .next (((s.rechecked p).setPart p q).spend (.part p)) := by
  unfold execHardwareResume
  unfold State.savedCheck State.rechecked at h
  rw [hp]
  dsimp only
  rw [h]
  rfl

theorem execHardwareResume_fails {x : Cause} (h : s.savedCheck p = .error x) : execHardwareResume s
    = .next (if x.waits then s.await ((s.rechecked p).partWho p (s.part p)) x else (s.rechecked p).partFails p x) := by
  unfold execHardwareResume
  unfold State.savedCheck State.rechecked at h
  rw [hp]
  dsimp only
  rw [h]
  rfl

end

/-- Settles O45: a save by its decision, a resume by what its image is found to be. -/
theorem savesAndResumes : Obligations.SavesAndResumes := by
  refine ⟨⟨fun s p hrun hy hd => ?_, fun s p hph himg hall => ?_, fun s p a hph himg hreq => ?_⟩, fun s q pid k hk hb hr ht => ?_,
    fun s p img pl l t himg hph hfree hin hhome hpl hl => ?_, fun s p hp => ?_⟩
  · rw [exec_yieldDeadline, execYieldDeadline_asks hrun hy hd]
    refine ⟨fun n hf hn => ?_, fun hf hn => ?_, fun hf => ?_⟩
    · have hpart := ((s.onPart p fun y => { y with asked := none }).decideSave_part p 2 n)
      rw [State.part_onPart_self] at hpart
      have hqueue := ((s.onPart p fun y => { y with asked := none }).decideSave_queue p 2 n)
      rw [State.part_onPart_self] at hqueue
      refine ⟨_, by rw [State.askSave_decides hrun hf hn], congrArg Part.phase hpart, congrArg Part.reason hpart, congrArg Part.slot hpart,
        (congrArg Part.forced hpart).trans (Bool.or_true _), congrArg Queue.used hqueue, rfl⟩
    · rw [State.askSave_fails hrun hf hn]
    · rw [State.askSave_frozen hrun hf]
  · rw [exec_saveStopped]; exact execSaveStopped_rests hph himg hall
  · dsimp only
    rw [exec_preemptionComplete]
    refine ⟨fun h3 hh => ?_, fun h3 => ?_, fun h3 hh => ?_⟩
    · exact execPreemptionComplete_saved hph himg hreq h3 hh
    · refine (execPreemptionComplete_ends hph himg hreq (by rw [h3]; rfl)).trans ?_
      rw [if_pos h3]
      rfl
    · refine (execPreemptionComplete_ends hph himg hreq (by rw [hh, Bool.or_true])).trans ?_
      rw [if_neg h3]
      rfl
  · dsimp only
    rw [exec_resume]
    refine ⟨fun y h => execResume_asks hk hb hr ht h, fun x h hx => ?_, fun x h hx => ?_⟩
    · rw [execResume_stops hk hb hr ht h, State.launchStops_fails _ _ _ hx, State.packetFails_eq]
      rfl
    · rw [execResume_stops hk hb hr ht h, State.launchStops_waits _ _ _ hx]
  · dsimp only
    rw [exec_resumeRestore]
    exact ⟨fun b hb => execResumeRestore_restores himg hph hfree hin hhome hpl hl hb,
      fun x hx => execResumeRestore_unread himg hph hfree hin hhome hpl hl hx⟩
  · dsimp only
    rw [exec_hardwareResume]
    exact ⟨fun q h => execHardwareResume_resumes hp h, fun x h => execHardwareResume_fails hp h⟩

end Sys2Proof.Machine

/-! SUPPORT. What the host reaches: registers, configuration items and BAR2. -/

namespace Sys2Proof.Machine

/-! ## Accesses of the host that are served or held (R92) -/

theorem State.OnlyCaches.port {s u : State} (h : s.OnlyCaches u) : u.port = s.port := have e := congrArg State.port h.rest; e

theorem State.serve_cores (s : State) (p : Piece) : (s.serve p).cores = s.cores := by
  unfold State.serve
  split
  · have hlines : ∀ (l : List Nat) (n : Nat) (t : State), (l.foldl (fun t i => t.cacheLine ((n + i) * 64)) t).cores = t.cores := by
      intro l n t
      induction l generalizing t with
      | nil => rfl
      | cons i r ih => exact (ih _).trans (State.cacheLine_onlyLines t _).cores
    exact hlines _ _ s
  · rfl

theorem State.foldl_serve_cores (ps : List Piece) (s : State) : (ps.foldl State.serve s).cores = s.cores := by
  induction ps generalizing s with
  | nil => rfl
  | cons p r ih => exact (ih _).trans (s.serve_cores p)

/-- What the host let go on leaves alone. -/
theorem State.letOutside_keeps (s : State) : s.letOutside.mem = s.mem ∧ s.letOutside.port = s.port ∧ s.letOutside.cores = s.cores := by
  unfold State.letOutside
  split <;> exact ⟨rfl, rfl, rfl⟩

/-! ## Register writes (R338 to R340, R345) -/

section registerWrite
variable {s : State} {off size : Nat} {v : Word64}

theorem State.hostWrite_refused {priv : Bool} {report : Nat} (h : size ≠ 8 ∨ s.apertureRead true off = none) :
    s.hostWrite priv report off size v = s.errorRecord ⟨0x908, 0, 6, 0, 0, false, none, 0, BitVec.ofNat 64 report, 1, 0⟩ := by
  unfold State.hostWrite
  exact if_pos (h.imp_right fun h => by rw [h]; rfl)

theorem State.hostWrite_writes {priv : Bool} {report : Nat} {x : Word64} (h8 : size = 8) (h : s.apertureRead true off = some x) :
    s.hostWrite priv report off size v = s.apertureWrite priv priv 6 off v := by
  unfold State.hostWrite
  exact if_neg (not_or.2 ⟨fun hn => hn h8, by rw [h]; exact Bool.false_ne_true⟩)

variable (hb : s.keel.booted = true)
include hb

theorem execRegisterWrite_held (h : (atDoorbell off && s.postedHeld) = true) :
    execRegisterWrite .pf off size v s = .next (s.holdOutside (.registerWrite .pf off size v) 0) :=
  (if_neg (by rw [hb]; exact Bool.false_ne_true)).trans (if_pos h)

theorem execRegisterWrite_pf (h : (atDoorbell off && s.postedHeld) = false) :
    execRegisterWrite .pf off size v s = .next (s.letOutside.hostWrite true off off size v) :=
  (if_neg (by rw [hb]; exact Bool.false_ne_true)).trans (if_neg (by rw [h]; exact Bool.false_ne_true))

theorem execRegisterWrite_deaf {n : Nat} {ide : Option Nat} (h : s.mmioOk n ide = false) : execRegisterWrite (.vf n ide) off size v s = .next s :=
  (if_neg (by rw [hb]; exact Bool.false_ne_true)).trans (if_pos (by rw [h]; rfl))

theorem execRegisterWrite_noQueue {n : Nat} {ide : Option Nat} (h : s.mmioOk n ide = true) (hq : s.vfQueue n (off / 4096) = none) :
    execRegisterWrite (.vf n ide) off size v s = .next s := by
  refine (if_neg (by rw [hb]; exact Bool.false_ne_true)).trans ((if_neg (by rw [h]; exact Bool.false_ne_true)).trans ?_)
  rw [hq]

theorem execRegisterWrite_vf {n q : Nat} {ide : Option Nat} (h : s.mmioOk n ide = true) (hq : s.vfQueue n (off / 4096) = some q) :
    execRegisterWrite (.vf n ide) off size v s = .next (s.hostWrite false off (q * 4096 + off % 4096) size v) := by
  refine (if_neg (by rw [hb]; exact Bool.false_ne_true)).trans ((if_neg (by rw [h]; exact Bool.false_ne_true)).trans ?_)
  rw [hq]

theorem execRegisterWrite_device {priv : Bool} {x : Word64} (h8 : size = 8) (hx : s.apertureRead true off = some x) :
    execRegisterWrite (.device priv) off size v s = .next (s.apertureWrite priv false 0 off v) :=
  (if_neg (by rw [hb]; exact Bool.false_ne_true)).trans (if_pos ⟨h8, by rw [hx]; rfl⟩)

end registerWrite

/-! ## Configuration items and the tables (R340, R357, R366, R374, R375) -/

section configuration
variable {s : State}

/-- An item of the physical function is written while no interface is frozen (R375). -/
theorem State.writePfItem_writes {item : Nat} {changes : Bool} {f : State → State} (h : s.anyFrozen = false) : s.writePfItem item changes f = f s :=
  if_neg (by rw [h, Bool.and_false]; exact Bool.false_ne_true)

theorem State.writePfItem_errs {item : Nat} {changes : Bool} {f : State → State} (h : s.anyFrozen = true) (hc : changes = true) :
    s.writePfItem item changes f = s.tdiErrorAll 1 (Config.configOffset item) := if_pos (by rw [h, hc]; rfl)

/-- An item of a function is written while its own interface is not frozen (R375). -/
theorem State.writeVfItem_writes {n item : Nat} {changes : Bool} {f : Vf → Vf} (hv : isVf n = true) (h : s.frozenVf n = false) :
    s.writeVfItem n item changes f = s.setVf n (f (s.vf n)) :=
  (if_neg (by rw [hv]; exact Bool.false_ne_true)).trans (if_neg (by rw [h, Bool.and_false]; exact Bool.false_ne_true))

theorem execRitWrite_takes {d l : Nat} {v : Word64} (hb : s.keel.booted = true) (hd : d < 8) (hl : l < 65536) :
    execRitWrite d l v s = .next (s.opRitWrite d l v) := if_pos ⟨hb, hd, hl⟩

theorem State.opRitWrite_free {d l : Nat} {v : Word64} (h : s.quiesced d l = false) :
    s.opRitWrite d l v = s.onDie d fun x => { x with rit := tabPut x.rit l (RitEntry.ofWord (x.ritAt l) v) } :=
  if_neg (by rw [h]; exact Bool.false_ne_true)

theorem State.opRitWrite_held {d l : Nat} {v : Word64} (h : s.quiesced d l = true) :
    s.opRitWrite d l v = s.onDie d fun x => { x with ritHeld := x.ritHeld ++ [(l, v)] } := if_pos h

end configuration

/-! ## BAR2 (R338, R446) -/

section bar2
variable {s : State} {tag addr n : Nat} (hb : s.keel.booted = true)
include hb

theorem execBar2Read_outside (h : n = 0 ∨ n > 4096 ∨ addr + n > 2 ^ 40) : execBar2Read tag addr n s
    = .next ((s.errorRecord ⟨0x908, 0, 6, 0, 0, false, none, 0, BitVec.ofNat 64 addr, 0, 0⟩).send (.bar2Error tag 0x908)) :=
  (if_neg (by rw [hb]; exact Bool.false_ne_true)).trans (if_pos h)

section inside
variable (h0 : 0 < n) (hn : n ≤ 4096) (ha : addr + n ≤ 2 ^ 40)
include h0 hn ha

omit hb in
theorem bar2_inside : ¬ (n = 0 ∨ n > 4096 ∨ addr + n > 2 ^ 40) := by omega

theorem execBar2Read_answers {b : ByteList} (h : s.readDpa (whoHost s.outsideReq) addr n = .ok b) : execBar2Read tag addr n s
    = .next (((((s.dpaPieces addr n).getD []).foldl State.serve s).letOutside).send (.bar2Data tag b)) := by
  unfold execBar2Read
  rw [if_neg (by rw [hb]; exact Bool.false_ne_true), if_neg (bar2_inside h0 hn ha), h]

theorem execBar2Read_waits {x : Cause} (h : s.readDpa (whoHost s.outsideReq) addr n = .error x) (hx : x.code = 3) :
    execBar2Read tag addr n s = .next (s.holdOutside (.bar2Read tag addr n) x.info.toNat) := by
  unfold execBar2Read
  rw [if_neg (by rw [hb]; exact Bool.false_ne_true), if_neg (bar2_inside h0 hn ha), h]
  exact if_pos hx

theorem execBar2Read_fails {x : Cause} (h : s.readDpa (whoHost s.outsideReq) addr n = .error x) (hx : x.code ≠ 3) : execBar2Read tag addr n s
    = .next ((if x.code = 0x606 then s.letOutside else s.letOutside.errorRecord (hostRecord x)).send (.bar2Error tag x.code)) := by
  unfold execBar2Read
  rw [if_neg (by rw [hb]; exact Bool.false_ne_true), if_neg (bar2_inside h0 hn ha), h]
  exact if_neg hx

end inside

section write
variable {b : ByteList} (hne : b ≠ [])
include hne

theorem execBar2Write_outside (h : addr + b.length > 2 ^ 40) : execBar2Write addr b s
    = .next (s.errorRecord ⟨0x908, 0, 6, 0, 0, false, none, 0, BitVec.ofNat 64 addr, 1, 0⟩) :=
  (if_neg (not_or.2 ⟨by rw [hb]; exact Bool.false_ne_true, hne⟩)).trans (if_pos h)

variable (h : addr + b.length ≤ 2 ^ 40)
include h

theorem execBar2Write_unbacked (hp : s.dpaPieces addr b.length = none) : execBar2Write addr b s = .next s.letOutside := by
  unfold execBar2Write
  rw [if_neg (not_or.2 ⟨by rw [hb]; exact Bool.false_ne_true, hne⟩), if_neg (Nat.not_lt.2 h), hp]

theorem execBar2Write_waits {ps : List Piece} {k : Nat} (hp : s.dpaPieces addr b.length = some ps)
    (hk : s.blockedAt s.outsideReq (pieceRegions ps) = some k) : execBar2Write addr b s = .next (s.holdOutside (.bar2Write addr b) k) := by
  unfold execBar2Write
  rw [if_neg (not_or.2 ⟨by rw [hb]; exact Bool.false_ne_true, hne⟩), if_neg (Nat.not_lt.2 h), hp]
  dsimp only
  rw [hk]

theorem execBar2Write_stores {ps : List Piece} (hp : s.dpaPieces addr b.length = some ps)
    (hk : s.blockedAt s.outsideReq (pieceRegions ps) = none) :
    execBar2Write addr b s = .next ((splitPieces ps b).foldl (fun t p => t.bar2Piece p.1 p.2) s.letOutside) := by
  unfold execBar2Write
  rw [if_neg (not_or.2 ⟨by rw [hb]; exact Bool.false_ne_true, hne⟩), if_neg (Nat.not_lt.2 h), hp]
  dsimp only
  rw [hk]

end write

end bar2

/-- Settles O46: a host access is served, held or refused as the branch that its premises name; serving fills caches alone. -/
theorem hostAccesses : Obligations.HostAccesses := by
  refine ⟨⟨fun s off size v hb hd => ?_, fun s off size v hb => ⟨fun h => ?_, fun n ide h => ?_, fun n ide h hq => ?_,
      fun n ide q h hq => ⟨fun hr => ?_, fun x h8 hx => ?_⟩, fun priv x h8 hx => ?_⟩, fun s v => ?configuration, fun s v hb => ?_, fun s d l v hb hd hl => ?_⟩,
    fun s tag addr hb => ⟨fun n h => ?_, fun n h0 hn ha => ⟨fun b h => ?_, fun x h hx => ?_, fun x h hx => ?_⟩, fun b hne h => ?_,
      fun b hne h => ⟨fun hp => ?_, fun ps hp => ⟨fun k hk => ?_, fun hk => ?_⟩⟩⟩⟩
  case configuration =>
    simp only [exec_configurationWrite]
    refine ⟨rfl, rfl, rfl, fun n hn => ?_, fun n hn hv => ⟨?_, ?_⟩, fun hf => ⟨?_, ?_, ?_⟩, fun hf hne => ?_,
      fun n hv hf => ⟨?_, ?_, fun w hw => ?_⟩, fun off => rfl⟩
    · exact congrArg _ (if_pos hn)
    · exact congrArg _ (if_pos ⟨hn, hv⟩)
    · exact congrArg _ (if_pos ⟨hn, hv⟩)
    · exact congrArg _ (State.writePfItem_writes hf)
    · exact congrArg _ (State.writePfItem_writes hf)
    · exact congrArg _ (State.writePfItem_writes hf)
    · exact congrArg _ (State.writePfItem_errs hf (bne_iff_ne.2 hne))
    · exact congrArg _ (State.writeVfItem_writes hv hf)
    · exact congrArg _ (State.writeVfItem_writes hv hf)
    · exact congrArg _ ((if_pos hw).trans (State.writeVfItem_writes hv hf))
  · dsimp only
    rw [exec_registerWrite, execRegisterWrite_pf hb hd]
    exact ⟨fun hr => congrArg _ (State.hostWrite_refused hr), fun x h8 hx => congrArg _ (State.hostWrite_writes h8 hx)⟩
  · rw [exec_registerWrite]; exact execRegisterWrite_held hb h
  · rw [exec_registerWrite]; exact execRegisterWrite_deaf hb h
  · rw [exec_registerWrite]; exact execRegisterWrite_noQueue hb h hq
  · rw [exec_registerWrite, execRegisterWrite_vf hb h hq, State.hostWrite_refused hr]
  · rw [exec_registerWrite, execRegisterWrite_vf hb h hq, State.hostWrite_writes h8 hx]
  · rw [exec_registerWrite]; exact execRegisterWrite_device hb h8 hx
  · rw [exec_modeselWrite]; exact if_pos hb
  · rw [exec_ritWrite, execRitWrite_takes hb hd hl]
    exact ⟨fun h => congrArg _ (State.opRitWrite_free h), fun h => congrArg _ (State.opRitWrite_held h)⟩
  · rw [exec_bar2Read]; exact execBar2Read_outside hb h
  · rw [exec_bar2Read]
    have hserve : s.OnlyCaches (((s.dpaPieces addr n).getD []).foldl State.serve s) := State.foldl_onlyCaches _ State.serve_onlyCaches _ _
    obtain ⟨hmem, hport, hcores⟩ := (((s.dpaPieces addr n).getD []).foldl State.serve s).letOutside_keeps
    exact ⟨_, execBar2Read_answers hb h0 hn ha h, hmem.trans hserve.mem, congrArg (· ++ [_]) (hport.trans hserve.port),
      hcores.trans (State.foldl_serve_cores _ _)⟩
  · rw [exec_bar2Read]; exact execBar2Read_waits hb h0 hn ha h hx
  · rw [exec_bar2Read]; exact execBar2Read_fails hb h0 hn ha h hx
  · rw [exec_bar2Write]; exact execBar2Write_outside hb hne h
  · rw [exec_bar2Write]; exact execBar2Write_unbacked hb hne h hp
  · rw [exec_bar2Write]; exact execBar2Write_waits hb hne h hp hk
  · rw [exec_bar2Write]; exact execBar2Write_stores hb hne h hp hk

end Sys2Proof.Machine

/-! SUPPORT. Task operations: the units of one turn and how the last of them ended; the latch; the vector engine's kernel block. -/

namespace Sys2Proof.Machine

/-! ## Matrix and transpose operations -/

/-- How many units of a task its next turn works at most. -/
def State.taskPace (s : State) (c n : Nat) (t : TaskRec) (units : State → Job → Nat) : Nat :=
  s.paced c (units (s.onTask c n fun y => { y with st := .running }) (t.job c n 0 0) - t.prog)
    ((s.core c).stopUnits t.bytes - t.prog % (s.core c).stopUnits t.bytes)

/-- The units that a task works in one turn, and how the last of them ended. -/
def State.taskTurn (s : State) (c n : Nat) (t : TaskRec) (units : State → Job → Nat) (step : Job → Nat → State → Acc State) :
    State × Option Cause × Bool :=
  runUnits (step (t.job c n 0 0)) (fun k u => ((u.onTask c n fun y => { y with prog := k }).stirred c).spend (t.job c n 0 0).req)
    (s.taskPace c n t units) t.prog (s.onTask c n fun y => { y with st := .running })

theorem State.paced_free {s : State} (hp : s.pace = none) {c : Nat} (hs : s.savingCore c = false) (left stop : Nat) : s.paced c left stop = left := by
  unfold State.paced
  rw [hp, hs]
  exact Nat.min_self left

section runTask
variable {s : State} {c n oper : Nat} {t : TaskRec} {units : State → Job → Nat} {step : Job → Nat → State → Acc State} {u : State}
  (hr : s.runnable c n oper = some t)
include hr

theorem State.runTask_worked (h : s.taskTurn c n t units step = (u, none, true)) : s.runTask c n oper units step
    = .next (if s.taskPace c n t units = units (s.onTask c n fun y => { y with st := .running }) (t.job c n 0 0) - t.prog
        then u.onTask c n fun y => { y with st := .done } else u) := by
  unfold State.taskTurn State.taskPace at h
  unfold State.runTask State.taskPace
  rw [hr]
  dsimp only
  rw [h]

theorem State.runTask_stopped {x : Cause} {b : Bool} (h : s.taskTurn c n t units step = (u, some x, b)) :
    s.runTask c n oper units step = .next (u.stopTask c n 0 x) := by
  unfold State.taskTurn State.taskPace at h
  unfold State.runTask
  rw [hr]
  dsimp only
  rw [h]

theorem State.runTask_held (h : s.taskTurn c n t units step = (u, none, false)) : s.runTask c n oper units step = .next u := by
  unfold State.taskTurn State.taskPace at h
  unfold State.runTask
  rw [hr]
  dsimp only
  rw [h]

end runTask

/-- What a turn of a matrix or transpose task does, whatever its operation. -/
theorem exec_runTask {s : State} {c n oper : Nat} (t : TaskRec) {units : State → Job → Nat} {step : Job → Nat → State → Acc State} {i : Instr}
    (hi : exec i s = s.runTask c n oper units step) :
    let starts := s.onTask c n fun y => { y with st := .running }
    let left := units starts (t.job c n 0 0) - t.prog
    (s.pace = none → s.savingCore c = false → s.taskPace c n t units = left) ∧
    (s.runnable c n oper = some t → ∀ u,
      (s.taskTurn c n t units step = (u, none, true) →
        exec i s = .next (if s.taskPace c n t units = left then u.onTask c n fun y => { y with st := .done } else u)) ∧
      (∀ x b, s.taskTurn c n t units step = (u, some x, b) → exec i s = .next (u.stopTask c n 0 x)) ∧
      (s.taskTurn c n t units step = (u, none, false) → exec i s = .next u)) := by
  rw [hi]
  exact ⟨fun hp hs => State.paced_free hp hs _ _, fun hr u =>
    ⟨fun h => State.runTask_worked hr h, fun x b h => State.runTask_stopped hr h, fun h => State.runTask_held hr h⟩⟩

/-! ## The latch (R241, R246) -/

theorem Acc.next_eq_ok {α β : Type} {a : Acc α} {f : α → Acc β} {v : β} (h : a.next f = .ok v) : ∃ x, a = .ok x ∧ f x = .ok v := by
  cases a with
  | ok x => exact ⟨x, rfl, h⟩
  | wait | bad | part => cases h

/-- What a task accrues is of its record alone. -/
theorem State.accrue_latch (s : State) (j : Job) (f : TaskFlags) :
    ((s.accrue j f).core j.core).lval = (s.core j.core).lval ∧ ((s.accrue j f).core j.core).lfmt = (s.core j.core).lfmt := by
  unfold State.accrue
  rw [State.core_onCore_self]
  exact ⟨rfl, rfl⟩

/-- A load of the latch leaves it valid, with the format it was loaded in. -/
theorem State.loadLatch_ok {s v : State} {j : Job} {code lf xf xs : Nat} (h : s.loadLatch j code lf xf xs = .ok v) :
    (v.core j.core).lval = true ∧ (v.core j.core).lfmt = code := by
  unfold State.loadLatch at h
  dsimp only at h
  obtain ⟨a, -, h⟩ := Acc.next_eq_ok h
  obtain ⟨w, -, h⟩ := Acc.next_eq_ok h
  split at h
  · cases h
  · obtain ⟨e, -, h⟩ := Acc.next_eq_ok h
    have hv := (Acc.ok.inj h).symm
    subst hv
    obtain ⟨hval, hfmt⟩ := State.accrue_latch (e.2.onCore j.core fun x => x.setLatch _) j _
    rw [State.core_onCore_self] at hval hfmt
    exact ⟨hval, hfmt⟩

theorem State.spoilLatch_lval (s : State) (j : Job) : ((s.spoilLatch j).core j.core).lval = false := by
  unfold State.spoilLatch
  rw [State.core_onCore_self]

theorem rankUnit_first {row : Job → Nat → State → Acc State} {j : Job} {s v : State} (h : rankUnit row j 0 s = .ok v) : (v.core j.core).lval = false := by
  cases h
  exact s.spoilLatch_lval j

theorem generatedStart_ok {j : Job} {p : Nat} {s v : State} (h : generatedStart j p s = .ok v) : (v.core j.core).lval = false := by
  cases h
  exact (s.countRows j p).spoilLatch_lval j

theorem State.productStart_invalid {s : State} {j : Job} (h : (s.core j.core).lval = false) (z : Bool) (p : Nat) :
    s.productStart z j p = .bad ⟨0x402, 0, 0⟩ := if_pos (by rw [h]; rfl)

/-! ## Copy-class operations -/

section copyTask
variable {s : State} {c n oper : Nat} {e : ChanEntry} {i : Instr} (hi : exec i s = s.copyTask c n oper)
  (he : s.copyReady c ((s.core c).chanOf n) = some e) (hsrc : e.src = .task n)
  (hop : recOper (s.copyJob c ((s.core c).chanOf n) e).bytes = oper)
include hi he hsrc hop

theorem exec_copyTask : exec i s
    = .next (s.runCopy c ((s.core c).chanOf n) (s.pace.getD (copyUnits s (s.copyJob c ((s.core c).chanOf n) e))) e) := by
  rw [hi]
  unfold State.copyTask
  dsimp only
  rw [he]
  exact if_pos ⟨hsrc, hop⟩

/-- What a copy-class task does, whatever its operation: its turn, or nothing. -/
theorem exec_copyTask_turn :
    let ch := (s.core c).chanOf n
    let s1 := s.onCore c fun x => { x with lastChan := ch }
    let all := copyUnits s1 (s1.copyJob c ch e)
    let limit := s.pace.getD (copyUnits s (s.copyJob c ch e))
    (s.nextChan c = some ch → ∀ u,
      (s.copyTurn c ch limit e = (u, none, true) →
        exec i s = .next (if all ≤ e.row + min (all - e.row) (if s1.onlyChan c ch then limit else 1) then u.finishCopy c ch e else u)) ∧
      (∀ x b, s.copyTurn c ch limit e = (u, some x, b) → exec i s = .next (u.stopCopy c ch e x)) ∧
      (s.copyTurn c ch limit e = (u, none, false) → exec i s = .next u)) ∧
    (s.nextChan c ≠ some ch → exec i s = .next s) := by
  intro ch s1 all limit
  rw [exec_copyTask hi he hsrc hop]
  refine ⟨fun ht u => ⟨fun h => congrArg _ ?_, fun x b h => congrArg _ ?_, fun h => congrArg _ ?_⟩, fun ht => congrArg _ ?_⟩
  · exact State.runCopy_moved ht h
  · exact State.runCopy_stopped ht h
  · exact State.runCopy_held ht h
  · exact State.runCopy_noTurn ht

end copyTask

/-! ## Vector kernels (R37, R255, R410) -/

section vk
variable {s : State} {c n : Nat} {t : TaskRec} {b : ByteList} (hw : tabFind (s.core c).window n = some t) (hst : t.st = .staged)
  (ho : recOper t.bytes = 0x20) (hs : (s.core c).staged = none) (hl : s.coreLive c = true)
  (hb : s.readLocalChecked c (recPar t.bytes 20 0) 96 = .ok b)
include hw hst ho hs hl

omit hw in
theorem acceptKernel_reads : ¬ (t.st ≠ .staged ∨ recOper t.bytes ≠ 0x20 ∨ (s.core c).staged.isSome ∨ !s.coreLive c) := by
  rw [hs, hl]
  simp [hst, ho]

include hb

theorem State.acceptKernel_accepts (h : kernelBlockBad b = none) : s.acceptKernel c n = s.onCore c fun x => { x with
    staged := some (Kernel.start n (BitVec.ofNat 64 (field b 0 8)) t.vbase
      (Vector.ofFn fun i : Fin 16 => BitVec.ofNat 32 (field b (0x10 + 4 * i.val) 4))) } := by
  unfold State.acceptKernel
  rw [hw]
  dsimp only
  rw [if_neg (acceptKernel_reads hst ho hs hl), hb]
  dsimp only
  rw [h]

theorem State.acceptKernel_stops {o : Nat} (h : kernelBlockBad b = some o) :
    s.acceptKernel c n = s.stopTask c n 0 ⟨0x401, BitVec.ofNat 64 (recPar t.bytes 20 0), BitVec.ofNat 64 o⟩ := by
  unfold State.acceptKernel
  rw [hw]
  dsimp only
  rw [if_neg (acceptKernel_reads hst ho hs hl), hb]
  dsimp only
  rw [h]

end vk

theorem execVectorKernelStart_starts {s : State} {c : Nat} {k : Kernel} (hk : (s.core c).kernel = none) (hs : (s.core c).staged = some k)
    (hl : s.coreLive c = true) : execVectorKernelStart c s = .next ((s.onCore c fun y =>
      { y with kernel := some k, staged := none, active := true, fresh := true }).onTask c k.entry fun t => { t with st := .running }) := by
  unfold execVectorKernelStart
  rw [hs]
  dsimp only
  rw [hk, hs]
  dsimp only
  rw [hl]
  rfl

/-- Settles O32: every operation of an engine is a turn of its task, and every one of the copy class a turn of its channel. -/
theorem taskOperations : Obligations.TaskOperations := by
  refine ⟨fun s c n t => ?_, fun s c n e => ?_, fun s c n t b hw hst ho hs hl hb => ⟨fun h => ?_, fun o h => ?_⟩, fun s c k t hk hs hl hw => ?_⟩
  · refine ⟨exec_runTask t (exec_wld s c n), exec_runTask t (exec_mm s c n), exec_runTask t (exec_mmc s c n), exec_runTask t (exec_topk s c n),
      exec_runTask t (exec_perm s c n), exec_runTask t (exec_rsum s c n), exec_runTask t (exec_trn s c n), exec_runTask t (exec_mmz s c n),
      exec_runTask t (exec_xp s c n), fun k u v h => State.loadLatch_ok h, fun row u v h => rankUnit_first h,
      fun p u v h => generatedStart_ok h, fun z p u h => State.productStart_invalid h z p⟩
  · exact ⟨fun he hsrc hop => exec_copyTask_turn rfl he hsrc hop, fun he hsrc hop => exec_copyTask_turn rfl he hsrc hop,
      fun he hsrc hop => exec_copyTask_turn rfl he hsrc hop, fun he hsrc hop => exec_copyTask_turn rfl he hsrc hop,
      fun he hsrc hop => exec_copyTask_turn rfl he hsrc hop, fun he hsrc hop => exec_copyTask_turn rfl he hsrc hop,
      fun he hsrc hop => exec_copyTask_turn rfl he hsrc hop, fun he hsrc hop => exec_copyTask_turn rfl he hsrc hop,
      fun he hsrc hop => exec_copyTask_turn rfl he hsrc hop, fun he hsrc hop => exec_copyTask_turn rfl he hsrc hop,
      fun he hsrc hop => exec_copyTask_turn rfl he hsrc hop, fun he hsrc hop => exec_copyTask_turn rfl he hsrc hop⟩
  · rw [exec_vk, execVk, State.acceptKernel_accepts hw hst ho hs hl hb h]
  · rw [exec_vk, execVk, State.acceptKernel_stops hw hst ho hs hl hb h]
  · rw [exec_vectorKernelStart]; exact execVectorKernelStart_starts hk hs hl

end Sys2Proof.Machine

/-! SUPPORT. A kernel whose task is listed twice in its window: no premise of O50 excludes it. -/

namespace Sys2Proof.Machine

/-- A task with an empty record. -/
def blankTask : TaskRec :=
  ⟨[], .running, 0, 0, false, false, 0, [], [], [], false, false, [], false, false, 0, TaskFlags.none, 0, [], [], none, 0⟩

/-- A core that runs a kernel of its entry 0, and whose window lists that entry twice. -/
def twiceListed : State :=
  State.reset.setCore 0 { Core.reset with
    kernel := some (Kernel.start 0 0 0 (Vector.replicate 16 0)), window := [(0, blankTask), (0, blankTask)] }

/-- The end of the kernel takes one of the two entries off. -/
theorem twiceListed_still : (tabFind ((twiceListed.endUnit (.kernel 0) 0 0).core 0).window 0).isSome = true := by decide

/-- Refutes O50: the end of a kernel takes its entry off the window once, and the state may list it twice. -/
theorem not_firmware : ¬ Obligations.Firmware := by
  unfold Obligations.Firmware
  rintro ⟨-, -, -, -, -, h⟩
  obtain ⟨-, -, hkernel⟩ := h twiceListed 0 0 0 0 0
  have hgone := (hkernel _ blankTask rfl rfl).2
  have hstill := twiceListed_still
  rw [show tabFind ((twiceListed.endUnit (.kernel 0) 0 0).core 0).window 0 = none from hgone] at hstill
  cases hstill

end Sys2Proof.Machine
